-- ==== Sys2Proof/Word.lean ====
section
/-! DEFINITION. The word types of the model. -/

namespace Sys2Proof

/-- A byte of memory. -/
abbrev Byte := BitVec 8

/-- A set-up register's value: 64 bits hold both register widths of R638. -/
abbrev Word := BitVec 64

end Sys2Proof
end

