-- ==== Sys2Proof/Machine/Sparse.lean ====
section
/-! DEFINITION. Sparse tables: a list of (key, value) pairs in one canonical form (keys strictly rising, no value equal to
what an unlisted key reads as). Registers, memory and every large table of the device are held in this form. -/

namespace Sys2Proof.Machine

/-- A table from numbers to values; an unlisted key reads as the table's default. -/
abbrev Sparse (α : Type) := List (Nat × α)

/-- Reads key `k`; `d` says what an unlisted key reads as. -/
def Sparse.get {α : Type} (d : Nat → α) (k : Nat) : Sparse α → α
  | [] => d k
  | (k', v) :: m => if k = k' then v else if k < k' then d k else Sparse.get d k m

/-- Writes `v` at key `k` and keeps the canonical form: writing the default removes the entry. -/
def Sparse.put {α : Type} [DecidableEq α] (d : Nat → α) (k : Nat) (v : α) : Sparse α → Sparse α
  | [] => if v = d k then [] else [(k, v)]
  | (k', v') :: m =>
    if k < k' then (if v = d k then (k', v') :: m else (k, v) :: (k', v') :: m)
    else if k = k' then (if v = d k then m else (k, v) :: m)
    else (k', v') :: Sparse.put d k v m

/-- Every key of the table lies above `b`. -/
def Sparse.above {α : Type} (b : Nat) : Sparse α → Bool
  | [] => true
  | (k, _) :: _ => decide (b < k)

/-- The canonical form: keys strictly rising and no entry equal to the default. -/
def Sparse.wf {α : Type} [DecidableEq α] (d : Nat → α) : Sparse α → Bool
  | [] => true
  | (k, v) :: m => Sparse.above k m && decide (v ≠ d k) && Sparse.wf d m

/-- Drops every entry whose key satisfies `p`, so that it reads as the default. -/
def Sparse.drop {α : Type} (p : Nat → Bool) (m : Sparse α) : Sparse α := m.filter (fun e => !p e.1)

/-- Writes `v` at each key of the list. -/
def Sparse.putAll {α : Type} [DecidableEq α] (d : Nat → α) (ks : List Nat) (v : α) (m : Sparse α) : Sparse α :=
  ks.foldl (fun a k => Sparse.put d k v a) m

end Sys2Proof.Machine
end

