-- ==== Sys2Proof/Units.lean ====
section
/-! DEFINITION. The names shared by commands and state: who acts, job classes, the units that hold allowance. -/

namespace Sys2Proof

/-- Who acts on the device, by the origin identifiers of the manual (R525, R637). `device` is 0x00, the device itself. -/
inductive Origin where
  | device
  | selvage
  | hypervisor
  | safety
  | vi (v : Nat)
  | usb4
  | debug
  | causeway
  deriving DecidableEq, Repr

/-- The 8-bit origin identifier. -/
def Origin.code : Origin → Nat
  | .device => 0x00
  | .selvage => 0x01
  | .hypervisor => 0x02
  | .safety => 0x08
  | .vi v => 0x10 + v % 64
  | .usb4 => 0x50
  | .debug => 0x60
  | .causeway => 0x70

/-- The three classes of rings and of allowance requests (R72, R253). -/
inductive Cls where
  | lc
  | test
  | be
  deriving DecidableEq, Repr

/-- The class's index in the register arrays of R91 and R287. -/
def Cls.index : Cls → Nat
  | .lc => 0
  | .test => 1
  | .be => 2

/-- The units that ask the allowance controller for a grant (R67 to R69, R284, R309, R440). -/
inductive Holder where
  | core (n : Nat)
  | appCore (n : Nat)
  | appCluster (n : Nat)
  | safetyPair (n : Nat)
  | selvage
  | channel (n : Nat)
  | fusion
  | pipe (n : Nat)
  | decoder
  | encoder
  | causewayPort (n : Nat)
  | bridge
  | ufs
  | refresh
  | jobEngine
  | sealChecker (n : Nat)
  | loader (entry : Nat)
  | copyBack (n : Nat)
  | comparator (n : Nat)
  | spare (n : Nat)
  | domain (n : Nat)
  deriving DecidableEq, Repr

/-- What a unit says when it asks for its allowance: itself, and the generation of the lease under which it asks (R66, R80). -/
structure AlwAsk where
  holder : Holder
  gen    : Nat
  deriving DecidableEq, Repr

/-- One request to the allowance controller: the unit, its class, the virtual instance whose quota it draws on, its charges
in mA (full charge on either rail, idle charge on the core rail), the lease it belongs to and the instant it was made (R72 to R74,
R80). With `lift` it asks for what pacing takes from a grant held already (R314). -/
structure AlwReq where
  holder : Holder
  cls    : Cls
  vi     : Option Nat
  coreMa : Nat
  dramMa : Nat
  idleMa : Nat
  gen    : Nat
  made   : Nat
  lift   : Bool := false
  deriving DecidableEq, Repr

end Sys2Proof
end

