-- ==== Sys2Proof/Operand.lean ====
section
/-! DEFINITION. The records that commands carry as operands: what a read from outside the device returned, what is polled, the
operand forms of the array core's instructions, whose encoding the manual leaves to the instruction set reference. -/

namespace Sys2Proof

/-- What came of one read outside the package: the bytes (clear, as the bridge delivers them), a lease that expired (R567), an
error completion, poisoned completion data, a metadata tag that failed (R572). -/
inductive FarData where
  | ok (bytes : List Byte)
  | expired
  | error
  | poisoned
  | tagFail
  deriving DecidableEq, Repr

/-- One read of host memory or of another device's memory: the global address, and what came of it; all but bytes are delivered
as poison (R567, R572, R626). -/
structure FarRead where
  addr : Nat
  data : FarData
  deriving DecidableEq, Repr

/-- The operands of a host request to a BAR (R562, R572): the function, write or read, the offset in BAR0, its bytes (4 or 8), the
value written; `bad` marks a poisoned or malformed request. -/
structure BarReq where
  fn     : Nat
  write  : Bool
  offset : Nat
  bytes  : Nat
  value  : Nat
  bad    : Bool
  deriving DecidableEq, Repr

/-- Which beat is read (R95, R101, R108): that of a DRAM address, or for the scrubber, which reads every physical channel, one by channel,
bank, row and beat. -/
inductive BeatAt where
  | addr (a : Nat)
  | phys (chan bank row beat : Nat)
  deriving DecidableEq, Repr

/-- What a doorbell belongs to: a ring (R259), the source queue of a channel (R358) or the encoder's output queue (R655). -/
inductive PollUnit where
  | ring (n : Nat)
  | source (c : Nat)
  | output
  deriving DecidableEq, Repr

/-- A band of one sample of a bound tensor: rows and columns from (y, x), which may lie outside the tensor, a run of channels, and the
stride between its pixels in both directions, the drain stride (R219, R221, R225). -/
structure Band where
  binding : Nat
  sample  : Nat
  y       : Int
  x       : Int
  rows    : Nat
  cols    : Nat
  chan    : Nat
  chans   : Nat
  step    : Nat
  deriving DecidableEq, Repr

/-- What a FILL reads: plain bytes from a global address, a band of a tensor, blocks of a PACKED tensor, plain bytes or PACKED
blocks of the pattern's own image (R195). -/
inductive FillSrc where
  | raw (addr len : Nat)
  | band (b : Band)
  | blocks (binding first count : Nat)
  | image (off len : Nat)
  | imageBlocks (off first count : Nat)
  deriving DecidableEq, Repr

/-- The operand pairs of the matrix unit, stationary and streamed FORMAT codes of R158 (R138, R182). -/
structure MatPair where
  wFmt : Nat
  xFmt : Nat
  deriving DecidableEq, Repr

/-- The requantisation that MDRAIN may fuse: vector registers with the FP32 multipliers and biases of the 32 lanes, and the FP32
code of the scale (R146, R185). -/
structure Requant where
  mulReg  : Nat
  biasReg : Nat
  scale   : Nat
  deriving DecidableEq, Repr

/-- The vector unit's operations on 64 lanes (R187): register operands first, FORMAT codes after them. -/
inductive VecOp where
  | add (a b : Nat)
  | mul (a b : Nat)
  | fma (a b c : Nat)
  | cmpLt (a b : Nat)
  | cmpEq (a b : Nat)
  | select (m a b : Nat)
  | min (a b : Nat)
  | max (a b : Nat)
  | iadd (a b : Nat)
  | isub (a b : Nat)
  | imul (a b : Nat)
  | imadd (a b c : Nat)
  | imin (a b : Nat)
  | imax (a b : Nat)
  | iand (a b : Nat)
  | ior (a b : Nat)
  | ixor (a b : Nat)
  | ishl (a b : Nat)
  | ishr (a b : Nat)
  | toFloat (a : Nat)
  | toInt (a : Nat)
  | convert (a fmt : Nat)
  | quantise (a fmt scales : Nat)
  | permute (a idx : Nat)
  | sumLanes (a : Nat)
  | maxLanes (a : Nat)
  | recip (a : Nat)
  | sqrt (a : Nat)
  | rsqrt (a : Nat)
  | exp (a : Nat)
  | expSub (a b : Nat)
  | exp2 (a : Nat)
  | log (a : Nat)
  | tanh (a : Nat)
  | sigmoid (a : Nat)
  deriving DecidableEq, Repr

/-- An error that the code over the scratchpad, registers or tile buffers finds in an access: the bank and row of the scratchpad
word, none for a register, and whether two bits are wrong (R191). -/
structure SpErr where
  row    : Option (Nat × Nat)
  double : Bool
  deriving DecidableEq, Repr

/-- The core that an instruction runs on, and the error that its accesses to its scratchpad and registers meet, if one (R191). -/
structure CoreAt where
  core : Nat
  err  : Option SpErr
  deriving DecidableEq, Repr

/-- What a decoder makes of a coded picture: the pictures it references, and its lines unless it cannot be decoded (R361). -/
structure Decoded where
  refs : List Nat
  pic  : Option (List (List Byte))
  deriving DecidableEq, Repr

/-- Who may take a secure lease on a power domain (R523): the secure world or an enclave on an application core, or a safety
pair. -/
inductive SecHolder where
  | world (core : Nat)
  | enclave (core id : Nat)
  | pair (p : Nat)
  deriving DecidableEq, Repr

/-- What a debugger may be attached to (R443, R524): the main copy of a job, a safety pair, an application core. -/
inductive DebugTarget where
  | job (ring seq : Nat)
  | pair (p : Nat)
  | appCore (n : Nat)
  deriving DecidableEq, Repr

/-- Core state that a debugger reads on a core of the main copy (R444): a scratchpad byte, a lane of a vector register or of an
accumulator entry, a byte of the active tile half, the sequencer's position; on a pair or an application core its `time` counter (R39). -/
inductive DebugRead where
  | scratchpad (a : Nat)
  | vector (v lane : Nat)
  | accumulator (e lane : Nat)
  | tile (i : Nat)
  | position
  | timeCounter
  deriving DecidableEq, Repr

/-- What a debugger writes (R444): an element of a bound tensor by its coordinates, or state of the core itself. -/
inductive DebugWrite where
  | element (binding n h w c code : Nat)
  | coreState
  deriving DecidableEq, Repr

/-- An eyelet marker as a gateway instruction finds it at its target (R519): world, enclave tag, RESUME. -/
structure Eyelet where
  secure  : Bool
  tag     : Nat
  resume  : Bool
  deriving DecidableEq, Repr

/-- A unit that fails injection at start (R449, R450). -/
inductive InjUnit where
  | path (source : Nat)
  | decoder (chan : Nat)
  | comparator (k : Nat)
  | sealChecker (k : Nat)
  | coreCode (phys : Nat)
  | lockstep (p : Nat)
  | spCrc (p : Nat)
  | timer (k : Nat)
  deriving DecidableEq, Repr

/-- What Selvage reads and finds at a start (R497): whether the helper data regenerate the root key, the bytes of image slots of
xSPI NOR that the device has not itself written (key 2 × kind + slot), whether RPMB is read and authenticated, the units that fail
injection, whether journal records verify. -/
structure BootRead where
  puf    : Bool
  flash  : List (Nat × List Byte)
  rpmb   : Bool
  failed : List InjUnit
  jrnl   : Bool
  deriving DecidableEq, Repr

/-- A CAN frame (R581, R586): FMT 0 classical, 1 FD, 2 XL; identifier and its length; remote, bit rate switch, error state and
security flags; SDT, VCID and acceptance field of CAN XL; the data. -/
structure CanFrame where
  fmt  : Nat
  ide  : Bool
  id   : Nat
  rtr  : Bool
  brs  : Bool
  esi  : Bool
  sec  : Bool
  sdt  : Nat
  vcid : Nat
  af   : Nat
  data : List Byte
  deriving DecidableEq, Repr

/-- A frame queue (R605): queue k of CAN controller n, 0 to 3 transmit and 4 to 5 receive; queue k of switch port 6, 0 to 7 transmit
and 8 to 15 receive. -/
inductive FrameQ where
  | can (n k : Nat)
  | tsn (k : Nat)
  deriving DecidableEq, Repr

/-- A bus error as ISO 11898-1 counts it (R583): a transmit error, a receive error, a receive error that counts eightfold. -/
inductive CanErr where
  | transmit
  | receive
  | receiveSevere
  deriving DecidableEq, Repr

/-- A DMA stream (R481): of an intake channel, of the loader for a hot-set entry, of a copy-back engine, a remote read by its tag. -/
inductive DmaStream where
  | channel (n : Nat)
  | loader (entry : Nat)
  | copyBack (k : Nat)
  | remote (tag : Nat)
  deriving DecidableEq, Repr

/-- What a branch or loop instruction decided: fall through, or go on at an instruction index. -/
abbrev BranchTo := Option Nat

end Sys2Proof
end

