-- ==== Sys2Proof/Machine/Types.lean ====
section
/-! DEFINITION. The records that the device's engines hold: tack entries, allowance, memory bookkeeping, jobs, rings, cores,
the hot set. Plain data; every name is the manual's. -/

namespace Sys2Proof.Machine

/-- What the last access or command answered to its issuer. -/
inductive Resp where
  | none
  | value (w : Nat)
  /-- Refused under R98 or R31: an error response. -/
  | refused
  /-- The precise access fault of an application core or safety pair: an access refused under R98 or R31, or a load that meets poison
  (R98, R106). -/
  | accessFault
  | poison
  /-- A bus answer of Unsupported Request or a discarded request of the bridge (R572). -/
  | unsupported
  | bytes (bs : List Byte)
  deriving DecidableEq, Repr

/-! ### The device as a whole -/

/-- A Causeway frame: the header of R619 (SEQ, ACK and IVC included), its payload in clear, and for SEAL_DATA the 32 B
extension of R629. -/
structure Frame where
  type    : Nat
  flags   : Nat := 0
  tenant  : Nat := 2
  src     : Nat := 0
  dst     : Nat := 0
  length  : Nat := 0
  seq     : Nat := 0
  ack     : Nat := 0
  arg     : Nat := 0
  tag     : Nat := 0
  op      : Nat := 0
  epoch   : Nat := 0
  knot    : Nat := 0
  ivc     : Nat := 0
  ext     : List Byte := []
  payload : List Byte := []
  deriving DecidableEq, Repr

/-- A message that leaves the device. -/
inductive Emit where
  /-- The interrupt of event queue `q`, with its vector (R645). -/
  | evq (q vec : Nat)
  /-- The interrupt of a ring of virtual instance `v` (R275). -/
  | ringIrq (v vec : Nat)
  /-- A posted write that the bridge sends for a function to a host bus address (R569); the last part says whether the page is
  sealed under a data key (R565). -/
  | hostWrite (fn addr : Nat) (bytes : List Byte) (isSealed : Bool)
  /-- The metadata record of a sealed page goes to its host bus address (R509). -/
  | hostMeta (fn addr : Nat) (record : List Byte)
  /-- A Causeway frame leaves a port (R618, R623). -/
  | cwyFrame (port : Nat) (f : Frame)
  /-- A CAN controller has sent a frame (R584, R587). -/
  | canFrame (ctrl : Nat) (f : CanFrame)
  /-- An Ethernet frame leaves a port of the switch, without its frame check sequence (R590, R591). -/
  | ethFrame (port : Nat) (bytes : List Byte)
  /-- The active pixels of a frame that a display pipe has scanned out, row by row, 10 bits each of R, G and B (R406, R407). -/
  | picture (pipe frame : Nat) (rows : List (List Nat))
  /-- A frame that a TDM port transmits: 16 slots of 32 bits (R30, R333). -/
  | tdmFrame (port : Nat) (slots : List Nat)
  /-- A record of the trace unit (R446). -/
  | trace (record : List Byte)
  deriving DecidableEq, Repr

/-- Reset, supplies, pins and rims. `up` is 1 between reset release and the next entry into reset (R670, R671); `rimRaised`
lists the stopped rims whose RIM_STOPPED has been raised (R31); `rateRaised` says that RATE_LOW has been raised (R27); `slips` holds the
slip counters of the rim domains (R30). -/
structure Sys where
  up         : Bool := false
  resetN     : Bool := false
  pwrok      : Bool := false
  coreLow    : Bool := false
  dramLow    : Bool := false
  tripped    : Bool := false
  alive      : Bool := false
  rimRaised  : List Nat := []
  rateRaised : Bool := false
  slips      : Sparse Nat := []
  deriving DecidableEq, Repr

/-- The audit log beside its registers: the CHAIN of the last entry, whether AUDIT_NEAR was raised for this crossing, lost
entries not yet recorded (R526, R527). -/
structure Audit where
  chain : BitVec 512 := 0
  near  : Bool := false
  lost  : Nat := 0
  deriving DecidableEq, Repr

/-! ### Tacks (R43 to R64) -/

/-- A waiting occurrence: since when, its wait limit, its programmed instant and the threshold it waits for; `past` marks one whose
instant was past when it was written (R49, R50, R53). -/
structure TackWait where
  since     : Nat
  limit     : Nat
  instant   : Nat
  threshold : Nat
  past      : Bool := false
  deriving DecidableEq, Repr

/-- One entry of the tack table (R64). `instant` is in units of 2^-16 ns: INSTANT and INSTANT_FRAC together;
`spent` says that a one-shot entry has had its occurrence. -/
structure Tack where
  instant   : Nat := 0
  period    : Nat := 0
  preValue  : Nat := 0
  enable    : Bool := false
  prot      : Bool := false
  skipMode  : Bool := false
  preEn     : Bool := false
  action    : Nat := 0
  target    : Nat := 0
  arg       : Nat := 0
  preStep   : Nat := 0
  preKnot   : Nat := 0
  waitLimit : Nat := 0
  owner     : Nat := 0
  spent     : Bool := false
  fires     : Nat := 0
  late      : Nat := 0
  skip      : Nat := 0
  timeout   : Nat := 0
  sat       : Nat := 0
  wait      : Option TackWait := none
  deriving DecidableEq, Repr

/-- The actions that the engine has issued in one tick: the tick's device time, how many, the index of the last (R47). -/
structure TackTick where
  at_    : BitVec 96 := 0
  issued : Nat := 0
  last   : Nat := 0
  deriving DecidableEq, Repr

/-- An FSYNC pin: the end of the pulse in progress, and whether TIME_FSYNC_CFG_n has been written since reset (R56, R674). -/
structure FsyncPin where
  pulseEnd   : Option Nat := none
  configured : Bool := false
  deriving DecidableEq, Repr

/-! ### Current allowance (R65 to R81) -/

/-- A grant in force; `standing` grants are never paced or reclaimed (R70); a preemption request lifts pacing (R314). -/
structure Grant where
  req      : AlwReq
  standing : Bool := false
  lifted   : Bool := false
  deriving DecidableEq, Repr

/-- A rise of the core rail's charge in progress: the request whose charge ramps in (none for a level of restoration), and the
device time at which the ramp ends, in units of 2^-32 ns (R78). -/
structure Ramp where
  req  : Option AlwReq
  ends : Nat
  deriving DecidableEq, Repr

/-- The allowance controller. `fall` is the charge in mA that ramps were still taking down at device time `fallFrom` (R78). -/
structure Alw where
  waiting  : List AlwReq := []
  grants   : List Grant := []
  paceBe   : Nat := 0
  paceTest : Nat := 0
  ramp     : Option Ramp := none
  fall     : Nat := 0
  fallFrom : Nat := 0
  deriving DecidableEq, Repr

/-! ### Bonded memory (R95 to R127) -/

/-- A row in the corrected-error window: each entry of `errs` is (device time, symbols) (R109, R110). -/
structure RowTrack where
  chan  : Nat
  bank  : Nat
  row   : Nat
  first : Nat
  errs  : List (Nat × Nat)
  deriving DecidableEq, Repr

/-- A row of a channel and bank. -/
structure RowId where
  chan : Nat
  bank : Nat
  row  : Nat
  deriving DecidableEq, Repr

/-- An error record of R126, as its three words. -/
structure MemErr where
  w0 : Nat
  w1 : Nat
  w2 : Nat
  deriving DecidableEq, Repr

/-- An allocated line of the array cache (R196, R197, R199): its address in 64 B, the origin whose job or agent filled it, whether it
holds committed data that DRAM has not, and the hot-set entry that pins it. Pending lines are their jobs' (R115); a line that is neither
is invalid. -/
structure CacheLine where
  line   : Nat
  origin : Nat
  dirty  : Bool
  pin    : Option Nat
  deriving DecidableEq, Repr

/-- The bookkeeping of the memory stack beside the bytes themselves. `extents` are the 64 KiB home extents of committed
outputs that await copy-back, `places` their extents of the pool, in the same order (R117); `stageBase` and `stageSize` place the pool in force (R124). `sparesOut`
counts the spare rows taken in bank 16 × channel + bank; `replacing` lists the rows being copied to a spare (R475); `passRuns` says
that a scrub pass has outlasted its period, and `scrubFrom` is the device time at which the period began (R108). -/
structure MemStack where
  tracked   : List RowTrack := []
  errq      : List MemErr := []
  sparesOut : Sparse Nat := []
  rowMap    : List (RowId × Nat) := []
  replacing : List (RowId × Nat) := []
  extents   : List Nat := []
  places    : List Nat := []
  stageBase : Nat := 0xFE0000000
  stageSize : Nat := 4
  scrubPass : Nat := 0
  passRuns  : Bool := false
  scrubFrom : Nat := 0
  cache     : List CacheLine := []
  deriving DecidableEq, Repr

/-! ### Error reports (R456 to R461) -/

/-- The reports of one source for one unit, newest first, as far as a window can need them (R457). -/
structure SrcWindow where
  src   : Nat
  unit  : Nat
  times : List Nat
  deriving DecidableEq, Repr

/-- The SAFE block beside its registers: source windows, the end of the least assertion time of the pins (R461), whether
injection has passed since reset release (R459), whether a failure at start keeps them at the error level (R498). -/
structure Safe where
  windows  : List SrcWindow := []
  minEnd   : Nat := 0
  injected : Bool := false
  blocked  : Bool := false
  swCode   : Nat := 0
  deriving DecidableEq, Repr

/-! ### The host bridge (R561 to R580) -/

/-- A window mapping entry (R578). -/
structure MapEntry where
  en    : Bool := false
  data  : Bool := false
  pf    : Bool := false
  side  : Bool := false
  func  : Nat := 0
  owner : Nat := 0
  host  : Nat := 0
  metaBase : Nat := 0
  deriving DecidableEq, Repr

/-- A posted write that waits in the bridge: function, window address (0 for a message), host bus address, bytes; for a sealed one the
tenant and EPOCH of its data key and its granule's metadata base in 4 KiB units. -/
structure Posted where
  fn       : Nat
  addr     : Nat
  host     : Nat
  bytes    : List Byte
  isSealed : Bool
  owner    : Nat := 0
  epoch    : Nat := 0
  metaBase : Nat := 0
  deriving DecidableEq, Repr

/-- What a held read serves: the fill on a tag of a core for a job, named with the generation of its ring; a seal checker. -/
inductive ReadFor where
  | fill (core tag ring seq gen : Nat)
  | checker (k : Nat)
  deriving DecidableEq, Repr

/-- A held read: its tag and the tag's generation, function, issuer, window address, length, the end of its lease (R566). -/
structure HeldRead where
  tag    : Nat
  gen    : Nat
  fn     : Nat
  origin : Nat
  addr   : Nat
  len    : Nat
  expiry : Nat
  use    : ReadFor
  deriving DecidableEq, Repr

/-- An MSI-X vector of a function (R571). -/
structure MsixVec where
  addr    : Nat := 0
  data    : Nat := 0
  masked  : Bool := true
  waiting : Bool := false
  deriving DecidableEq, Repr

/-- A prefetched page: page number in the window, issuer, instant of arrival (R574). -/
structure PfPage where
  page    : Nat
  issuer  : Nat
  arrived : Nat
  deriving DecidableEq, Repr

/-- The bridge beside its registers. `masters` lists the functions on which the host has enabled bus mastering; `tagGen` holds
the generation of each of the 512 tags; `msix` is keyed by 64 × function + vector (function 0 physical, v + 1 virtual); `lastPage` holds, for each issuer, one more than the last page read;
`counters` holds, for each page of the window, one more than the write counter that the bridge last gave it (R509). -/
structure Bridge where
  masters  : List Nat := []
  held     : List HeldRead := []
  tagGen   : Sparse Nat := []
  posted   : List Posted := []
  errq     : List MemErr := []
  msix     : Sparse MsixVec := []
  fetched  : List PfPage := []
  lastPage : Sparse Nat := []
  map      : Sparse MapEntry := []
  counters : Sparse Nat := []
  deriving DecidableEq, Repr

/-! ### Rings, jobs and knots (R251 to R284) -/

/-- One ring beside its registers: HEAD and RETIRED of the status word, the fetched raw descriptors not yet admitted, the
sequence numbers above RETIRED whose records are written, the polling state of R259 and the instant its last interval ended. -/
structure Ring where
  head     : Nat := 0
  retired  : Nat := 0
  fetched  : List (Nat × List Nat) := []
  written  : List Nat := []
  polling  : Bool := true
  polledAt : Nat := 0
  lastTail : Nat := 0
  retry    : Bool := false
  deriving DecidableEq, Repr

/-- A pattern header of R200. -/
structure Pattern where
  addr      : Nat := 0
  graphics  : Bool := false
  cores     : Nat := 1
  cls       : Nat := 0
  level     : Nat := 1
  transform : Nat := 0
  maxSpan   : Nat := 0
  cheapCnt  : Nat := 0
  liveMax   : Nat := 0
  steps     : Nat := 0
  codeOff   : Nat := 0
  cheapOff  : Nat := 0
  tensorOff : Nat := 0
  residency : Nat := 0
  deriving DecidableEq, Repr

/-- A bound tensor: its role in the pattern (R263) and its descriptor (R262). -/
structure Tensor where
  descAddr : Nat := 0
  role     : Nat := 0
  addr     : Nat := 0
  n        : Nat := 0
  h        : Nat := 0
  w        : Nat := 0
  c        : Nat := 0
  fmt      : Nat := 0
  trim     : Nat := 0
  packed   : Bool := false
  zmap     : Bool := false
  isSealed : Bool := false
  pitch    : Nat := 0
  aux      : Nat := 0
  maxAge   : Nat := 0
  scale    : Nat := 0
  zmapAddr : Nat := 0
  sealAddr : Nat := 0
  tol      : Nat := 0
  deriving DecidableEq, Repr

/-- The stages of R266; `cleared` has left Held and Waiting and waits for its turn in the ring; `preempting` is Running with YIELD set, `saved` is Ready with a saved state (R310), `halted` waits for
the end of a flush (R317), `faulted` is a faulting job (R316). -/
inductive Stage where
  | held
  | waiting
  | cleared
  | ready
  | placed
  | running
  | preempting
  | checking
  | halted
  | faulted
  deriving DecidableEq, Repr

/-- A panel reservation: the cores of both copies, its generation and its expiry (R299). -/
structure Reservation where
  cores   : List Nat
  ckCores : List Nat
  gen     : Nat
  expiry  : Nat
  entry   : Nat
  deriving DecidableEq, Repr

/-- The seal verdict of one sealed input's sample (R270): binding, sample, 0 good, 1 CRC, 2 age, 3 void. -/
structure SealVerdict where
  binding : Nat
  sample  : Nat
  verdict : Nat
  deriving DecidableEq, Repr

/-! ### Cores (R179 to R213) -/

/-- The kind an accumulator entry took from its first MSTEP after a clear (R185). -/
inductive AccKind where
  | cleared
  | int32
  | fp32
  deriving DecidableEq, Repr

/-- One accumulator entry: its kind and 32 lanes of 32 bits. -/
structure AccEntry where
  kind  : AccKind := .cleared
  lanes : List Nat := []
  deriving DecidableEq, Repr

/-- One half of the tile buffer: the stationary tile, its MX scales, and what the tags of its blocks say: all Z, some S (R170). -/
structure TileHalf where
  bytes   : List Byte := []
  scales  : List Byte := []
  zero    : Bool := false
  special : Bool := false
  deriving DecidableEq, Repr

/-- What a transfer in flight does (R195): a fill into the scratchpad at `sp`, MX scales at `sc`; a drain of a band from there;
an exchange into the scratchpad of another core. -/
inductive Move where
  | fill (src : FillSrc) (sp sc : Nat)
  | drain (band : Band) (sp sc : Nat)
  | xchg (dest dst sp len : Nat)
  deriving DecidableEq, Repr

/-- A transfer in flight on one of the 16 tags (R195). `stalled` waits for a staging extent (R120); `awaits` counts reads from
outside the package that have not been answered. -/
structure Transfer where
  tag     : Nat
  move    : Move
  stalled : Bool := false
  awaits  : Nat := 0
  deriving DecidableEq, Repr

/-- An inbound queue of queue mode, in the core's scratchpad from `base` (R281). -/
structure InQueue where
  base      : Nat
  entrySize : Nat
  capacity  : Nat
  head      : Nat := 0
  count     : Nat := 0
  deriving DecidableEq, Repr

/-- A decoded detection candidate (R241 to R245): score, box edges as FP32 codes, candidate index, class, location, whether it
was clipped, and its fate: 0 open, 1 kept, 2 suppressed or dropped. -/
structure Cand where
  score   : Nat
  index   : Nat
  cls     : Nat
  loc     : Nat
  x0      : Nat
  y0      : Nat
  x1      : Nat
  y1      : Nat
  clipped : Bool
  fate    : Nat := 0
  deriving DecidableEq, Repr

/-- What a candidate area carries between ASSIST instructions (R242, R245): the manual fixes its size and not its layout. -/
structure Assist where
  cands  : List Cand := []
  above  : Nat := 0
  capped : Nat := 0
  degen  : Nat := 0
  rounds : Nat := 0
  deriving DecidableEq, Repr

/-- The state of one core beside ARY_CORE_n: tile buffer halves, accumulator file, vector registers, scratchpad, transfers,
block tags (R170), residency tag, span count, watchdog, sequencer position, inbound queues. -/
structure Core where
  half0    : TileHalf := {}
  half1    : TileHalf := {}
  active1  : Bool := false
  acc      : Sparse AccEntry := []
  vreg     : Sparse (List Nat) := []
  sp       : Sparse Byte := []
  tags     : List Transfer := []
  blockTag : Sparse Nat := []
  resid    : Nat := 0
  resident : Bool := false
  span     : Nat := 0
  wdogEnd  : Option Nat := none
  pc       : Nat := 0
  atCheap  : Bool := false
  since    : Nat := 0
  job      : Option (Nat × Nat) := none
  checker  : Bool := false
  queues   : List InQueue := []
  waitTag  : Option Nat := none
  waitPush : Bool := false
  halted   : Bool := false
  switchTo : Nat := 0
  scrubs   : Bool := false
  assist   : Sparse (Option Assist) := []
  tile     : Option (Nat × Nat) := none
  test     : Option Nat := none
  fillSp   : Option Nat := none
  fillRegs : Option Nat := none
  withdrawn : Bool := false
  retested : Option Nat := none
  cheapCount : Nat := 0
  cheapPc  : Nat := 0
  held     : Bool := false
  stepOk   : Bool := false
  wdogLeft : Option Nat := none
  deriving DecidableEq, Repr

/-- The order state of a shared tile in a panel (R400 to R402): the job, the tile, the cores that share it, and for each 8 × 8 block
the primitives that have not yet released it, in order. -/
structure SharedTile where
  panel : Nat
  ring  : Nat
  seq   : Nat
  x     : Nat
  y     : Nat
  cores : List Nat
  order : List (List Nat)
  deriving DecidableEq, Repr

/-- A saved core state (R204, R206): the core's position within the copy, the live pages, registers and entries of a live set
(none for a whole state), and the core as it stood. -/
structure CoreSave where
  position : Nat
  checker  : Bool
  live     : Option (List Nat × List Nat × List Nat)
  core     : Core
  deriving DecidableEq, Repr

/-- A region record list waiting for its channel's pending set (R248, R249, R354). -/
structure RegionOut where
  channel : Nat
  bytes   : List Byte
  deriving DecidableEq, Repr

/-- A descriptor between its fetch and its completion record; `kind` is 0 KNOT, 1 JOB, 2 CANCEL (R260). `forced` waits for its transfers
before it saves its whole state (R206); `noPreempt` was refused a preemption for want of save slots (R311). -/
structure Job where
  ring      : Nat
  seq       : Nat
  kind      : Nat := 1
  desc      : List Nat := []
  gen       : Nat := 0
  stage     : Stage := .ready
  entered   : Bool := false
  tackTime  : Option Nat := none
  readyAt   : Nat := 0
  leaseEnd  : Nat := 0
  waitEnd   : Nat := 0
  pat       : Pattern := {}
  entry     : Nat := 0
  tens      : List Tensor := []
  window    : List (Nat × Nat) := []
  resv      : Option Reservation := none
  cores     : List Nat := []
  ckCores   : List Nat := []
  granted   : List Nat := []
  pend      : Sparse (Option Byte) := []
  pendCk    : Sparse (Option Byte) := []
  extents   : List Nat := []
  places    : List Nat := []
  wrote     : List Nat := []
  voided    : Bool := false
  voidedCk  : Bool := false
  inVoid    : Bool := false
  verdict   : Option Nat := none
  compared  : Bool := false
  seals     : List SealVerdict := []
  voidMask  : Nat := 0
  lineOwner : Sparse Nat := []
  lineOwnerCk : Sparse Nat := []
  requeues  : Nat := 0
  preempts  : Nat := 0
  withdrawn : Option (Nat × Nat) := none
  fault     : Option (Nat × Nat) := none
  saves     : List CoreSave := []
  slots     : Nat := 0
  stopped   : List Nat := []
  preemptAt : Nat := 0
  regions   : List RegionOut := []
  nsRun     : Nat := 0
  freezing  : Bool := false
  debugged  : Bool := false
  forced    : Bool := false
  noPreempt : Bool := false
  tileAt    : Option (Nat × Nat) := none
  splits    : List (Nat × Nat) := []
  deriving DecidableEq, Repr

/-! ### Hot set (R302 to R309) -/

/-- A hot-set directory entry (R327): STATE 0 free, 1 registered, 2 loading, 3 resident; `granules` are the 2 MiB granules of
the region a copy occupies. -/
structure HotEntry where
  key      : Nat := 0
  kind     : Nat := 0
  lun      : Nat := 0
  source   : Nat := 0
  owner    : Nat := 0
  pin      : Bool := false
  cpin     : Bool := false
  state    : Nat := 0
  length   : Nat := 0
  lastUse  : Nat := 0
  loads    : Nat := 0
  granules : List Nat := []
  waitRoom : Bool := false
  deriving DecidableEq, Repr

/-- The array flush in progress (R316 to R320). `before` holds the cores that ran a job when it started, with that job, for the faults
that join it. -/
structure Flush where
  start    : Nat
  origin   : Nat
  cause    : Nat
  core     : Nat
  before   : List (Nat × Core × Job) := []
  deriving DecidableEq, Repr

/-- The scheduler's own state: fair counters V[v][c] at key 3 × v + c, the gathering of R300, the save pool and hot-set
region in force (R324), free save slots, the FAULT completions of each instance inside its window (R321). -/
structure Sched where
  fair      : Sparse Nat := []
  gather    : Option (Nat × Nat) := none
  saveBase  : Nat := 0xFC0000000
  saveSize  : Nat := 8
  hotBase   : Nat := 0
  hotSize   : Nat := 0
  faults    : List (Nat × Nat) := []
  flush     : Option Flush := none
  resvGen   : Nat := 0
  deriving DecidableEq, Repr

end Sys2Proof.Machine
end

