-- ==== Sys2Proof/Machine/Engines.lean ====
section
/-! DEFINITION. The records of the Causeway engine, the seal checkers and Selvage's key slots, as plain data. -/

namespace Sys2Proof.Machine

/-! ### Causeway (R616 to R635) -/

/-- A frame that the sender holds until it is acknowledged; `sent` is false while its link key is being derived. -/
structure Held where
  frame : Frame
  sent  : Bool
  deriving DecidableEq, Repr

/-- A peer table entry with the state of its pair (R621 to R624). STATE: 0 free, 1 down, 2 keying, 3 UP, 4 LOST, 5 REJECTED. -/
structure Peer where
  device  : Nat := 0
  mac     : Nat := 0
  ports   : Nat := 0
  direct  : Bool := false
  keyId   : List Byte := []
  state   : Nat := 0
  seq     : Nat := 0
  expect  : Nat := 0
  ivc     : Nat := 0
  unacked : List Held := []
  backlog : List Frame := []
  retries : Nat := 0
  moved   : Nat := 0
  sentAt  : Nat := 0
  heardAt : Nat := 0
  ackDue  : Bool := false
  deriving DecidableEq, Repr

/-- A held remote read (R625, R626): its tag, peer entry, tenant, global address, length, how many bytes have come, the end of
its DMA stream lease, whether some of it came as poison. -/
structure RemoteRead where
  tag    : Nat
  peer   : Nat
  tenant : Nat
  addr   : Nat
  len    : Nat
  got    : Nat := 0
  expiry : Nat
  isSeal : Bool
  poison : Bool := false
  use    : ReadFor
  deriving DecidableEq, Repr

/-- The Causeway engine beside its registers: whether the configuration record has a CAUSEWAY section, the first port's MAC
address, the peers by index, held reads, tags taken, the link keys in the cache, least recently used first, as (tenant, peer), lanes found
bad as (port, lane), lanes whose change to lane 2 both ends have still to agree, the places of remote seals for whose age UNSYNC stands on either side (R630). -/
structure Cwy where
  hasSection : Bool := false
  mac        : Nat := 0
  nPeers     : Nat := 0
  peers      : Sparse Peer := []
  reads      : List RemoteRead := []
  nextTag    : Nat := 0
  keys       : List (Nat × Nat) := []
  badLanes   : List (Nat × Nat) := []
  changing   : List (Nat × Nat) := []
  unsync     : List Nat := []
  deriving DecidableEq, Repr

/-! ### Seal checkers (R270, R284) -/

/-- One sealed input being checked: the job, the binding, the checker that took it (of 4), whether its grant is held. -/
structure SealTask where
  ring    : Nat
  seq     : Nat
  binding : Nat
  checker : Option Nat := none
  granted : Bool := false
  deriving DecidableEq, Repr

/-! ### Darning (R470 to R478) -/

/-- A scratchpad row of a physical core. -/
structure SpRow where
  phys : Nat
  bank : Nat
  row  : Nat
  deriving DecidableEq, Repr

/-- The corrected errors of a scratchpad row inside its window (R191). -/
structure SpTrack where
  place : SpRow
  times : List Nat
  deriving DecidableEq, Repr

/-- The darning of a core in progress: logical core, spare, and whether both golden patterns wait to run (R473). -/
structure CoreDarn where
  logical : Nat
  spare   : Nat
  deriving DecidableEq, Repr

/-- A live copy of a channel: logical channel, old physical channel, spare (R474). -/
structure ChanCopy where
  logical : Nat
  old     : Nat
  spare   : Nat
  deriving DecidableEq, Repr

/-- Darning beside its registers: scratchpad rows tracked, spares used of each bank (key 64 × physical core + bank), lasting rows
that wait for their core, core darnings and channel copies in progress, physical channels that wait for a copy of their die,
physical channels that have failed, lanes in use on each port, units whose leases Selvage holds expired. -/
structure Darn where
  spTracks  : List SpTrack := []
  spUsed    : Sparse Nat := []
  spWait    : List SpRow := []
  cores     : List CoreDarn := []
  copies    : List ChanCopy := []
  chanWait  : List Nat := []
  badChans  : List Nat := []
  expired   : List Nat := []
  restoring : List Nat := []
  deriving DecidableEq, Repr

/-! ### The journal in xSPI NOR (R476 to R479) -/

/-- A journal record (R477): KIND, PHASE, SEQ, TIME, TARGET, SPARE and ARG. -/
structure JRec where
  kind   : Nat
  phase  : Nat
  seq    : Nat
  time   : Nat
  target : Nat
  spare  : Nat
  arg    : Nat := 0
  deriving DecidableEq, Repr

/-- A substitution in force, as an entry of the checkpoint's table (R478). -/
structure Subst where
  kind   : Nat
  target : Nat
  spare  : Nat
  deriving DecidableEq, Repr

/-- The journal: the records of the half in use, the records that its checkpoint's table takes beside them, the substitutions in
force, the next sequence number. It outlasts a reset. -/
structure Journal where
  recs   : List JRec := []
  tables : Nat := 0
  subs   : List Subst := []
  seq    : Nat := 0
  deriving DecidableEq, Repr

/-! ### Comparators (R437 to R440) -/

/-- A backstitched job that waits for or holds a comparator (of 8): when its later run ended, whether the grant is held. -/
structure CmpTask where
  ring    : Nat
  seq     : Nat
  since   : Nat
  unit    : Option Nat := none
  granted : Bool := false
  deriving DecidableEq, Repr

/-- The checkers' use: comparators and seal checkers taken out of use (R450, R453), the comparator next in rotation (R453). -/
structure Checkers where
  cmps     : List CmpTask := []
  badCmp   : List Nat := []
  badSeal  : List Nat := []
  rotation : Nat := 0
  deriving DecidableEq, Repr

/-! ### Self-test, safety pairs, leases of the top level (R441 to R454, R481 to R485) -/

/-- A self-test slot (R467). -/
structure StSlot where
  en    : Bool := false
  panel : Nat := 0
  mask  : Nat := 0
  span  : Nat := 157630
  last  : Nat := 0
  deriving DecidableEq, Repr

/-- An open self-test slot: the logical cores it asked for that have not yet ended their golden runs, and whether it has
started (R452). -/
structure StOpen where
  slot    : Nat
  cores   : List Nat
  started : Bool := false
  deriving DecidableEq, Repr

/-- A safety pair: whether it runs, whether a divergence or a debugger has halted it (R442, R445), instructions it stepped. -/
structure Pair where
  runs   : Bool := false
  halted : Bool := false
  debug  : Bool := false
  steps  : Nat := 0
  deriving DecidableEq, Repr

/-- The watch over the device: self-test slots by number and those open, logical cores due for a golden run without a slot
(R439, R454), cores whose missed coverage has been reported for a deadline, the safety pairs, secure leases (R523), pipes whose
safety-plane checker failed injection (R450), the ends of the root leases by unit (R483), the instant at which the hardware timer
runs out and that at which ALIVE was lost (R482), the last ALIVE edge (R485), panels being reset. -/
structure Watch where
  slots     : Sparse StSlot := []
  opened    : List StOpen := []
  due       : List Nat := []
  missed    : List (Nat × Nat) := []
  pairs     : Sparse Pair := []
  secLeases : List (Nat × SecHolder) := []
  badSp     : List Nat := []
  roots     : Sparse Nat := []
  hwEnd     : Nat := 0
  lostAt    : Option Nat := none
  edgeAt    : Nat := 0
  panels    : List Nat := []
  deriving DecidableEq, Repr

end Sys2Proof.Machine
end

