-- ==== Sys2Proof/Machine/Trust.lean ====
section
/-! DEFINITION. The records of Selvage: storage that outlasts a reset, the verified configuration record, tenants, worlds and
enclaves, debug, attestation, exports, images of instances. Plain data. -/

namespace Sys2Proof.Machine

/-- xSPI NOR and RPMB as Selvage keeps them (R494, R499): image slots that the device has written (key 2 × kind + slot), the active
slot of each kind in the boot control word, slots marked invalid, BOOT_COUNT, the FLOOR of each kind. It outlasts a reset. The two copies of
the boot control word are rewritten one after the other within one command (R494), so between commands they name the same slots. -/
structure Store where
  images  : Sparse (List Byte) := []
  active  : Sparse Nat := []
  invalid : List Nat := []
  boots   : Nat := 0
  floors  : Sparse Nat := []
  deriving DecidableEq, Repr

/-- The verified configuration record (R503): the integrator's key, image slots as (kind, slot, offset, size), the sections of
early view, debug and Causeway as bytes after their headers. -/
structure Record where
  key      : List Byte := []
  slots    : List (Nat × Nat × Nat × Nat) := []
  early    : Option (List Byte) := none
  debugSec : Option (List Byte) := none
  causeway : Option (List Byte) := none
  deriving DecidableEq, Repr

/-- A running image: the slot it runs from, its SVN and measurement (R507). -/
structure Running where
  slot : Nat := 0
  svn  : Nat := 0
  meas : Nat := 0
  deriving DecidableEq, Repr

/-- A tenant (R511, R531): STATE 0 none, 1 live, 2 removing, 3 GONE; confidential mode; whether its key came from a restored
image (R551). -/
structure Tenant where
  state    : Nat := 0
  conf     : Bool := false
  imported : Bool := false
  deriving DecidableEq, Repr

/-- The trap that a gateway instruction or an exit from an enclave leaves for the hart (R519, R520). -/
inductive HartTrap where
  | gatewayFault
  | illegal
  | access
  | pending
  deriving DecidableEq, Repr

/-- A return record of a gate (R519): where to resume, the caller's world. -/
structure GateRet where
  pc     : Nat
  secure : Bool
  deriving DecidableEq, Repr

/-- A hart of an application core as the gateway rules see it (R518): pc, registers (x1 to x31 at keys 1 to 31, floating-point
registers at keys 32 to 63), world, enclave (0 none), the stack of return records, newest first, the trap it takes next. -/
structure Hart where
  pc      : Nat := 0
  regs    : Sparse Nat := []
  secure  : Bool := false
  enclave : Nat := 0
  stack   : List GateRet := []
  trap    : Option HartTrap := none
  deriving DecidableEq, Repr

/-- A live enclave (R521): its world, its ranges as (base, bytes), its measurement, the contents of its save frame when occupied:
pc and registers (R520). -/
structure Enclave where
  secure : Bool := false
  ranges : List (Nat × Nat) := []
  meas   : Nat := 0
  frame  : Option (Nat × Sparse Nat) := none
  deriving DecidableEq, Repr

/-- An attestation report being written (R506): the requester's class, tenant, enclave, the nonce, the requester's public key where
a key is wrapped, where the report goes. -/
structure Report where
  origin  : Origin
  tenant  : Nat
  enclave : Nat
  nonce   : List Byte
  wrap    : Option (List Byte)
  out     : Nat
  deriving DecidableEq, Repr

/-- Selvage and the worlds: the stores, the record in force, running images by kind, images being staged and staged kinds, open
switches, tenants by origin, removals by origin, enclaves by tag and dirty tags, harts (key 64 × core + hart), debug targets in
scope and whether one was attached since start, the transfers to the host and reports in progress, whether RPMB was read. -/
structure Trust where
  store    : Store := {}
  record   : Option Record := none
  running  : Sparse Running := []
  staging  : List (Nat × List Byte) := []
  staged   : List Nat := []
  tenants  : Sparse Tenant := []
  removing : List Nat := []
  enclaves : Sparse Enclave := []
  dirty    : List Nat := []
  harts    : Sparse Hart := []
  attached : List DebugTarget := []
  debugged : Bool := false
  exporting : Option (Nat × Nat × Nat) := none
  reports  : List Report := []
  deriving DecidableEq, Repr

/-! ### Instance images (R547 to R551) -/

/-- One ring in an image: RING_DESC, RING_CPL, RING_DB, RING_CFG, HEAD, RETIRED, the last TAIL read. -/
structure RingImage where
  words    : List Nat
  head     : Nat
  retired  : Nat
  lastTail : Nat
  deriving DecidableEq, Repr

/-- The contents of a save image once its tag and header verify: source, peer, origin, freeze time; VI_CFG, VI_WIN words, ARY_SHARE,
KNOT_RANGE as base and count, KNOT_MIRROR; rings; jobs with remaining lease and wait times in place of their ends; fetched
descriptors; knot values; D0 to D2 of hot-set entries; the EPOCH of the key. -/
structure ViImage where
  device  : Nat
  peer    : Nat
  origin  : Nat
  time    : Nat
  cfg     : Nat
  wins    : List Nat
  share   : Nat
  base    : Nat
  count   : Nat
  mirror  : Nat
  rings   : List RingImage
  jobs    : List Job
  fetched : List (Nat × Nat × List Nat)
  knots   : List Nat
  hot     : List (List Nat)
  epoch   : Nat
  deriving DecidableEq, Repr

/-- A save in progress (R547): the instance, the image's place, the bytes of its fixed and job parts. -/
structure Saving where
  vi    : Nat
  place : Nat
  fixed : Nat
  job   : Nat
  deriving DecidableEq, Repr

/-- Instances beside their registers: when each was frozen (key v), saves in progress, restores in progress as instance and
sizes. -/
structure Insts where
  frozenAt  : Sparse Nat := []
  saving    : List Saving := []
  restoring : List (Nat × Nat × Nat) := []
  deriving DecidableEq, Repr

/-- What a command that a register write carries meets outside the device: what reads of memory outside returned, whether a journal record
verifies, whether the certificate of a SAVE checks, the image that a RESTORE finds. -/
structure WriteEnv where
  far  : List FarRead := []
  jrnl : Bool := true
  cert : Bool := true
  img  : Option ViImage := none
  deriving DecidableEq, Repr

end Sys2Proof.Machine
end

