-- ==== Sys2Proof/Syntax.lean ====
section
/-! DEFINITION. The commands of the block: one constructor per row of the table of operations and events. -/

namespace Sys2Proof

/-- The commands of the LFN-880, in the table's order. Each docstring names the row and its rule. -/
inductive Instr where
  /-- TACK_FIRE (R46). -/
  | tackFire (n : Nat)
  /-- TACK_LATE_FIRE (R49). -/
  | tackLateFire (n : Nat)
  /-- TACK_TIMEOUT (R50). -/
  | tackTimeout (n : Nat)
  /-- TACK_READ (R62). -/
  | tackRead (o : Origin) (n : Nat)
  /-- TACK_WRITE (R53). -/
  | tackWrite (o : Origin) (n : Nat)
  /-- TACK_DISABLE (R54). -/
  | tackDisable (o : Origin) (n : Nat)
  /-- TACK_CLEAR (R64). -/
  | tackClear (o : Origin) (n : Nat)
  /-- FSYNC_PULSE_END (R56). -/
  | fsyncPulseEnd (n : Nat)
  /-- FSYNC_CFG_WRITE (R56). -/
  | fsyncCfgWrite (o : Origin) (n : Nat) (value : Word)
  /-- TIME_NOW_LO_READ (R57). -/
  | timeNowLoRead (o : Origin)
  /-- TIME_RATE_ADJ_WRITE (R58). -/
  | timeRateAdjWrite (o : Origin) (value : Word)
  /-- REF_LOSS (R40). -/
  | refLoss
  /-- RATE_WINDOW_END (R27). -/
  | rateWindowEnd (counts : List Nat)
  /-- CLR_MIN (R26). -/
  | clrMin (o : Origin) (value : Word)
  /-- ALW_REQUEST (R72). -/
  | alwRequest (ask : AlwAsk)
  /-- ALW_GRANT (R72). -/
  | alwGrant
  /-- ALW_RELEASE (R76). -/
  | alwRelease (holder : Holder) (gen : Nat)
  /-- ALW_BUDGET_WRITE (R81). -/
  | alwBudgetWrite (o : Origin) (dram : Bool) (value : Word)
  /-- PWR_DOMAIN_ON (R83). -/
  | pwrDomainOn (o : Origin) (d : Nat)
  /-- PWR_DOMAIN_POWERED (R83). -/
  | pwrDomainPowered (d : Nat)
  /-- PWR_DOMAIN_OFF (R84). -/
  | pwrDomainOff (o : Origin) (d : Nat)
  /-- RIM_START (R31). -/
  | rimStart (d : Nat)
  /-- RIM_STOP (R31). -/
  | rimStop (d : Nat)
  /-- RIM_SLIP (R30). -/
  | rimSlip (d : Nat)
  /-- BEAT_READ (R103). -/
  | beatRead (o : Origin) (at_ : BeatAt) (errs : Nat) (jrnl : Bool)
  /-- ROW_WINDOW_EXPIRE (R110). -/
  | rowWindowExpire (chan : Nat) (bank : Nat) (row : Nat)
  /-- ROW_REPLACE_DONE (R475). -/
  | rowReplaceDone (chan : Nat) (bank : Nat) (row : Nat)
  /-- REFRESH_TIER_CHANGE (R107). -/
  | refreshTierChange (g : Nat) (temp : Int)
  /-- SCRUB_PERIOD_END (R108). -/
  | scrubPeriodEnd (finished : Bool)
  /-- JOB_COMMIT (R116). -/
  | jobCommit (ring : Nat) (seq : Nat)
  /-- COPY_BACK_DONE (R117). -/
  | copyBackDone (extent : Nat)
  /-- STAGE_WAIT_END (R120). -/
  | stageWaitEnd (core : Nat)
  /-- MEM_ERR_POP (R121). -/
  | memErrPop (o : Origin)
  /-- MEM_STAGE_WRITE (R124). -/
  | memStageWrite (o : Origin) (value : Word)
  /-- STAGE_MOVE (R124). -/
  | stageMove
  /-- MLOAD (R184). -/
  | mload (core : Nat) (sp : Nat) (len : Nat) (sc : Nat) (scLen : Nat) (err : Option SpErr)
  /-- MSTEP (R183). -/
  | mstep (core : Nat) (pair : MatPair) (cnt : Nat) (e : Nat) (sp : Nat) (stride : Nat) (sc : Nat) (scStride : Nat) (clear : Bool) (swap : Bool) (err : Option SpErr)
  /-- MDRAIN (R185). -/
  | mdrain (run : CoreAt) (e : Nat) (v : Nat) (half : Nat) (clear : Bool) (rq : Option Requant)
  /-- VLOAD (R186). -/
  | vload (core : Nat) (v : Nat) (sp : Nat) (fmt : Nat) (sc : Nat) (err : Option SpErr)
  /-- VSTORE (R186). -/
  | vstore (core : Nat) (v : Nat) (sp : Nat) (fmt : Nat) (sc : Nat) (raw : Bool) (err : Option SpErr)
  /-- VECTOR_OP (R187). -/
  | vectorOp (run : CoreAt) (dst : Nat) (op : VecOp)
  /-- FILL (R195). -/
  | fill (core : Nat) (tag : Nat) (src : FillSrc) (sp : Nat) (sc : Nat)
  /-- DRAIN (R195). -/
  | drain (run : CoreAt) (tag : Nat) (band : Band) (sp : Nat) (sc : Nat)
  /-- XCHG (R195). -/
  | xchg (run : CoreAt) (tag : Nat) (dest : Nat) (dst : Nat) (sp : Nat) (len : Nat)
  /-- TRANSFER_DONE (R195). -/
  | transferDone (core : Nat) (tag : Nat)
  /-- WAIT (R194). -/
  | waitTag (core : Nat) (tag : Nat)
  /-- FENCE (R194). -/
  | fence (core : Nat)
  /-- BRANCH (R193). -/
  | branch (core : Nat) (dest : BranchTo)
  /-- CHEAP (R203). -/
  | cheap (core : Nat)
  /-- SCAN (R243). -/
  | scan (run : CoreAt) (pb : Nat) (score : Nat) (box : Nat) (anch : Nat) (first : Nat) (cells : Nat)
  /-- SORT (R244). -/
  | sort (run : CoreAt) (pb : Nat)
  /-- SUPPRESS (R245). -/
  | suppress (run : CoreAt) (pb : Nat) (first : Nat) (rounds : Nat)
  /-- EMIT (R248). -/
  | emit (run : CoreAt) (pb : Nat)
  /-- QPUSH (R281). -/
  | qpush (run : CoreAt) (dest : Nat) (base : Nat) (size : Nat) (cap : Nat) (sp : Nat)
  /-- QPOP (R281). -/
  | qpop (core : Nat) (base : Nat)
  /-- TILE_SETUP (R398). -/
  | tileSetup (core : Nat) (x : Nat) (y : Nat) (prims : List (List Nat)) (shared : Bool) (split : Bool) (spill : Bool)
  /-- INTERLOCK_ACQUIRE (R401). -/
  | interlockAcquire (core : Nat) (prim : Nat) (block : Nat)
  /-- INTERLOCK_RELEASE (R401). -/
  | interlockRelease (core : Nat) (prim : Nat) (block : Nat)
  /-- ATTRIBUTE_INTERPOLATION (R193). -/
  | attributeInterpolation (core : Nat) (dst : Nat)
  /-- FLUSH_END (R319). -/
  | flushEnd
  /-- SPAN_OVERRUN (R202). -/
  | spanOverrun (core : Nat)
  /-- WATCHDOG_EXPIRE (R212). -/
  | watchdogExpire (core : Nat)
  /-- JOB_PLACE (R298). -/
  | jobPlace
  /-- FORCED_PREEMPT (R313). -/
  | forcedPreempt (ring : Nat) (seq : Nat)
  /-- SAVE_DONE (R310). -/
  | saveDone (ring : Nat) (seq : Nat)
  /-- MODE_SWITCH_DONE (R209). -/
  | modeSwitchDone (core : Nat)
  /-- SCRUB_DONE (R513). -/
  | scrubDone (core : Option Nat)
  /-- RESERVATION_EXPIRE (R299). -/
  | reservationExpire (ring : Nat) (seq : Nat) (gen : Nat)
  /-- VI_RESUME (R323). -/
  | viResume (o : Origin) (v : Nat)
  /-- HOT_READ (R326). -/
  | hotRead (o : Origin) (idx : Nat)
  /-- HOT_REGISTER (R326). -/
  | hotRegister (o : Origin) (idx : Nat)
  /-- HOT_UNREGISTER (R326). -/
  | hotUnregister (o : Origin) (idx : Nat)
  /-- HOT_SET_FLAGS (R326). -/
  | hotSetFlags (o : Origin) (idx : Nat)
  /-- HOT_EVICT (R326). -/
  | hotEvict (o : Origin) (idx : Nat)
  /-- HOT_LOAD_DONE (R304). -/
  | hotLoadDone (entry : Nat) (bytes : Option (List Byte))
  /-- SAVE_POOL_MOVE (R324). -/
  | savePoolMove
  /-- HOT_REGION_MOVE (R324). -/
  | hotRegionMove
  /-- DOORBELL_WRITE (R258). -/
  | doorbellWrite (u : PollUnit) (value : Word)
  /-- DOORBELL_POLL (R259). -/
  | doorbellPoll (u : PollUnit) (far : List FarRead)
  /-- RING_WAKE (R285). -/
  | ringWake (o : Origin) (n : Nat) (far : List FarRead)
  /-- JOB_DESCRIPTOR (R265). -/
  | jobDescriptor (ring : Nat) (far : List FarRead)
  /-- KNOT_DESCRIPTOR (R260). -/
  | knotDescriptor (ring : Nat)
  /-- CANCEL_DESCRIPTOR (R276). -/
  | cancelDescriptor (ring : Nat)
  /-- KNOT_WAIT_TIMEOUT (R266). -/
  | knotWaitTimeout (ring : Nat) (seq : Nat) (gen : Nat)
  /-- JOB_LEASE_EXPIRE (R267). -/
  | jobLeaseExpire (ring : Nat) (seq : Nat) (gen : Nat)
  /-- SEAL_CHECK_DONE (R270). -/
  | sealCheckDone (checker : Nat)
  /-- RING_ENABLE (R287). -/
  | ringEnable (o : Origin) (n : Nat) (value : Word) (far : List FarRead)
  /-- RING_DISABLE (R287). -/
  | ringDisable (o : Origin) (n : Nat) (value : Word)
  /-- RING_CANCEL (R287). -/
  | ringCancel (o : Origin) (n : Nat) (value : Word)
  /-- KNOT_SEL_READ (R288). -/
  | knotSelRead (o : Origin) (k : Nat)
  /-- KNOT_SEL_SET (R277). -/
  | knotSelSet (o : Origin) (k : Nat)
  /-- KNOT_SEL_ADD (R277). -/
  | knotSelAdd (o : Origin) (k : Nat)
  /-- KNOT_RANGE_WRITE (R278). -/
  | knotRangeWrite (o : Origin) (v : Nat) (value : Word)
  /-- FRAME_START (R348). -/
  | frameStart (rx : Nat) (vc : Nat) (fc : Nat) (hdr : Nat)
  /-- LONG_PACKET (R332). -/
  | longPacket (rx : Nat) (vc : Nat) (dt : Nat) (hdr : Nat) (crcOk : Bool) (bytes : List Byte)
  /-- FRAME_END (R337). -/
  | frameEnd (rx : Nat) (vc : Nat) (hdr : Nat)
  /-- TDM_FRAME (R333). -/
  | tdmFrame (port : Nat) (slots : List Nat)
  /-- LATE_BUDGET_EXPIRE (R350). -/
  | lateBudgetExpire (ch : Nat) (q : Nat)
  /-- SOURCE_ENTRY_FETCH (R359). -/
  | sourceEntryFetch (ch : Nat) (far : List FarRead)
  /-- PICTURE_DECODED (R360). -/
  | pictureDecoded (session : Nat) (idx : Nat) (q : Nat) (dec : Decoded)
  /-- ENCODE_START (R655). -/
  | encodeStart
  /-- ACCESS_UNIT_DONE (R655). -/
  | accessUnitDone (bytes : List Byte)
  /-- CHANNEL_ENABLE (R364). -/
  | channelEnable (o : Origin) (n : Nat) (value : Word)
  /-- CHANNEL_DISABLE (R364). -/
  | channelDisable (o : Origin) (n : Nat) (value : Word)
  /-- UNORD_WRITE (R352). -/
  | unordWrite (o : Origin) (n : Nat) (on : Bool)
  /-- DECODER_ENABLE (R654). -/
  | decoderEnable (o : Origin) (session : Nat) (value : Word)
  /-- ENCODER_ENABLE (R655). -/
  | encoderEnable (o : Origin) (value : Word)
  /-- GRID_PASS_DONE (R382). -/
  | gridPassDone (g : Nat) (torn : List Nat)
  /-- TRACK_STEP (R387). -/
  | trackStep (g : Nat)
  /-- TRACK_STEP_DONE (R390). -/
  | trackStepDone (g : Nat)
  /-- GRID_ENABLE (R391). -/
  | gridEnable (o : Origin) (g : Nat) (value : Word)
  /-- GRID_DISABLE (R391). -/
  | gridDisable (o : Origin) (g : Nat) (value : Word)
  /-- PIPE_ENABLE (R404). -/
  | pipeEnable (o : Origin) (p : Nat) (value : Word)
  /-- LINK_TRAINING_DONE (R404). -/
  | linkTrainingDone (p : Nat) (ok : Bool)
  /-- PIPE_DISABLE (R415). -/
  | pipeDisable (o : Origin) (p : Nat) (value : Word)
  /-- HELD_FRAME_START (R406). -/
  | heldFrameStart (p : Nat)
  /-- FREE_RUN (R406). -/
  | freeRun (p : Nat)
  /-- TELLTALE_CRC (R419). -/
  | telltaleCrc (p : Nat) (idx : Nat)
  /-- SP_ENABLE (R416). -/
  | spEnable (o : Origin) (p : Nat) (value : Word)
  /-- SP_TABLE_WRITE (R416). -/
  | spTableWrite (o : Origin) (p : Nat) (value : Word)
  /-- EARLY_VIEW_END (R422). -/
  | earlyViewEnd (o : Origin)
  /-- COMPARE_DONE (R437). -/
  | compareDone (comparator : Nat) (jrnl : Bool)
  /-- LOCKSTEP_DIVERGENCE (R442). -/
  | lockstepDivergence (pair : Nat)
  /-- PAIR_RESTART (R442). -/
  | pairRestart (pair : Nat)
  /-- DEBUG_ATTACH (R524). -/
  | debugAttach (targets : List DebugTarget) (sigOk : Bool)
  /-- DEBUG_DETACH (R524). -/
  | debugDetach
  /-- DEBUG_HALT (R444). -/
  | debugHalt (t : DebugTarget) (on : Bool)
  /-- DEBUG_STEP (R444). -/
  | debugStep (t : DebugTarget)
  /-- DEBUG_READ (R444). -/
  | debugRead (t : DebugTarget) (core : Nat) (r : DebugRead)
  /-- DEBUG_WRITE (R444). -/
  | debugWrite (t : DebugTarget) (w : DebugWrite)
  /-- SELFTEST_START (R452). -/
  | selftestStart (slot : Nat) (missed : Bool)
  /-- GOLDEN_RUN_DONE (R455). -/
  | goldenRunDone (core : Nat) (pass : Bool) (jrnl : Bool)
  /-- COVER_DEADLINE (R454). -/
  | coverDeadline (core : Nat)
  /-- PIN_MIN_EXPIRE (R461). -/
  | pinMinExpire
  /-- SAFE_FORCE (R461). -/
  | safeForce (o : Origin) (on : Bool)
  /-- SW_ERR (R465). -/
  | swErr (o : Origin) (code : Word)
  /-- ST_READ (R467). -/
  | stRead (o : Origin) (idx : Nat)
  /-- ST_WRITE (R467). -/
  | stWrite (o : Origin) (idx : Nat)
  /-- CORE_DARN_DONE (R473). -/
  | coreDarnDone (core : Nat) (pass : Bool)
  /-- CHANNEL_DARN (R474). -/
  | channelDarn (phys : Nat) (jrnl : Bool)
  /-- CHANNEL_COPY_DONE (R474). -/
  | channelCopyDone (phys : Nat)
  /-- SP_ROW_REPLACE (R475). -/
  | spRowReplace (phys : Nat) (bank : Nat) (row : Nat) (jrnl : Bool)
  /-- DARN_CORE (R487). -/
  | darnCore (o : Origin) (target : Nat) (jrnl : Bool)
  /-- DARN_CHANNEL (R487). -/
  | darnChannel (o : Origin) (target : Nat) (jrnl : Bool)
  /-- DARN_LANE (R487). -/
  | darnLane (o : Origin) (target : Nat) (jrnl : Bool)
  /-- ROOT_LEASE_RENEW (R481). -/
  | rootLeaseRenew (units : List Nat)
  /-- ROOT_LEASE_EXPIRE (R483). -/
  | rootLeaseExpire (unit : Nat)
  /-- UNIT_RESTORED (R483). -/
  | unitRestored (unit : Nat)
  /-- DMA_STREAM_EXPIRE (R481). -/
  | dmaStreamExpire (stream : DmaStream)
  /-- PANEL_TIMER_EXPIRE (R482). -/
  | panelTimerExpire (core : Nat) (jrnl : Bool)
  /-- ARRAY_TIMER_EXPIRE (R482). -/
  | arrayTimerExpire (panel : Nat)
  /-- HW_TIMER_EXPIRE (R482). -/
  | hwTimerExpire
  /-- SELF_RESET (R482). -/
  | selfReset
  /-- ALIVE_EDGE (R485). -/
  | aliveEdge
  /-- STAGE (R500). -/
  | fwStage (o : Origin) (kind : Nat)
  /-- SWITCH (R500). -/
  | fwSwitch (o : Origin) (kind : Nat) (jrnl : Bool)
  /-- DISCARD (R530). -/
  | fwDiscard (o : Origin) (kind : Nat)
  /-- TENANT_READ (R531). -/
  | tenantRead (o : Origin) (t : Nat)
  /-- CREATE (R511). -/
  | tenantCreate (o : Origin) (t : Nat)
  /-- REMOVE (R515). -/
  | tenantRemove (o : Origin) (t : Nat) (jrnl : Bool)
  /-- FORCE_REMOVE (R516). -/
  | tenantForceRemove (o : Origin) (t : Nat) (jrnl : Bool)
  /-- REMOVAL_DONE (R516). -/
  | removalDone (t : Nat) (rpmb : Bool)
  /-- REPORT (R506). -/
  | attReport (o : Origin) (enclave : Nat) (tenant : Nat) (wrap : Bool) (far : List FarRead)
  /-- REPORT_DONE (R507). -/
  | reportDone (o : Origin)
  /-- EYE (R519). -/
  | eye
  /-- GATE_S (R519). -/
  | gateS (core : Nat) (hart : Nat) (target : Nat) (ret : Nat) (eye : Option Eyelet) (regs : List (Nat × Nat))
  /-- GATE_E (R519). -/
  | gateE (core : Nat) (hart : Nat) (target : Nat) (ret : Nat) (eye : Option Eyelet) (regs : List (Nat × Nat))
  /-- GRET (R519). -/
  | gret (core : Nat) (hart : Nat) (regs : List (Nat × Nat))
  /-- ENCLAVE_TRAP (R520). -/
  | enclaveTrap (core : Nat) (hart : Nat) (pc : Nat) (regs : List (Nat × Nat))
  /-- ENCLAVE_REGISTER (R521). -/
  | enclaveRegister (secure : Bool) (ranges : List (Nat × Nat))
  /-- ENCLAVE_DESTROY (R521). -/
  | enclaveDestroy (tag : Nat)
  /-- SECURE_LEASE_TAKE (R523). -/
  | secureLeaseTake (h : SecHolder) (d : Nat)
  /-- SECURE_LEASE_RELEASE (R523). -/
  | secureLeaseRelease (h : SecHolder) (d : Nat)
  /-- EXPORT (R528). -/
  | auditExport (o : Origin) (count : Nat)
  /-- EXPORT_DONE (R528). -/
  | exportDone
  /-- AUDIT_ACK (R528). -/
  | auditAck (o : Origin) (value : Word)
  /-- QUIESCE (R541). -/
  | viQuiesce (o : Origin) (v : Nat)
  /-- QUIESCE_HARD (R541). -/
  | viQuiesceHard (o : Origin) (v : Nat)
  /-- FREEZE (R544). -/
  | viFreeze (o : Origin) (v : Nat)
  /-- THAW (R552). -/
  | viThaw (o : Origin) (v : Nat)
  /-- SAVE (R547). -/
  | viSave (o : Origin) (v : Nat) (cert : Bool) (jrnl : Bool)
  /-- SAVE_IMAGE_DONE (R550). -/
  | saveImageDone (v : Nat)
  /-- RESTORE (R551). -/
  | viRestore (o : Origin) (v : Nat) (img : Option Machine.ViImage)
  /-- RESTORE_DONE (R551). -/
  | restoreDone (v : Nat)
  /-- RESET (R543). -/
  | viReset (o : Origin) (v : Nat)
  /-- USB4_LINK_UP (R558). -/
  | usb4LinkUp (mode : Nat)
  /-- USB4_LINK_DOWN (R568). -/
  | usb4LinkDown
  /-- FUNCTION_LEVEL_RESET (R563). -/
  | functionLevelReset (fn : Nat)
  /-- HOST_COMPLETION (R566). -/
  | hostCompletion (tag : Nat) (gen : Nat) (data : FarData) (ahead : List (List Byte))
  /-- BRIDGE_READ_EXPIRE (R567). -/
  | bridgeReadExpire (tag : Nat) (gen : Nat)
  /-- HOST_BAR_REQUEST (R572). -/
  | hostBarRequest (req : BarReq) (far : List FarRead)
  /-- PREFETCH_EXPIRE (R574). -/
  | prefetchExpire (page : Nat)
  /-- MSIX_UNMASK (R571). -/
  | msixUnmask (fn : Nat) (vec : Nat)
  /-- UBR_MAP_READ (R577). -/
  | ubrMapRead (o : Origin) (idx : Nat)
  /-- UBR_MAP_WRITE (R577). -/
  | ubrMapWrite (o : Origin) (idx : Nat)
  /-- UBR_MAP_DISABLE (R577). -/
  | ubrMapDisable (o : Origin) (idx : Nat)
  /-- UBR_ERR_POP (R579). -/
  | ubrErrPop (o : Origin)
  /-- CAN_ENABLE (R582). -/
  | canEnable (o : Origin) (n : Nat) (value : Word)
  /-- CAN_FRAME_RX (R585). -/
  | canFrameRx (n : Nat) (f : CanFrame) (sof : Nat)
  /-- CAN_TX_DONE (R587). -/
  | canTxDone (n : Nat) (sof : Nat)
  /-- BUS_OFF (R583). -/
  | busOff (n : Nat)
  /-- BUS_OFF_RECOVERY (R583). -/
  | busOffRecovery (n : Nat)
  /-- QUEUE_DOORBELL (R587). -/
  | queueDoorbell (q : FrameQ) (value : Word)
  /-- QUEUE_ENABLE (R605). -/
  | queueEnable (o : Origin) (q : FrameQ) (value : Word)
  /-- QUEUE_DISABLE (R587). -/
  | queueDisable (o : Origin) (q : FrameQ) (value : Word)
  /-- ETH_FRAME_RX (R591). -/
  | ethFrameRx (p : Nat) (bytes : List Byte) (fcsOk : Bool) (sfd : Nat)
  /-- ETH_TX_DONE (R587). -/
  | ethTxDone (k : Nat)
  /-- GATE_INTERVAL_END (R592). -/
  | gateIntervalEnd (p : Nat)
  /-- GATE_BANK_TAKEOVER (R592). -/
  | gateBankTakeover (p : Nat)
  /-- SYNC_RX (R595). -/
  | syncRx (p : Nat) (e : Word)
  /-- SYNC_TIMEOUT (R596). -/
  | syncTimeout (elected : Bool)
  /-- ACCEPT (R597). -/
  | gptpAccept (o : Origin) (value : Word)
  /-- HOLD (R597). -/
  | gptpHold (o : Origin) (value : Word)
  /-- OFFSET_WRITE (R613). -/
  | offsetWrite (o : Origin) (value : Word)
  /-- PORT_ENABLE (R614). -/
  | portEnable (o : Origin) (p : Nat) (value : Word)
  /-- SLUICE_UPDATE (R601). -/
  | sluiceUpdate
  /-- SLUICE_SEND (R601). -/
  | sluiceSend (d : Nat)
  /-- SLUICE_ENABLE (R608). -/
  | sluiceEnable (o : Origin) (value : Word)
  /-- SLU_PDU_READ (R610). -/
  | sluPduRead (o : Origin) (idx : Nat)
  /-- SLU_PDU_WRITE (R610). -/
  | sluPduWrite (o : Origin) (idx : Nat)
  /-- SLU_PDU_CLEAR (R610). -/
  | sluPduClear (o : Origin) (idx : Nat)
  /-- SLU_MAP_READ (R611). -/
  | sluMapRead (o : Origin) (idx : Nat)
  /-- SLU_MAP_WRITE (R611). -/
  | sluMapWrite (o : Origin) (idx : Nat)
  /-- SLU_MAP_CLEAR (R611). -/
  | sluMapClear (o : Origin) (idx : Nat)
  /-- READ_REQ (R626). -/
  | readReq (port : Nat) (f : Machine.Frame) (tagOk : Bool)
  /-- READ_DATA (R619). -/
  | readData (port : Nat) (f : Machine.Frame) (tagOk : Bool)
  /-- KNOT (R627). -/
  | cwyKnot (port : Nat) (f : Machine.Frame) (tagOk : Bool)
  /-- ACK (R623). -/
  | cwyAck (port : Nat) (f : Machine.Frame) (tagOk : Bool)
  /-- HELLO (R624). -/
  | cwyHello (port : Nat) (f : Machine.Frame) (tagOk : Bool)
  /-- ERROR (R626). -/
  | cwyError (port : Nat) (f : Machine.Frame) (tagOk : Bool)
  /-- KEY (R622). -/
  | cwyKey (port : Nat) (src : Nat) (cert : List Byte)
  /-- LANE (R617). -/
  | cwyLane (port : Nat) (f : Machine.Frame) (tagOk : Bool) (lane : Nat) (jrnl : Bool)
  /-- SEAL_REQ (R629). -/
  | sealReq (port : Nat) (f : Machine.Frame) (tagOk : Bool)
  /-- SEAL_DATA (R630). -/
  | sealData (port : Nat) (f : Machine.Frame) (tagOk : Bool)
  /-- HELLO_TIMER (R624). -/
  | helloTimer (peer : Nat)
  /-- RETRANSMIT (R623). -/
  | retransmit (peer : Nat)
  /-- PEER_TIMEOUT (R624). -/
  | peerTimeout (peer : Nat)
  /-- CWY_LINK_UP (R622). -/
  | cwyLinkUp (port : Nat) (lanes : Nat)
  /-- CWY_LINK_DOWN (R623). -/
  | cwyLinkDown (port : Nat)
  /-- LINK_KEY_DERIVED (R622). -/
  | linkKeyDerived (tenant : Nat) (peer : Nat)
  /-- CWY_PORT_ENABLE (R633). -/
  | cwyPortEnable (o : Origin) (p : Nat) (value : Word)
  /-- PEER_READ (R634). -/
  | peerRead (o : Origin) (idx : Nat)
  /-- FEC_UNCORR (R617). -/
  | fecUncorr (port : Nat) (lane : Nat) (jrnl : Bool) (oneLane : Bool)
  /-- EVQ_TAIL_WRITE (R645). -/
  | evqTailWrite (o : Origin) (d : Nat) (value : Word)
  /-- UFS_LU_WRITE (R649). -/
  | ufsLuWrite (o : Origin) (u : Nat) (value : Word)
  /-- LOCK_WRITE (R643). -/
  | lockWrite (o : Origin) (blk : Nat)
  /-- REGISTER_WRITE (R640). -/
  | registerWrite (o : Origin) (off : Nat) (bytes : Nat) (value : Word) (env : Machine.WriteEnv)
  /-- RESET_RELEASE (R670). -/
  | resetRelease (boot : BootRead)
  /-- RESET_N_LOW (R671). -/
  | resetNLow
  /-- PWROK_FALL (R672). -/
  | pwrokFall
  /-- SUPPLY_UNDERVOLT (R671). -/
  | supplyUndervolt (dram : Bool)
  /-- THERMAL_TRIP (R661). -/
  | thermalTrip
  /-- ALW_RAMP_DONE (R78). -/
  | alwRampDone
  /-- VTOTAL_LINE_END (R406). -/
  | vtotalLineEnd (p : Nat)
  /-- PANEL_RESUME (R482). -/
  | panelResume (panel : Nat)
  /-- STAGE_DONE (R500). -/
  | stageDone (kind : Nat) (ok : Bool)
  /-- PWROK_RISE (R670). -/
  | pwrokRise
  /-- LEARNED_ENTRY_AGEING (R653). -/
  | learnedEntryAgeing (mac : Nat) (vid : Nat)
  /-- BUS_MASTERING_ENABLE (R568). -/
  | busMasteringEnable (fn : Nat)
  /-- CAN_BUS_ERROR (R583). -/
  | canBusError (n : Nat) (e : CanErr)
  deriving DecidableEq, Repr

end Sys2Proof
end

