-- ==== Sys2Proof/Config.lean ====
section
/-! DEFINITION. What the specification leaves open: free values and functions with no body, of which no proof can see a
value. Each has its row in the assumption log. -/

namespace Sys2Proof

/-- The free values of the model: the k-th value that the device produces where the manual states none. State counts them
in its field `free`, so that each use is a fresh value (log 3). -/
opaque Config.freeNat : Nat → Nat

/-- SHA-512, named by R526 and R528 and defined by its own standard (log 4). -/
opaque Config.sha512 : List Byte → BitVec 512

/-- SHA-384, named by the chapters on boot and attestation and defined by its own standard (log 4). -/
opaque Config.sha384 : List Byte → BitVec 384

/-- The device's key derivations: a class label, a slot or peer and an epoch give a key (log 4). -/
opaque Config.deriveKey : Nat → Nat → Nat → BitVec 256

/-- A signature made with the identity key over a byte string (log 4). -/
opaque Config.sign : List Byte → BitVec 1056

/-- Authenticated encryption of a byte string under a key (log 4). -/
opaque Config.sealBytes : BitVec 256 → List Byte → List Byte

/-- The tag of a sealed page (R508, R509; log 4): its key, IV, additional data and a generation that stands for its contents, of which the
host's memory holds what was not written. -/
opaque Config.pageTag : BitVec 256 → Nat → List Nat → Nat → BitVec 128

/-- Whether a pattern's code passes those checks of R201, R222 and R398 that rest on the instruction encoding, which the
manual leaves to the instruction set reference (log 6). -/
opaque Config.codeOk : List Byte → Bool

/-- Sign and fraction bits of the NaN that a conversion to a format produces: the manual says only that it is a NaN (log 7). The same
bits stand for the codes that it leaves open: the other element codes of a NaN block (R132) and NaN or infinity as INT32 (R135). -/
opaque Config.nanBits : Nat → Nat

/-- The value that the device computes from given operands where the manual only bounds it: the same operands give the same value (R379,
R381; log 72). -/
opaque Config.openOf : List Nat → Nat

/-- The event code and payload that the trace unit records of a step of a traced agent, if it records one: the manual gives no source's
events (R446; log 57). The arguments are the agent's origin, its core, its position and a generation. -/
opaque Config.traceEvent : Nat → Nat → Nat → Nat → Option (Nat × Nat)

/-- The offsets of the packed tensors in a pattern image: its code names them, in the encoding of the instruction set reference (R163;
log 6). -/
opaque Config.packedIn : List Byte → List Nat

/-- The set of an array cache slice in which a line lies, taken modulo the 2,048 sets: the manual gives the slice function and not this
one (R196; log 8). -/
opaque Config.cacheSet : Nat → Nat

/-- Whether a signature over a byte string checks under a P-521 public key (R496; log 4). -/
opaque Config.sigValid : List Byte → List Byte → List Byte → Bool

/-- The subject key of a certificate that verifies under the Svetmaesk key (R496; log 4). -/
opaque Config.certKey : List Byte → Option (List Byte)

/-- The Svetmaesk image-key hash in mask ROM (R496). -/
opaque Config.imageKeyHash : BitVec 512

/-- The 133 B identity public key of the device, and which of the two ordering codes its identity certificate carries (R3, R501, R504). -/
opaque Config.identityKey : List Byte
opaque Config.identityOrder : Nat

/-- The device's identity certificate, and the public key of an identity certificate that checks under the Svetmaesk device authority
(R501, R622; log 4). -/
opaque Config.identityCert : List Byte
opaque Config.peerKey : List Byte → Option (List Byte)

/-- Whether the scope mask of a DEBUG section allows a target: the manual does not lay the mask out (R503, R524). -/
opaque Config.debugAllows : List Byte → DebugTarget → Bool

/-- The slots of image kinds 3 to 5 that an IMAGE_SLOTS section names, as (kind, slot, offset, size): the manual does not lay the
section out (R503). -/
opaque Config.imageSlots : List Byte → List (Nat × Nat × Nat × Nat)

/-- The number under which ROOT_FAILED names a root lease's unit: the manual gives no numbering (R488). -/
opaque Config.rootNumber : Nat → Nat

/-- The undefined contents that a restored core holds outside its live set (R205): generation and cell (log 9). -/
opaque Config.freeCell : Nat → Nat → Nat

end Sys2Proof
end

