-- ==== Sys2Proof/Machine/RegMap.lean ====
section
/-! DEFINITION. The set-up register map: every register the spec lays out, with its offset, width, fields, access kinds,
reset values, Writers column, the EN bit that freezes it (R676) and the power domain of its unit (R642).
The tables follow the register rules of the chapters, block by block in the order of R636. -/

namespace Sys2Proof.Machine

/-- A bit field [hi:lo] of a register or record. -/
structure Fld where
  hi : Nat
  lo : Nat
  deriving DecidableEq, Repr

/-- The width of a field in bits. -/
def Fld.width (f : Fld) : Nat := f.hi + 1 - f.lo

/-- Access kinds of the manual's register tables (conventions of 00_scope). -/
inductive Access where
  | rw
  | ro
  | w1c
  | wo
  | rwl
  deriving DecidableEq, Repr

/-- The origin classes that a Writers column can name (R637). -/
inductive Writer where
  | selvage
  | hypervisor
  | safety
  | usb4
  deriving DecidableEq, Repr

/-- What freezes the RW and RWL fields of a register (R676): nothing, the bit `bit` of the 64-bit word at this register's
own offset plus or minus a distance, or the EN of the fusion grid the register belongs to; or one bit `fld` of it alone, by its bit `bit`. -/
inductive Freeze where
  | never
  | after (distance bit : Nat)
  | before (distance bit : Nat)
  | grid
  | field (fld bit : Nat)
  deriving DecidableEq, Repr

/-- One row of a register table. -/
structure FieldSpec where
  fld     : Fld
  acc     : Access
  reset   : Nat
  writers : List Writer
  deriving DecidableEq, Repr

/-- One register, or a family of registers at equal strides. `dom` gives the power domain of element i as base + (i shifted
right by the second number), R82 and R642. -/
structure RegSpec where
  off     : Nat
  width   : Nat
  count   : Nat
  stride  : Nat
  count2  : Nat
  stride2 : Nat
  freeze  : Freeze
  dom     : Option (Nat × Nat)
  fields  : List FieldSpec
  deriving DecidableEq, Repr

abbrev wNone : List Writer := []
abbrev wS : List Writer := [.selvage]
abbrev wH : List Writer := [.hypervisor]
abbrev wP : List Writer := [.safety]
abbrev wU : List Writer := [.usb4]
abbrev wSH : List Writer := [.selvage, .hypervisor]
abbrev wSP : List Writer := [.selvage, .safety]
abbrev wHP : List Writer := [.hypervisor, .safety]
abbrev wHU : List Writer := [.hypervisor, .usb4]
abbrev wSHP : List Writer := [.selvage, .hypervisor, .safety]

/-- GEN_CTRL at 0x0000 in GEN (R644). -/
abbrev Reg.GEN_CTRL : Nat := 0x000000
abbrev Fd.GEN_CTRL_LOCK : Fld := ⟨31, 31⟩
/-- GEN_ID at 0x0008 in GEN (R644). -/
abbrev Reg.GEN_ID : Nat := 0x000008
abbrev Fd.GEN_ID_PART : Fld := ⟨63, 48⟩
abbrev Fd.GEN_ID_STEPPING : Fld := ⟨47, 40⟩
abbrev Fd.GEN_ID_ORDER : Fld := ⟨39, 32⟩
/-- GEN_EVQ_CFG_0 at 0x0100 in GEN (R647). -/
abbrev Reg.GEN_EVQ_CFG_0 : Nat := 0x000100
abbrev Fd.GEN_EVQ_CFG_0_EN : Fld := ⟨63, 63⟩
abbrev Fd.GEN_EVQ_CFG_0_BASE : Fld := ⟨47, 4⟩
abbrev Fd.GEN_EVQ_CFG_0_SIZE_CODE : Fld := ⟨3, 0⟩
/-- GEN_EVQ_HEAD_0 at 0x0108 in GEN (R647). -/
abbrev Reg.GEN_EVQ_HEAD_0 : Nat := 0x000108
abbrev Fd.GEN_EVQ_HEAD_0_HEAD : Fld := ⟨31, 0⟩
/-- GEN_EVQ_TAIL_0 at 0x0110 in GEN (R647). -/
abbrev Reg.GEN_EVQ_TAIL_0 : Nat := 0x000110
abbrev Fd.GEN_EVQ_TAIL_0_VEC : Fld := ⟨63, 32⟩
abbrev Fd.GEN_EVQ_TAIL_0_TAIL : Fld := ⟨31, 0⟩
/-- GEN_EVQ_CFG_1 at 0x0120 in GEN (R647). -/
abbrev Reg.GEN_EVQ_CFG_1 : Nat := 0x000120
abbrev Fd.GEN_EVQ_CFG_1_EN : Fld := ⟨63, 63⟩
abbrev Fd.GEN_EVQ_CFG_1_BASE : Fld := ⟨47, 4⟩
abbrev Fd.GEN_EVQ_CFG_1_SIZE_CODE : Fld := ⟨3, 0⟩
/-- GEN_EVQ_HEAD_1 at 0x0128 in GEN (R647). -/
abbrev Reg.GEN_EVQ_HEAD_1 : Nat := 0x000128
abbrev Fd.GEN_EVQ_HEAD_1_HEAD : Fld := ⟨31, 0⟩
/-- GEN_EVQ_TAIL_1 at 0x0130 in GEN (R647). -/
abbrev Reg.GEN_EVQ_TAIL_1 : Nat := 0x000130
abbrev Fd.GEN_EVQ_TAIL_1_VEC : Fld := ⟨63, 32⟩
abbrev Fd.GEN_EVQ_TAIL_1_TAIL : Fld := ⟨31, 0⟩
/-- GEN_EVQ_CFG_2 at 0x0140 in GEN (R647). -/
abbrev Reg.GEN_EVQ_CFG_2 : Nat := 0x000140
abbrev Fd.GEN_EVQ_CFG_2_EN : Fld := ⟨63, 63⟩
abbrev Fd.GEN_EVQ_CFG_2_BASE : Fld := ⟨47, 4⟩
abbrev Fd.GEN_EVQ_CFG_2_SIZE_CODE : Fld := ⟨3, 0⟩
/-- GEN_EVQ_HEAD_2 at 0x0148 in GEN (R647). -/
abbrev Reg.GEN_EVQ_HEAD_2 : Nat := 0x000148
abbrev Fd.GEN_EVQ_HEAD_2_HEAD : Fld := ⟨31, 0⟩
/-- GEN_EVQ_TAIL_2 at 0x0150 in GEN (R647). -/
abbrev Reg.GEN_EVQ_TAIL_2 : Nat := 0x000150
abbrev Fd.GEN_EVQ_TAIL_2_VEC : Fld := ⟨63, 32⟩
abbrev Fd.GEN_EVQ_TAIL_2_TAIL : Fld := ⟨31, 0⟩
/-- GEN_EVT_ROUTE_n at 0x0200 + 0x4 × n in GEN, n = 0 to 21 (R648). -/
abbrev Reg.GEN_EVT_ROUTE (n : Nat) : Nat := 0x000200 + 0x4 * n
abbrev Fd.GEN_EVT_ROUTE_DEST : Fld := ⟨2, 0⟩
/-- GEN_EVQ_DROP_CNT_n at 0x0300 + 0x4 × n in GEN, n = 0 to 2 (R648). -/
abbrev Reg.GEN_EVQ_DROP_CNT (n : Nat) : Nat := 0x000300 + 0x4 * n
abbrev Fd.GEN_EVQ_DROP_CNT_COUNT : Fld := ⟨31, 0⟩
/-- GEN_SAT at 0x030C in GEN (R648). -/
abbrev Reg.GEN_SAT : Nat := 0x00030C
abbrev Fd.GEN_SAT_SAT : Fld := ⟨2, 0⟩
/-- GEN_UFS_LU_n at 0x0400 + 0x8 × n in GEN, n = 0 to 31 (R649). -/
abbrev Reg.GEN_UFS_LU (n : Nat) : Nat := 0x000400 + 0x8 * n
abbrev Fd.GEN_UFS_LU_OWNER : Fld := ⟨63, 56⟩
abbrev Fd.GEN_UFS_LU_MB : Fld := ⟨31, 0⟩
/-- TIME_NOW at 0x0000 in TIME (R57). -/
abbrev Reg.TIME_NOW : Nat := 0x010000
abbrev Fd.TIME_NOW_NOW : Fld := ⟨63, 0⟩
/-- TIME_RATE_ADJ at 0x0008 in TIME (R58). -/
abbrev Reg.TIME_RATE_ADJ : Nat := 0x010008
abbrev Fd.TIME_RATE_ADJ_ADJ : Fld := ⟨31, 0⟩
/-- TIME_STATUS at 0x000C in TIME (R59). -/
abbrev Reg.TIME_STATUS : Nat := 0x01000C
abbrev Fd.TIME_STATUS_CLAMPED : Fld := ⟨2, 2⟩
abbrev Fd.TIME_STATUS_REF_LOSS : Fld := ⟨1, 1⟩
abbrev Fd.TIME_STATUS_LOCKED : Fld := ⟨0, 0⟩
/-- TIME_CTRL at 0x0010 in TIME (R60). -/
abbrev Reg.TIME_CTRL : Nat := 0x010010
abbrev Fd.TIME_CTRL_LOCK : Fld := ⟨31, 31⟩
abbrev Fd.TIME_CTRL_SERVO : Fld := ⟨0, 0⟩
/-- TIME_TACK_CROWD at 0x0040 in TIME (R47). -/
abbrev Reg.TIME_TACK_CROWD : Nat := 0x010040
abbrev Fd.TIME_TACK_CROWD_COUNT : Fld := ⟨31, 0⟩
/-- TIME_TACK_SEL at 0x0100 in TIME (R62). -/
abbrev Reg.TIME_TACK_SEL : Nat := 0x010100
abbrev Fd.TIME_TACK_SEL_CMD : Fld := ⟨31, 28⟩
abbrev Fd.TIME_TACK_SEL_STATUS : Fld := ⟨27, 24⟩
abbrev Fd.TIME_TACK_SEL_INDEX : Fld := ⟨11, 0⟩
/-- TIME_TACK_D0 at 0x0108 in TIME (R64). -/
abbrev Reg.TIME_TACK_D0 : Nat := 0x010108
abbrev Fd.TIME_TACK_D0_INSTANT : Fld := ⟨63, 0⟩
/-- TIME_TACK_D1 at 0x0110 in TIME (R64). -/
abbrev Reg.TIME_TACK_D1 : Nat := 0x010110
abbrev Fd.TIME_TACK_D1_PERIOD : Fld := ⟨63, 0⟩
/-- TIME_TACK_D2 at 0x0118 in TIME (R64). -/
abbrev Reg.TIME_TACK_D2 : Nat := 0x010118
abbrev Fd.TIME_TACK_D2_PRE_VALUE : Fld := ⟨63, 0⟩
/-- TIME_TACK_D3 at 0x0120 in TIME (R64). -/
abbrev Reg.TIME_TACK_D3 : Nat := 0x010120
abbrev Fd.TIME_TACK_D3_ENABLE : Fld := ⟨63, 63⟩
abbrev Fd.TIME_TACK_D3_PROT : Fld := ⟨62, 62⟩
abbrev Fd.TIME_TACK_D3_MODE : Fld := ⟨61, 61⟩
abbrev Fd.TIME_TACK_D3_PRE_EN : Fld := ⟨60, 60⟩
abbrev Fd.TIME_TACK_D3_ACTION : Fld := ⟨59, 56⟩
abbrev Fd.TIME_TACK_D3_TARGET : Fld := ⟨55, 42⟩
abbrev Fd.TIME_TACK_D3_ARG : Fld := ⟨41, 36⟩
abbrev Fd.TIME_TACK_D3_PRE_STEP : Fld := ⟨29, 14⟩
abbrev Fd.TIME_TACK_D3_PRE_KNOT : Fld := ⟨13, 0⟩
/-- TIME_TACK_D4 at 0x0128 in TIME (R64). -/
abbrev Reg.TIME_TACK_D4 : Nat := 0x010128
abbrev Fd.TIME_TACK_D4_INSTANT_FRAC : Fld := ⟨63, 48⟩
abbrev Fd.TIME_TACK_D4_WAIT_LIMIT : Fld := ⟨47, 32⟩
abbrev Fd.TIME_TACK_D4_OWNER : Fld := ⟨7, 0⟩
/-- TIME_TACK_D5 at 0x0130 in TIME (R64). -/
abbrev Reg.TIME_TACK_D5 : Nat := 0x010130
abbrev Fd.TIME_TACK_D5_FIRES : Fld := ⟨63, 0⟩
/-- TIME_TACK_D6 at 0x0138 in TIME (R64). -/
abbrev Reg.TIME_TACK_D6 : Nat := 0x010138
abbrev Fd.TIME_TACK_D6_LATE : Fld := ⟨63, 32⟩
abbrev Fd.TIME_TACK_D6_SKIP : Fld := ⟨31, 0⟩
/-- TIME_TACK_D7 at 0x0140 in TIME (R64). -/
abbrev Reg.TIME_TACK_D7 : Nat := 0x010140
abbrev Fd.TIME_TACK_D7_TIMEOUT : Fld := ⟨63, 32⟩
abbrev Fd.TIME_TACK_D7_SAT : Fld := ⟨31, 0⟩
/-- TIME_FSYNC_CFG_n at 0x0200 + 0x4 × n in TIME, n = 0 to 15 (R61). -/
abbrev Reg.TIME_FSYNC_CFG (n : Nat) : Nat := 0x010200 + 0x4 * n
abbrev Fd.TIME_FSYNC_CFG_EN : Fld := ⟨31, 31⟩
abbrev Fd.TIME_FSYNC_CFG_POL : Fld := ⟨30, 30⟩
abbrev Fd.TIME_FSYNC_CFG_OVERLAP : Fld := ⟨29, 16⟩
abbrev Fd.TIME_FSYNC_CFG_WIDTH : Fld := ⟨15, 0⟩
/-- ALW_BUDGET at 0x0000 in ALW (R85). -/
abbrev Reg.ALW_BUDGET : Nat := 0x020000
abbrev Fd.ALW_BUDGET_CORE_QA : Fld := ⟨10, 0⟩
/-- ALW_DRAM_BUDGET at 0x0004 in ALW (R86). -/
abbrev Reg.ALW_DRAM_BUDGET : Nat := 0x020004
abbrev Fd.ALW_DRAM_BUDGET_DRAM_QA : Fld := ⟨8, 0⟩
/-- ALW_HELD at 0x0008 in ALW (R87). -/
abbrev Reg.ALW_HELD : Nat := 0x020008
abbrev Fd.ALW_HELD_DRAM_MA : Fld := ⟨63, 32⟩
abbrev Fd.ALW_HELD_CORE_MA : Fld := ⟨31, 0⟩
/-- ALW_STATUS at 0x0010 in ALW (R88). -/
abbrev Reg.ALW_STATUS : Nat := 0x020010
abbrev Fd.ALW_STATUS_CLAMP : Fld := ⟨5, 5⟩
abbrev Fd.ALW_STATUS_RECLAIM : Fld := ⟨4, 4⟩
abbrev Fd.ALW_STATUS_OVER : Fld := ⟨3, 3⟩
abbrev Fd.ALW_STATUS_WAIT_BE : Fld := ⟨2, 2⟩
abbrev Fd.ALW_STATUS_WAIT_TEST : Fld := ⟨1, 1⟩
abbrev Fd.ALW_STATUS_WAIT_LC : Fld := ⟨0, 0⟩
/-- ALW_CTRL at 0x0014 in ALW (R89). -/
abbrev Reg.ALW_CTRL : Nat := 0x020014
abbrev Fd.ALW_CTRL_LOCK : Fld := ⟨31, 31⟩
/-- ALW_STALE_CNT at 0x0018 in ALW (R90). -/
abbrev Reg.ALW_STALE_CNT : Nat := 0x020018
abbrev Fd.ALW_STALE_CNT_COUNT : Fld := ⟨31, 0⟩
/-- ALW_SHORT_CNT at 0x001C in ALW (R90). -/
abbrev Reg.ALW_SHORT_CNT : Nat := 0x02001C
abbrev Fd.ALW_SHORT_CNT_COUNT : Fld := ⟨31, 0⟩
/-- ALW_WAIT_CNT_n at 0x0020 + 0x4 × n in ALW, n = 0 to 2 (R91). -/
abbrev Reg.ALW_WAIT_CNT (n : Nat) : Nat := 0x020020 + 0x4 * n
abbrev Fd.ALW_WAIT_CNT_COUNT : Fld := ⟨31, 0⟩
/-- ALW_SAT at 0x0030 in ALW (R90). -/
abbrev Reg.ALW_SAT : Nat := 0x020030
abbrev Fd.ALW_SAT_SAT : Fld := ⟨4, 0⟩
/-- ALW_WAIT_NS_n at 0x0040 + 0x8 × n in ALW, n = 0 to 2 (R92). -/
abbrev Reg.ALW_WAIT_NS (n : Nat) : Nat := 0x020040 + 0x8 * n
abbrev Fd.ALW_WAIT_NS_NS : Fld := ⟨63, 0⟩
/-- PWR_DOMAIN_REQ at 0x0000 in PWR (R93). -/
abbrev Reg.PWR_DOMAIN_REQ : Nat := 0x030000
abbrev Fd.PWR_DOMAIN_REQ_CMD : Fld := ⟨31, 28⟩
abbrev Fd.PWR_DOMAIN_REQ_STATUS : Fld := ⟨27, 24⟩
abbrev Fd.PWR_DOMAIN_REQ_DOMAIN : Fld := ⟨7, 0⟩
/-- PWR_DOMAIN_STATE_n at 0x0010 + 0x4 × n in PWR, n = 0 to 6 (R94). -/
abbrev Reg.PWR_DOMAIN_STATE (n : Nat) : Nat := 0x030010 + 0x4 * n
abbrev Fd.PWR_DOMAIN_STATE_ON : Fld := ⟨31, 0⟩
/-- PWR_RATE_n at 0x0400 + 0x4 × n in PWR, n = 0 to 23 (R25). -/
abbrev Reg.PWR_RATE (n : Nat) : Nat := 0x030400 + 0x4 * n
abbrev Fd.PWR_RATE_VALID : Fld := ⟨31, 31⟩
abbrev Fd.PWR_RATE_BELOW : Fld := ⟨30, 30⟩
abbrev Fd.PWR_RATE_MIN : Fld := ⟨29, 16⟩
abbrev Fd.PWR_RATE_RATE : Fld := ⟨13, 0⟩
/-- PWR_RATE_FLOOR at 0x0460 in PWR (R26). -/
abbrev Reg.PWR_RATE_FLOOR : Nat := 0x030460
abbrev Fd.PWR_RATE_FLOOR_CLR_MIN : Fld := ⟨31, 31⟩
abbrev Fd.PWR_RATE_FLOOR_FLOOR_PM : Fld := ⟨9, 0⟩
/-- PWR_RATE_LOW_CNT at 0x0464 in PWR (R27). -/
abbrev Reg.PWR_RATE_LOW_CNT : Nat := 0x030464
abbrev Fd.PWR_RATE_LOW_CNT_COUNT : Fld := ⟨31, 0⟩
/-- PWR_RIM_REFUSE_CNT at 0x0468 in PWR (R651). -/
abbrev Reg.PWR_RIM_REFUSE_CNT : Nat := 0x030468
abbrev Fd.PWR_RIM_REFUSE_CNT_COUNT : Fld := ⟨31, 0⟩
/-- PWR_SAT at 0x046C in PWR (R651). -/
abbrev Reg.PWR_SAT : Nat := 0x03046C
abbrev Fd.PWR_SAT_SAT : Fld := ⟨1, 0⟩
/-- PWR_RIM_ON_n at 0x0500 + 0x8 × n in PWR, n = 0 to 9 (R651). -/
abbrev Reg.PWR_RIM_ON (n : Nat) : Nat := 0x030500 + 0x8 * n
abbrev Fd.PWR_RIM_ON_ON : Fld := ⟨63, 0⟩
/-- MEM_CTRL at 0x0000 in MEM (R122). -/
abbrev Reg.MEM_CTRL : Nat := 0x040000
abbrev Fd.MEM_CTRL_LOCK : Fld := ⟨31, 31⟩
abbrev Fd.MEM_CTRL_ROW_SPARE_EN : Fld := ⟨1, 1⟩
abbrev Fd.MEM_CTRL_SCRUB_EN : Fld := ⟨0, 0⟩
/-- MEM_SCRUB_CFG at 0x0004 in MEM (R123). -/
abbrev Reg.MEM_SCRUB_CFG : Nat := 0x040004
abbrev Fd.MEM_SCRUB_CFG_SCRUB_H : Fld := ⟨7, 0⟩
/-- MEM_ROW_WIN at 0x0008 in MEM (R123). -/
abbrev Reg.MEM_ROW_WIN : Nat := 0x040008
abbrev Fd.MEM_ROW_WIN_ROW_WIN_H : Fld := ⟨11, 4⟩
abbrev Fd.MEM_ROW_WIN_ROW_THR : Fld := ⟨3, 0⟩
/-- MEM_STAGE at 0x0010 in MEM (R124). -/
abbrev Reg.MEM_STAGE : Nat := 0x040010
abbrev Fd.MEM_STAGE_MOVE_PENDING : Fld := ⟨63, 63⟩
abbrev Fd.MEM_STAGE_BASE : Fld := ⟨47, 26⟩
abbrev Fd.MEM_STAGE_SIZE : Fld := ⟨6, 0⟩
/-- MEM_CE_CNT at 0x0020 in MEM (R121). -/
abbrev Reg.MEM_CE_CNT : Nat := 0x040020
abbrev Fd.MEM_CE_CNT_COUNT : Fld := ⟨31, 0⟩
/-- MEM_UE_CNT at 0x0024 in MEM (R121). -/
abbrev Reg.MEM_UE_CNT : Nat := 0x040024
abbrev Fd.MEM_UE_CNT_COUNT : Fld := ⟨31, 0⟩
/-- MEM_REFUSE_CNT at 0x0028 in MEM (R121). -/
abbrev Reg.MEM_REFUSE_CNT : Nat := 0x040028
abbrev Fd.MEM_REFUSE_CNT_COUNT : Fld := ⟨31, 0⟩
/-- MEM_TRACK_DROP_CNT at 0x002C in MEM (R121). -/
abbrev Reg.MEM_TRACK_DROP_CNT : Nat := 0x04002C
abbrev Fd.MEM_TRACK_DROP_CNT_COUNT : Fld := ⟨31, 0⟩
/-- MEM_SAT at 0x0030 in MEM (R121). -/
abbrev Reg.MEM_SAT : Nat := 0x040030
abbrev Fd.MEM_SAT_SAT : Fld := ⟨6, 0⟩
/-- MEM_ERRQ_DROP_CNT at 0x0034 in MEM (R121). -/
abbrev Reg.MEM_ERRQ_DROP_CNT : Nat := 0x040034
abbrev Fd.MEM_ERRQ_DROP_CNT_COUNT : Fld := ⟨31, 0⟩
/-- MEM_SCRUB_LATE_CNT at 0x0038 in MEM (R121). -/
abbrev Reg.MEM_SCRUB_LATE_CNT : Nat := 0x040038
abbrev Fd.MEM_SCRUB_LATE_CNT_COUNT : Fld := ⟨31, 0⟩
/-- MEM_STAGE_FULL_CNT at 0x003C in MEM (R121). -/
abbrev Reg.MEM_STAGE_FULL_CNT : Nat := 0x04003C
abbrev Fd.MEM_STAGE_FULL_CNT_COUNT : Fld := ⟨31, 0⟩
/-- MEM_TEMP_n at 0x0040 + 0x4 × n in MEM, n = 0 to 7 (R125). -/
abbrev Reg.MEM_TEMP (n : Nat) : Nat := 0x040040 + 0x4 * n
abbrev Fd.MEM_TEMP_TIER : Fld := ⟨9, 8⟩
abbrev Fd.MEM_TEMP_TJ : Fld := ⟨7, 0⟩
/-- MEM_ERR_W0 at 0x0100 in MEM (R126). -/
abbrev Reg.MEM_ERR_W0 : Nat := 0x040100
abbrev Fd.MEM_ERR_W0_VALID : Fld := ⟨63, 63⟩
abbrev Fd.MEM_ERR_W0_KIND : Fld := ⟨62, 60⟩
abbrev Fd.MEM_ERR_W0_SYMBOLS : Fld := ⟨59, 56⟩
abbrev Fd.MEM_ERR_W0_ORIGIN : Fld := ⟨55, 48⟩
abbrev Fd.MEM_ERR_W0_ADDR : Fld := ⟨47, 0⟩
/-- MEM_ERR_W1 at 0x0108 in MEM (R126). -/
abbrev Reg.MEM_ERR_W1 : Nat := 0x040108
abbrev Fd.MEM_ERR_W1_TIME : Fld := ⟨63, 0⟩
/-- MEM_ERR_W2 at 0x0110 in MEM (R126). -/
abbrev Reg.MEM_ERR_W2 : Nat := 0x040110
abbrev Fd.MEM_ERR_W2_CHANNEL : Fld := ⟨31, 22⟩
abbrev Fd.MEM_ERR_W2_BANK : Fld := ⟨21, 18⟩
abbrev Fd.MEM_ERR_W2_ROW : Fld := ⟨17, 6⟩
abbrev Fd.MEM_ERR_W2_SPARES_LEFT : Fld := ⟨5, 0⟩
/-- MEM_CHMAP_n at 0x1000 + 0x4 × n in MEM, n = 0 to 511 (R127). -/
abbrev Reg.MEM_CHMAP (n : Nat) : Nat := 0x041000 + 0x4 * n
abbrev Fd.MEM_CHMAP_COPYING : Fld := ⟨31, 31⟩
abbrev Fd.MEM_CHMAP_PHYS : Fld := ⟨9, 0⟩
/-- ARY_CTRL at 0x0000 in ARY (R214). -/
abbrev Reg.ARY_CTRL : Nat := 0x050000
abbrev Fd.ARY_CTRL_LOCK : Fld := ⟨31, 31⟩
/-- ARY_WDOG at 0x0008 in ARY (R214). -/
abbrev Reg.ARY_WDOG : Nat := 0x050008
abbrev Fd.ARY_WDOG_WDOG_US : Fld := ⟨15, 0⟩
/-- ARY_CACHE_CFG at 0x000C in ARY (R214). -/
abbrev Reg.ARY_CACHE_CFG : Nat := 0x05000C
abbrev Fd.ARY_CACHE_CFG_PIN_WAYS : Fld := ⟨3, 0⟩
/-- ARY_SP_WIN at 0x0010 in ARY (R214). -/
abbrev Reg.ARY_SP_WIN : Nat := 0x050010
abbrev Fd.ARY_SP_WIN_WIN_H : Fld := ⟨11, 4⟩
abbrev Fd.ARY_SP_WIN_THR : Fld := ⟨3, 0⟩
/-- ARY_CORE_n at 0x0100 + 0x4 × n in ARY, n = 0 to 127 (R215). -/
abbrev Reg.ARY_CORE (n : Nat) : Nat := 0x050100 + 0x4 * n
abbrev Fd.ARY_CORE_MODE : Fld := ⟨31, 30⟩
abbrev Fd.ARY_CORE_BUSY : Fld := ⟨29, 29⟩
abbrev Fd.ARY_CORE_YIELD : Fld := ⟨28, 28⟩
abbrev Fd.ARY_CORE_TENANT : Fld := ⟨23, 16⟩
abbrev Fd.ARY_CORE_PHYS : Fld := ⟨7, 0⟩
/-- ARY_SPARE_STATE at 0x0300 in ARY (R216). -/
abbrev Reg.ARY_SPARE_STATE : Nat := 0x050300
abbrev Fd.ARY_SPARE_STATE_FAILED : Fld := ⟨15, 8⟩
abbrev Fd.ARY_SPARE_STATE_IN : Fld := ⟨7, 0⟩
/-- ARY_BVOID_CNT at 0x0400 in ARY (R145). -/
abbrev Reg.ARY_BVOID_CNT : Nat := 0x050400
abbrev Fd.ARY_BVOID_CNT_COUNT : Fld := ⟨31, 0⟩
/-- ARY_SAT at 0x0404 in ARY (R214). -/
abbrev Reg.ARY_SAT : Nat := 0x050404
abbrev Fd.ARY_SAT_SAT : Fld := ⟨9, 0⟩
/-- ARY_PACK_ERR_CNT at 0x0410 in ARY (R177). -/
abbrev Reg.ARY_PACK_ERR_CNT : Nat := 0x050410
abbrev Fd.ARY_PACK_ERR_CNT_COUNT : Fld := ⟨31, 0⟩
/-- ARY_WDOG_CNT at 0x0414 in ARY (R217). -/
abbrev Reg.ARY_WDOG_CNT : Nat := 0x050414
abbrev Fd.ARY_WDOG_CNT_COUNT : Fld := ⟨31, 0⟩
/-- ARY_SPAN_CNT at 0x0418 in ARY (R217). -/
abbrev Reg.ARY_SPAN_CNT : Nat := 0x050418
abbrev Fd.ARY_SPAN_CNT_COUNT : Fld := ⟨31, 0⟩
/-- ARY_SP_CE_CNT at 0x041C in ARY (R217). -/
abbrev Reg.ARY_SP_CE_CNT : Nat := 0x05041C
abbrev Fd.ARY_SP_CE_CNT_COUNT : Fld := ⟨31, 0⟩
/-- ARY_PIN_MISS_CNT at 0x0420 in ARY (R217). -/
abbrev Reg.ARY_PIN_MISS_CNT : Nat := 0x050420
abbrev Fd.ARY_PIN_MISS_CNT_COUNT : Fld := ⟨31, 0⟩
/-- ARY_FLUSH_CNT at 0x0424 in ARY (R330). -/
abbrev Reg.ARY_FLUSH_CNT : Nat := 0x050424
abbrev Fd.ARY_FLUSH_CNT_COUNT : Fld := ⟨31, 0⟩
/-- ARY_HOT_FAIL_CNT at 0x0428 in ARY (R330). -/
abbrev Reg.ARY_HOT_FAIL_CNT : Nat := 0x050428
abbrev Fd.ARY_HOT_FAIL_CNT_COUNT : Fld := ⟨31, 0⟩
/-- ARY_FORCED_CNT at 0x042C in ARY (R330). -/
abbrev Reg.ARY_FORCED_CNT : Nat := 0x05042C
abbrev Fd.ARY_FORCED_CNT_COUNT : Fld := ⟨31, 0⟩
/-- ARY_SAVE_FULL_CNT at 0x0430 in ARY (R330). -/
abbrev Reg.ARY_SAVE_FULL_CNT : Nat := 0x050430
abbrev Fd.ARY_SAVE_FULL_CNT_COUNT : Fld := ⟨31, 0⟩
/-- ARY_ZSKIP_n at 0x0480 + 0x8 × n in ARY, n = 0 to 15 (R178). -/
abbrev Reg.ARY_ZSKIP (n : Nat) : Nat := 0x050480 + 0x8 * n
abbrev Fd.ARY_ZSKIP_STEPS : Fld := ⟨63, 0⟩
/-- ARY_SWITCH_TOTAL at 0x0500 in ARY (R218). -/
abbrev Reg.ARY_SWITCH_TOTAL : Nat := 0x050500
abbrev Fd.ARY_SWITCH_TOTAL_SWITCHES : Fld := ⟨63, 0⟩
/-- ARY_SCHED_CTRL at 0x0600 in ARY (R324). -/
abbrev Reg.ARY_SCHED_CTRL : Nat := 0x050600
abbrev Fd.ARY_SCHED_CTRL_FAULT_WIN_S : Fld := ⟨15, 4⟩
abbrev Fd.ARY_SCHED_CTRL_FAULT_THR : Fld := ⟨3, 0⟩
/-- ARY_SAVE_CFG at 0x0608 in ARY (R324). -/
abbrev Reg.ARY_SAVE_CFG : Nat := 0x050608
abbrev Fd.ARY_SAVE_CFG_MOVE_PENDING : Fld := ⟨63, 63⟩
abbrev Fd.ARY_SAVE_CFG_BASE : Fld := ⟨47, 26⟩
abbrev Fd.ARY_SAVE_CFG_SIZE : Fld := ⟨6, 0⟩
/-- ARY_FLUSH_REC0 at 0x0610 in ARY (R325). -/
abbrev Reg.ARY_FLUSH_REC0 : Nat := 0x050610
abbrev Fd.ARY_FLUSH_REC0_TIME : Fld := ⟨63, 0⟩
/-- ARY_FLUSH_REC1 at 0x0618 in ARY (R325). -/
abbrev Reg.ARY_FLUSH_REC1 : Nat := 0x050618
abbrev Fd.ARY_FLUSH_REC1_REQUEUED : Fld := ⟨63, 48⟩
abbrev Fd.ARY_FLUSH_REC1_FAULTED : Fld := ⟨47, 40⟩
abbrev Fd.ARY_FLUSH_REC1_ORIGIN : Fld := ⟨39, 32⟩
abbrev Fd.ARY_FLUSH_REC1_DURATION_NS : Fld := ⟨31, 16⟩
abbrev Fd.ARY_FLUSH_REC1_CAUSE : Fld := ⟨15, 8⟩
abbrev Fd.ARY_FLUSH_REC1_CORE : Fld := ⟨7, 0⟩
/-- ARY_SUSPEND at 0x0620 in ARY (R325). -/
abbrev Reg.ARY_SUSPEND : Nat := 0x050620
abbrev Fd.ARY_SUSPEND_SUSP : Fld := ⟨63, 0⟩
/-- ARY_TEST_NS at 0x0630 in ARY (R329). -/
abbrev Reg.ARY_TEST_NS : Nat := 0x050630
abbrev Fd.ARY_TEST_NS_NS : Fld := ⟨63, 0⟩
/-- ARY_HOT_CFG at 0x0700 in ARY (R324). -/
abbrev Reg.ARY_HOT_CFG : Nat := 0x050700
abbrev Fd.ARY_HOT_CFG_MOVE_PENDING : Fld := ⟨63, 63⟩
abbrev Fd.ARY_HOT_CFG_BASE : Fld := ⟨47, 26⟩
abbrev Fd.ARY_HOT_CFG_SIZE : Fld := ⟨10, 0⟩
/-- ARY_HOT_SEL at 0x0710 in ARY (R326). -/
abbrev Reg.ARY_HOT_SEL : Nat := 0x050710
abbrev Fd.ARY_HOT_SEL_CMD : Fld := ⟨31, 28⟩
abbrev Fd.ARY_HOT_SEL_STATUS : Fld := ⟨27, 24⟩
abbrev Fd.ARY_HOT_SEL_INDEX : Fld := ⟨11, 0⟩
/-- ARY_HOT_D0 at 0x0718 in ARY (R327). -/
abbrev Reg.ARY_HOT_D0 : Nat := 0x050718
abbrev Fd.ARY_HOT_D0_KEY : Fld := ⟨62, 0⟩
/-- ARY_HOT_D1 at 0x0720 in ARY (R327). -/
abbrev Reg.ARY_HOT_D1 : Nat := 0x050720
abbrev Fd.ARY_HOT_D1_KIND : Fld := ⟨63, 62⟩
abbrev Fd.ARY_HOT_D1_LUN : Fld := ⟨61, 56⟩
abbrev Fd.ARY_HOT_D1_SOURCE : Fld := ⟨55, 0⟩
/-- ARY_HOT_D2 at 0x0728 in ARY (R327). -/
abbrev Reg.ARY_HOT_D2 : Nat := 0x050728
abbrev Fd.ARY_HOT_D2_OWNER : Fld := ⟨63, 56⟩
abbrev Fd.ARY_HOT_D2_PIN : Fld := ⟨55, 55⟩
abbrev Fd.ARY_HOT_D2_CPIN : Fld := ⟨54, 54⟩
abbrev Fd.ARY_HOT_D2_STATE : Fld := ⟨53, 52⟩
abbrev Fd.ARY_HOT_D2_LENGTH : Fld := ⟨39, 0⟩
/-- ARY_HOT_D3 at 0x0730 in ARY (R327). -/
abbrev Reg.ARY_HOT_D3 : Nat := 0x050730
abbrev Fd.ARY_HOT_D3_LAST_USE : Fld := ⟨63, 0⟩
/-- ARY_HOT_D4 at 0x0738 in ARY (R327). -/
abbrev Reg.ARY_HOT_D4 : Nat := 0x050738
abbrev Fd.ARY_HOT_D4_LOADS : Fld := ⟨63, 0⟩
/-- ARY_SHARE_n at 0x0800 + 0x8 × n in ARY, n = 0 to 63 (R328). -/
abbrev Reg.ARY_SHARE (n : Nat) : Nat := 0x050800 + 0x8 * n
abbrev Fd.ARY_SHARE_HOT_QUOTA : Fld := ⟨63, 48⟩
abbrev Fd.ARY_SHARE_SHARE_LC : Fld := ⟨47, 32⟩
abbrev Fd.ARY_SHARE_SHARE_TEST : Fld := ⟨31, 16⟩
abbrev Fd.ARY_SHARE_SHARE_BE : Fld := ⟨15, 0⟩
/-- ARY_ACCT_NS_LC_n at 0x1000 + 0x40 × n in ARY, n = 0 to 63 (R329). -/
abbrev Reg.ARY_ACCT_NS_LC (n : Nat) : Nat := 0x051000 + 0x40 * n
abbrev Fd.ARY_ACCT_NS_LC_NS_LC : Fld := ⟨63, 0⟩
/-- ARY_ACCT_NS_TEST_n at 0x1008 + 0x40 × n in ARY, n = 0 to 63 (R329). -/
abbrev Reg.ARY_ACCT_NS_TEST (n : Nat) : Nat := 0x051008 + 0x40 * n
abbrev Fd.ARY_ACCT_NS_TEST_NS_TEST : Fld := ⟨63, 0⟩
/-- ARY_ACCT_NS_BE_n at 0x1010 + 0x40 × n in ARY, n = 0 to 63 (R329). -/
abbrev Reg.ARY_ACCT_NS_BE (n : Nat) : Nat := 0x051010 + 0x40 * n
abbrev Fd.ARY_ACCT_NS_BE_NS_BE : Fld := ⟨63, 0⟩
/-- ARY_ACCT_STEPS_n at 0x1018 + 0x40 × n in ARY, n = 0 to 63 (R329). -/
abbrev Reg.ARY_ACCT_STEPS (n : Nat) : Nat := 0x051018 + 0x40 * n
abbrev Fd.ARY_ACCT_STEPS_STEPS : Fld := ⟨63, 0⟩
/-- ARY_ACCT_FLUSHED_NS_n at 0x1020 + 0x40 × n in ARY, n = 0 to 63 (R329). -/
abbrev Reg.ARY_ACCT_FLUSHED_NS (n : Nat) : Nat := 0x051020 + 0x40 * n
abbrev Fd.ARY_ACCT_FLUSHED_NS_FLUSHED_NS : Fld := ⟨63, 0⟩
/-- RING_WAKE at 0x0000 in RING (R285). -/
abbrev Reg.RING_WAKE : Nat := 0x060000
abbrev Fd.RING_WAKE_RING : Fld := ⟨9, 0⟩
/-- RING_DB_BAD_CNT at 0x0010 in RING (R290). -/
abbrev Reg.RING_DB_BAD_CNT : Nat := 0x060010
abbrev Fd.RING_DB_BAD_CNT_COUNT : Fld := ⟨31, 0⟩
/-- RING_SEQ_BAD_CNT at 0x0014 in RING (R290). -/
abbrev Reg.RING_SEQ_BAD_CNT : Nat := 0x060014
abbrev Fd.RING_SEQ_BAD_CNT_COUNT : Fld := ⟨31, 0⟩
/-- RING_TACK_MISS_CNT at 0x0018 in RING (R290). -/
abbrev Reg.RING_TACK_MISS_CNT : Nat := 0x060018
abbrev Fd.RING_TACK_MISS_CNT_COUNT : Fld := ⟨31, 0⟩
/-- RING_SAT at 0x001C in RING (R290). -/
abbrev Reg.RING_SAT : Nat := 0x06001C
abbrev Fd.RING_SAT_SAT : Fld := ⟨2, 0⟩
/-- RING_DESC_n at 0x8000 + 0x20 × n in RING, n = 0 to 1023 (R286). -/
abbrev Reg.RING_DESC (n : Nat) : Nat := 0x068000 + 0x20 * n
abbrev Fd.RING_DESC_DESC_BASE : Fld := ⟨47, 6⟩
abbrev Fd.RING_DESC_SIZE_CODE : Fld := ⟨3, 0⟩
/-- RING_CPL_n at 0x8008 + 0x20 × n in RING, n = 0 to 1023 (R286). -/
abbrev Reg.RING_CPL (n : Nat) : Nat := 0x068008 + 0x20 * n
abbrev Fd.RING_CPL_CPL_BASE : Fld := ⟨47, 6⟩
/-- RING_DB_n at 0x8010 + 0x20 × n in RING, n = 0 to 1023 (R286). -/
abbrev Reg.RING_DB (n : Nat) : Nat := 0x068010 + 0x20 * n
abbrev Fd.RING_DB_DB_ADDR : Fld := ⟨47, 4⟩
/-- RING_CFG_n at 0x8018 + 0x20 × n in RING, n = 0 to 1023 (R287). -/
abbrev Reg.RING_CFG (n : Nat) : Nat := 0x068018 + 0x20 * n
abbrev Fd.RING_CFG_EN : Fld := ⟨63, 63⟩
abbrev Fd.RING_CFG_CANCEL : Fld := ⟨62, 62⟩
abbrev Fd.RING_CFG_CLASS : Fld := ⟨61, 60⟩
abbrev Fd.RING_CFG_POLLED : Fld := ⟨59, 59⟩
abbrev Fd.RING_CFG_COMPOSITOR : Fld := ⟨58, 58⟩
abbrev Fd.RING_CFG_GEN : Fld := ⟨47, 32⟩
abbrev Fd.RING_CFG_POLL_US : Fld := ⟨31, 22⟩
abbrev Fd.RING_CFG_LEASE_DEF_MS : Fld := ⟨21, 14⟩
abbrev Fd.RING_CFG_WAIT_DEF_MS : Fld := ⟨13, 6⟩
abbrev Fd.RING_CFG_IRQ_VEC : Fld := ⟨5, 0⟩
/-- KNOT_CTRL at 0x0000 in KNOT (R288). -/
abbrev Reg.KNOT_CTRL : Nat := 0x070000
abbrev Fd.KNOT_CTRL_LOCK : Fld := ⟨31, 31⟩
abbrev Fd.KNOT_CTRL_RANGE_REFUSED : Fld := ⟨0, 0⟩
/-- KNOT_SEL at 0x0010 in KNOT (R288). -/
abbrev Reg.KNOT_SEL : Nat := 0x070010
abbrev Fd.KNOT_SEL_CMD : Fld := ⟨31, 28⟩
abbrev Fd.KNOT_SEL_STATUS : Fld := ⟨27, 24⟩
abbrev Fd.KNOT_SEL_INDEX : Fld := ⟨13, 0⟩
/-- KNOT_DATA at 0x0018 in KNOT (R288). -/
abbrev Reg.KNOT_DATA : Nat := 0x070018
abbrev Fd.KNOT_DATA_VALUE : Fld := ⟨63, 0⟩
/-- KNOT_TMO_CNT at 0x0024 in KNOT (R290). -/
abbrev Reg.KNOT_TMO_CNT : Nat := 0x070024
abbrev Fd.KNOT_TMO_CNT_COUNT : Fld := ⟨31, 0⟩
/-- KNOT_REMOTE_DROP_CNT at 0x0028 in KNOT (R290). -/
abbrev Reg.KNOT_REMOTE_DROP_CNT : Nat := 0x070028
abbrev Fd.KNOT_REMOTE_DROP_CNT_COUNT : Fld := ⟨31, 0⟩
/-- KNOT_SATW at 0x002C in KNOT (R290). -/
abbrev Reg.KNOT_SATW : Nat := 0x07002C
abbrev Fd.KNOT_SATW_SAT : Fld := ⟨1, 0⟩
/-- KNOT_RANGE_n at 0x0100 + 0x8 × n in KNOT, n = 0 to 63 (R289). -/
abbrev Reg.KNOT_RANGE (n : Nat) : Nat := 0x070100 + 0x8 * n
abbrev Fd.KNOT_RANGE_COUNT : Fld := ⟨46, 32⟩
abbrev Fd.KNOT_RANGE_BASE : Fld := ⟨13, 0⟩
/-- KNOT_MIRROR_n at 0x0300 + 0x8 × n in KNOT, n = 0 to 63 (R289). -/
abbrev Reg.KNOT_MIRROR (n : Nat) : Nat := 0x070300 + 0x8 * n
abbrev Fd.KNOT_MIRROR_MIRROR_BASE : Fld := ⟨47, 3⟩
abbrev Fd.KNOT_MIRROR_EN : Fld := ⟨0, 0⟩
/-- KNOT_SAT_n at 0x0800 + 0x8 × n in KNOT, n = 0 to 255 (R652). -/
abbrev Reg.KNOT_SAT (n : Nat) : Nat := 0x070800 + 0x8 * n
abbrev Fd.KNOT_SAT_SAT : Fld := ⟨63, 0⟩
/-- INTK_CTRL at 0x0000 in INTK (R365). -/
abbrev Reg.INTK_CTRL : Nat := 0x080000
abbrev Fd.INTK_CTRL_LOCK : Fld := ⟨31, 31⟩
abbrev Fd.INTK_CTRL_UNORD_COUNT : Fld := ⟨2, 0⟩
/-- INTK_RX_CFG_n at 0x0100 + 0x8 × n in INTK, n = 0 to 3 (R365). -/
abbrev Reg.INTK_RX_CFG (n : Nat) : Nat := 0x080100 + 0x8 * n
abbrev Fd.INTK_RX_CFG_CPHY : Fld := ⟨2, 2⟩
abbrev Fd.INTK_RX_CFG_RATE : Fld := ⟨1, 0⟩
/-- CH_SRC_n at 0x1000 + 0x100 × n in INTK, n = 0 to 15 (R366). -/
abbrev Reg.CH_SRC (n : Nat) : Nat := 0x081000 + 0x100 * n
abbrev Fd.CH_SRC_EN : Fld := ⟨63, 63⟩
abbrev Fd.CH_SRC_UNORD : Fld := ⟨62, 62⟩
abbrev Fd.CH_SRC_KIND : Fld := ⟨61, 60⟩
abbrev Fd.CH_SRC_UNIT : Fld := ⟨59, 58⟩
abbrev Fd.CH_SRC_VC : Fld := ⟨57, 56⟩
abbrev Fd.CH_SRC_DT : Fld := ⟨55, 50⟩
abbrev Fd.CH_SRC_TRIG_EN : Fld := ⟨49, 49⟩
abbrev Fd.CH_SRC_TRIG_PIN : Fld := ⟨48, 45⟩
abbrev Fd.CH_SRC_BATCH : Fld := ⟨44, 39⟩
abbrev Fd.CH_SRC_CFG_ERR : Fld := ⟨38, 38⟩
abbrev Fd.CH_SRC_SLOTS : Fld := ⟨31, 16⟩
abbrev Fd.CH_SRC_GEN : Fld := ⟨15, 0⟩
/-- CH_FMT_n at 0x1008 + 0x100 × n in INTK, n = 0 to 15 (R367). -/
abbrev Reg.CH_FMT (n : Nat) : Nat := 0x081008 + 0x100 * n
abbrev Fd.CH_FMT_IN_FMT : Fld := ⟨63, 56⟩
abbrev Fd.CH_FMT_OUT_FMT : Fld := ⟨55, 48⟩
abbrev Fd.CH_FMT_MATRIX : Fld := ⟨47, 46⟩
abbrev Fd.CH_FMT_FULL_RANGE : Fld := ⟨45, 45⟩
abbrev Fd.CH_FMT_PLANAR : Fld := ⟨44, 44⟩
abbrev Fd.CH_FMT_DECIM : Fld := ⟨43, 42⟩
abbrev Fd.CH_FMT_OUT_CH : Fld := ⟨41, 39⟩
abbrev Fd.CH_FMT_OUT_SCALE : Fld := ⟨31, 0⟩
/-- CH_CROP_n at 0x1010 + 0x100 × n in INTK, n = 0 to 15 (R368). -/
abbrev Reg.CH_CROP (n : Nat) : Nat := 0x081010 + 0x100 * n
abbrev Fd.CH_CROP_X0 : Fld := ⟨63, 48⟩
abbrev Fd.CH_CROP_Y0 : Fld := ⟨47, 32⟩
abbrev Fd.CH_CROP_W : Fld := ⟨31, 16⟩
abbrev Fd.CH_CROP_H : Fld := ⟨15, 0⟩
/-- CH_TIMING_n at 0x1018 + 0x100 × n in INTK, n = 0 to 15 (R368). -/
abbrev Reg.CH_TIMING (n : Nat) : Nat := 0x081018 + 0x100 * n
abbrev Fd.CH_TIMING_PERIOD_US : Fld := ⟨63, 40⟩
abbrev Fd.CH_TIMING_LATE_US : Fld := ⟨39, 16⟩
abbrev Fd.CH_TIMING_REGION_HOLD : Fld := ⟨3, 0⟩
/-- CH_BUF0_n at 0x1020 + 0x100 × n in INTK, n = 0 to 15 (R369). -/
abbrev Reg.CH_BUF0 (n : Nat) : Nat := 0x081020 + 0x100 * n
abbrev Fd.CH_BUF0_DATA_BASE : Fld := ⟨47, 6⟩
abbrev Fd.CH_BUF0_NBUF : Fld := ⟨5, 0⟩
/-- CH_BUF1_n at 0x1028 + 0x100 × n in INTK, n = 0 to 15 (R369). -/
abbrev Reg.CH_BUF1 (n : Nat) : Nat := 0x081028 + 0x100 * n
abbrev Fd.CH_BUF1_SLOT_4K : Fld := ⟨63, 48⟩
abbrev Fd.CH_BUF1_CTL_BASE : Fld := ⟨47, 13⟩
/-- CH_QUEUE_n at 0x1030 + 0x100 × n in INTK, n = 0 to 15 (R369). -/
abbrev Reg.CH_QUEUE (n : Nat) : Nat := 0x081030 + 0x100 * n
abbrev Fd.CH_QUEUE_POLLED : Fld := ⟨63, 63⟩
abbrev Fd.CH_QUEUE_POLL_US : Fld := ⟨62, 53⟩
abbrev Fd.CH_QUEUE_QBASE : Fld := ⟨47, 6⟩
abbrev Fd.CH_QUEUE_SIZE_CODE : Fld := ⟨3, 0⟩
/-- CH_KNOT_n at 0x1038 + 0x100 × n in INTK, n = 0 to 15 (R369). -/
abbrev Reg.CH_KNOT (n : Nat) : Nat := 0x081038 + 0x100 * n
abbrev Fd.CH_KNOT_REL_EN : Fld := ⟨31, 31⟩
abbrev Fd.CH_KNOT_REL_KNOT : Fld := ⟨29, 16⟩
abbrev Fd.CH_KNOT_SAMPLE_KNOT : Fld := ⟨13, 0⟩
/-- CH_DELIVERED_n at 0x1040 + 0x100 × n in INTK, n = 0 to 15 (R370). -/
abbrev Reg.CH_DELIVERED (n : Nat) : Nat := 0x081040 + 0x100 * n
abbrev Fd.CH_DELIVERED_SAMPLES : Fld := ⟨63, 0⟩
/-- CH_NORM_n_k at 0x1048 + 0x100 × n + 0x8 × k in INTK (R370). -/
abbrev Reg.CH_NORM (n k : Nat) : Nat := 0x081048 + 0x100 * n + 0x8 * k
abbrev Fd.CH_NORM_MEAN : Fld := ⟨63, 32⟩
abbrev Fd.CH_NORM_SCALE : Fld := ⟨31, 0⟩
/-- CH_ROI_A_n_k at 0x1090 + 0x100 × n + 0x10 × k in INTK (R370). -/
abbrev Reg.CH_ROI_A (n k : Nat) : Nat := 0x081090 + 0x100 * n + 0x10 * k
abbrev Fd.CH_ROI_A_EN : Fld := ⟨63, 63⟩
abbrev Fd.CH_ROI_A_SLOTS : Fld := ⟨62, 56⟩
abbrev Fd.CH_ROI_A_WIN_W : Fld := ⟨55, 44⟩
abbrev Fd.CH_ROI_A_WIN_H : Fld := ⟨43, 32⟩
abbrev Fd.CH_ROI_A_CLASS_MASK : Fld := ⟨31, 0⟩
/-- CH_ROI_B_n_k at 0x1098 + 0x100 × n + 0x10 × k in INTK (R370). -/
abbrev Reg.CH_ROI_B (n k : Nat) : Nat := 0x081098 + 0x100 * n + 0x10 * k
abbrev Fd.CH_ROI_B_OFF : Fld := ⟨31, 0⟩
/-- CH_VOID_n at 0x10D0 + 0x100 × n in INTK, n = 0 to 15 (R371). -/
abbrev Reg.CH_VOID (n : Nat) : Nat := 0x0810D0 + 0x100 * n
abbrev Fd.CH_VOID_COUNT : Fld := ⟨31, 0⟩
/-- CH_LATE_DROP_n at 0x10D4 + 0x100 × n in INTK, n = 0 to 15 (R371). -/
abbrev Reg.CH_LATE_DROP (n : Nat) : Nat := 0x0810D4 + 0x100 * n
abbrev Fd.CH_LATE_DROP_COUNT : Fld := ⟨31, 0⟩
/-- CH_OVERRUN_n at 0x10D8 + 0x100 × n in INTK, n = 0 to 15 (R371). -/
abbrev Reg.CH_OVERRUN (n : Nat) : Nat := 0x0810D8 + 0x100 * n
abbrev Fd.CH_OVERRUN_COUNT : Fld := ⟨31, 0⟩
/-- CH_REGION_DROP_n at 0x10DC + 0x100 × n in INTK, n = 0 to 15 (R371). -/
abbrev Reg.CH_REGION_DROP (n : Nat) : Nat := 0x0810DC + 0x100 * n
abbrev Fd.CH_REGION_DROP_COUNT : Fld := ⟨31, 0⟩
/-- CH_CAM_GAP_n at 0x10E0 + 0x100 × n in INTK, n = 0 to 15 (R371). -/
abbrev Reg.CH_CAM_GAP (n : Nat) : Nat := 0x0810E0 + 0x100 * n
abbrev Fd.CH_CAM_GAP_COUNT : Fld := ⟨31, 0⟩
/-- CH_UNEXPECTED_n at 0x10E4 + 0x100 × n in INTK, n = 0 to 15 (R371). -/
abbrev Reg.CH_UNEXPECTED (n : Nat) : Nat := 0x0810E4 + 0x100 * n
abbrev Fd.CH_UNEXPECTED_COUNT : Fld := ⟨31, 0⟩
/-- CH_HDR_CORR_n at 0x10E8 + 0x100 × n in INTK, n = 0 to 15 (R371). -/
abbrev Reg.CH_HDR_CORR (n : Nat) : Nat := 0x0810E8 + 0x100 * n
abbrev Fd.CH_HDR_CORR_COUNT : Fld := ⟨31, 0⟩
/-- CH_SAT_n at 0x10EC + 0x100 × n in INTK, n = 0 to 15 (R371). -/
abbrev Reg.CH_SAT (n : Nat) : Nat := 0x0810EC + 0x100 * n
abbrev Fd.CH_SAT_SAT : Fld := ⟨6, 0⟩
/-- FUSE_CTRL at 0x0000 in FUSE (R393). -/
abbrev Reg.FUSE_CTRL : Nat := 0x090000
abbrev Fd.FUSE_CTRL_LOCK : Fld := ⟨31, 31⟩
/-- FUSE_GRID_CFG_n at 0x0100 + 0x40 × n in FUSE, n = 0 to 1 (R393). -/
abbrev Reg.FUSE_GRID_CFG (n : Nat) : Nat := 0x090100 + 0x40 * n
abbrev Fd.FUSE_GRID_CFG_EN : Fld := ⟨63, 63⟩
abbrev Fd.FUSE_GRID_CFG_REL_EN : Fld := ⟨62, 62⟩
abbrev Fd.FUSE_GRID_CFG_OUT_FMT : Fld := ⟨61, 60⟩
abbrev Fd.FUSE_GRID_CFG_CFG_ERR : Fld := ⟨59, 59⟩
abbrev Fd.FUSE_GRID_CFG_NSLOT_M1 : Fld := ⟨58, 56⟩
abbrev Fd.FUSE_GRID_CFG_GRID_C32 : Fld := ⟨55, 52⟩
abbrev Fd.FUSE_GRID_CFG_CELL_MM : Fld := ⟨47, 32⟩
abbrev Fd.FUSE_GRID_CFG_GEN : Fld := ⟨31, 16⟩
abbrev Fd.FUSE_GRID_CFG_GRID_KNOT : Fld := ⟨13, 0⟩
/-- FUSE_GRID_DATA_n at 0x0108 + 0x40 × n in FUSE, n = 0 to 1 (R393). -/
abbrev Reg.FUSE_GRID_DATA (n : Nat) : Nat := 0x090108 + 0x40 * n
abbrev Fd.FUSE_GRID_DATA_GSLOT_4K : Fld := ⟨63, 48⟩
abbrev Fd.FUSE_GRID_DATA_GBASE : Fld := ⟨47, 6⟩
/-- FUSE_GRID_CTL_n at 0x0110 + 0x40 × n in FUSE, n = 0 to 1 (R393). -/
abbrev Reg.FUSE_GRID_CTL (n : Nat) : Nat := 0x090110 + 0x40 * n
abbrev Fd.FUSE_GRID_CTL_REL_KNOT : Fld := ⟨61, 48⟩
abbrev Fd.FUSE_GRID_CTL_GCTL : Fld := ⟨47, 8⟩
/-- FUSE_TRK_W0_n at 0x0200 + 0x40 × n in FUSE, n = 0 to 1 (R395). -/
abbrev Reg.FUSE_TRK_W0 (n : Nat) : Nat := 0x090200 + 0x40 * n
abbrev Fd.FUSE_TRK_W0_EN : Fld := ⟨63, 63⟩
abbrev Fd.FUSE_TRK_W0_CLASS_AWARE : Fld := ⟨62, 62⟩
abbrev Fd.FUSE_TRK_W0_BORN_HITS : Fld := ⟨61, 58⟩
abbrev Fd.FUSE_TRK_W0_BORN_WIN : Fld := ⟨57, 54⟩
abbrev Fd.FUSE_TRK_W0_CONF_HITS : Fld := ⟨53, 50⟩
abbrev Fd.FUSE_TRK_W0_CONF_WIN : Fld := ⟨49, 46⟩
abbrev Fd.FUSE_TRK_W0_DEL_MISS : Fld := ⟨45, 38⟩
abbrev Fd.FUSE_TRK_W0_ALPHA : Fld := ⟨37, 30⟩
abbrev Fd.FUSE_TRK_W0_BETA : Fld := ⟨29, 22⟩
abbrev Fd.FUSE_TRK_W0_GATE : Fld := ⟨15, 0⟩
/-- FUSE_TRK_W1_n at 0x0208 + 0x40 × n in FUSE, n = 0 to 1 (R395). -/
abbrev Reg.FUSE_TRK_W1 (n : Nat) : Nat := 0x090208 + 0x40 * n
abbrev Fd.FUSE_TRK_W1_NL_M1 : Fld := ⟨63, 61⟩
abbrev Fd.FUSE_TRK_W1_LBASE : Fld := ⟨47, 12⟩
/-- FUSE_TRK_W2_n at 0x0210 + 0x40 × n in FUSE, n = 0 to 1 (R395). -/
abbrev Reg.FUSE_TRK_W2 (n : Nat) : Nat := 0x090210 + 0x40 * n
abbrev Fd.FUSE_TRK_W2_NT_M1 : Fld := ⟨63, 61⟩
abbrev Fd.FUSE_TRK_W2_TBASE : Fld := ⟨47, 12⟩
/-- FUSE_TRK_W3_n at 0x0218 + 0x40 × n in FUSE, n = 0 to 1 (R395). -/
abbrev Reg.FUSE_TRK_W3 (n : Nat) : Nat := 0x090218 + 0x40 * n
abbrev Fd.FUSE_TRK_W3_OUT_KNOT : Fld := ⟨61, 48⟩
abbrev Fd.FUSE_TRK_W3_LIST_KNOT : Fld := ⟨45, 32⟩
abbrev Fd.FUSE_TRK_W3_NEXT_ID : Fld := ⟨31, 16⟩
abbrev Fd.FUSE_TRK_W3_LIVE : Fld := ⟨15, 0⟩
/-- FUSE_TRK_W4_n at 0x0220 + 0x40 × n in FUSE, n = 0 to 1 (R395). -/
abbrev Reg.FUSE_TRK_W4 (n : Nat) : Nat := 0x090220 + 0x40 * n
abbrev Fd.FUSE_TRK_W4_BIRTHS : Fld := ⟨63, 0⟩
/-- FUSE_PASS_DROP_n at 0x0300 + 0x20 × n in FUSE, n = 0 to 1 (R396). -/
abbrev Reg.FUSE_PASS_DROP (n : Nat) : Nat := 0x090300 + 0x20 * n
abbrev Fd.FUSE_PASS_DROP_COUNT : Fld := ⟨31, 0⟩
/-- FUSE_STALE_PASS_n at 0x0304 + 0x20 × n in FUSE, n = 0 to 1 (R396). -/
abbrev Reg.FUSE_STALE_PASS (n : Nat) : Nat := 0x090304 + 0x20 * n
abbrev Fd.FUSE_STALE_PASS_COUNT : Fld := ⟨31, 0⟩
/-- FUSE_TORN_n at 0x0308 + 0x20 × n in FUSE, n = 0 to 1 (R396). -/
abbrev Reg.FUSE_TORN (n : Nat) : Nat := 0x090308 + 0x20 * n
abbrev Fd.FUSE_TORN_COUNT : Fld := ⟨31, 0⟩
/-- FUSE_EARLY_n at 0x030C + 0x20 × n in FUSE, n = 0 to 1 (R396). -/
abbrev Reg.FUSE_EARLY (n : Nat) : Nat := 0x09030C + 0x20 * n
abbrev Fd.FUSE_EARLY_COUNT : Fld := ⟨31, 0⟩
/-- FUSE_NO_LIST_n at 0x0310 + 0x20 × n in FUSE, n = 0 to 1 (R396). -/
abbrev Reg.FUSE_NO_LIST (n : Nat) : Nat := 0x090310 + 0x20 * n
abbrev Fd.FUSE_NO_LIST_COUNT : Fld := ⟨31, 0⟩
/-- FUSE_FULL_DROP_n at 0x0314 + 0x20 × n in FUSE, n = 0 to 1 (R396). -/
abbrev Reg.FUSE_FULL_DROP (n : Nat) : Nat := 0x090314 + 0x20 * n
abbrev Fd.FUSE_FULL_DROP_COUNT : Fld := ⟨31, 0⟩
/-- FUSE_SAT_n at 0x0318 + 0x20 × n in FUSE, n = 0 to 1 (R396). -/
abbrev Reg.FUSE_SAT (n : Nat) : Nat := 0x090318 + 0x20 * n
abbrev Fd.FUSE_SAT_SAT : Fld := ⟨5, 0⟩
/-- FUSE_FEED_W0_n_k at 0x1000 + 0x400 × n + 0x40 × k in FUSE (R394). -/
abbrev Reg.FUSE_FEED_W0 (n k : Nat) : Nat := 0x091000 + 0x400 * n + 0x40 * k
abbrev Fd.FUSE_FEED_W0_EN : Fld := ⟨63, 63⟩
abbrev Fd.FUSE_FEED_W0_NF_M1 : Fld := ⟨62, 60⟩
abbrev Fd.FUSE_FEED_W0_LIMIT_Q : Fld := ⟨59, 54⟩
abbrev Fd.FUSE_FEED_W0_CH_OFF32 : Fld := ⟨53, 50⟩
abbrev Fd.FUSE_FEED_W0_CF32 : Fld := ⟨49, 46⟩
abbrev Fd.FUSE_FEED_W0_PERIOD_US : Fld := ⟨23, 0⟩
/-- FUSE_FEED_W1_n_k at 0x1008 + 0x400 × n + 0x40 × k in FUSE (R394). -/
abbrev Reg.FUSE_FEED_W1 (n k : Nat) : Nat := 0x091008 + 0x400 * n + 0x40 * k
abbrev Fd.FUSE_FEED_W1_ENT_MAX : Fld := ⟨63, 48⟩
abbrev Fd.FUSE_FEED_W1_FBASE : Fld := ⟨47, 7⟩
/-- FUSE_FEED_W2_n_k at 0x1010 + 0x400 × n + 0x40 × k in FUSE (R394). -/
abbrev Reg.FUSE_FEED_W2 (n k : Nat) : Nat := 0x091010 + 0x400 * n + 0x40 * k
abbrev Fd.FUSE_FEED_W2_M : Fld := ⟨63, 32⟩
abbrev Fd.FUSE_FEED_W2_WGAIN : Fld := ⟨31, 0⟩
/-- FUSE_FEED_W3_n_k at 0x1018 + 0x400 × n + 0x40 × k in FUSE (R394). -/
abbrev Reg.FUSE_FEED_W3 (n k : Nat) : Nat := 0x091018 + 0x400 * n + 0x40 * k
abbrev Fd.FUSE_FEED_W3_PTAB : Fld := ⟨47, 3⟩
/-- FUSE_FEED_W4_n_k at 0x1020 + 0x400 × n + 0x40 × k in FUSE (R394). -/
abbrev Reg.FUSE_FEED_W4 (n k : Nat) : Nat := 0x091020 + 0x400 * n + 0x40 * k
abbrev Fd.FUSE_FEED_W4_FH : Fld := ⟨63, 48⟩
abbrev Fd.FUSE_FEED_W4_FW : Fld := ⟨47, 32⟩
abbrev Fd.FUSE_FEED_W4_ENTRIES : Fld := ⟨19, 0⟩
/-- GFX_CTRL at 0x0000 in GFX (R424). -/
abbrev Reg.GFX_CTRL : Nat := 0x0A0000
abbrev Fd.GFX_CTRL_LOCK : Fld := ⟨31, 31⟩
abbrev Fd.GFX_CTRL_SPLIT_PRIMS : Fld := ⟨15, 0⟩
/-- GFX_SPLIT_CNT at 0x0010 in GFX (R429). -/
abbrev Reg.GFX_SPLIT_CNT : Nat := 0x0A0010
abbrev Fd.GFX_SPLIT_CNT_COUNT : Fld := ⟨31, 0⟩
/-- GFX_HEAP_SPILL_CNT at 0x0014 in GFX (R429). -/
abbrev Reg.GFX_HEAP_SPILL_CNT : Nat := 0x0A0014
abbrev Fd.GFX_HEAP_SPILL_CNT_COUNT : Fld := ⟨31, 0⟩
/-- GFX_SAT at 0x0018 in GFX (R429). -/
abbrev Reg.GFX_SAT : Nat := 0x0A0018
abbrev Fd.GFX_SAT_SAT : Fld := ⟨1, 0⟩
/-- DSP_EARLY at 0x0010 in DSP (R424). -/
abbrev Reg.DSP_EARLY : Nat := 0x0B0010
abbrev Fd.DSP_EARLY_ACTIVE : Fld := ⟨1, 1⟩
abbrev Fd.DSP_EARLY_END : Fld := ⟨0, 0⟩
/-- PIPE_CFG_n at 0x1000 + 0x400 × n in DSP, n = 0 to 3 (R425). -/
abbrev Reg.PIPE_CFG (n : Nat) : Nat := 0x0B1000 + 0x400 * n
abbrev Fd.PIPE_CFG_EN : Fld := ⟨63, 63⟩
abbrev Fd.PIPE_CFG_EDP : Fld := ⟨62, 62⟩
abbrev Fd.PIPE_CFG_LANES : Fld := ⟨61, 60⟩
abbrev Fd.PIPE_CFG_RATE : Fld := ⟨59, 56⟩
abbrev Fd.PIPE_CFG_BPC10 : Fld := ⟨55, 55⟩
abbrev Fd.PIPE_CFG_HOLD_MAX : Fld := ⟨39, 32⟩
abbrev Fd.PIPE_CFG_BG : Fld := ⟨29, 0⟩
/-- PIPE_TIM0_n at 0x1008 + 0x400 × n in DSP, n = 0 to 3 (R426). -/
abbrev Reg.PIPE_TIM0 (n : Nat) : Nat := 0x0B1008 + 0x400 * n
abbrev Fd.PIPE_TIM0_HTOTAL : Fld := ⟨63, 48⟩
abbrev Fd.PIPE_TIM0_HACTIVE : Fld := ⟨47, 32⟩
abbrev Fd.PIPE_TIM0_VTOTAL : Fld := ⟨31, 16⟩
abbrev Fd.PIPE_TIM0_VACTIVE : Fld := ⟨15, 0⟩
/-- PIPE_TIM1_n at 0x1010 + 0x400 × n in DSP, n = 0 to 3 (R426). -/
abbrev Reg.PIPE_TIM1 (n : Nat) : Nat := 0x0B1010 + 0x400 * n
abbrev Fd.PIPE_TIM1_PCLK_KHZ : Fld := ⟨63, 44⟩
abbrev Fd.PIPE_TIM1_VSTART : Fld := ⟨43, 32⟩
abbrev Fd.PIPE_TIM1_HSYNC_W : Fld := ⟨31, 16⟩
abbrev Fd.PIPE_TIM1_VSYNC_W : Fld := ⟨15, 8⟩
/-- PIPE_STATUS_n at 0x1018 + 0x400 × n in DSP, n = 0 to 3 (R425). -/
abbrev Reg.PIPE_STATUS (n : Nat) : Nat := 0x0B1018 + 0x400 * n
abbrev Fd.PIPE_STATUS_FRAME_NO : Fld := ⟨63, 32⟩
abbrev Fd.PIPE_STATUS_CFG_ERR : Fld := ⟨7, 7⟩
abbrev Fd.PIPE_STATUS_LINK_FAIL : Fld := ⟨6, 6⟩
abbrev Fd.PIPE_STATUS_HOLDING : Fld := ⟨5, 5⟩
abbrev Fd.PIPE_STATUS_RUNNING : Fld := ⟨4, 4⟩
/-- PIPE_EARLY_n at 0x1020 + 0x400 × n in DSP, n = 0 to 3 (R429). -/
abbrev Reg.PIPE_EARLY (n : Nat) : Nat := 0x0B1020 + 0x400 * n
abbrev Fd.PIPE_EARLY_COUNT : Fld := ⟨31, 0⟩
/-- PIPE_FREE_RUN_n at 0x1024 + 0x400 × n in DSP, n = 0 to 3 (R429). -/
abbrev Reg.PIPE_FREE_RUN (n : Nat) : Nat := 0x0B1024 + 0x400 * n
abbrev Fd.PIPE_FREE_RUN_COUNT : Fld := ⟨31, 0⟩
/-- PIPE_SLIP_n at 0x1028 + 0x400 × n in DSP, n = 0 to 3 (R429). -/
abbrev Reg.PIPE_SLIP (n : Nat) : Nat := 0x0B1028 + 0x400 * n
abbrev Fd.PIPE_SLIP_COUNT : Fld := ⟨31, 0⟩
/-- PIPE_SP_CRC_n at 0x102C + 0x400 × n in DSP, n = 0 to 3 (R429). -/
abbrev Reg.PIPE_SP_CRC (n : Nat) : Nat := 0x0B102C + 0x400 * n
abbrev Fd.PIPE_SP_CRC_COUNT : Fld := ⟨31, 0⟩
/-- PIPE_SP_STATE_n at 0x1030 + 0x400 × n in DSP, n = 0 to 3 (R429). -/
abbrev Reg.PIPE_SP_STATE (n : Nat) : Nat := 0x0B1030 + 0x400 * n
abbrev Fd.PIPE_SP_STATE_COUNT : Fld := ⟨31, 0⟩
/-- PIPE_SAT_n at 0x1034 + 0x400 × n in DSP, n = 0 to 3 (R429). -/
abbrev Reg.PIPE_SAT (n : Nat) : Nat := 0x0B1034 + 0x400 * n
abbrev Fd.PIPE_SAT_SAT : Fld := ⟨4, 0⟩
/-- PLANE_CFG_n_k at 0x1100 + 0x400 × n + 0x20 × k in DSP (R427). -/
abbrev Reg.PLANE_CFG (n k : Nat) : Nat := 0x0B1100 + 0x400 * n + 0x20 * k
abbrev Fd.PLANE_CFG_EN : Fld := ⟨63, 63⟩
abbrev Fd.PLANE_CFG_MISS_EN : Fld := ⟨62, 62⟩
abbrev Fd.PLANE_CFG_PREMULT : Fld := ⟨61, 61⟩
abbrev Fd.PLANE_CFG_MATRIX : Fld := ⟨60, 59⟩
abbrev Fd.PLANE_CFG_FULL_RANGE : Fld := ⟨58, 58⟩
abbrev Fd.PLANE_CFG_ALPHA : Fld := ⟨57, 50⟩
abbrev Fd.PLANE_CFG_PRESENT_KNOT : Fld := ⟨27, 14⟩
abbrev Fd.PLANE_CFG_RETIRE_KNOT : Fld := ⟨13, 0⟩
/-- PLANE_Q_n_k at 0x1108 + 0x400 × n + 0x20 × k in DSP (R427). -/
abbrev Reg.PLANE_Q (n k : Nat) : Nat := 0x0B1108 + 0x400 * n + 0x20 * k
abbrev Fd.PLANE_Q_PBASE : Fld := ⟨47, 6⟩
abbrev Fd.PLANE_Q_NPRES_M1 : Fld := ⟨2, 0⟩
/-- PLANE_MISS_n_k at 0x1110 + 0x400 × n + 0x20 × k in DSP (R429). -/
abbrev Reg.PLANE_MISS (n k : Nat) : Nat := 0x0B1110 + 0x400 * n + 0x20 * k
abbrev Fd.PLANE_MISS_COUNT : Fld := ⟨31, 0⟩
/-- PLANE_SKIP_n_k at 0x1114 + 0x400 × n + 0x20 × k in DSP (R429). -/
abbrev Reg.PLANE_SKIP (n k : Nat) : Nat := 0x0B1114 + 0x400 * n + 0x20 * k
abbrev Fd.PLANE_SKIP_COUNT : Fld := ⟨31, 0⟩
/-- PLANE_VOID_n_k at 0x1118 + 0x400 × n + 0x20 × k in DSP (R429). -/
abbrev Reg.PLANE_VOID (n k : Nat) : Nat := 0x0B1118 + 0x400 * n + 0x20 * k
abbrev Fd.PLANE_VOID_COUNT : Fld := ⟨31, 0⟩
/-- PLANE_SAT_n_k at 0x111C + 0x400 × n + 0x20 × k in DSP (R429). -/
abbrev Reg.PLANE_SAT (n k : Nat) : Nat := 0x0B111C + 0x400 * n + 0x20 * k
abbrev Fd.PLANE_SAT_SAT : Fld := ⟨2, 0⟩
/-- SP_CFG_n at 0x1300 + 0x400 × n in DSP, n = 0 to 3 (R428). -/
abbrev Reg.SP_CFG (n : Nat) : Nat := 0x0B1300 + 0x400 * n
abbrev Fd.SP_CFG_EN : Fld := ⟨63, 63⟩
abbrev Fd.SP_CFG_CFG_ERR : Fld := ⟨62, 62⟩
abbrev Fd.SP_CFG_MAX_AGE_MS : Fld := ⟨47, 32⟩
abbrev Fd.SP_CFG_FAIL_MASK : Fld := ⟨31, 0⟩
/-- SP_TABLE_n at 0x1308 + 0x400 × n in DSP, n = 0 to 3 (R428). -/
abbrev Reg.SP_TABLE (n : Nat) : Nat := 0x0B1308 + 0x400 * n
abbrev Fd.SP_TABLE_COUNT : Fld := ⟨53, 48⟩
abbrev Fd.SP_TABLE_TT_BASE : Fld := ⟨47, 5⟩
/-- SP_STATE_n at 0x1310 + 0x400 × n in DSP, n = 0 to 3 (R428). -/
abbrev Reg.SP_STATE (n : Nat) : Nat := 0x0B1310 + 0x400 * n
abbrev Fd.SP_STATE_STATE_ADDR : Fld := ⟨47, 4⟩
/-- SP_MISMATCH_n at 0x1318 + 0x400 × n in DSP, n = 0 to 3 (R428). -/
abbrev Reg.SP_MISMATCH (n : Nat) : Nat := 0x0B1318 + 0x400 * n
abbrev Fd.SP_MISMATCH_LATCHED : Fld := ⟨63, 32⟩
abbrev Fd.SP_MISMATCH_MISMATCH : Fld := ⟨31, 0⟩
/-- SAFE_CTRL at 0x0000 in SAFE (R464). -/
abbrev Reg.SAFE_CTRL : Nat := 0x0C0000
abbrev Fd.SAFE_CTRL_LOCK : Fld := ⟨31, 31⟩
/-- SAFE_PIN at 0x0008 in SAFE (R464). -/
abbrev Reg.SAFE_PIN : Nat := 0x0C0008
abbrev Fd.SAFE_PIN_FORCE : Fld := ⟨31, 31⟩
abbrev Fd.SAFE_PIN_LEVEL : Fld := ⟨30, 30⟩
abbrev Fd.SAFE_PIN_MIN_US : Fld := ⟨15, 0⟩
/-- SAFE_PENDING at 0x0010 in SAFE (R465). -/
abbrev Reg.SAFE_PENDING : Nat := 0x0C0010
abbrev Fd.SAFE_PENDING_LASTING : Fld := ⟨47, 32⟩
abbrev Fd.SAFE_PENDING_PENDING : Fld := ⟨15, 0⟩
/-- SAFE_SW_ERR at 0x0018 in SAFE (R465). -/
abbrev Reg.SAFE_SW_ERR : Nat := 0x0C0018
abbrev Fd.SAFE_SW_ERR_CODE : Fld := ⟨31, 0⟩
/-- SAFE_INJECT at 0x0020 in SAFE (R465). -/
abbrev Reg.SAFE_INJECT : Nat := 0x0C0020
abbrev Fd.SAFE_INJECT_DONE : Fld := ⟨31, 31⟩
abbrev Fd.SAFE_INJECT_PASS : Fld := ⟨30, 30⟩
abbrev Fd.SAFE_INJECT_FAILED : Fld := ⟨15, 0⟩
/-- SAFE_CMP_REC0 at 0x0030 in SAFE (R466). -/
abbrev Reg.SAFE_CMP_REC0 : Nat := 0x0C0030
abbrev Fd.SAFE_CMP_REC0_TIME : Fld := ⟨63, 0⟩
/-- SAFE_CMP_REC1 at 0x0038 in SAFE (R466). -/
abbrev Reg.SAFE_CMP_REC1 : Nat := 0x0C0038
abbrev Fd.SAFE_CMP_REC1_RING : Fld := ⟨63, 54⟩
abbrev Fd.SAFE_CMP_REC1_MAIN_CORE : Fld := ⟨53, 47⟩
abbrev Fd.SAFE_CMP_REC1_CHECK_CORE : Fld := ⟨46, 40⟩
abbrev Fd.SAFE_CMP_REC1_BINDING : Fld := ⟨39, 32⟩
abbrev Fd.SAFE_CMP_REC1_SEQ : Fld := ⟨31, 0⟩
/-- SAFE_ST_SEL at 0x0040 in SAFE (R467). -/
abbrev Reg.SAFE_ST_SEL : Nat := 0x0C0040
abbrev Fd.SAFE_ST_SEL_CMD : Fld := ⟨31, 28⟩
abbrev Fd.SAFE_ST_SEL_STATUS : Fld := ⟨27, 24⟩
abbrev Fd.SAFE_ST_SEL_INDEX : Fld := ⟨7, 0⟩
/-- SAFE_ST_D0 at 0x0048 in SAFE (R467). -/
abbrev Reg.SAFE_ST_D0 : Nat := 0x0C0048
abbrev Fd.SAFE_ST_D0_EN : Fld := ⟨63, 63⟩
abbrev Fd.SAFE_ST_D0_PANEL : Fld := ⟨62, 59⟩
abbrev Fd.SAFE_ST_D0_MASK : Fld := ⟨58, 51⟩
abbrev Fd.SAFE_ST_D0_SPAN_NS : Fld := ⟨31, 0⟩
/-- SAFE_ST_D1 at 0x0050 in SAFE (R467). -/
abbrev Reg.SAFE_ST_D1 : Nat := 0x0C0050
abbrev Fd.SAFE_ST_D1_LAST : Fld := ⟨63, 0⟩
/-- SAFE_ST_CFG at 0x0058 in SAFE (R464). -/
abbrev Reg.SAFE_ST_CFG : Nat := 0x0C0058
abbrev Fd.SAFE_ST_CFG_COVER_MS : Fld := ⟨31, 16⟩
abbrev Fd.SAFE_ST_CFG_WITHDRAW_MS : Fld := ⟨15, 0⟩
/-- SAFE_DEFER_CNT at 0x0060 in SAFE (R469). -/
abbrev Reg.SAFE_DEFER_CNT : Nat := 0x0C0060
abbrev Fd.SAFE_DEFER_CNT_COUNT : Fld := ⟨31, 0⟩
/-- SAFE_WITHDRAW_CNT at 0x0064 in SAFE (R469). -/
abbrev Reg.SAFE_WITHDRAW_CNT : Nat := 0x0C0064
abbrev Fd.SAFE_WITHDRAW_CNT_COUNT : Fld := ⟨31, 0⟩
/-- SAFE_CMP_LATE_CNT at 0x0068 in SAFE (R469). -/
abbrev Reg.SAFE_CMP_LATE_CNT : Nat := 0x0C0068
abbrev Fd.SAFE_CMP_LATE_CNT_COUNT : Fld := ⟨31, 0⟩
/-- SAFE_SAT at 0x006C in SAFE (R469). -/
abbrev Reg.SAFE_SAT : Nat := 0x0C006C
abbrev Fd.SAFE_SAT_SAT : Fld := ⟨2, 0⟩
/-- SAFE_SRC_CFG_n at 0x0100 + 0x8 × n in SAFE, n = 0 to 15 (R468). -/
abbrev Reg.SAFE_SRC_CFG (n : Nat) : Nat := 0x0C0100 + 0x8 * n
abbrev Fd.SAFE_SRC_CFG_REACT_EACH : Fld := ⟨63, 62⟩
abbrev Fd.SAFE_SRC_CFG_REACT_LAST : Fld := ⟨61, 60⟩
abbrev Fd.SAFE_SRC_CFG_THR : Fld := ⟨59, 56⟩
abbrev Fd.SAFE_SRC_CFG_WIN_MS : Fld := ⟨31, 0⟩
/-- SAFE_SRC_CNT_n at 0x0200 + 0x4 × n in SAFE, n = 0 to 15 (R469). -/
abbrev Reg.SAFE_SRC_CNT (n : Nat) : Nat := 0x0C0200 + 0x4 * n
abbrev Fd.SAFE_SRC_CNT_COUNT : Fld := ⟨31, 0⟩
/-- SAFE_SRC_SAT at 0x0240 in SAFE (R469). -/
abbrev Reg.SAFE_SRC_SAT : Nat := 0x0C0240
abbrev Fd.SAFE_SRC_SAT_SAT : Fld := ⟨15, 0⟩
/-- SAFE_COVER_n at 0x0400 + 0x8 × n in SAFE, n = 0 to 135 (R468). -/
abbrev Reg.SAFE_COVER (n : Nat) : Nat := 0x0C0400 + 0x8 * n
abbrev Fd.SAFE_COVER_TIME : Fld := ⟨63, 0⟩
/-- SPARE_CTRL at 0x0000 in SPARE (R487). -/
abbrev Reg.SPARE_CTRL : Nat := 0x0D0000
abbrev Fd.SPARE_CTRL_LOCK : Fld := ⟨31, 31⟩
abbrev Fd.SPARE_CTRL_AUTO_CHAN : Fld := ⟨1, 1⟩
abbrev Fd.SPARE_CTRL_AUTO_CORE : Fld := ⟨0, 0⟩
/-- SPARE_CMD at 0x0008 in SPARE (R487). -/
abbrev Reg.SPARE_CMD : Nat := 0x0D0008
abbrev Fd.SPARE_CMD_CMD : Fld := ⟨31, 28⟩
abbrev Fd.SPARE_CMD_STATUS : Fld := ⟨27, 24⟩
abbrev Fd.SPARE_CMD_TARGET : Fld := ⟨9, 0⟩
/-- SPARE_JRNL at 0x0010 in SPARE (R488). -/
abbrev Reg.SPARE_JRNL : Nat := 0x0D0010
abbrev Fd.SPARE_JRNL_FILL : Fld := ⟨63, 32⟩
abbrev Fd.SPARE_JRNL_SIZE_64K : Fld := ⟨31, 16⟩
abbrev Fd.SPARE_JRNL_BASE_64K : Fld := ⟨15, 0⟩
/-- SPARE_TIMER at 0x0018 in SPARE (R488). -/
abbrev Reg.SPARE_TIMER : Nat := 0x0D0018
abbrev Fd.SPARE_TIMER_SELF_RESET_EN : Fld := ⟨31, 31⟩
abbrev Fd.SPARE_TIMER_ROOT_FAILED : Fld := ⟨23, 16⟩
abbrev Fd.SPARE_TIMER_SELF_RESET_MS : Fld := ⟨15, 0⟩
/-- SPARE_USED at 0x0020 in SPARE (R489). -/
abbrev Reg.SPARE_USED : Nat := 0x0D0020
abbrev Fd.SPARE_USED_LANES : Fld := ⟨23, 20⟩
abbrev Fd.SPARE_USED_CHAN_DIE1 : Fld := ⟨15, 12⟩
abbrev Fd.SPARE_USED_CHAN_DIE0 : Fld := ⟨11, 8⟩
abbrev Fd.SPARE_USED_COPY_DIE1 : Fld := ⟨7, 4⟩
abbrev Fd.SPARE_USED_COPY_DIE0 : Fld := ⟨3, 0⟩
/-- SPARE_STALE_CNT at 0x0030 in SPARE (R490). -/
abbrev Reg.SPARE_STALE_CNT : Nat := 0x0D0030
abbrev Fd.SPARE_STALE_CNT_COUNT : Fld := ⟨31, 0⟩
/-- SPARE_DARN_CNT at 0x0034 in SPARE (R490). -/
abbrev Reg.SPARE_DARN_CNT : Nat := 0x0D0034
abbrev Fd.SPARE_DARN_CNT_COUNT : Fld := ⟨31, 0⟩
/-- SPARE_JRNL_FAIL_CNT at 0x0038 in SPARE (R490). -/
abbrev Reg.SPARE_JRNL_FAIL_CNT : Nat := 0x0D0038
abbrev Fd.SPARE_JRNL_FAIL_CNT_COUNT : Fld := ⟨31, 0⟩
/-- SPARE_SAT at 0x003C in SPARE (R490). -/
abbrev Reg.SPARE_SAT : Nat := 0x0D003C
abbrev Fd.SPARE_SAT_SAT : Fld := ⟨2, 0⟩
/-- SEC_CTRL at 0x0000 in SEC (R529). -/
abbrev Reg.SEC_CTRL : Nat := 0x0E0000
abbrev Fd.SEC_CTRL_LOCK : Fld := ⟨31, 31⟩
/-- SEC_BOOT at 0x0008 in SEC (R529). -/
abbrev Reg.SEC_BOOT : Nat := 0x0E0008
abbrev Fd.SEC_BOOT_BOOT_COUNT : Fld := ⟨63, 40⟩
abbrev Fd.SEC_BOOT_SLOT_B : Fld := ⟨9, 5⟩
abbrev Fd.SEC_BOOT_EARLY : Fld := ⟨4, 4⟩
abbrev Fd.SEC_BOOT_RPMB_OK : Fld := ⟨3, 3⟩
abbrev Fd.SEC_BOOT_CONFIG_OK : Fld := ⟨2, 2⟩
abbrev Fd.SEC_BOOT_ORDER : Fld := ⟨1, 0⟩
/-- SEC_FW at 0x0010 in SEC (R530). -/
abbrev Reg.SEC_FW : Nat := 0x0E0010
abbrev Fd.SEC_FW_CMD : Fld := ⟨31, 28⟩
abbrev Fd.SEC_FW_STATUS : Fld := ⟨27, 24⟩
abbrev Fd.SEC_FW_KIND : Fld := ⟨2, 0⟩
/-- SEC_FW_ADDR at 0x0018 in SEC (R530). -/
abbrev Reg.SEC_FW_ADDR : Nat := 0x0E0018
abbrev Fd.SEC_FW_ADDR_IMAGE : Fld := ⟨47, 12⟩
/-- SEC_TENANT_SEL at 0x0020 in SEC (R531). -/
abbrev Reg.SEC_TENANT_SEL : Nat := 0x0E0020
abbrev Fd.SEC_TENANT_SEL_CMD : Fld := ⟨31, 28⟩
abbrev Fd.SEC_TENANT_SEL_STATUS : Fld := ⟨27, 24⟩
abbrev Fd.SEC_TENANT_SEL_ORIGIN : Fld := ⟨7, 0⟩
/-- SEC_TENANT_D0 at 0x0028 in SEC (R531). -/
abbrev Reg.SEC_TENANT_D0 : Nat := 0x0E0028
abbrev Fd.SEC_TENANT_D0_EPOCH : Fld := ⟨63, 32⟩
abbrev Fd.SEC_TENANT_D0_CONF : Fld := ⟨3, 3⟩
abbrev Fd.SEC_TENANT_D0_STATE : Fld := ⟨1, 0⟩
/-- SEC_ATTEST at 0x0030 in SEC (R532). -/
abbrev Reg.SEC_ATTEST : Nat := 0x0E0030
abbrev Fd.SEC_ATTEST_CMD : Fld := ⟨31, 28⟩
abbrev Fd.SEC_ATTEST_STATUS : Fld := ⟨27, 24⟩
abbrev Fd.SEC_ATTEST_ENCLAVE : Fld := ⟨23, 16⟩
abbrev Fd.SEC_ATTEST_TENANT : Fld := ⟨15, 8⟩
abbrev Fd.SEC_ATTEST_WRAP : Fld := ⟨0, 0⟩
/-- SEC_ATT_REQ at 0x0038 in SEC (R532). -/
abbrev Reg.SEC_ATT_REQ : Nat := 0x0E0038
abbrev Fd.SEC_ATT_REQ_REQ : Fld := ⟨47, 6⟩
/-- SEC_ATT_OUT at 0x0040 in SEC (R532). -/
abbrev Reg.SEC_ATT_OUT : Nat := 0x0E0040
abbrev Fd.SEC_ATT_OUT_OUT : Fld := ⟨47, 10⟩
/-- SEC_TAG_FAIL_CNT at 0x0050 in SEC (R534). -/
abbrev Reg.SEC_TAG_FAIL_CNT : Nat := 0x0E0050
abbrev Fd.SEC_TAG_FAIL_CNT_COUNT : Fld := ⟨31, 0⟩
/-- SEC_POISON_CNT at 0x0054 in SEC (R534). -/
abbrev Reg.SEC_POISON_CNT : Nat := 0x0E0054
abbrev Fd.SEC_POISON_CNT_COUNT : Fld := ⟨31, 0⟩
/-- SEC_GONE_DROP_CNT at 0x0058 in SEC (R534). -/
abbrev Reg.SEC_GONE_DROP_CNT : Nat := 0x0E0058
abbrev Fd.SEC_GONE_DROP_CNT_COUNT : Fld := ⟨31, 0⟩
/-- SEC_SAT at 0x005C in SEC (R534). -/
abbrev Reg.SEC_SAT : Nat := 0x0E005C
abbrev Fd.SEC_SAT_SAT : Fld := ⟨2, 0⟩
/-- AUDIT_CTRL at 0x0000 in AUDIT (R533). -/
abbrev Reg.AUDIT_CTRL : Nat := 0x0F0000
abbrev Fd.AUDIT_CTRL_LOCK : Fld := ⟨31, 31⟩
/-- AUDIT_STATUS at 0x0008 in AUDIT (R533). -/
abbrev Reg.AUDIT_STATUS : Nat := 0x0F0008
abbrev Fd.AUDIT_STATUS_FULL : Fld := ⟨63, 63⟩
abbrev Fd.AUDIT_STATUS_NEAR : Fld := ⟨62, 62⟩
abbrev Fd.AUDIT_STATUS_ACK_ERR : Fld := ⟨61, 61⟩
abbrev Fd.AUDIT_STATUS_OCCUPANCY : Fld := ⟨19, 0⟩
/-- AUDIT_HEAD at 0x0010 in AUDIT (R533). -/
abbrev Reg.AUDIT_HEAD : Nat := 0x0F0010
abbrev Fd.AUDIT_HEAD_SEQ : Fld := ⟨63, 0⟩
/-- AUDIT_TAIL at 0x0018 in AUDIT (R533). -/
abbrev Reg.AUDIT_TAIL : Nat := 0x0F0018
abbrev Fd.AUDIT_TAIL_SEQ : Fld := ⟨63, 0⟩
/-- AUDIT_EXPORTED at 0x0020 in AUDIT (R533). -/
abbrev Reg.AUDIT_EXPORTED : Nat := 0x0F0020
abbrev Fd.AUDIT_EXPORTED_SEQ : Fld := ⟨63, 0⟩
/-- AUDIT_EXPORT at 0x0028 in AUDIT (R533). -/
abbrev Reg.AUDIT_EXPORT : Nat := 0x0F0028
abbrev Fd.AUDIT_EXPORT_CMD : Fld := ⟨31, 28⟩
abbrev Fd.AUDIT_EXPORT_STATUS : Fld := ⟨27, 24⟩
abbrev Fd.AUDIT_EXPORT_COUNT : Fld := ⟨19, 0⟩
/-- AUDIT_EXPORT_DEST at 0x0030 in AUDIT (R533). -/
abbrev Reg.AUDIT_EXPORT_DEST : Nat := 0x0F0030
abbrev Fd.AUDIT_EXPORT_DEST_DEST : Fld := ⟨47, 6⟩
/-- AUDIT_ACK at 0x0038 in AUDIT (R533). -/
abbrev Reg.AUDIT_ACK : Nat := 0x0F0038
abbrev Fd.AUDIT_ACK_SEQ : Fld := ⟨63, 0⟩
/-- AUDIT_LOST_CNT at 0x0040 in AUDIT (R534). -/
abbrev Reg.AUDIT_LOST_CNT : Nat := 0x0F0040
abbrev Fd.AUDIT_LOST_CNT_COUNT : Fld := ⟨31, 0⟩
/-- AUDIT_REFUSED_CNT at 0x0044 in AUDIT (R534). -/
abbrev Reg.AUDIT_REFUSED_CNT : Nat := 0x0F0044
abbrev Fd.AUDIT_REFUSED_CNT_COUNT : Fld := ⟨31, 0⟩
/-- AUDIT_SAT at 0x0048 in AUDIT (R534). -/
abbrev Reg.AUDIT_SAT : Nat := 0x0F0048
abbrev Fd.AUDIT_SAT_SAT : Fld := ⟨1, 0⟩
/-- VI_CTRL at 0x0000 in VI (R554). -/
abbrev Reg.VI_CTRL : Nat := 0x100000
abbrev Fd.VI_CTRL_LOCK : Fld := ⟨31, 31⟩
/-- VI_CMD at 0x0008 in VI (R554). -/
abbrev Reg.VI_CMD : Nat := 0x100008
abbrev Fd.VI_CMD_CMD : Fld := ⟨31, 28⟩
abbrev Fd.VI_CMD_STATUS : Fld := ⟨27, 24⟩
abbrev Fd.VI_CMD_INSTANCE : Fld := ⟨5, 0⟩
/-- VI_IMG at 0x0010 in VI (R555). -/
abbrev Reg.VI_IMG : Nat := 0x100010
abbrev Fd.VI_IMG_IMAGE : Fld := ⟨62, 12⟩
/-- VI_PEER at 0x0018 in VI (R555). -/
abbrev Reg.VI_PEER : Nat := 0x100018
abbrev Fd.VI_PEER_CERT : Fld := ⟨47, 6⟩
/-- VI_IMG_LEN at 0x0020 in VI (R555). -/
abbrev Reg.VI_IMG_LEN : Nat := 0x100020
abbrev Fd.VI_IMG_LEN_JOB_BYTES : Fld := ⟨63, 32⟩
abbrev Fd.VI_IMG_LEN_FIXED_BYTES : Fld := ⟨31, 0⟩
/-- VI_STATE_n at 0x0100 + 0x8 × n in VI, n = 0 to 63 (R556). -/
abbrev Reg.VI_STATE (n : Nat) : Nat := 0x100100 + 0x8 * n
abbrev Fd.VI_STATE_IN_FLIGHT : Fld := ⟨34, 24⟩
abbrev Fd.VI_STATE_RUNNING : Fld := ⟨23, 16⟩
abbrev Fd.VI_STATE_STATE : Fld := ⟨2, 0⟩
/-- VI_CFG_n at 0x0400 + 0x8 × n in VI, n = 0 to 63 (R556). -/
abbrev Reg.VI_CFG (n : Nat) : Nat := 0x100400 + 0x8 * n
abbrev Fd.VI_CFG_CORE_QA : Fld := ⟨19, 9⟩
abbrev Fd.VI_CFG_DRAM_QA : Fld := ⟨8, 0⟩
/-- VI_WIN_BASE_n_k at 0x1000 + 0x40 × n + 0x10 × k in VI (R557). -/
abbrev Reg.VI_WIN_BASE (n k : Nat) : Nat := 0x101000 + 0x40 * n + 0x10 * k
abbrev Fd.VI_WIN_BASE_EN : Fld := ⟨63, 63⟩
abbrev Fd.VI_WIN_BASE_BASE : Fld := ⟨62, 21⟩
/-- VI_WIN_LIMIT_n_k at 0x1008 + 0x40 × n + 0x10 × k in VI (R557). -/
abbrev Reg.VI_WIN_LIMIT (n k : Nat) : Nat := 0x101008 + 0x40 * n + 0x10 * k
abbrev Fd.VI_WIN_LIMIT_LIMIT : Fld := ⟨62, 21⟩
/-- UBR_CTRL at 0x0000 in UBR (R576). -/
abbrev Reg.UBR_CTRL : Nat := 0x110000
abbrev Fd.UBR_CTRL_LOCK : Fld := ⟨31, 31⟩
abbrev Fd.UBR_CTRL_ASYM_PREF : Fld := ⟨2, 1⟩
abbrev Fd.UBR_CTRL_LINK_EN : Fld := ⟨0, 0⟩
/-- UBR_STATUS at 0x0008 in UBR (R576). -/
abbrev Reg.UBR_STATUS : Nat := 0x110008
abbrev Fd.UBR_STATUS_LINK_UP : Fld := ⟨31, 31⟩
abbrev Fd.UBR_STATUS_MODE : Fld := ⟨30, 28⟩
abbrev Fd.UBR_STATUS_HELD : Fld := ⟨9, 0⟩
/-- UBR_VF_EN at 0x0010 in UBR (R576). -/
abbrev Reg.UBR_VF_EN : Nat := 0x110010
abbrev Fd.UBR_VF_EN_VF : Fld := ⟨63, 0⟩
/-- UBR_MAP_SEL at 0x0020 in UBR (R577). -/
abbrev Reg.UBR_MAP_SEL : Nat := 0x110020
abbrev Fd.UBR_MAP_SEL_CMD : Fld := ⟨31, 28⟩
abbrev Fd.UBR_MAP_SEL_STATUS : Fld := ⟨27, 24⟩
abbrev Fd.UBR_MAP_SEL_INDEX : Fld := ⟨11, 0⟩
/-- UBR_MAP_D0 at 0x0028 in UBR (R578). -/
abbrev Reg.UBR_MAP_D0 : Nat := 0x110028
abbrev Fd.UBR_MAP_D0_EN : Fld := ⟨63, 63⟩
abbrev Fd.UBR_MAP_D0_KIND : Fld := ⟨62, 62⟩
abbrev Fd.UBR_MAP_D0_PREFETCH : Fld := ⟨61, 61⟩
abbrev Fd.UBR_MAP_D0_SIDE : Fld := ⟨60, 60⟩
abbrev Fd.UBR_MAP_D0_FUNC : Fld := ⟨59, 53⟩
abbrev Fd.UBR_MAP_D0_OWNER : Fld := ⟨52, 45⟩
/-- UBR_MAP_D1 at 0x0030 in UBR (R578). -/
abbrev Reg.UBR_MAP_D1 : Nat := 0x110030
abbrev Fd.UBR_MAP_D1_HOST : Fld := ⟨63, 26⟩
/-- UBR_MAP_D2 at 0x0038 in UBR (R578). -/
abbrev Reg.UBR_MAP_D2 : Nat := 0x110038
abbrev Fd.UBR_MAP_D2_META : Fld := ⟨63, 12⟩
/-- UBR_RD_TMO_CNT at 0x0040 in UBR (R580). -/
abbrev Reg.UBR_RD_TMO_CNT : Nat := 0x110040
abbrev Fd.UBR_RD_TMO_CNT_COUNT : Fld := ⟨31, 0⟩
/-- UBR_LOG_DROP_CNT at 0x0044 in UBR (R580). -/
abbrev Reg.UBR_LOG_DROP_CNT : Nat := 0x110044
abbrev Fd.UBR_LOG_DROP_CNT_COUNT : Fld := ⟨31, 0⟩
/-- UBR_PF_DISCARD_CNT at 0x0048 in UBR (R580). -/
abbrev Reg.UBR_PF_DISCARD_CNT : Nat := 0x110048
abbrev Fd.UBR_PF_DISCARD_CNT_COUNT : Fld := ⟨31, 0⟩
/-- UBR_WR_DROP_CNT at 0x004C in UBR (R580). -/
abbrev Reg.UBR_WR_DROP_CNT : Nat := 0x11004C
abbrev Fd.UBR_WR_DROP_CNT_COUNT : Fld := ⟨31, 0⟩
/-- UBR_SAT at 0x0050 in UBR (R580). -/
abbrev Reg.UBR_SAT : Nat := 0x110050
abbrev Fd.UBR_SAT_SAT : Fld := ⟨3, 0⟩
/-- UBR_ERR_W0 at 0x0100 in UBR (R579). -/
abbrev Reg.UBR_ERR_W0 : Nat := 0x110100
abbrev Fd.UBR_ERR_W0_VALID : Fld := ⟨63, 63⟩
abbrev Fd.UBR_ERR_W0_KIND : Fld := ⟨62, 59⟩
abbrev Fd.UBR_ERR_W0_FUNC : Fld := ⟨58, 52⟩
abbrev Fd.UBR_ERR_W0_ADDR : Fld := ⟨47, 0⟩
/-- UBR_ERR_W1 at 0x0108 in UBR (R579). -/
abbrev Reg.UBR_ERR_W1 : Nat := 0x110108
abbrev Fd.UBR_ERR_W1_TIME : Fld := ⟨63, 0⟩
/-- UBR_ERR_W2 at 0x0110 in UBR (R579). -/
abbrev Reg.UBR_ERR_W2 : Nat := 0x110110
abbrev Fd.UBR_ERR_W2_ORIGIN : Fld := ⟨63, 56⟩
abbrev Fd.UBR_ERR_W2_COUNT : Fld := ⟨31, 0⟩
/-- GWY_CTRL at 0x0000 in GWY (R606). -/
abbrev Reg.GWY_CTRL : Nat := 0x120000
abbrev Fd.GWY_CTRL_LOCK : Fld := ⟨31, 31⟩
/-- GWY_CAN_CFG_n at 0x1000 + 0x100 × n in GWY, n = 0 to 15 (R606). -/
abbrev Reg.GWY_CAN_CFG (n : Nat) : Nat := 0x121000 + 0x100 * n
abbrev Fd.GWY_CAN_CFG_EN : Fld := ⟨31, 31⟩
abbrev Fd.GWY_CAN_CFG_FD_EN : Fld := ⟨30, 30⟩
abbrev Fd.GWY_CAN_CFG_XL_EN : Fld := ⟨29, 29⟩
abbrev Fd.GWY_CAN_CFG_PWM : Fld := ⟨28, 28⟩
abbrev Fd.GWY_CAN_CFG_AUTO_REC : Fld := ⟨27, 27⟩
abbrev Fd.GWY_CAN_CFG_MODE : Fld := ⟨26, 25⟩
abbrev Fd.GWY_CAN_CFG_CFG_ERR : Fld := ⟨24, 24⟩
/-- GWY_CAN_BT_n at 0x1008 + 0x100 × n in GWY, n = 0 to 15 (R607). -/
abbrev Reg.GWY_CAN_BT (n : Nat) : Nat := 0x121008 + 0x100 * n
abbrev Fd.GWY_CAN_BT_NBRP : Fld := ⟨63, 56⟩
abbrev Fd.GWY_CAN_BT_NTSEG1 : Fld := ⟨55, 47⟩
abbrev Fd.GWY_CAN_BT_NTSEG2 : Fld := ⟨46, 40⟩
abbrev Fd.GWY_CAN_BT_NSJW : Fld := ⟨39, 32⟩
abbrev Fd.GWY_CAN_BT_DBRP : Fld := ⟨31, 24⟩
abbrev Fd.GWY_CAN_BT_DTSEG1 : Fld := ⟨23, 15⟩
abbrev Fd.GWY_CAN_BT_DTSEG2 : Fld := ⟨14, 8⟩
abbrev Fd.GWY_CAN_BT_DSJW : Fld := ⟨7, 0⟩
/-- GWY_CAN_XBT_n at 0x1010 + 0x100 × n in GWY, n = 0 to 15 (R607). -/
abbrev Reg.GWY_CAN_XBT (n : Nat) : Nat := 0x121010 + 0x100 * n
abbrev Fd.GWY_CAN_XBT_DBRP : Fld := ⟨31, 24⟩
abbrev Fd.GWY_CAN_XBT_DTSEG1 : Fld := ⟨23, 15⟩
abbrev Fd.GWY_CAN_XBT_DTSEG2 : Fld := ⟨14, 8⟩
abbrev Fd.GWY_CAN_XBT_DSJW : Fld := ⟨7, 0⟩
/-- GWY_CAN_STATUS_n at 0x1018 + 0x100 × n in GWY, n = 0 to 15 (R606). -/
abbrev Reg.GWY_CAN_STATUS (n : Nat) : Nat := 0x121018 + 0x100 * n
abbrev Fd.GWY_CAN_STATUS_STATE : Fld := ⟨31, 30⟩
abbrev Fd.GWY_CAN_STATUS_TEC : Fld := ⟨16, 8⟩
abbrev Fd.GWY_CAN_STATUS_REC : Fld := ⟨7, 0⟩
/-- GWY_CAN_Q_n_k at 0x1040 + 0x100 × n + 0x8 × k in GWY (R605). -/
abbrev Reg.GWY_CAN_Q (n k : Nat) : Nat := 0x121040 + 0x100 * n + 0x8 * k
abbrev Fd.GWY_CAN_Q_EN : Fld := ⟨63, 63⟩
abbrev Fd.GWY_CAN_Q_OWNER : Fld := ⟨62, 55⟩
abbrev Fd.GWY_CAN_Q_GEN : Fld := ⟨54, 48⟩
abbrev Fd.GWY_CAN_Q_QBASE : Fld := ⟨47, 6⟩
abbrev Fd.GWY_CAN_Q_SIZE_CODE : Fld := ⟨3, 0⟩
/-- GWY_CAN_QKNOT_n_k at 0x10C0 + 0x100 × n + 0x8 × k in GWY (R605). -/
abbrev Reg.GWY_CAN_QKNOT (n k : Nat) : Nat := 0x1210C0 + 0x100 * n + 0x8 * k
abbrev Fd.GWY_CAN_QKNOT_QKNOT : Fld := ⟨13, 0⟩
/-- GWY_OVERRUN_n at 0x1080 + 0x100 × n in GWY, n = 0 to 15 (R615). -/
abbrev Reg.GWY_OVERRUN (n : Nat) : Nat := 0x121080 + 0x100 * n
abbrev Fd.GWY_OVERRUN_COUNT : Fld := ⟨31, 0⟩
/-- GWY_BUSOFF_CNT_n at 0x1084 + 0x100 × n in GWY, n = 0 to 15 (R615). -/
abbrev Reg.GWY_BUSOFF_CNT (n : Nat) : Nat := 0x121084 + 0x100 * n
abbrev Fd.GWY_BUSOFF_CNT_COUNT : Fld := ⟨31, 0⟩
/-- GWY_RX_NOBUF_n at 0x1088 + 0x100 × n in GWY, n = 0 to 15 (R615). -/
abbrev Reg.GWY_RX_NOBUF (n : Nat) : Nat := 0x121088 + 0x100 * n
abbrev Fd.GWY_RX_NOBUF_COUNT : Fld := ⟨31, 0⟩
/-- GWY_CAN_SAT_n at 0x108C + 0x100 × n in GWY, n = 0 to 15 (R615). -/
abbrev Reg.GWY_CAN_SAT (n : Nat) : Nat := 0x12108C + 0x100 * n
abbrev Fd.GWY_CAN_SAT_SAT : Fld := ⟨2, 0⟩
/-- GWY_SLU_CTRL at 0x0100 in GWY (R608). -/
abbrev Reg.GWY_SLU_CTRL : Nat := 0x120100
abbrev Fd.GWY_SLU_CTRL_EN : Fld := ⟨31, 31⟩
abbrev Fd.GWY_SLU_CTRL_CFG_ERR : Fld := ⟨30, 30⟩
abbrev Fd.GWY_SLU_CTRL_PDUS : Fld := ⟨21, 12⟩
abbrev Fd.GWY_SLU_CTRL_SIGNALS : Fld := ⟨11, 0⟩
/-- GWY_SLU_ETH_W0 at 0x0108 in GWY (R609). -/
abbrev Reg.GWY_SLU_ETH_W0 : Nat := 0x120108
abbrev Fd.GWY_SLU_ETH_W0_DST_MAC : Fld := ⟨63, 16⟩
abbrev Fd.GWY_SLU_ETH_W0_PCP : Fld := ⟨15, 13⟩
abbrev Fd.GWY_SLU_ETH_W0_VID : Fld := ⟨11, 0⟩
/-- GWY_SLU_ETH_W1 at 0x0110 in GWY (R609). -/
abbrev Reg.GWY_SLU_ETH_W1 : Nat := 0x120110
abbrev Fd.GWY_SLU_ETH_W1_SRC_MAC : Fld := ⟨63, 16⟩
/-- GWY_SLU_ETH_W2 at 0x0118 in GWY (R609). -/
abbrev Reg.GWY_SLU_ETH_W2 : Nat := 0x120118
abbrev Fd.GWY_SLU_ETH_W2_SRC_IP : Fld := ⟨63, 32⟩
abbrev Fd.GWY_SLU_ETH_W2_DST_IP : Fld := ⟨31, 0⟩
/-- GWY_SLU_ETH_W3 at 0x0120 in GWY (R609). -/
abbrev Reg.GWY_SLU_ETH_W3 : Nat := 0x120120
abbrev Fd.GWY_SLU_ETH_W3_SRC_PORT : Fld := ⟨63, 48⟩
abbrev Fd.GWY_SLU_ETH_W3_DST_PORT : Fld := ⟨47, 32⟩
abbrev Fd.GWY_SLU_ETH_W3_DSCP : Fld := ⟨31, 26⟩
abbrev Fd.GWY_SLU_ETH_W3_TTL : Fld := ⟨23, 16⟩
/-- GWY_OVERWRITE at 0x0130 in GWY (R615). -/
abbrev Reg.GWY_OVERWRITE : Nat := 0x120130
abbrev Fd.GWY_OVERWRITE_COUNT : Fld := ⟨31, 0⟩
/-- GWY_UNKNOWN at 0x0134 in GWY (R615). -/
abbrev Reg.GWY_UNKNOWN : Nat := 0x120134
abbrev Fd.GWY_UNKNOWN_COUNT : Fld := ⟨31, 0⟩
/-- GWY_SLU_SAT at 0x0138 in GWY (R615). -/
abbrev Reg.GWY_SLU_SAT : Nat := 0x120138
abbrev Fd.GWY_SLU_SAT_SAT : Fld := ⟨1, 0⟩
/-- GWY_SLU_PDU_SEL at 0x0200 in GWY (R610). -/
abbrev Reg.GWY_SLU_PDU_SEL : Nat := 0x120200
abbrev Fd.GWY_SLU_PDU_SEL_CMD : Fld := ⟨31, 28⟩
abbrev Fd.GWY_SLU_PDU_SEL_STATUS : Fld := ⟨27, 24⟩
abbrev Fd.GWY_SLU_PDU_SEL_INDEX : Fld := ⟨9, 0⟩
/-- GWY_SLU_PDU_D0 at 0x0208 in GWY (R610). -/
abbrev Reg.GWY_SLU_PDU_D0 : Nat := 0x120208
abbrev Fd.GWY_SLU_PDU_D0_VALID : Fld := ⟨63, 63⟩
abbrev Fd.GWY_SLU_PDU_D0_SIDE : Fld := ⟨62, 62⟩
abbrev Fd.GWY_SLU_PDU_D0_DIR : Fld := ⟨61, 61⟩
abbrev Fd.GWY_SLU_PDU_D0_CTRL : Fld := ⟨60, 57⟩
abbrev Fd.GWY_SLU_PDU_D0_FMT : Fld := ⟨56, 55⟩
abbrev Fd.GWY_SLU_PDU_D0_IDE : Fld := ⟨54, 54⟩
abbrev Fd.GWY_SLU_PDU_D0_ID : Fld := ⟨28, 0⟩
/-- GWY_SLU_PDU_D1 at 0x0210 in GWY (R610). -/
abbrev Reg.GWY_SLU_PDU_D1 : Nat := 0x120210
abbrev Fd.GWY_SLU_PDU_D1_KEY32 : Fld := ⟨63, 32⟩
abbrev Fd.GWY_SLU_PDU_D1_LENGTH : Fld := ⟨31, 20⟩
abbrev Fd.GWY_SLU_PDU_D1_MIN_GAP_US : Fld := ⟨19, 0⟩
/-- GWY_SLU_MAP_SEL at 0x0300 in GWY (R611). -/
abbrev Reg.GWY_SLU_MAP_SEL : Nat := 0x120300
abbrev Fd.GWY_SLU_MAP_SEL_CMD : Fld := ⟨31, 28⟩
abbrev Fd.GWY_SLU_MAP_SEL_STATUS : Fld := ⟨27, 24⟩
abbrev Fd.GWY_SLU_MAP_SEL_INDEX : Fld := ⟨11, 0⟩
/-- GWY_SLU_MAP_D0 at 0x0308 in GWY (R611). -/
abbrev Reg.GWY_SLU_MAP_D0 : Nat := 0x120308
abbrev Fd.GWY_SLU_MAP_D0_VALID : Fld := ⟨63, 63⟩
abbrev Fd.GWY_SLU_MAP_D0_SRC_PDU : Fld := ⟨62, 53⟩
abbrev Fd.GWY_SLU_MAP_D0_DST_PDU : Fld := ⟨52, 43⟩
abbrev Fd.GWY_SLU_MAP_D0_SRC_ORDER : Fld := ⟨42, 42⟩
abbrev Fd.GWY_SLU_MAP_D0_DST_ORDER : Fld := ⟨41, 41⟩
abbrev Fd.GWY_SLU_MAP_D0_LEN_M1 : Fld := ⟨40, 35⟩
abbrev Fd.GWY_SLU_MAP_D0_SRC_START : Fld := ⟨27, 14⟩
abbrev Fd.GWY_SLU_MAP_D0_DST_START : Fld := ⟨13, 0⟩
/-- TSN_CTRL at 0x0000 in TSN (R653). -/
abbrev Reg.TSN_CTRL : Nat := 0x130000
abbrev Fd.TSN_CTRL_LOCK : Fld := ⟨31, 31⟩
abbrev Fd.TSN_CTRL_AGE_S : Fld := ⟨15, 0⟩
/-- TSN_GPTP_CTRL at 0x0008 in TSN (R612). -/
abbrev Reg.TSN_GPTP_CTRL : Nat := 0x130008
abbrev Fd.TSN_GPTP_CTRL_CMD : Fld := ⟨31, 28⟩
abbrev Fd.TSN_GPTP_CTRL_GM_CAPABLE : Fld := ⟨27, 27⟩
abbrev Fd.TSN_GPTP_CTRL_PORTS : Fld := ⟨26, 21⟩
abbrev Fd.TSN_GPTP_CTRL_JUMP_NS : Fld := ⟨19, 0⟩
/-- TSN_GPTP_STATUS at 0x0010 in TSN (R612). -/
abbrev Reg.TSN_GPTP_STATUS : Nat := 0x130010
abbrev Fd.TSN_GPTP_STATUS_REFUSED : Fld := ⟨31, 31⟩
abbrev Fd.TSN_GPTP_STATUS_GM_LOST : Fld := ⟨30, 30⟩
abbrev Fd.TSN_GPTP_STATUS_IS_GM : Fld := ⟨29, 29⟩
abbrev Fd.TSN_GPTP_STATUS_HOLDING : Fld := ⟨28, 28⟩
/-- TSN_OFFSET at 0x0018 in TSN (R613). -/
abbrev Reg.TSN_OFFSET : Nat := 0x130018
abbrev Fd.TSN_OFFSET_OFFSET : Fld := ⟨63, 0⟩
/-- TSN_PEND at 0x0020 in TSN (R613). -/
abbrev Reg.TSN_PEND : Nat := 0x130020
abbrev Fd.TSN_PEND_PEND : Fld := ⟨63, 0⟩
/-- GPTP_REFUSE_CNT at 0x0028 in TSN (R615). -/
abbrev Reg.GPTP_REFUSE_CNT : Nat := 0x130028
abbrev Fd.GPTP_REFUSE_CNT_COUNT : Fld := ⟨31, 0⟩
/-- TSN_SAT at 0x002C in TSN (R615). -/
abbrev Reg.TSN_SAT : Nat := 0x13002C
abbrev Fd.TSN_SAT_SAT : Fld := ⟨0, 0⟩
/-- TSN_PCP_MAP at 0x0030 in TSN (R653). -/
abbrev Reg.TSN_PCP_MAP : Nat := 0x130030
abbrev Fd.TSN_PCP_MAP_MAP : Fld := ⟨23, 0⟩
/-- TSN_PORT_CFG_n at 0x1000 + 0x100 × n in TSN, n = 0 to 7 (R614). -/
abbrev Reg.TSN_PORT_CFG (n : Nat) : Nat := 0x131000 + 0x100 * n
abbrev Fd.TSN_PORT_CFG_EN : Fld := ⟨31, 31⟩
abbrev Fd.TSN_PORT_CFG_SPEED : Fld := ⟨30, 29⟩
abbrev Fd.TSN_PORT_CFG_PLCA : Fld := ⟨28, 28⟩
abbrev Fd.TSN_PORT_CFG_PLCA_ID : Fld := ⟨27, 20⟩
abbrev Fd.TSN_PORT_CFG_GATE_BANK : Fld := ⟨19, 19⟩
abbrev Fd.TSN_PORT_CFG_GATE_MAX_CYCLES : Fld := ⟨18, 11⟩
/-- TSN_MAC_DROP_n at 0x1010 + 0x100 × n in TSN, n = 0 to 7 (R615). -/
abbrev Reg.TSN_MAC_DROP (n : Nat) : Nat := 0x131010 + 0x100 * n
abbrev Fd.TSN_MAC_DROP_COUNT : Fld := ⟨31, 0⟩
/-- TSN_GATE_DROP_n at 0x1014 + 0x100 × n in TSN, n = 0 to 7 (R615). -/
abbrev Reg.TSN_GATE_DROP (n : Nat) : Nat := 0x131014 + 0x100 * n
abbrev Fd.TSN_GATE_DROP_COUNT : Fld := ⟨31, 0⟩
/-- TSN_RX_NOBUF_n at 0x1018 + 0x100 × n in TSN, n = 0 to 7 (R615). -/
abbrev Reg.TSN_RX_NOBUF (n : Nat) : Nat := 0x131018 + 0x100 * n
abbrev Fd.TSN_RX_NOBUF_COUNT : Fld := ⟨31, 0⟩
/-- TSN_PORT_SAT_n at 0x101C + 0x100 × n in TSN, n = 0 to 7 (R615). -/
abbrev Reg.TSN_PORT_SAT (n : Nat) : Nat := 0x13101C + 0x100 * n
abbrev Fd.TSN_PORT_SAT_SAT : Fld := ⟨2, 0⟩
/-- TSN_Q_n at 0x2000 + 0x8 × n in TSN, n = 0 to 15 (R605). -/
abbrev Reg.TSN_Q (n : Nat) : Nat := 0x132000 + 0x8 * n
abbrev Fd.TSN_Q_EN : Fld := ⟨63, 63⟩
abbrev Fd.TSN_Q_OWNER : Fld := ⟨62, 55⟩
abbrev Fd.TSN_Q_GEN : Fld := ⟨54, 48⟩
abbrev Fd.TSN_Q_QBASE : Fld := ⟨47, 6⟩
abbrev Fd.TSN_Q_SIZE_CODE : Fld := ⟨3, 0⟩
/-- TSN_QKNOT_n at 0x2080 + 0x8 × n in TSN, n = 0 to 15 (R605). -/
abbrev Reg.TSN_QKNOT (n : Nat) : Nat := 0x132080 + 0x8 * n
abbrev Fd.TSN_QKNOT_QKNOT : Fld := ⟨13, 0⟩
/-- CWY_CTRL at 0x0000 in CWY (R632). -/
abbrev Reg.CWY_CTRL : Nat := 0x140000
abbrev Fd.CWY_CTRL_LOCK : Fld := ⟨31, 31⟩
/-- CWY_ID at 0x0008 in CWY (R632). -/
abbrev Reg.CWY_ID : Nat := 0x140008
abbrev Fd.CWY_ID_ETHERTYPE : Fld := ⟨63, 48⟩
abbrev Fd.CWY_ID_JUMBO : Fld := ⟨31, 31⟩
abbrev Fd.CWY_ID_DEVICE : Fld := ⟨14, 0⟩
/-- CWY_CFG at 0x0010 in CWY (R632). -/
abbrev Reg.CWY_CFG : Nat := 0x140010
abbrev Fd.CWY_CFG_PEER_TMO_US : Fld := ⟨31, 16⟩
abbrev Fd.CWY_CFG_RETX_US : Fld := ⟨15, 8⟩
/-- CWY_RETX_CNT at 0x0040 in CWY (R635). -/
abbrev Reg.CWY_RETX_CNT : Nat := 0x140040
abbrev Fd.CWY_RETX_CNT_COUNT : Fld := ⟨31, 0⟩
/-- CWY_OOO_DROP at 0x0044 in CWY (R635). -/
abbrev Reg.CWY_OOO_DROP : Nat := 0x140044
abbrev Fd.CWY_OOO_DROP_COUNT : Fld := ⟨31, 0⟩
/-- CWY_PEER_LOST_CNT at 0x0048 in CWY (R635). -/
abbrev Reg.CWY_PEER_LOST_CNT : Nat := 0x140048
abbrev Fd.CWY_PEER_LOST_CNT_COUNT : Fld := ⟨31, 0⟩
/-- CWY_REFUSE_CNT at 0x004C in CWY (R635). -/
abbrev Reg.CWY_REFUSE_CNT : Nat := 0x14004C
abbrev Fd.CWY_REFUSE_CNT_COUNT : Fld := ⟨31, 0⟩
/-- CWY_SAT at 0x0050 in CWY (R635). -/
abbrev Reg.CWY_SAT : Nat := 0x140050
abbrev Fd.CWY_SAT_SAT : Fld := ⟨3, 0⟩
/-- CWY_PORT_n at 0x0100 + 0x40 × n in CWY, n = 0 to 3 (R633). -/
abbrev Reg.CWY_PORT (n : Nat) : Nat := 0x140100 + 0x40 * n
abbrev Fd.CWY_PORT_EN : Fld := ⟨31, 31⟩
abbrev Fd.CWY_PORT_STATE : Fld := ⟨30, 28⟩
abbrev Fd.CWY_PORT_LANES : Fld := ⟨26, 24⟩
abbrev Fd.CWY_PORT_VLAN : Fld := ⟨15, 0⟩
/-- CWY_FEC_UNCORR_n_k at 0x0110 + 0x40 × n + 0x4 × k in CWY (R635). -/
abbrev Reg.CWY_FEC_UNCORR (n k : Nat) : Nat := 0x140110 + 0x40 * n + 0x4 * k
abbrev Fd.CWY_FEC_UNCORR_COUNT : Fld := ⟨31, 0⟩
/-- CWY_FEC_SAT_n at 0x011C + 0x40 × n in CWY, n = 0 to 3 (R635). -/
abbrev Reg.CWY_FEC_SAT (n : Nat) : Nat := 0x14011C + 0x40 * n
abbrev Fd.CWY_FEC_SAT_SAT : Fld := ⟨2, 0⟩
/-- CWY_PEER_SEL at 0x0400 in CWY (R634). -/
abbrev Reg.CWY_PEER_SEL : Nat := 0x140400
abbrev Fd.CWY_PEER_SEL_CMD : Fld := ⟨31, 28⟩
abbrev Fd.CWY_PEER_SEL_STATUS : Fld := ⟨27, 24⟩
abbrev Fd.CWY_PEER_SEL_INDEX : Fld := ⟨7, 0⟩
/-- CWY_PEER_D0 at 0x0408 in CWY (R634). -/
abbrev Reg.CWY_PEER_D0 : Nat := 0x140408
abbrev Fd.CWY_PEER_D0_STATE : Fld := ⟨63, 61⟩
abbrev Fd.CWY_PEER_D0_DIRECT : Fld := ⟨60, 60⟩
abbrev Fd.CWY_PEER_D0_PORTS : Fld := ⟨59, 56⟩
abbrev Fd.CWY_PEER_D0_MAC : Fld := ⟨47, 0⟩
/-- CWY_PEER_D1 at 0x0410 in CWY (R634). -/
abbrev Reg.CWY_PEER_D1 : Nat := 0x140410
abbrev Fd.CWY_PEER_D1_SEQ : Fld := ⟨63, 32⟩
abbrev Fd.CWY_PEER_D1_DEVICE : Fld := ⟨14, 0⟩
/-- MEDIA_CTRL at 0x0000 in MEDIA (R654). -/
abbrev Reg.MEDIA_CTRL : Nat := 0x150000
abbrev Fd.MEDIA_CTRL_LOCK : Fld := ⟨31, 31⟩
/-- MEDIA_DEC_n at 0x0100 + 0x20 × n in MEDIA, n = 0 to 1 (R654). -/
abbrev Reg.MEDIA_DEC (n : Nat) : Nat := 0x150100 + 0x20 * n
abbrev Fd.MEDIA_DEC_EN : Fld := ⟨63, 63⟩
abbrev Fd.MEDIA_DEC_CODEC : Fld := ⟨62, 61⟩
abbrev Fd.MEDIA_DEC_CFG_ERR : Fld := ⟨60, 60⟩
abbrev Fd.MEDIA_DEC_CHANNEL : Fld := ⟨59, 56⟩
abbrev Fd.MEDIA_DEC_MAX_FPS : Fld := ⟨39, 32⟩
abbrev Fd.MEDIA_DEC_MAX_W : Fld := ⟨31, 16⟩
abbrev Fd.MEDIA_DEC_MAX_H : Fld := ⟨15, 0⟩
/-- MEDIA_DEC_ERR_n at 0x0110 + 0x20 × n in MEDIA, n = 0 to 1 (R656). -/
abbrev Reg.MEDIA_DEC_ERR (n : Nat) : Nat := 0x150110 + 0x20 * n
abbrev Fd.MEDIA_DEC_ERR_COUNT : Fld := ⟨31, 0⟩
/-- MEDIA_ENC0 at 0x0200 in MEDIA (R655). -/
abbrev Reg.MEDIA_ENC0 : Nat := 0x150200
abbrev Fd.MEDIA_ENC0_EN : Fld := ⟨63, 63⟩
abbrev Fd.MEDIA_ENC0_CFG_ERR : Fld := ⟨62, 62⟩
abbrev Fd.MEDIA_ENC0_REL : Fld := ⟨61, 61⟩
abbrev Fd.MEDIA_ENC0_CHANNEL : Fld := ⟨60, 57⟩
abbrev Fd.MEDIA_ENC0_GOP : Fld := ⟨47, 32⟩
abbrev Fd.MEDIA_ENC0_KBPS : Fld := ⟨31, 0⟩
/-- MEDIA_ENC1 at 0x0208 in MEDIA (R655). -/
abbrev Reg.MEDIA_ENC1 : Nat := 0x150208
abbrev Fd.MEDIA_ENC1_GEN : Fld := ⟨62, 56⟩
abbrev Fd.MEDIA_ENC1_QBASE : Fld := ⟨47, 6⟩
abbrev Fd.MEDIA_ENC1_SIZE_CODE : Fld := ⟨3, 0⟩
/-- MEDIA_ENC2 at 0x0210 in MEDIA (R655). -/
abbrev Reg.MEDIA_ENC2 : Nat := 0x150210
abbrev Fd.MEDIA_ENC2_KNOT : Fld := ⟨13, 0⟩
/-- MEDIA_ENC_SKIP at 0x0220 in MEDIA (R656). -/
abbrev Reg.MEDIA_ENC_SKIP : Nat := 0x150220
abbrev Fd.MEDIA_ENC_SKIP_COUNT : Fld := ⟨31, 0⟩
/-- MEDIA_SAT at 0x0224 in MEDIA (R656). -/
abbrev Reg.MEDIA_SAT : Nat := 0x150224
abbrev Fd.MEDIA_SAT_SAT : Fld := ⟨2, 0⟩

/-- Registers of block GEN, part 0. -/
def RegMap.GEN_part0 : List RegSpec := [
  ⟨0x0000, 32, 1, 0x0, 1, 0x0, .never, none,
    [⟨Fd.GEN_CTRL_LOCK, .rwl, 0, wS⟩]⟩,
  ⟨0x0008, 64, 1, 0x0, 1, 0x0, .never, none,
    [⟨Fd.GEN_ID_PART, .ro, 0x880, wNone⟩, ⟨Fd.GEN_ID_STEPPING, .ro, 1, wNone⟩,
     ⟨Fd.GEN_ID_ORDER, .ro, 0, wNone⟩]⟩,
  ⟨0x0100, 64, 1, 0x0, 1, 0x0, .never, none,
    [⟨Fd.GEN_EVQ_CFG_0_EN, .rw, 0, wS⟩, ⟨Fd.GEN_EVQ_CFG_0_BASE, .rw, 0, wS⟩,
     ⟨Fd.GEN_EVQ_CFG_0_SIZE_CODE, .rw, 0, wS⟩]⟩,
  ⟨0x0108, 32, 1, 0x0, 1, 0x0, .never, none,
    [⟨Fd.GEN_EVQ_HEAD_0_HEAD, .ro, 0, wNone⟩]⟩,
  ⟨0x0110, 64, 1, 0x0, 1, 0x0, .never, none,
    [⟨Fd.GEN_EVQ_TAIL_0_VEC, .rw, 0, wNone⟩, ⟨Fd.GEN_EVQ_TAIL_0_TAIL, .rw, 0, wS⟩]⟩,
  ⟨0x0120, 64, 1, 0x0, 1, 0x0, .never, none,
    [⟨Fd.GEN_EVQ_CFG_1_EN, .rw, 0, wSH⟩, ⟨Fd.GEN_EVQ_CFG_1_BASE, .rw, 0, wSH⟩,
     ⟨Fd.GEN_EVQ_CFG_1_SIZE_CODE, .rw, 0, wSH⟩]⟩,
  ⟨0x0128, 32, 1, 0x0, 1, 0x0, .never, none,
    [⟨Fd.GEN_EVQ_HEAD_1_HEAD, .ro, 0, wNone⟩]⟩,
  ⟨0x0130, 64, 1, 0x0, 1, 0x0, .never, none,
    [⟨Fd.GEN_EVQ_TAIL_1_VEC, .rw, 0, wH⟩, ⟨Fd.GEN_EVQ_TAIL_1_TAIL, .rw, 0, wSH⟩]⟩,
  ⟨0x0140, 64, 1, 0x0, 1, 0x0, .never, none,
    [⟨Fd.GEN_EVQ_CFG_2_EN, .rw, 0, wSP⟩, ⟨Fd.GEN_EVQ_CFG_2_BASE, .rw, 0, wSP⟩,
     ⟨Fd.GEN_EVQ_CFG_2_SIZE_CODE, .rw, 0, wSP⟩]⟩,
  ⟨0x0148, 32, 1, 0x0, 1, 0x0, .never, none,
    [⟨Fd.GEN_EVQ_HEAD_2_HEAD, .ro, 0, wNone⟩]⟩,
  ⟨0x0150, 64, 1, 0x0, 1, 0x0, .never, none,
    [⟨Fd.GEN_EVQ_TAIL_2_VEC, .rw, 0, wP⟩, ⟨Fd.GEN_EVQ_TAIL_2_TAIL, .rw, 0, wSP⟩]⟩,
  ⟨0x0200, 32, 22, 0x4, 1, 0x0, .never, none,
    [⟨Fd.GEN_EVT_ROUTE_DEST, .rwl, 3, wSH⟩]⟩,
  ⟨0x0300, 32, 3, 0x4, 1, 0x0, .never, none,
    [⟨Fd.GEN_EVQ_DROP_CNT_COUNT, .rw, 0, wSHP⟩]⟩,
  ⟨0x030C, 32, 1, 0x0, 1, 0x0, .never, none,
    [⟨Fd.GEN_SAT_SAT, .ro, 0, wNone⟩]⟩]
/-- Registers of block GEN, part 1. -/
def RegMap.GEN_part1 : List RegSpec := [
  ⟨0x0400, 64, 32, 0x8, 1, 0x0, .never, none,
    [⟨Fd.GEN_UFS_LU_OWNER, .rw, 0, wSH⟩, ⟨Fd.GEN_UFS_LU_MB, .rw, 0, wSH⟩]⟩]
/-- Registers of block GEN. -/
def RegMap.GEN : List RegSpec := RegMap.GEN_part0 ++ RegMap.GEN_part1
/-- Registers of block TIME, part 0. DESIGN CHOICE (log 69): R47 gives TIME_TACK_CROWD no field table; it is
writable by Selvage and the hypervisor, as the other counters of the first blocks are. -/
def RegMap.TIME_part0 : List RegSpec := [
  ⟨0x0000, 64, 1, 0x0, 1, 0x0, .never, none,
    [⟨Fd.TIME_NOW_NOW, .ro, 0, wNone⟩]⟩,
  ⟨0x0008, 32, 1, 0x0, 1, 0x0, .never, none,
    [⟨Fd.TIME_RATE_ADJ_ADJ, .rw, 0, wSH⟩]⟩,
  ⟨0x000C, 32, 1, 0x0, 1, 0x0, .never, none,
    [⟨Fd.TIME_STATUS_CLAMPED, .w1c, 0, wSH⟩, ⟨Fd.TIME_STATUS_REF_LOSS, .ro, 0, wNone⟩,
     ⟨Fd.TIME_STATUS_LOCKED, .ro, 0, wNone⟩]⟩,
  ⟨0x0010, 32, 1, 0x0, 1, 0x0, .never, none,
    [⟨Fd.TIME_CTRL_LOCK, .rwl, 0, wS⟩, ⟨Fd.TIME_CTRL_SERVO, .rwl, 0, wSH⟩]⟩,
  ⟨0x0040, 32, 1, 0x0, 1, 0x0, .never, none,
    [⟨Fd.TIME_TACK_CROWD_COUNT, .rw, 0, wSH⟩]⟩,
  ⟨0x0100, 32, 1, 0x0, 1, 0x0, .never, none,
    [⟨Fd.TIME_TACK_SEL_CMD, .wo, 0, wSHP⟩, ⟨Fd.TIME_TACK_SEL_STATUS, .ro, 0, wNone⟩,
     ⟨Fd.TIME_TACK_SEL_INDEX, .rw, 0, wSHP⟩]⟩,
  ⟨0x0108, 64, 1, 0x0, 1, 0x0, .never, none,
    [⟨Fd.TIME_TACK_D0_INSTANT, .rw, 0, wSHP⟩]⟩,
  ⟨0x0110, 64, 1, 0x0, 1, 0x0, .never, none,
    [⟨Fd.TIME_TACK_D1_PERIOD, .rw, 0, wSHP⟩]⟩,
  ⟨0x0118, 64, 1, 0x0, 1, 0x0, .never, none,
    [⟨Fd.TIME_TACK_D2_PRE_VALUE, .rw, 0, wSHP⟩]⟩,
  ⟨0x0120, 64, 1, 0x0, 1, 0x0, .never, none,
    [⟨Fd.TIME_TACK_D3_ENABLE, .rw, 0, wSHP⟩, ⟨Fd.TIME_TACK_D3_PROT, .rw, 0, wSP⟩,
     ⟨Fd.TIME_TACK_D3_MODE, .rw, 0, wSHP⟩, ⟨Fd.TIME_TACK_D3_PRE_EN, .rw, 0, wSHP⟩,
     ⟨Fd.TIME_TACK_D3_ACTION, .rw, 0, wSHP⟩, ⟨Fd.TIME_TACK_D3_TARGET, .rw, 0, wSHP⟩,
     ⟨Fd.TIME_TACK_D3_ARG, .rw, 0, wSHP⟩, ⟨Fd.TIME_TACK_D3_PRE_STEP, .rw, 0, wSHP⟩,
     ⟨Fd.TIME_TACK_D3_PRE_KNOT, .rw, 0, wSHP⟩]⟩,
  ⟨0x0128, 64, 1, 0x0, 1, 0x0, .never, none,
    [⟨Fd.TIME_TACK_D4_INSTANT_FRAC, .rw, 0, wSHP⟩, ⟨Fd.TIME_TACK_D4_WAIT_LIMIT, .rw, 0, wSHP⟩,
     ⟨Fd.TIME_TACK_D4_OWNER, .ro, 0, wNone⟩]⟩,
  ⟨0x0130, 64, 1, 0x0, 1, 0x0, .never, none,
    [⟨Fd.TIME_TACK_D5_FIRES, .ro, 0, wNone⟩]⟩,
  ⟨0x0138, 64, 1, 0x0, 1, 0x0, .never, none,
    [⟨Fd.TIME_TACK_D6_LATE, .ro, 0, wNone⟩, ⟨Fd.TIME_TACK_D6_SKIP, .ro, 0, wNone⟩]⟩,
  ⟨0x0140, 64, 1, 0x0, 1, 0x0, .never, none,
    [⟨Fd.TIME_TACK_D7_TIMEOUT, .ro, 0, wNone⟩, ⟨Fd.TIME_TACK_D7_SAT, .ro, 0, wNone⟩]⟩]
/-- Registers of block TIME, part 1. -/
def RegMap.TIME_part1 : List RegSpec := [
  ⟨0x0200, 32, 16, 0x4, 1, 0x0, .never, none,
    [⟨Fd.TIME_FSYNC_CFG_EN, .rwl, 0, wSHP⟩, ⟨Fd.TIME_FSYNC_CFG_POL, .rwl, 0, wSHP⟩,
     ⟨Fd.TIME_FSYNC_CFG_OVERLAP, .w1c, 0, wSHP⟩, ⟨Fd.TIME_FSYNC_CFG_WIDTH, .rwl, 0xc8, wSHP⟩]⟩]
/-- Registers of block TIME. -/
def RegMap.TIME : List RegSpec := RegMap.TIME_part0 ++ RegMap.TIME_part1
/-- Registers of block ALW. -/
def RegMap.ALW : List RegSpec := [
  ⟨0x0000, 32, 1, 0x0, 1, 0x0, .never, none,
    [⟨Fd.ALW_BUDGET_CORE_QA, .rwl, 0x320, wSH⟩]⟩,
  ⟨0x0004, 32, 1, 0x0, 1, 0x0, .never, none,
    [⟨Fd.ALW_DRAM_BUDGET_DRAM_QA, .rwl, 0x5b, wSH⟩]⟩,
  ⟨0x0008, 64, 1, 0x0, 1, 0x0, .never, none,
    [⟨Fd.ALW_HELD_DRAM_MA, .ro, 0, wNone⟩, ⟨Fd.ALW_HELD_CORE_MA, .ro, 0, wNone⟩]⟩,
  ⟨0x0010, 32, 1, 0x0, 1, 0x0, .never, none,
    [⟨Fd.ALW_STATUS_CLAMP, .w1c, 0, wSH⟩, ⟨Fd.ALW_STATUS_RECLAIM, .ro, 0, wNone⟩,
     ⟨Fd.ALW_STATUS_OVER, .ro, 0, wNone⟩, ⟨Fd.ALW_STATUS_WAIT_BE, .ro, 0, wNone⟩,
     ⟨Fd.ALW_STATUS_WAIT_TEST, .ro, 0, wNone⟩, ⟨Fd.ALW_STATUS_WAIT_LC, .ro, 0, wNone⟩]⟩,
  ⟨0x0014, 32, 1, 0x0, 1, 0x0, .never, none,
    [⟨Fd.ALW_CTRL_LOCK, .rwl, 0, wS⟩]⟩,
  ⟨0x0018, 32, 1, 0x0, 1, 0x0, .never, none,
    [⟨Fd.ALW_STALE_CNT_COUNT, .rw, 0, wSH⟩]⟩,
  ⟨0x001C, 32, 1, 0x0, 1, 0x0, .never, none,
    [⟨Fd.ALW_SHORT_CNT_COUNT, .rw, 0, wSH⟩]⟩,
  ⟨0x0020, 32, 3, 0x4, 1, 0x0, .never, none,
    [⟨Fd.ALW_WAIT_CNT_COUNT, .rw, 0, wSH⟩]⟩,
  ⟨0x0030, 32, 1, 0x0, 1, 0x0, .never, none,
    [⟨Fd.ALW_SAT_SAT, .ro, 0, wNone⟩]⟩,
  ⟨0x0040, 64, 3, 0x8, 1, 0x0, .never, none,
    [⟨Fd.ALW_WAIT_NS_NS, .ro, 0, wNone⟩]⟩]
/-- Registers of block PWR. -/
def RegMap.PWR : List RegSpec := [
  ⟨0x0000, 32, 1, 0x0, 1, 0x0, .never, none,
    [⟨Fd.PWR_DOMAIN_REQ_CMD, .wo, 0, wHP⟩, ⟨Fd.PWR_DOMAIN_REQ_STATUS, .ro, 0, wNone⟩,
     ⟨Fd.PWR_DOMAIN_REQ_DOMAIN, .rw, 0, wHP⟩]⟩,
  ⟨0x0010, 32, 7, 0x4, 1, 0x0, .never, none,
    [⟨Fd.PWR_DOMAIN_STATE_ON, .ro, 0, wNone⟩]⟩,
  ⟨0x0400, 32, 24, 0x4, 1, 0x0, .never, none,
    [⟨Fd.PWR_RATE_VALID, .ro, 0, wNone⟩, ⟨Fd.PWR_RATE_BELOW, .ro, 0, wNone⟩,
     ⟨Fd.PWR_RATE_MIN, .ro, 0x3fff, wNone⟩, ⟨Fd.PWR_RATE_RATE, .ro, 0, wNone⟩]⟩,
  ⟨0x0460, 32, 1, 0x0, 1, 0x0, .never, none,
    [⟨Fd.PWR_RATE_FLOOR_CLR_MIN, .wo, 0, wSH⟩, ⟨Fd.PWR_RATE_FLOOR_FLOOR_PM, .rw, 0x3e8, wSH⟩]⟩,
  ⟨0x0464, 32, 1, 0x0, 1, 0x0, .never, none,
    [⟨Fd.PWR_RATE_LOW_CNT_COUNT, .rw, 0, wSH⟩]⟩,
  ⟨0x0468, 32, 1, 0x0, 1, 0x0, .never, none,
    [⟨Fd.PWR_RIM_REFUSE_CNT_COUNT, .rw, 0, wSH⟩]⟩,
  ⟨0x046C, 32, 1, 0x0, 1, 0x0, .never, none,
    [⟨Fd.PWR_SAT_SAT, .ro, 0, wNone⟩]⟩,
  ⟨0x0500, 64, 10, 0x8, 1, 0x0, .never, none,
    [⟨Fd.PWR_RIM_ON_ON, .ro, 0, wNone⟩]⟩]
/-- Registers of block MEM, part 0. -/
def RegMap.MEM_part0 : List RegSpec := [
  ⟨0x0000, 32, 1, 0x0, 1, 0x0, .never, none,
    [⟨Fd.MEM_CTRL_LOCK, .rwl, 0, wS⟩, ⟨Fd.MEM_CTRL_ROW_SPARE_EN, .rwl, 1, wS⟩,
     ⟨Fd.MEM_CTRL_SCRUB_EN, .rwl, 1, wSH⟩]⟩,
  ⟨0x0004, 32, 1, 0x0, 1, 0x0, .never, none,
    [⟨Fd.MEM_SCRUB_CFG_SCRUB_H, .rwl, 0x18, wSH⟩]⟩,
  ⟨0x0008, 32, 1, 0x0, 1, 0x0, .never, none,
    [⟨Fd.MEM_ROW_WIN_ROW_WIN_H, .rwl, 0x18, wSP⟩, ⟨Fd.MEM_ROW_WIN_ROW_THR, .rwl, 3, wSP⟩]⟩,
  ⟨0x0010, 64, 1, 0x0, 1, 0x0, .never, none,
    [⟨Fd.MEM_STAGE_MOVE_PENDING, .ro, 0, wNone⟩, ⟨Fd.MEM_STAGE_BASE, .rwl, 0x3f8, wSH⟩,
     ⟨Fd.MEM_STAGE_SIZE, .rwl, 4, wSH⟩]⟩,
  ⟨0x0020, 32, 1, 0x0, 1, 0x0, .never, none,
    [⟨Fd.MEM_CE_CNT_COUNT, .rw, 0, wSH⟩]⟩,
  ⟨0x0024, 32, 1, 0x0, 1, 0x0, .never, none,
    [⟨Fd.MEM_UE_CNT_COUNT, .rw, 0, wSH⟩]⟩,
  ⟨0x0028, 32, 1, 0x0, 1, 0x0, .never, none,
    [⟨Fd.MEM_REFUSE_CNT_COUNT, .rw, 0, wSH⟩]⟩,
  ⟨0x002C, 32, 1, 0x0, 1, 0x0, .never, none,
    [⟨Fd.MEM_TRACK_DROP_CNT_COUNT, .rw, 0, wSH⟩]⟩,
  ⟨0x0030, 32, 1, 0x0, 1, 0x0, .never, none,
    [⟨Fd.MEM_SAT_SAT, .ro, 0, wNone⟩]⟩,
  ⟨0x0034, 32, 1, 0x0, 1, 0x0, .never, none,
    [⟨Fd.MEM_ERRQ_DROP_CNT_COUNT, .rw, 0, wSH⟩]⟩,
  ⟨0x0038, 32, 1, 0x0, 1, 0x0, .never, none,
    [⟨Fd.MEM_SCRUB_LATE_CNT_COUNT, .rw, 0, wSH⟩]⟩,
  ⟨0x003C, 32, 1, 0x0, 1, 0x0, .never, none,
    [⟨Fd.MEM_STAGE_FULL_CNT_COUNT, .rw, 0, wSH⟩]⟩,
  ⟨0x0040, 32, 8, 0x4, 1, 0x0, .never, none,
    [⟨Fd.MEM_TEMP_TIER, .ro, 0, wNone⟩, ⟨Fd.MEM_TEMP_TJ, .ro, 0, wNone⟩]⟩,
  ⟨0x0100, 64, 1, 0x0, 1, 0x0, .never, none,
    [⟨Fd.MEM_ERR_W0_VALID, .ro, 0, wNone⟩, ⟨Fd.MEM_ERR_W0_KIND, .ro, 0, wNone⟩,
     ⟨Fd.MEM_ERR_W0_SYMBOLS, .ro, 0, wNone⟩, ⟨Fd.MEM_ERR_W0_ORIGIN, .ro, 0, wNone⟩,
     ⟨Fd.MEM_ERR_W0_ADDR, .ro, 0, wNone⟩]⟩]
/-- Registers of block MEM, part 1. -/
def RegMap.MEM_part1 : List RegSpec := [
  ⟨0x0108, 64, 1, 0x0, 1, 0x0, .never, none,
    [⟨Fd.MEM_ERR_W1_TIME, .ro, 0, wNone⟩]⟩,
  ⟨0x0110, 64, 1, 0x0, 1, 0x0, .never, none,
    [⟨Fd.MEM_ERR_W2_CHANNEL, .ro, 0, wNone⟩, ⟨Fd.MEM_ERR_W2_BANK, .ro, 0, wNone⟩,
     ⟨Fd.MEM_ERR_W2_ROW, .ro, 0, wNone⟩, ⟨Fd.MEM_ERR_W2_SPARES_LEFT, .ro, 0, wNone⟩]⟩,
  ⟨0x1000, 32, 512, 0x4, 1, 0x0, .never, none,
    [⟨Fd.MEM_CHMAP_COPYING, .ro, 0, wNone⟩, ⟨Fd.MEM_CHMAP_PHYS, .ro, 0, wNone⟩]⟩]
/-- Registers of block MEM. -/
def RegMap.MEM : List RegSpec := RegMap.MEM_part0 ++ RegMap.MEM_part1
/-- Registers of block ARY, part 0. -/
def RegMap.ARY_part0 : List RegSpec := [
  ⟨0x0000, 32, 1, 0x0, 1, 0x0, .never, none,
    [⟨Fd.ARY_CTRL_LOCK, .rwl, 0, wS⟩]⟩,
  ⟨0x0008, 32, 1, 0x0, 1, 0x0, .never, none,
    [⟨Fd.ARY_WDOG_WDOG_US, .rwl, 0x3e8, wSH⟩]⟩,
  ⟨0x000C, 32, 1, 0x0, 1, 0x0, .never, none,
    [⟨Fd.ARY_CACHE_CFG_PIN_WAYS, .rwl, 4, wSH⟩]⟩,
  ⟨0x0010, 32, 1, 0x0, 1, 0x0, .never, none,
    [⟨Fd.ARY_SP_WIN_WIN_H, .rwl, 0x18, wSP⟩, ⟨Fd.ARY_SP_WIN_THR, .rwl, 2, wSP⟩]⟩,
  ⟨0x0100, 32, 128, 0x4, 1, 0x0, .never, none,
    [⟨Fd.ARY_CORE_MODE, .ro, 0, wNone⟩, ⟨Fd.ARY_CORE_BUSY, .ro, 0, wNone⟩,
     ⟨Fd.ARY_CORE_YIELD, .ro, 0, wNone⟩, ⟨Fd.ARY_CORE_TENANT, .ro, 0, wNone⟩,
     ⟨Fd.ARY_CORE_PHYS, .ro, 0, wNone⟩]⟩,
  ⟨0x0300, 32, 1, 0x0, 1, 0x0, .never, none,
    [⟨Fd.ARY_SPARE_STATE_FAILED, .ro, 0, wNone⟩, ⟨Fd.ARY_SPARE_STATE_IN, .ro, 0, wNone⟩]⟩,
  ⟨0x0400, 32, 1, 0x0, 1, 0x0, .never, none,
    [⟨Fd.ARY_BVOID_CNT_COUNT, .rw, 0, wSH⟩]⟩,
  ⟨0x0404, 32, 1, 0x0, 1, 0x0, .never, none,
    [⟨Fd.ARY_SAT_SAT, .ro, 0, wNone⟩]⟩,
  ⟨0x0410, 32, 1, 0x0, 1, 0x0, .never, none,
    [⟨Fd.ARY_PACK_ERR_CNT_COUNT, .rw, 0, wSH⟩]⟩,
  ⟨0x0414, 32, 1, 0x0, 1, 0x0, .never, none,
    [⟨Fd.ARY_WDOG_CNT_COUNT, .rw, 0, wSH⟩]⟩,
  ⟨0x0418, 32, 1, 0x0, 1, 0x0, .never, none,
    [⟨Fd.ARY_SPAN_CNT_COUNT, .rw, 0, wSH⟩]⟩,
  ⟨0x041C, 32, 1, 0x0, 1, 0x0, .never, none,
    [⟨Fd.ARY_SP_CE_CNT_COUNT, .rw, 0, wSH⟩]⟩,
  ⟨0x0420, 32, 1, 0x0, 1, 0x0, .never, none,
    [⟨Fd.ARY_PIN_MISS_CNT_COUNT, .rw, 0, wSH⟩]⟩,
  ⟨0x0424, 32, 1, 0x0, 1, 0x0, .never, none,
    [⟨Fd.ARY_FLUSH_CNT_COUNT, .rw, 0, wSH⟩]⟩]
/-- Registers of block ARY, part 1. -/
def RegMap.ARY_part1 : List RegSpec := [
  ⟨0x0428, 32, 1, 0x0, 1, 0x0, .never, none,
    [⟨Fd.ARY_HOT_FAIL_CNT_COUNT, .rw, 0, wSH⟩]⟩,
  ⟨0x042C, 32, 1, 0x0, 1, 0x0, .never, none,
    [⟨Fd.ARY_FORCED_CNT_COUNT, .rw, 0, wSH⟩]⟩,
  ⟨0x0430, 32, 1, 0x0, 1, 0x0, .never, none,
    [⟨Fd.ARY_SAVE_FULL_CNT_COUNT, .rw, 0, wSH⟩]⟩,
  ⟨0x0480, 64, 16, 0x8, 1, 0x0, .never, none,
    [⟨Fd.ARY_ZSKIP_STEPS, .ro, 0, wNone⟩]⟩,
  ⟨0x0500, 64, 1, 0x0, 1, 0x0, .never, none,
    [⟨Fd.ARY_SWITCH_TOTAL_SWITCHES, .ro, 0, wNone⟩]⟩,
  ⟨0x0600, 32, 1, 0x0, 1, 0x0, .never, none,
    [⟨Fd.ARY_SCHED_CTRL_FAULT_WIN_S, .rwl, 0xa, wSH⟩, ⟨Fd.ARY_SCHED_CTRL_FAULT_THR, .rwl, 2, wSH⟩]⟩,
  ⟨0x0608, 64, 1, 0x0, 1, 0x0, .never, none,
    [⟨Fd.ARY_SAVE_CFG_MOVE_PENDING, .ro, 0, wNone⟩, ⟨Fd.ARY_SAVE_CFG_BASE, .rwl, 0x3f0, wSH⟩,
     ⟨Fd.ARY_SAVE_CFG_SIZE, .rwl, 8, wSH⟩]⟩,
  ⟨0x0610, 64, 1, 0x0, 1, 0x0, .never, none,
    [⟨Fd.ARY_FLUSH_REC0_TIME, .ro, 0, wNone⟩]⟩,
  ⟨0x0618, 64, 1, 0x0, 1, 0x0, .never, none,
    [⟨Fd.ARY_FLUSH_REC1_REQUEUED, .ro, 0, wNone⟩, ⟨Fd.ARY_FLUSH_REC1_FAULTED, .ro, 0, wNone⟩,
     ⟨Fd.ARY_FLUSH_REC1_ORIGIN, .ro, 0, wNone⟩, ⟨Fd.ARY_FLUSH_REC1_DURATION_NS, .ro, 0, wNone⟩,
     ⟨Fd.ARY_FLUSH_REC1_CAUSE, .ro, 0, wNone⟩, ⟨Fd.ARY_FLUSH_REC1_CORE, .ro, 0, wNone⟩]⟩,
  ⟨0x0620, 64, 1, 0x0, 1, 0x0, .never, none,
    [⟨Fd.ARY_SUSPEND_SUSP, .w1c, 0, wSH⟩]⟩,
  ⟨0x0630, 64, 1, 0x0, 1, 0x0, .never, none,
    [⟨Fd.ARY_TEST_NS_NS, .ro, 0, wNone⟩]⟩,
  ⟨0x0700, 64, 1, 0x0, 1, 0x0, .never, none,
    [⟨Fd.ARY_HOT_CFG_MOVE_PENDING, .ro, 0, wNone⟩, ⟨Fd.ARY_HOT_CFG_BASE, .rwl, 0, wSH⟩,
     ⟨Fd.ARY_HOT_CFG_SIZE, .rwl, 0, wSH⟩]⟩,
  ⟨0x0710, 32, 1, 0x0, 1, 0x0, .never, none,
    [⟨Fd.ARY_HOT_SEL_CMD, .wo, 0, wSH⟩, ⟨Fd.ARY_HOT_SEL_STATUS, .ro, 0, wNone⟩,
     ⟨Fd.ARY_HOT_SEL_INDEX, .rw, 0, wSH⟩]⟩,
  ⟨0x0718, 64, 1, 0x0, 1, 0x0, .never, none,
    [⟨Fd.ARY_HOT_D0_KEY, .rw, 0, wSH⟩]⟩]
/-- Registers of block ARY, part 2. -/
def RegMap.ARY_part2 : List RegSpec := [
  ⟨0x0720, 64, 1, 0x0, 1, 0x0, .never, none,
    [⟨Fd.ARY_HOT_D1_KIND, .rw, 0, wSH⟩, ⟨Fd.ARY_HOT_D1_LUN, .rw, 0, wSH⟩,
     ⟨Fd.ARY_HOT_D1_SOURCE, .rw, 0, wSH⟩]⟩,
  ⟨0x0728, 64, 1, 0x0, 1, 0x0, .never, none,
    [⟨Fd.ARY_HOT_D2_OWNER, .rw, 0, wSH⟩, ⟨Fd.ARY_HOT_D2_PIN, .rw, 0, wSH⟩,
     ⟨Fd.ARY_HOT_D2_CPIN, .rw, 0, wSH⟩, ⟨Fd.ARY_HOT_D2_STATE, .ro, 0, wNone⟩,
     ⟨Fd.ARY_HOT_D2_LENGTH, .rw, 0, wSH⟩]⟩,
  ⟨0x0730, 64, 1, 0x0, 1, 0x0, .never, none,
    [⟨Fd.ARY_HOT_D3_LAST_USE, .ro, 0, wNone⟩]⟩,
  ⟨0x0738, 64, 1, 0x0, 1, 0x0, .never, none,
    [⟨Fd.ARY_HOT_D4_LOADS, .ro, 0, wNone⟩]⟩,
  ⟨0x0800, 64, 64, 0x8, 1, 0x0, .never, none,
    [⟨Fd.ARY_SHARE_HOT_QUOTA, .rw, 0, wSH⟩, ⟨Fd.ARY_SHARE_SHARE_LC, .rw, 1, wSH⟩,
     ⟨Fd.ARY_SHARE_SHARE_TEST, .rw, 1, wSH⟩, ⟨Fd.ARY_SHARE_SHARE_BE, .rw, 1, wSH⟩]⟩,
  ⟨0x1000, 64, 64, 0x40, 1, 0x0, .never, none,
    [⟨Fd.ARY_ACCT_NS_LC_NS_LC, .ro, 0, wNone⟩]⟩,
  ⟨0x1008, 64, 64, 0x40, 1, 0x0, .never, none,
    [⟨Fd.ARY_ACCT_NS_TEST_NS_TEST, .ro, 0, wNone⟩]⟩,
  ⟨0x1010, 64, 64, 0x40, 1, 0x0, .never, none,
    [⟨Fd.ARY_ACCT_NS_BE_NS_BE, .ro, 0, wNone⟩]⟩,
  ⟨0x1018, 64, 64, 0x40, 1, 0x0, .never, none,
    [⟨Fd.ARY_ACCT_STEPS_STEPS, .ro, 0, wNone⟩]⟩,
  ⟨0x1020, 64, 64, 0x40, 1, 0x0, .never, none,
    [⟨Fd.ARY_ACCT_FLUSHED_NS_FLUSHED_NS, .ro, 0, wNone⟩]⟩]
/-- Registers of block ARY. -/
def RegMap.ARY : List RegSpec := RegMap.ARY_part0 ++ RegMap.ARY_part1 ++ RegMap.ARY_part2
/-- Registers of block RING. -/
def RegMap.RING : List RegSpec := [
  ⟨0x0000, 32, 1, 0x0, 1, 0x0, .never, none,
    [⟨Fd.RING_WAKE_RING, .wo, 0, wHU⟩]⟩,
  ⟨0x0010, 32, 1, 0x0, 1, 0x0, .never, none,
    [⟨Fd.RING_DB_BAD_CNT_COUNT, .rw, 0, wSH⟩]⟩,
  ⟨0x0014, 32, 1, 0x0, 1, 0x0, .never, none,
    [⟨Fd.RING_SEQ_BAD_CNT_COUNT, .rw, 0, wSH⟩]⟩,
  ⟨0x0018, 32, 1, 0x0, 1, 0x0, .never, none,
    [⟨Fd.RING_TACK_MISS_CNT_COUNT, .rw, 0, wSH⟩]⟩,
  ⟨0x001C, 32, 1, 0x0, 1, 0x0, .never, none,
    [⟨Fd.RING_SAT_SAT, .ro, 0, wNone⟩]⟩,
  ⟨0x8000, 64, 1024, 0x20, 1, 0x0, (.after 24 63), none,
    [⟨Fd.RING_DESC_DESC_BASE, .rw, 0, wSH⟩, ⟨Fd.RING_DESC_SIZE_CODE, .rw, 0, wSH⟩]⟩,
  ⟨0x8008, 64, 1024, 0x20, 1, 0x0, (.after 16 63), none,
    [⟨Fd.RING_CPL_CPL_BASE, .rw, 0, wSH⟩]⟩,
  ⟨0x8010, 64, 1024, 0x20, 1, 0x0, (.after 8 63), none,
    [⟨Fd.RING_DB_DB_ADDR, .rw, 0, wSH⟩]⟩,
  ⟨0x8018, 64, 1024, 0x20, 1, 0x0, .never, none,
    [⟨Fd.RING_CFG_EN, .rw, 0, wSH⟩, ⟨Fd.RING_CFG_CANCEL, .wo, 0, wSH⟩,
     ⟨Fd.RING_CFG_CLASS, .rw, 2, wSH⟩, ⟨Fd.RING_CFG_POLLED, .rw, 0, wSH⟩,
     ⟨Fd.RING_CFG_COMPOSITOR, .rw, 0, wSH⟩, ⟨Fd.RING_CFG_GEN, .ro, 0, wNone⟩,
     ⟨Fd.RING_CFG_POLL_US, .rw, 5, wSH⟩, ⟨Fd.RING_CFG_LEASE_DEF_MS, .rw, 0x64, wSH⟩,
     ⟨Fd.RING_CFG_WAIT_DEF_MS, .rw, 0x64, wSH⟩, ⟨Fd.RING_CFG_IRQ_VEC, .rw, 0, wSH⟩]⟩]
/-- Registers of block KNOT. -/
def RegMap.KNOT : List RegSpec := [
  ⟨0x0000, 32, 1, 0x0, 1, 0x0, .never, none,
    [⟨Fd.KNOT_CTRL_LOCK, .rwl, 0, wS⟩, ⟨Fd.KNOT_CTRL_RANGE_REFUSED, .w1c, 0, wSH⟩]⟩,
  ⟨0x0010, 32, 1, 0x0, 1, 0x0, .never, none,
    [⟨Fd.KNOT_SEL_CMD, .wo, 0, wSHP⟩, ⟨Fd.KNOT_SEL_STATUS, .ro, 0, wNone⟩,
     ⟨Fd.KNOT_SEL_INDEX, .rw, 0, wSHP⟩]⟩,
  ⟨0x0018, 64, 1, 0x0, 1, 0x0, .never, none,
    [⟨Fd.KNOT_DATA_VALUE, .rw, 0, wSHP⟩]⟩,
  ⟨0x0024, 32, 1, 0x0, 1, 0x0, .never, none,
    [⟨Fd.KNOT_TMO_CNT_COUNT, .rw, 0, wSH⟩]⟩,
  ⟨0x0028, 32, 1, 0x0, 1, 0x0, .never, none,
    [⟨Fd.KNOT_REMOTE_DROP_CNT_COUNT, .rw, 0, wSH⟩]⟩,
  ⟨0x002C, 32, 1, 0x0, 1, 0x0, .never, none,
    [⟨Fd.KNOT_SATW_SAT, .ro, 0, wNone⟩]⟩,
  ⟨0x0100, 64, 64, 0x8, 1, 0x0, .never, none,
    [⟨Fd.KNOT_RANGE_COUNT, .rw, 0, wSH⟩, ⟨Fd.KNOT_RANGE_BASE, .rw, 0, wSH⟩]⟩,
  ⟨0x0300, 64, 64, 0x8, 1, 0x0, .never, none,
    [⟨Fd.KNOT_MIRROR_MIRROR_BASE, .rw, 0, wSH⟩, ⟨Fd.KNOT_MIRROR_EN, .rw, 0, wSH⟩]⟩,
  ⟨0x0800, 64, 256, 0x8, 1, 0x0, .never, none,
    [⟨Fd.KNOT_SAT_SAT, .w1c, 0, wSH⟩]⟩]
/-- Registers of block INTK, part 0. -/
def RegMap.INTK_part0 : List RegSpec := [
  ⟨0x0000, 32, 1, 0x0, 1, 0x0, .never, none,
    [⟨Fd.INTK_CTRL_LOCK, .rwl, 0, wS⟩, ⟨Fd.INTK_CTRL_UNORD_COUNT, .ro, 0, wNone⟩]⟩,
  ⟨0x0100, 32, 4, 0x8, 1, 0x0, .never, none,
    [⟨Fd.INTK_RX_CFG_CPHY, .rwl, 0, wSH⟩, ⟨Fd.INTK_RX_CFG_RATE, .rwl, 3, wSH⟩]⟩,
  ⟨0x1000, 64, 16, 0x100, 1, 0x0, (.field 62 63), (some (201, 2)),
    [⟨Fd.CH_SRC_EN, .rw, 0, wSHP⟩, ⟨Fd.CH_SRC_UNORD, .rw, 0, wHP⟩,
     ⟨Fd.CH_SRC_KIND, .rw, 0, wSHP⟩, ⟨Fd.CH_SRC_UNIT, .rw, 0, wSHP⟩,
     ⟨Fd.CH_SRC_VC, .rw, 0, wSHP⟩, ⟨Fd.CH_SRC_DT, .rw, 0, wSHP⟩,
     ⟨Fd.CH_SRC_TRIG_EN, .rw, 0, wSHP⟩, ⟨Fd.CH_SRC_TRIG_PIN, .rw, 0, wSHP⟩,
     ⟨Fd.CH_SRC_BATCH, .rw, 0, wSHP⟩, ⟨Fd.CH_SRC_CFG_ERR, .w1c, 0, wSHP⟩,
     ⟨Fd.CH_SRC_SLOTS, .rw, 0, wSHP⟩, ⟨Fd.CH_SRC_GEN, .ro, 0, wNone⟩]⟩,
  ⟨0x1008, 64, 16, 0x100, 1, 0x0, .never, (some (201, 2)),
    [⟨Fd.CH_FMT_IN_FMT, .rw, 0, wSHP⟩, ⟨Fd.CH_FMT_OUT_FMT, .rw, 0, wSHP⟩,
     ⟨Fd.CH_FMT_MATRIX, .rw, 0, wSHP⟩, ⟨Fd.CH_FMT_FULL_RANGE, .rw, 0, wSHP⟩,
     ⟨Fd.CH_FMT_PLANAR, .rw, 0, wSHP⟩, ⟨Fd.CH_FMT_DECIM, .rw, 0, wSHP⟩,
     ⟨Fd.CH_FMT_OUT_CH, .rw, 0, wSHP⟩, ⟨Fd.CH_FMT_OUT_SCALE, .rw, 0, wSHP⟩]⟩,
  ⟨0x1010, 64, 16, 0x100, 1, 0x0, .never, (some (201, 2)),
    [⟨Fd.CH_CROP_X0, .rw, 0, wSHP⟩, ⟨Fd.CH_CROP_Y0, .rw, 0, wSHP⟩,
     ⟨Fd.CH_CROP_W, .rw, 0, wSHP⟩, ⟨Fd.CH_CROP_H, .rw, 0, wSHP⟩]⟩,
  ⟨0x1018, 64, 16, 0x100, 1, 0x0, .never, (some (201, 2)),
    [⟨Fd.CH_TIMING_PERIOD_US, .rw, 0, wSHP⟩, ⟨Fd.CH_TIMING_LATE_US, .rw, 0, wSHP⟩,
     ⟨Fd.CH_TIMING_REGION_HOLD, .rw, 3, wSHP⟩]⟩,
  ⟨0x1020, 64, 16, 0x100, 1, 0x0, .never, (some (201, 2)),
    [⟨Fd.CH_BUF0_DATA_BASE, .rw, 0, wSHP⟩, ⟨Fd.CH_BUF0_NBUF, .rw, 0, wSHP⟩]⟩,
  ⟨0x1028, 64, 16, 0x100, 1, 0x0, .never, (some (201, 2)),
    [⟨Fd.CH_BUF1_SLOT_4K, .rw, 0, wSHP⟩, ⟨Fd.CH_BUF1_CTL_BASE, .rw, 0, wSHP⟩]⟩,
  ⟨0x1030, 64, 16, 0x100, 1, 0x0, .never, (some (201, 2)),
    [⟨Fd.CH_QUEUE_POLLED, .rw, 0, wSHP⟩, ⟨Fd.CH_QUEUE_POLL_US, .rw, 5, wSHP⟩,
     ⟨Fd.CH_QUEUE_QBASE, .rw, 0, wSHP⟩, ⟨Fd.CH_QUEUE_SIZE_CODE, .rw, 0, wSHP⟩]⟩,
  ⟨0x1038, 64, 16, 0x100, 1, 0x0, .never, (some (201, 2)),
    [⟨Fd.CH_KNOT_REL_EN, .rw, 0, wSHP⟩, ⟨Fd.CH_KNOT_REL_KNOT, .rw, 0, wSHP⟩,
     ⟨Fd.CH_KNOT_SAMPLE_KNOT, .rw, 0, wSHP⟩]⟩,
  ⟨0x1040, 64, 16, 0x100, 1, 0x0, .never, (some (201, 2)),
    [⟨Fd.CH_DELIVERED_SAMPLES, .ro, 0, wNone⟩]⟩,
  ⟨0x1048, 64, 16, 0x100, 8, 0x8, .never, (some (201, 2)),
    [⟨Fd.CH_NORM_MEAN, .rw, 0, wSHP⟩, ⟨Fd.CH_NORM_SCALE, .rw, 0x3f800000, wSHP⟩]⟩,
  ⟨0x1090, 64, 16, 0x100, 4, 0x10, .never, (some (201, 2)),
    [⟨Fd.CH_ROI_A_EN, .rw, 0, wSHP⟩, ⟨Fd.CH_ROI_A_SLOTS, .rw, 0, wSHP⟩,
     ⟨Fd.CH_ROI_A_WIN_W, .rw, 0, wSHP⟩, ⟨Fd.CH_ROI_A_WIN_H, .rw, 0, wSHP⟩,
     ⟨Fd.CH_ROI_A_CLASS_MASK, .rw, 0, wSHP⟩]⟩,
  ⟨0x1098, 64, 16, 0x100, 4, 0x10, .never, (some (201, 2)),
    [⟨Fd.CH_ROI_B_OFF, .rw, 0, wSHP⟩]⟩]
/-- Registers of block INTK, part 1. -/
def RegMap.INTK_part1 : List RegSpec := [
  ⟨0x10D0, 32, 16, 0x100, 1, 0x0, .never, (some (201, 2)),
    [⟨Fd.CH_VOID_COUNT, .rw, 0, wSHP⟩]⟩,
  ⟨0x10D4, 32, 16, 0x100, 1, 0x0, .never, (some (201, 2)),
    [⟨Fd.CH_LATE_DROP_COUNT, .rw, 0, wSHP⟩]⟩,
  ⟨0x10D8, 32, 16, 0x100, 1, 0x0, .never, (some (201, 2)),
    [⟨Fd.CH_OVERRUN_COUNT, .rw, 0, wSHP⟩]⟩,
  ⟨0x10DC, 32, 16, 0x100, 1, 0x0, .never, (some (201, 2)),
    [⟨Fd.CH_REGION_DROP_COUNT, .rw, 0, wSHP⟩]⟩,
  ⟨0x10E0, 32, 16, 0x100, 1, 0x0, .never, (some (201, 2)),
    [⟨Fd.CH_CAM_GAP_COUNT, .rw, 0, wSHP⟩]⟩,
  ⟨0x10E4, 32, 16, 0x100, 1, 0x0, .never, (some (201, 2)),
    [⟨Fd.CH_UNEXPECTED_COUNT, .rw, 0, wSHP⟩]⟩,
  ⟨0x10E8, 32, 16, 0x100, 1, 0x0, .never, (some (201, 2)),
    [⟨Fd.CH_HDR_CORR_COUNT, .rw, 0, wSHP⟩]⟩,
  ⟨0x10EC, 32, 16, 0x100, 1, 0x0, .never, (some (201, 2)),
    [⟨Fd.CH_SAT_SAT, .ro, 0, wNone⟩]⟩]
/-- Registers of block INTK. -/
def RegMap.INTK : List RegSpec := RegMap.INTK_part0 ++ RegMap.INTK_part1
/-- Registers of block FUSE, part 0. -/
def RegMap.FUSE_part0 : List RegSpec := [
  ⟨0x0000, 32, 1, 0x0, 1, 0x0, .never, none,
    [⟨Fd.FUSE_CTRL_LOCK, .rwl, 0, wS⟩]⟩,
  ⟨0x0100, 64, 2, 0x40, 1, 0x0, .never, (some (205, 32)),
    [⟨Fd.FUSE_GRID_CFG_EN, .rw, 0, wSHP⟩, ⟨Fd.FUSE_GRID_CFG_REL_EN, .rw, 0, wSHP⟩,
     ⟨Fd.FUSE_GRID_CFG_OUT_FMT, .rw, 0, wSHP⟩, ⟨Fd.FUSE_GRID_CFG_CFG_ERR, .w1c, 0, wSHP⟩,
     ⟨Fd.FUSE_GRID_CFG_NSLOT_M1, .rw, 1, wSHP⟩, ⟨Fd.FUSE_GRID_CFG_GRID_C32, .rw, 1, wSHP⟩,
     ⟨Fd.FUSE_GRID_CFG_CELL_MM, .rw, 0x32, wSHP⟩, ⟨Fd.FUSE_GRID_CFG_GEN, .ro, 0, wNone⟩,
     ⟨Fd.FUSE_GRID_CFG_GRID_KNOT, .rw, 0, wSHP⟩]⟩,
  ⟨0x0108, 64, 2, 0x40, 1, 0x0, .never, (some (205, 32)),
    [⟨Fd.FUSE_GRID_DATA_GSLOT_4K, .rw, 0, wSHP⟩, ⟨Fd.FUSE_GRID_DATA_GBASE, .rw, 0, wSHP⟩]⟩,
  ⟨0x0110, 64, 2, 0x40, 1, 0x0, .never, (some (205, 32)),
    [⟨Fd.FUSE_GRID_CTL_REL_KNOT, .rw, 0, wSHP⟩, ⟨Fd.FUSE_GRID_CTL_GCTL, .rw, 0, wSHP⟩]⟩,
  ⟨0x0200, 64, 2, 0x40, 1, 0x0, .grid, (some (205, 32)),
    [⟨Fd.FUSE_TRK_W0_EN, .rw, 0, wSHP⟩, ⟨Fd.FUSE_TRK_W0_CLASS_AWARE, .rw, 1, wSHP⟩,
     ⟨Fd.FUSE_TRK_W0_BORN_HITS, .rw, 3, wSHP⟩, ⟨Fd.FUSE_TRK_W0_BORN_WIN, .rw, 5, wSHP⟩,
     ⟨Fd.FUSE_TRK_W0_CONF_HITS, .rw, 5, wSHP⟩, ⟨Fd.FUSE_TRK_W0_CONF_WIN, .rw, 8, wSHP⟩,
     ⟨Fd.FUSE_TRK_W0_DEL_MISS, .rw, 5, wSHP⟩, ⟨Fd.FUSE_TRK_W0_ALPHA, .rw, 0x80, wSHP⟩,
     ⟨Fd.FUSE_TRK_W0_BETA, .rw, 0x40, wSHP⟩, ⟨Fd.FUSE_TRK_W0_GATE, .rw, 0x400, wSHP⟩]⟩,
  ⟨0x0208, 64, 2, 0x40, 1, 0x0, .grid, (some (205, 32)),
    [⟨Fd.FUSE_TRK_W1_NL_M1, .rw, 1, wSHP⟩, ⟨Fd.FUSE_TRK_W1_LBASE, .rw, 0, wSHP⟩]⟩,
  ⟨0x0210, 64, 2, 0x40, 1, 0x0, .grid, (some (205, 32)),
    [⟨Fd.FUSE_TRK_W2_NT_M1, .rw, 1, wSHP⟩, ⟨Fd.FUSE_TRK_W2_TBASE, .rw, 0, wSHP⟩]⟩,
  ⟨0x0218, 64, 2, 0x40, 1, 0x0, .grid, (some (205, 32)),
    [⟨Fd.FUSE_TRK_W3_OUT_KNOT, .rw, 0, wSHP⟩, ⟨Fd.FUSE_TRK_W3_LIST_KNOT, .rw, 0, wSHP⟩,
     ⟨Fd.FUSE_TRK_W3_NEXT_ID, .ro, 0, wNone⟩, ⟨Fd.FUSE_TRK_W3_LIVE, .ro, 0, wNone⟩]⟩,
  ⟨0x0220, 64, 2, 0x40, 1, 0x0, .never, (some (205, 32)),
    [⟨Fd.FUSE_TRK_W4_BIRTHS, .ro, 0, wNone⟩]⟩,
  ⟨0x0300, 32, 2, 0x20, 1, 0x0, .never, none,
    [⟨Fd.FUSE_PASS_DROP_COUNT, .rw, 0, wSHP⟩]⟩,
  ⟨0x0304, 32, 2, 0x20, 1, 0x0, .never, none,
    [⟨Fd.FUSE_STALE_PASS_COUNT, .rw, 0, wSHP⟩]⟩,
  ⟨0x0308, 32, 2, 0x20, 1, 0x0, .never, none,
    [⟨Fd.FUSE_TORN_COUNT, .rw, 0, wSHP⟩]⟩,
  ⟨0x030C, 32, 2, 0x20, 1, 0x0, .never, none,
    [⟨Fd.FUSE_EARLY_COUNT, .rw, 0, wSHP⟩]⟩,
  ⟨0x0310, 32, 2, 0x20, 1, 0x0, .never, none,
    [⟨Fd.FUSE_NO_LIST_COUNT, .rw, 0, wSHP⟩]⟩]
/-- Registers of block FUSE, part 1. -/
def RegMap.FUSE_part1 : List RegSpec := [
  ⟨0x0314, 32, 2, 0x20, 1, 0x0, .never, none,
    [⟨Fd.FUSE_FULL_DROP_COUNT, .rw, 0, wSHP⟩]⟩,
  ⟨0x0318, 32, 2, 0x20, 1, 0x0, .never, none,
    [⟨Fd.FUSE_SAT_SAT, .ro, 0, wNone⟩]⟩,
  ⟨0x1000, 64, 2, 0x400, 16, 0x40, .grid, (some (205, 32)),
    [⟨Fd.FUSE_FEED_W0_EN, .rw, 0, wSHP⟩, ⟨Fd.FUSE_FEED_W0_NF_M1, .rw, 1, wSHP⟩,
     ⟨Fd.FUSE_FEED_W0_LIMIT_Q, .rw, 0, wSHP⟩, ⟨Fd.FUSE_FEED_W0_CH_OFF32, .rw, 0, wSHP⟩,
     ⟨Fd.FUSE_FEED_W0_CF32, .rw, 0, wSHP⟩, ⟨Fd.FUSE_FEED_W0_PERIOD_US, .rw, 0, wSHP⟩]⟩,
  ⟨0x1008, 64, 2, 0x400, 16, 0x40, .grid, (some (205, 32)),
    [⟨Fd.FUSE_FEED_W1_ENT_MAX, .ro, 0, wNone⟩, ⟨Fd.FUSE_FEED_W1_FBASE, .rw, 0, wSHP⟩]⟩,
  ⟨0x1010, 64, 2, 0x400, 16, 0x40, .grid, (some (205, 32)),
    [⟨Fd.FUSE_FEED_W2_M, .rw, 0, wSHP⟩, ⟨Fd.FUSE_FEED_W2_WGAIN, .ro, 0, wNone⟩]⟩,
  ⟨0x1018, 64, 2, 0x400, 16, 0x40, .grid, (some (205, 32)),
    [⟨Fd.FUSE_FEED_W3_PTAB, .rw, 0, wSHP⟩]⟩,
  ⟨0x1020, 64, 2, 0x400, 16, 0x40, .grid, (some (205, 32)),
    [⟨Fd.FUSE_FEED_W4_FH, .rw, 0, wSHP⟩, ⟨Fd.FUSE_FEED_W4_FW, .rw, 0, wSHP⟩,
     ⟨Fd.FUSE_FEED_W4_ENTRIES, .rw, 0, wSHP⟩]⟩]
/-- Registers of block FUSE. -/
def RegMap.FUSE : List RegSpec := RegMap.FUSE_part0 ++ RegMap.FUSE_part1
/-- Registers of block GFX. -/
def RegMap.GFX : List RegSpec := [
  ⟨0x0000, 32, 1, 0x0, 1, 0x0, .never, none,
    [⟨Fd.GFX_CTRL_LOCK, .rwl, 0, wS⟩, ⟨Fd.GFX_CTRL_SPLIT_PRIMS, .rwl, 0x100, wSH⟩]⟩,
  ⟨0x0010, 32, 1, 0x0, 1, 0x0, .never, none,
    [⟨Fd.GFX_SPLIT_CNT_COUNT, .rw, 0, wSHP⟩]⟩,
  ⟨0x0014, 32, 1, 0x0, 1, 0x0, .never, none,
    [⟨Fd.GFX_HEAP_SPILL_CNT_COUNT, .rw, 0, wSHP⟩]⟩,
  ⟨0x0018, 32, 1, 0x0, 1, 0x0, .never, none,
    [⟨Fd.GFX_SAT_SAT, .ro, 0, wNone⟩]⟩]
/-- Registers of block DSP, part 0. -/
def RegMap.DSP_part0 : List RegSpec := [
  ⟨0x0010, 64, 1, 0x0, 1, 0x0, .never, none,
    [⟨Fd.DSP_EARLY_ACTIVE, .ro, 0, wNone⟩, ⟨Fd.DSP_EARLY_END, .wo, 0, wSH⟩]⟩,
  ⟨0x1000, 64, 4, 0x400, 1, 0x0, .never, (some (206, 0)),
    [⟨Fd.PIPE_CFG_EN, .rw, 0, wSHP⟩, ⟨Fd.PIPE_CFG_EDP, .rw, 0, wSHP⟩,
     ⟨Fd.PIPE_CFG_LANES, .rw, 2, wSHP⟩, ⟨Fd.PIPE_CFG_RATE, .rw, 3, wSHP⟩,
     ⟨Fd.PIPE_CFG_BPC10, .rw, 0, wSHP⟩, ⟨Fd.PIPE_CFG_HOLD_MAX, .rw, 0x10, wSHP⟩,
     ⟨Fd.PIPE_CFG_BG, .rw, 0, wSHP⟩]⟩,
  ⟨0x1008, 64, 4, 0x400, 1, 0x0, (.before 8 63), (some (206, 0)),
    [⟨Fd.PIPE_TIM0_HTOTAL, .rw, 0, wSHP⟩, ⟨Fd.PIPE_TIM0_HACTIVE, .rw, 0, wSHP⟩,
     ⟨Fd.PIPE_TIM0_VTOTAL, .rw, 0, wSHP⟩, ⟨Fd.PIPE_TIM0_VACTIVE, .rw, 0, wSHP⟩]⟩,
  ⟨0x1010, 64, 4, 0x400, 1, 0x0, (.before 16 63), (some (206, 0)),
    [⟨Fd.PIPE_TIM1_PCLK_KHZ, .rw, 0, wSHP⟩, ⟨Fd.PIPE_TIM1_VSTART, .rw, 4, wSHP⟩,
     ⟨Fd.PIPE_TIM1_HSYNC_W, .rw, 0, wSHP⟩, ⟨Fd.PIPE_TIM1_VSYNC_W, .rw, 0, wSHP⟩]⟩,
  ⟨0x1018, 64, 4, 0x400, 1, 0x0, .never, (some (206, 0)),
    [⟨Fd.PIPE_STATUS_FRAME_NO, .ro, 0, wNone⟩, ⟨Fd.PIPE_STATUS_CFG_ERR, .w1c, 0, wSHP⟩,
     ⟨Fd.PIPE_STATUS_LINK_FAIL, .ro, 0, wNone⟩, ⟨Fd.PIPE_STATUS_HOLDING, .ro, 0, wNone⟩,
     ⟨Fd.PIPE_STATUS_RUNNING, .ro, 0, wNone⟩]⟩,
  ⟨0x1020, 32, 4, 0x400, 1, 0x0, .never, (some (206, 0)),
    [⟨Fd.PIPE_EARLY_COUNT, .rw, 0, wSHP⟩]⟩,
  ⟨0x1024, 32, 4, 0x400, 1, 0x0, .never, (some (206, 0)),
    [⟨Fd.PIPE_FREE_RUN_COUNT, .rw, 0, wSHP⟩]⟩,
  ⟨0x1028, 32, 4, 0x400, 1, 0x0, .never, (some (206, 0)),
    [⟨Fd.PIPE_SLIP_COUNT, .rw, 0, wSHP⟩]⟩,
  ⟨0x102C, 32, 4, 0x400, 1, 0x0, .never, (some (206, 0)),
    [⟨Fd.PIPE_SP_CRC_COUNT, .rw, 0, wSHP⟩]⟩,
  ⟨0x1030, 32, 4, 0x400, 1, 0x0, .never, (some (206, 0)),
    [⟨Fd.PIPE_SP_STATE_COUNT, .rw, 0, wSHP⟩]⟩,
  ⟨0x1034, 32, 4, 0x400, 1, 0x0, .never, (some (206, 0)),
    [⟨Fd.PIPE_SAT_SAT, .ro, 0, wNone⟩]⟩,
  ⟨0x1100, 64, 4, 0x400, 8, 0x20, .never, (some (206, 0)),
    [⟨Fd.PLANE_CFG_EN, .rw, 0, wSHP⟩, ⟨Fd.PLANE_CFG_MISS_EN, .rw, 0, wSHP⟩,
     ⟨Fd.PLANE_CFG_PREMULT, .rw, 1, wSHP⟩, ⟨Fd.PLANE_CFG_MATRIX, .rw, 2, wSHP⟩,
     ⟨Fd.PLANE_CFG_FULL_RANGE, .rw, 0, wSHP⟩, ⟨Fd.PLANE_CFG_ALPHA, .rw, 0xff, wSHP⟩,
     ⟨Fd.PLANE_CFG_PRESENT_KNOT, .rw, 0, wSHP⟩, ⟨Fd.PLANE_CFG_RETIRE_KNOT, .rw, 0, wSHP⟩]⟩,
  ⟨0x1108, 64, 4, 0x400, 8, 0x20, .never, (some (206, 0)),
    [⟨Fd.PLANE_Q_PBASE, .rw, 0, wSHP⟩, ⟨Fd.PLANE_Q_NPRES_M1, .rw, 1, wSHP⟩]⟩,
  ⟨0x1110, 32, 4, 0x400, 8, 0x20, .never, (some (206, 0)),
    [⟨Fd.PLANE_MISS_COUNT, .rw, 0, wSHP⟩]⟩]
/-- Registers of block DSP, part 1. -/
def RegMap.DSP_part1 : List RegSpec := [
  ⟨0x1114, 32, 4, 0x400, 8, 0x20, .never, (some (206, 0)),
    [⟨Fd.PLANE_SKIP_COUNT, .rw, 0, wSHP⟩]⟩,
  ⟨0x1118, 32, 4, 0x400, 8, 0x20, .never, (some (206, 0)),
    [⟨Fd.PLANE_VOID_COUNT, .rw, 0, wSHP⟩]⟩,
  ⟨0x111C, 32, 4, 0x400, 8, 0x20, .never, (some (206, 0)),
    [⟨Fd.PLANE_SAT_SAT, .ro, 0, wNone⟩]⟩,
  ⟨0x1300, 64, 4, 0x400, 1, 0x0, .never, (some (206, 0)),
    [⟨Fd.SP_CFG_EN, .rw, 0, wSP⟩, ⟨Fd.SP_CFG_CFG_ERR, .w1c, 0, wSP⟩,
     ⟨Fd.SP_CFG_MAX_AGE_MS, .rw, 0, wSP⟩, ⟨Fd.SP_CFG_FAIL_MASK, .rw, 0, wSP⟩]⟩,
  ⟨0x1308, 64, 4, 0x400, 1, 0x0, .never, (some (206, 0)),
    [⟨Fd.SP_TABLE_COUNT, .rw, 0, wSP⟩, ⟨Fd.SP_TABLE_TT_BASE, .rw, 0, wSP⟩]⟩,
  ⟨0x1310, 64, 4, 0x400, 1, 0x0, .never, (some (206, 0)),
    [⟨Fd.SP_STATE_STATE_ADDR, .rw, 0, wSP⟩]⟩,
  ⟨0x1318, 64, 4, 0x400, 1, 0x0, .never, (some (206, 0)),
    [⟨Fd.SP_MISMATCH_LATCHED, .ro, 0, wNone⟩, ⟨Fd.SP_MISMATCH_MISMATCH, .w1c, 0, wSP⟩]⟩]
/-- Registers of block DSP. -/
def RegMap.DSP : List RegSpec := RegMap.DSP_part0 ++ RegMap.DSP_part1
/-- Registers of block SAFE, part 0. -/
def RegMap.SAFE_part0 : List RegSpec := [
  ⟨0x0000, 32, 1, 0x0, 1, 0x0, .never, none,
    [⟨Fd.SAFE_CTRL_LOCK, .rwl, 0, wS⟩]⟩,
  ⟨0x0008, 32, 1, 0x0, 1, 0x0, .never, none,
    [⟨Fd.SAFE_PIN_FORCE, .rw, 0, wSP⟩, ⟨Fd.SAFE_PIN_LEVEL, .ro, 1, wNone⟩,
     ⟨Fd.SAFE_PIN_MIN_US, .rwl, 0x3e8, wSP⟩]⟩,
  ⟨0x0010, 64, 1, 0x0, 1, 0x0, .never, none,
    [⟨Fd.SAFE_PENDING_LASTING, .w1c, 0, wSP⟩, ⟨Fd.SAFE_PENDING_PENDING, .w1c, 0, wSP⟩]⟩,
  ⟨0x0018, 32, 1, 0x0, 1, 0x0, .never, none,
    [⟨Fd.SAFE_SW_ERR_CODE, .wo, 0, wP⟩]⟩,
  ⟨0x0020, 64, 1, 0x0, 1, 0x0, .never, none,
    [⟨Fd.SAFE_INJECT_DONE, .ro, 0, wNone⟩, ⟨Fd.SAFE_INJECT_PASS, .ro, 0, wNone⟩,
     ⟨Fd.SAFE_INJECT_FAILED, .ro, 0, wNone⟩]⟩,
  ⟨0x0030, 64, 1, 0x0, 1, 0x0, .never, none,
    [⟨Fd.SAFE_CMP_REC0_TIME, .ro, 0, wNone⟩]⟩,
  ⟨0x0038, 64, 1, 0x0, 1, 0x0, .never, none,
    [⟨Fd.SAFE_CMP_REC1_RING, .ro, 0, wNone⟩, ⟨Fd.SAFE_CMP_REC1_MAIN_CORE, .ro, 0, wNone⟩,
     ⟨Fd.SAFE_CMP_REC1_CHECK_CORE, .ro, 0, wNone⟩, ⟨Fd.SAFE_CMP_REC1_BINDING, .ro, 0, wNone⟩,
     ⟨Fd.SAFE_CMP_REC1_SEQ, .ro, 0, wNone⟩]⟩,
  ⟨0x0040, 32, 1, 0x0, 1, 0x0, .never, none,
    [⟨Fd.SAFE_ST_SEL_CMD, .wo, 0, wSP⟩, ⟨Fd.SAFE_ST_SEL_STATUS, .ro, 0, wNone⟩,
     ⟨Fd.SAFE_ST_SEL_INDEX, .rw, 0, wSP⟩]⟩,
  ⟨0x0048, 64, 1, 0x0, 1, 0x0, .never, none,
    [⟨Fd.SAFE_ST_D0_EN, .rw, 0, wSP⟩, ⟨Fd.SAFE_ST_D0_PANEL, .rw, 0, wSP⟩,
     ⟨Fd.SAFE_ST_D0_MASK, .rw, 0, wSP⟩, ⟨Fd.SAFE_ST_D0_SPAN_NS, .rw, 0x267be, wSP⟩]⟩,
  ⟨0x0050, 64, 1, 0x0, 1, 0x0, .never, none,
    [⟨Fd.SAFE_ST_D1_LAST, .ro, 0, wNone⟩]⟩,
  ⟨0x0058, 32, 1, 0x0, 1, 0x0, .never, none,
    [⟨Fd.SAFE_ST_CFG_COVER_MS, .rwl, 0x7d0, wSP⟩, ⟨Fd.SAFE_ST_CFG_WITHDRAW_MS, .rwl, 0x64, wSP⟩]⟩,
  ⟨0x0060, 32, 1, 0x0, 1, 0x0, .never, none,
    [⟨Fd.SAFE_DEFER_CNT_COUNT, .rw, 0, wSP⟩]⟩,
  ⟨0x0064, 32, 1, 0x0, 1, 0x0, .never, none,
    [⟨Fd.SAFE_WITHDRAW_CNT_COUNT, .rw, 0, wSP⟩]⟩,
  ⟨0x0068, 32, 1, 0x0, 1, 0x0, .never, none,
    [⟨Fd.SAFE_CMP_LATE_CNT_COUNT, .rw, 0, wSP⟩]⟩]
/-- Registers of block SAFE, part 1. -/
def RegMap.SAFE_part1 : List RegSpec := [
  ⟨0x006C, 32, 1, 0x0, 1, 0x0, .never, none,
    [⟨Fd.SAFE_SAT_SAT, .ro, 0, wNone⟩]⟩,
  ⟨0x0100, 64, 16, 0x8, 1, 0x0, .never, none,
    [⟨Fd.SAFE_SRC_CFG_REACT_EACH, .rwl, 0, wSP⟩, ⟨Fd.SAFE_SRC_CFG_REACT_LAST, .rwl, 0, wSP⟩,
     ⟨Fd.SAFE_SRC_CFG_THR, .rwl, 0, wSP⟩, ⟨Fd.SAFE_SRC_CFG_WIN_MS, .rwl, 0, wSP⟩]⟩,
  ⟨0x0200, 32, 16, 0x4, 1, 0x0, .never, none,
    [⟨Fd.SAFE_SRC_CNT_COUNT, .rw, 0, wSP⟩]⟩,
  ⟨0x0240, 32, 1, 0x0, 1, 0x0, .never, none,
    [⟨Fd.SAFE_SRC_SAT_SAT, .ro, 0, wNone⟩]⟩,
  ⟨0x0400, 64, 136, 0x8, 1, 0x0, .never, none,
    [⟨Fd.SAFE_COVER_TIME, .ro, 0, wNone⟩]⟩]
/-- Registers of block SAFE. -/
def RegMap.SAFE : List RegSpec := RegMap.SAFE_part0 ++ RegMap.SAFE_part1
/-- Registers of block SPARE. -/
def RegMap.SPARE : List RegSpec := [
  ⟨0x0000, 32, 1, 0x0, 1, 0x0, .never, none,
    [⟨Fd.SPARE_CTRL_LOCK, .rwl, 0, wS⟩, ⟨Fd.SPARE_CTRL_AUTO_CHAN, .rwl, 1, wS⟩,
     ⟨Fd.SPARE_CTRL_AUTO_CORE, .rwl, 1, wS⟩]⟩,
  ⟨0x0008, 32, 1, 0x0, 1, 0x0, .never, none,
    [⟨Fd.SPARE_CMD_CMD, .wo, 0, wSH⟩, ⟨Fd.SPARE_CMD_STATUS, .ro, 0, wNone⟩,
     ⟨Fd.SPARE_CMD_TARGET, .rw, 0, wSH⟩]⟩,
  ⟨0x0010, 64, 1, 0x0, 1, 0x0, .never, none,
    [⟨Fd.SPARE_JRNL_FILL, .ro, 0, wNone⟩, ⟨Fd.SPARE_JRNL_SIZE_64K, .rwl, 8, wS⟩,
     ⟨Fd.SPARE_JRNL_BASE_64K, .rwl, 0x10, wS⟩]⟩,
  ⟨0x0018, 32, 1, 0x0, 1, 0x0, .never, none,
    [⟨Fd.SPARE_TIMER_SELF_RESET_EN, .rwl, 1, wS⟩, ⟨Fd.SPARE_TIMER_ROOT_FAILED, .ro, 0xff, wNone⟩,
     ⟨Fd.SPARE_TIMER_SELF_RESET_MS, .rwl, 0x64, wS⟩]⟩,
  ⟨0x0020, 32, 1, 0x0, 1, 0x0, .never, none,
    [⟨Fd.SPARE_USED_LANES, .ro, 0, wNone⟩, ⟨Fd.SPARE_USED_CHAN_DIE1, .ro, 0, wNone⟩,
     ⟨Fd.SPARE_USED_CHAN_DIE0, .ro, 0, wNone⟩, ⟨Fd.SPARE_USED_COPY_DIE1, .ro, 0, wNone⟩,
     ⟨Fd.SPARE_USED_COPY_DIE0, .ro, 0, wNone⟩]⟩,
  ⟨0x0030, 32, 1, 0x0, 1, 0x0, .never, none,
    [⟨Fd.SPARE_STALE_CNT_COUNT, .rw, 0, wSH⟩]⟩,
  ⟨0x0034, 32, 1, 0x0, 1, 0x0, .never, none,
    [⟨Fd.SPARE_DARN_CNT_COUNT, .rw, 0, wSH⟩]⟩,
  ⟨0x0038, 32, 1, 0x0, 1, 0x0, .never, none,
    [⟨Fd.SPARE_JRNL_FAIL_CNT_COUNT, .rw, 0, wSH⟩]⟩,
  ⟨0x003C, 32, 1, 0x0, 1, 0x0, .never, none,
    [⟨Fd.SPARE_SAT_SAT, .ro, 0, wNone⟩]⟩]
/-- Registers of block SEC. -/
def RegMap.SEC : List RegSpec := [
  ⟨0x0000, 32, 1, 0x0, 1, 0x0, .never, none,
    [⟨Fd.SEC_CTRL_LOCK, .rwl, 0, wS⟩]⟩,
  ⟨0x0008, 64, 1, 0x0, 1, 0x0, .never, none,
    [⟨Fd.SEC_BOOT_BOOT_COUNT, .ro, 0, wNone⟩, ⟨Fd.SEC_BOOT_SLOT_B, .ro, 0, wNone⟩,
     ⟨Fd.SEC_BOOT_EARLY, .ro, 0, wNone⟩, ⟨Fd.SEC_BOOT_RPMB_OK, .ro, 0, wNone⟩,
     ⟨Fd.SEC_BOOT_CONFIG_OK, .ro, 0, wNone⟩, ⟨Fd.SEC_BOOT_ORDER, .ro, 0, wNone⟩]⟩,
  ⟨0x0010, 32, 1, 0x0, 1, 0x0, .never, none,
    [⟨Fd.SEC_FW_CMD, .wo, 0, wH⟩, ⟨Fd.SEC_FW_STATUS, .ro, 0, wNone⟩,
     ⟨Fd.SEC_FW_KIND, .rw, 0, wH⟩]⟩,
  ⟨0x0018, 64, 1, 0x0, 1, 0x0, .never, none,
    [⟨Fd.SEC_FW_ADDR_IMAGE, .rw, 0, wH⟩]⟩,
  ⟨0x0020, 32, 1, 0x0, 1, 0x0, .never, none,
    [⟨Fd.SEC_TENANT_SEL_CMD, .wo, 0, wH⟩, ⟨Fd.SEC_TENANT_SEL_STATUS, .ro, 0, wNone⟩,
     ⟨Fd.SEC_TENANT_SEL_ORIGIN, .rw, 0, wH⟩]⟩,
  ⟨0x0028, 64, 1, 0x0, 1, 0x0, .never, none,
    [⟨Fd.SEC_TENANT_D0_EPOCH, .ro, 0, wNone⟩, ⟨Fd.SEC_TENANT_D0_CONF, .rw, 0, wH⟩,
     ⟨Fd.SEC_TENANT_D0_STATE, .ro, 0, wNone⟩]⟩,
  ⟨0x0030, 32, 1, 0x0, 1, 0x0, .never, none,
    [⟨Fd.SEC_ATTEST_CMD, .wo, 0, wHU⟩, ⟨Fd.SEC_ATTEST_STATUS, .ro, 0, wNone⟩,
     ⟨Fd.SEC_ATTEST_ENCLAVE, .rw, 0, wHU⟩, ⟨Fd.SEC_ATTEST_TENANT, .rw, 0, wHU⟩,
     ⟨Fd.SEC_ATTEST_WRAP, .rw, 0, wU⟩]⟩,
  ⟨0x0038, 64, 1, 0x0, 1, 0x0, .never, none,
    [⟨Fd.SEC_ATT_REQ_REQ, .rw, 0, wHU⟩]⟩,
  ⟨0x0040, 64, 1, 0x0, 1, 0x0, .never, none,
    [⟨Fd.SEC_ATT_OUT_OUT, .rw, 0, wHU⟩]⟩,
  ⟨0x0050, 32, 1, 0x0, 1, 0x0, .never, none,
    [⟨Fd.SEC_TAG_FAIL_CNT_COUNT, .rw, 0, wSH⟩]⟩,
  ⟨0x0054, 32, 1, 0x0, 1, 0x0, .never, none,
    [⟨Fd.SEC_POISON_CNT_COUNT, .rw, 0, wSH⟩]⟩,
  ⟨0x0058, 32, 1, 0x0, 1, 0x0, .never, none,
    [⟨Fd.SEC_GONE_DROP_CNT_COUNT, .rw, 0, wSH⟩]⟩,
  ⟨0x005C, 32, 1, 0x0, 1, 0x0, .never, none,
    [⟨Fd.SEC_SAT_SAT, .ro, 0, wNone⟩]⟩]
/-- Registers of block AUDIT. -/
def RegMap.AUDIT : List RegSpec := [
  ⟨0x0000, 32, 1, 0x0, 1, 0x0, .never, none,
    [⟨Fd.AUDIT_CTRL_LOCK, .rwl, 0, wS⟩]⟩,
  ⟨0x0008, 64, 1, 0x0, 1, 0x0, .never, none,
    [⟨Fd.AUDIT_STATUS_FULL, .ro, 0, wNone⟩, ⟨Fd.AUDIT_STATUS_NEAR, .ro, 0, wNone⟩,
     ⟨Fd.AUDIT_STATUS_ACK_ERR, .w1c, 0, wH⟩, ⟨Fd.AUDIT_STATUS_OCCUPANCY, .ro, 0, wNone⟩]⟩,
  ⟨0x0010, 64, 1, 0x0, 1, 0x0, .never, none,
    [⟨Fd.AUDIT_HEAD_SEQ, .ro, 0, wNone⟩]⟩,
  ⟨0x0018, 64, 1, 0x0, 1, 0x0, .never, none,
    [⟨Fd.AUDIT_TAIL_SEQ, .ro, 0, wNone⟩]⟩,
  ⟨0x0020, 64, 1, 0x0, 1, 0x0, .never, none,
    [⟨Fd.AUDIT_EXPORTED_SEQ, .ro, 0, wNone⟩]⟩,
  ⟨0x0028, 32, 1, 0x0, 1, 0x0, .never, none,
    [⟨Fd.AUDIT_EXPORT_CMD, .wo, 0, wH⟩, ⟨Fd.AUDIT_EXPORT_STATUS, .ro, 0, wNone⟩,
     ⟨Fd.AUDIT_EXPORT_COUNT, .rw, 0, wH⟩]⟩,
  ⟨0x0030, 64, 1, 0x0, 1, 0x0, .never, none,
    [⟨Fd.AUDIT_EXPORT_DEST_DEST, .rw, 0, wH⟩]⟩,
  ⟨0x0038, 64, 1, 0x0, 1, 0x0, .never, none,
    [⟨Fd.AUDIT_ACK_SEQ, .wo, 0, wH⟩]⟩,
  ⟨0x0040, 32, 1, 0x0, 1, 0x0, .never, none,
    [⟨Fd.AUDIT_LOST_CNT_COUNT, .rw, 0, wSH⟩]⟩,
  ⟨0x0044, 32, 1, 0x0, 1, 0x0, .never, none,
    [⟨Fd.AUDIT_REFUSED_CNT_COUNT, .rw, 0, wSH⟩]⟩,
  ⟨0x0048, 32, 1, 0x0, 1, 0x0, .never, none,
    [⟨Fd.AUDIT_SAT_SAT, .ro, 0, wNone⟩]⟩]
/-- Registers of block VI. -/
def RegMap.VI : List RegSpec := [
  ⟨0x0000, 32, 1, 0x0, 1, 0x0, .never, none,
    [⟨Fd.VI_CTRL_LOCK, .rwl, 0, wS⟩]⟩,
  ⟨0x0008, 32, 1, 0x0, 1, 0x0, .never, none,
    [⟨Fd.VI_CMD_CMD, .wo, 0, wH⟩, ⟨Fd.VI_CMD_STATUS, .ro, 0, wNone⟩,
     ⟨Fd.VI_CMD_INSTANCE, .rw, 0, wH⟩]⟩,
  ⟨0x0010, 64, 1, 0x0, 1, 0x0, .never, none,
    [⟨Fd.VI_IMG_IMAGE, .rw, 0, wH⟩]⟩,
  ⟨0x0018, 64, 1, 0x0, 1, 0x0, .never, none,
    [⟨Fd.VI_PEER_CERT, .rw, 0, wH⟩]⟩,
  ⟨0x0020, 64, 1, 0x0, 1, 0x0, .never, none,
    [⟨Fd.VI_IMG_LEN_JOB_BYTES, .ro, 0, wNone⟩, ⟨Fd.VI_IMG_LEN_FIXED_BYTES, .ro, 0, wNone⟩]⟩,
  ⟨0x0100, 64, 64, 0x8, 1, 0x0, .never, none,
    [⟨Fd.VI_STATE_IN_FLIGHT, .ro, 0, wNone⟩, ⟨Fd.VI_STATE_RUNNING, .ro, 0, wNone⟩,
     ⟨Fd.VI_STATE_STATE, .ro, 0, wNone⟩]⟩,
  ⟨0x0400, 32, 64, 0x8, 1, 0x0, .never, none,
    [⟨Fd.VI_CFG_CORE_QA, .rw, 0x500, wSH⟩, ⟨Fd.VI_CFG_DRAM_QA, .rw, 0x100, wSH⟩]⟩,
  ⟨0x1000, 64, 64, 0x40, 4, 0x10, .never, none,
    [⟨Fd.VI_WIN_BASE_EN, .rw, 0, wSH⟩, ⟨Fd.VI_WIN_BASE_BASE, .rw, 0, wSH⟩]⟩,
  ⟨0x1008, 64, 64, 0x40, 4, 0x10, .never, none,
    [⟨Fd.VI_WIN_LIMIT_LIMIT, .rw, 0, wSH⟩]⟩]
/-- Registers of block UBR, part 0. -/
def RegMap.UBR_part0 : List RegSpec := [
  ⟨0x0000, 32, 1, 0x0, 1, 0x0, .never, (some (212, 32)),
    [⟨Fd.UBR_CTRL_LOCK, .rwl, 0, wS⟩, ⟨Fd.UBR_CTRL_ASYM_PREF, .rwl, 0, wSH⟩,
     ⟨Fd.UBR_CTRL_LINK_EN, .rwl, 1, wSH⟩]⟩,
  ⟨0x0008, 32, 1, 0x0, 1, 0x0, .never, (some (212, 32)),
    [⟨Fd.UBR_STATUS_LINK_UP, .ro, 0, wNone⟩, ⟨Fd.UBR_STATUS_MODE, .ro, 0, wNone⟩,
     ⟨Fd.UBR_STATUS_HELD, .ro, 0, wNone⟩]⟩,
  ⟨0x0010, 64, 1, 0x0, 1, 0x0, .never, (some (212, 32)),
    [⟨Fd.UBR_VF_EN_VF, .rw, 0, wSH⟩]⟩,
  ⟨0x0020, 32, 1, 0x0, 1, 0x0, .never, (some (212, 32)),
    [⟨Fd.UBR_MAP_SEL_CMD, .wo, 0, wSH⟩, ⟨Fd.UBR_MAP_SEL_STATUS, .ro, 0, wNone⟩,
     ⟨Fd.UBR_MAP_SEL_INDEX, .rw, 0, wSH⟩]⟩,
  ⟨0x0028, 64, 1, 0x0, 1, 0x0, .never, (some (212, 32)),
    [⟨Fd.UBR_MAP_D0_EN, .rw, 0, wSH⟩, ⟨Fd.UBR_MAP_D0_KIND, .rw, 0, wSH⟩,
     ⟨Fd.UBR_MAP_D0_PREFETCH, .rw, 0, wSH⟩, ⟨Fd.UBR_MAP_D0_SIDE, .rw, 0, wSH⟩,
     ⟨Fd.UBR_MAP_D0_FUNC, .rw, 0, wSH⟩, ⟨Fd.UBR_MAP_D0_OWNER, .rw, 0, wSH⟩]⟩,
  ⟨0x0030, 64, 1, 0x0, 1, 0x0, .never, (some (212, 32)),
    [⟨Fd.UBR_MAP_D1_HOST, .rw, 0, wSH⟩]⟩,
  ⟨0x0038, 64, 1, 0x0, 1, 0x0, .never, (some (212, 32)),
    [⟨Fd.UBR_MAP_D2_META, .rw, 0, wSH⟩]⟩,
  ⟨0x0040, 32, 1, 0x0, 1, 0x0, .never, (some (212, 32)),
    [⟨Fd.UBR_RD_TMO_CNT_COUNT, .rw, 0, wSH⟩]⟩,
  ⟨0x0044, 32, 1, 0x0, 1, 0x0, .never, (some (212, 32)),
    [⟨Fd.UBR_LOG_DROP_CNT_COUNT, .rw, 0, wSH⟩]⟩,
  ⟨0x0048, 32, 1, 0x0, 1, 0x0, .never, (some (212, 32)),
    [⟨Fd.UBR_PF_DISCARD_CNT_COUNT, .rw, 0, wSH⟩]⟩,
  ⟨0x004C, 32, 1, 0x0, 1, 0x0, .never, (some (212, 32)),
    [⟨Fd.UBR_WR_DROP_CNT_COUNT, .rw, 0, wSH⟩]⟩,
  ⟨0x0050, 32, 1, 0x0, 1, 0x0, .never, (some (212, 32)),
    [⟨Fd.UBR_SAT_SAT, .ro, 0, wNone⟩]⟩,
  ⟨0x0100, 64, 1, 0x0, 1, 0x0, .never, (some (212, 32)),
    [⟨Fd.UBR_ERR_W0_VALID, .ro, 0, wNone⟩, ⟨Fd.UBR_ERR_W0_KIND, .ro, 0, wNone⟩,
     ⟨Fd.UBR_ERR_W0_FUNC, .ro, 0, wNone⟩, ⟨Fd.UBR_ERR_W0_ADDR, .ro, 0, wNone⟩]⟩,
  ⟨0x0108, 64, 1, 0x0, 1, 0x0, .never, (some (212, 32)),
    [⟨Fd.UBR_ERR_W1_TIME, .ro, 0, wNone⟩]⟩]
/-- Registers of block UBR, part 1. -/
def RegMap.UBR_part1 : List RegSpec := [
  ⟨0x0110, 64, 1, 0x0, 1, 0x0, .never, (some (212, 32)),
    [⟨Fd.UBR_ERR_W2_ORIGIN, .ro, 0, wNone⟩, ⟨Fd.UBR_ERR_W2_COUNT, .ro, 0, wNone⟩]⟩]
/-- Registers of block UBR. -/
def RegMap.UBR : List RegSpec := RegMap.UBR_part0 ++ RegMap.UBR_part1
/-- Registers of block GWY, part 0. -/
def RegMap.GWY_part0 : List RegSpec := [
  ⟨0x0000, 32, 1, 0x0, 1, 0x0, .never, none,
    [⟨Fd.GWY_CTRL_LOCK, .rwl, 0, wS⟩]⟩,
  ⟨0x1000, 32, 16, 0x100, 1, 0x0, .never, (some (219, 2)),
    [⟨Fd.GWY_CAN_CFG_EN, .rw, 0, wSHP⟩, ⟨Fd.GWY_CAN_CFG_FD_EN, .rw, 0, wSHP⟩,
     ⟨Fd.GWY_CAN_CFG_XL_EN, .rw, 0, wSHP⟩, ⟨Fd.GWY_CAN_CFG_PWM, .rw, 0, wSHP⟩,
     ⟨Fd.GWY_CAN_CFG_AUTO_REC, .rw, 1, wSHP⟩, ⟨Fd.GWY_CAN_CFG_MODE, .rw, 0, wSHP⟩,
     ⟨Fd.GWY_CAN_CFG_CFG_ERR, .w1c, 0, wSHP⟩]⟩,
  ⟨0x1008, 64, 16, 0x100, 1, 0x0, (.before 8 31), (some (219, 2)),
    [⟨Fd.GWY_CAN_BT_NBRP, .rw, 4, wSHP⟩, ⟨Fd.GWY_CAN_BT_NTSEG1, .rw, 0x1f, wSHP⟩,
     ⟨Fd.GWY_CAN_BT_NTSEG2, .rw, 8, wSHP⟩, ⟨Fd.GWY_CAN_BT_NSJW, .rw, 8, wSHP⟩,
     ⟨Fd.GWY_CAN_BT_DBRP, .rw, 1, wSHP⟩, ⟨Fd.GWY_CAN_BT_DTSEG1, .rw, 0xf, wSHP⟩,
     ⟨Fd.GWY_CAN_BT_DTSEG2, .rw, 4, wSHP⟩, ⟨Fd.GWY_CAN_BT_DSJW, .rw, 4, wSHP⟩]⟩,
  ⟨0x1010, 32, 16, 0x100, 1, 0x0, (.before 16 31), (some (219, 2)),
    [⟨Fd.GWY_CAN_XBT_DBRP, .rw, 1, wSHP⟩, ⟨Fd.GWY_CAN_XBT_DTSEG1, .rw, 0xf, wSHP⟩,
     ⟨Fd.GWY_CAN_XBT_DTSEG2, .rw, 4, wSHP⟩, ⟨Fd.GWY_CAN_XBT_DSJW, .rw, 4, wSHP⟩]⟩,
  ⟨0x1018, 32, 16, 0x100, 1, 0x0, .never, (some (219, 2)),
    [⟨Fd.GWY_CAN_STATUS_STATE, .ro, 0, wNone⟩, ⟨Fd.GWY_CAN_STATUS_TEC, .ro, 0, wNone⟩,
     ⟨Fd.GWY_CAN_STATUS_REC, .ro, 0, wNone⟩]⟩,
  ⟨0x1040, 64, 16, 0x100, 6, 0x8, (.after 0 63), (some (219, 2)),
    [⟨Fd.GWY_CAN_Q_EN, .rw, 0, wSHP⟩, ⟨Fd.GWY_CAN_Q_OWNER, .rw, 2, wSH⟩,
     ⟨Fd.GWY_CAN_Q_GEN, .ro, 0, wNone⟩, ⟨Fd.GWY_CAN_Q_QBASE, .rw, 0, wSHP⟩,
     ⟨Fd.GWY_CAN_Q_SIZE_CODE, .rw, 0, wSHP⟩]⟩,
  ⟨0x10C0, 64, 16, 0x100, 6, 0x8, .never, (some (219, 2)),
    [⟨Fd.GWY_CAN_QKNOT_QKNOT, .rw, 0, wSHP⟩]⟩,
  ⟨0x1080, 32, 16, 0x100, 1, 0x0, .never, (some (219, 2)),
    [⟨Fd.GWY_OVERRUN_COUNT, .rw, 0, wSHP⟩]⟩,
  ⟨0x1084, 32, 16, 0x100, 1, 0x0, .never, (some (219, 2)),
    [⟨Fd.GWY_BUSOFF_CNT_COUNT, .rw, 0, wSHP⟩]⟩,
  ⟨0x1088, 32, 16, 0x100, 1, 0x0, .never, (some (219, 2)),
    [⟨Fd.GWY_RX_NOBUF_COUNT, .rw, 0, wSHP⟩]⟩,
  ⟨0x108C, 32, 16, 0x100, 1, 0x0, .never, (some (219, 2)),
    [⟨Fd.GWY_CAN_SAT_SAT, .ro, 0, wNone⟩]⟩,
  ⟨0x0100, 32, 1, 0x0, 1, 0x0, .never, (some (218, 32)),
    [⟨Fd.GWY_SLU_CTRL_EN, .rw, 0, wSHP⟩, ⟨Fd.GWY_SLU_CTRL_CFG_ERR, .w1c, 0, wSHP⟩,
     ⟨Fd.GWY_SLU_CTRL_PDUS, .rw, 0, wSHP⟩, ⟨Fd.GWY_SLU_CTRL_SIGNALS, .rw, 0, wSHP⟩]⟩,
  ⟨0x0108, 64, 1, 0x0, 1, 0x0, (.before 8 31), (some (218, 32)),
    [⟨Fd.GWY_SLU_ETH_W0_DST_MAC, .rw, 0, wSHP⟩, ⟨Fd.GWY_SLU_ETH_W0_PCP, .rw, 0, wSHP⟩,
     ⟨Fd.GWY_SLU_ETH_W0_VID, .rw, 0, wSHP⟩]⟩,
  ⟨0x0110, 64, 1, 0x0, 1, 0x0, (.before 16 31), (some (218, 32)),
    [⟨Fd.GWY_SLU_ETH_W1_SRC_MAC, .rw, 0, wSHP⟩]⟩]
/-- Registers of block GWY, part 1. -/
def RegMap.GWY_part1 : List RegSpec := [
  ⟨0x0118, 64, 1, 0x0, 1, 0x0, (.before 24 31), (some (218, 32)),
    [⟨Fd.GWY_SLU_ETH_W2_SRC_IP, .rw, 0, wSHP⟩, ⟨Fd.GWY_SLU_ETH_W2_DST_IP, .rw, 0, wSHP⟩]⟩,
  ⟨0x0120, 64, 1, 0x0, 1, 0x0, (.before 32 31), (some (218, 32)),
    [⟨Fd.GWY_SLU_ETH_W3_SRC_PORT, .rw, 0, wSHP⟩, ⟨Fd.GWY_SLU_ETH_W3_DST_PORT, .rw, 0, wSHP⟩,
     ⟨Fd.GWY_SLU_ETH_W3_DSCP, .rw, 0, wSHP⟩, ⟨Fd.GWY_SLU_ETH_W3_TTL, .rw, 0x40, wSHP⟩]⟩,
  ⟨0x0130, 32, 1, 0x0, 1, 0x0, .never, (some (218, 32)),
    [⟨Fd.GWY_OVERWRITE_COUNT, .rw, 0, wSHP⟩]⟩,
  ⟨0x0134, 32, 1, 0x0, 1, 0x0, .never, (some (218, 32)),
    [⟨Fd.GWY_UNKNOWN_COUNT, .rw, 0, wSHP⟩]⟩,
  ⟨0x0138, 32, 1, 0x0, 1, 0x0, .never, (some (218, 32)),
    [⟨Fd.GWY_SLU_SAT_SAT, .ro, 0, wNone⟩]⟩,
  ⟨0x0200, 32, 1, 0x0, 1, 0x0, .never, (some (218, 32)),
    [⟨Fd.GWY_SLU_PDU_SEL_CMD, .wo, 0, wSHP⟩, ⟨Fd.GWY_SLU_PDU_SEL_STATUS, .ro, 0, wNone⟩,
     ⟨Fd.GWY_SLU_PDU_SEL_INDEX, .rw, 0, wSHP⟩]⟩,
  ⟨0x0208, 64, 1, 0x0, 1, 0x0, .never, (some (218, 32)),
    [⟨Fd.GWY_SLU_PDU_D0_VALID, .rw, 0, wSHP⟩, ⟨Fd.GWY_SLU_PDU_D0_SIDE, .rw, 0, wSHP⟩,
     ⟨Fd.GWY_SLU_PDU_D0_DIR, .rw, 0, wSHP⟩, ⟨Fd.GWY_SLU_PDU_D0_CTRL, .rw, 0, wSHP⟩,
     ⟨Fd.GWY_SLU_PDU_D0_FMT, .rw, 0, wSHP⟩, ⟨Fd.GWY_SLU_PDU_D0_IDE, .rw, 0, wSHP⟩,
     ⟨Fd.GWY_SLU_PDU_D0_ID, .rw, 0, wSHP⟩]⟩,
  ⟨0x0210, 64, 1, 0x0, 1, 0x0, .never, (some (218, 32)),
    [⟨Fd.GWY_SLU_PDU_D1_KEY32, .rw, 0, wSHP⟩, ⟨Fd.GWY_SLU_PDU_D1_LENGTH, .rw, 0, wSHP⟩,
     ⟨Fd.GWY_SLU_PDU_D1_MIN_GAP_US, .rw, 0, wSHP⟩]⟩,
  ⟨0x0300, 32, 1, 0x0, 1, 0x0, .never, (some (218, 32)),
    [⟨Fd.GWY_SLU_MAP_SEL_CMD, .wo, 0, wSHP⟩, ⟨Fd.GWY_SLU_MAP_SEL_STATUS, .ro, 0, wNone⟩,
     ⟨Fd.GWY_SLU_MAP_SEL_INDEX, .rw, 0, wSHP⟩]⟩,
  ⟨0x0308, 64, 1, 0x0, 1, 0x0, .never, (some (218, 32)),
    [⟨Fd.GWY_SLU_MAP_D0_VALID, .rw, 0, wSHP⟩, ⟨Fd.GWY_SLU_MAP_D0_SRC_PDU, .rw, 0, wSHP⟩,
     ⟨Fd.GWY_SLU_MAP_D0_DST_PDU, .rw, 0, wSHP⟩, ⟨Fd.GWY_SLU_MAP_D0_SRC_ORDER, .rw, 0, wSHP⟩,
     ⟨Fd.GWY_SLU_MAP_D0_DST_ORDER, .rw, 0, wSHP⟩, ⟨Fd.GWY_SLU_MAP_D0_LEN_M1, .rw, 0, wSHP⟩,
     ⟨Fd.GWY_SLU_MAP_D0_SRC_START, .rw, 0, wSHP⟩, ⟨Fd.GWY_SLU_MAP_D0_DST_START, .rw, 0, wSHP⟩]⟩]
/-- Registers of block GWY. -/
def RegMap.GWY : List RegSpec := RegMap.GWY_part0 ++ RegMap.GWY_part1
/-- Registers of block TSN, part 0. -/
def RegMap.TSN_part0 : List RegSpec := [
  ⟨0x0000, 32, 1, 0x0, 1, 0x0, .never, (some (218, 32)),
    [⟨Fd.TSN_CTRL_LOCK, .rwl, 0, wS⟩, ⟨Fd.TSN_CTRL_AGE_S, .rwl, 0x12c, wSH⟩]⟩,
  ⟨0x0008, 32, 1, 0x0, 1, 0x0, .never, (some (218, 32)),
    [⟨Fd.TSN_GPTP_CTRL_CMD, .wo, 0, wSH⟩, ⟨Fd.TSN_GPTP_CTRL_GM_CAPABLE, .rwl, 0, wSH⟩,
     ⟨Fd.TSN_GPTP_CTRL_PORTS, .rwl, 0, wSH⟩, ⟨Fd.TSN_GPTP_CTRL_JUMP_NS, .rwl, 0x3e8, wSH⟩]⟩,
  ⟨0x0010, 32, 1, 0x0, 1, 0x0, .never, (some (218, 32)),
    [⟨Fd.TSN_GPTP_STATUS_REFUSED, .ro, 0, wNone⟩, ⟨Fd.TSN_GPTP_STATUS_GM_LOST, .ro, 0, wNone⟩,
     ⟨Fd.TSN_GPTP_STATUS_IS_GM, .ro, 0, wNone⟩, ⟨Fd.TSN_GPTP_STATUS_HOLDING, .ro, 0, wNone⟩]⟩,
  ⟨0x0018, 64, 1, 0x0, 1, 0x0, .never, (some (218, 32)),
    [⟨Fd.TSN_OFFSET_OFFSET, .rw, 0, wSH⟩]⟩,
  ⟨0x0020, 64, 1, 0x0, 1, 0x0, .never, (some (218, 32)),
    [⟨Fd.TSN_PEND_PEND, .ro, 0, wNone⟩]⟩,
  ⟨0x0028, 32, 1, 0x0, 1, 0x0, .never, (some (218, 32)),
    [⟨Fd.GPTP_REFUSE_CNT_COUNT, .rw, 0, wSHP⟩]⟩,
  ⟨0x002C, 32, 1, 0x0, 1, 0x0, .never, (some (218, 32)),
    [⟨Fd.TSN_SAT_SAT, .ro, 0, wNone⟩]⟩,
  ⟨0x0030, 32, 1, 0x0, 1, 0x0, .never, (some (218, 32)),
    [⟨Fd.TSN_PCP_MAP_MAP, .rw, 0xfac688, wSH⟩]⟩,
  ⟨0x1000, 32, 8, 0x100, 1, 0x0, (.after 0 31), (some (218, 32)),
    [⟨Fd.TSN_PORT_CFG_EN, .rw, 0, wSHP⟩, ⟨Fd.TSN_PORT_CFG_SPEED, .rw, 2, wSHP⟩,
     ⟨Fd.TSN_PORT_CFG_PLCA, .rw, 0, wSHP⟩, ⟨Fd.TSN_PORT_CFG_PLCA_ID, .rw, 0, wSHP⟩,
     ⟨Fd.TSN_PORT_CFG_GATE_BANK, .rw, 0, wSHP⟩, ⟨Fd.TSN_PORT_CFG_GATE_MAX_CYCLES, .rw, 4, wSHP⟩]⟩,
  ⟨0x1010, 32, 8, 0x100, 1, 0x0, .never, (some (218, 32)),
    [⟨Fd.TSN_MAC_DROP_COUNT, .rw, 0, wSHP⟩]⟩,
  ⟨0x1014, 32, 8, 0x100, 1, 0x0, .never, (some (218, 32)),
    [⟨Fd.TSN_GATE_DROP_COUNT, .rw, 0, wSHP⟩]⟩,
  ⟨0x1018, 32, 8, 0x100, 1, 0x0, .never, (some (218, 32)),
    [⟨Fd.TSN_RX_NOBUF_COUNT, .rw, 0, wSHP⟩]⟩,
  ⟨0x101C, 32, 8, 0x100, 1, 0x0, .never, (some (218, 32)),
    [⟨Fd.TSN_PORT_SAT_SAT, .ro, 0, wNone⟩]⟩,
  ⟨0x2000, 64, 16, 0x8, 1, 0x0, (.after 0 63), (some (218, 32)),
    [⟨Fd.TSN_Q_EN, .rw, 0, wSHP⟩, ⟨Fd.TSN_Q_OWNER, .rw, 2, wSH⟩,
     ⟨Fd.TSN_Q_GEN, .ro, 0, wNone⟩, ⟨Fd.TSN_Q_QBASE, .rw, 0, wSHP⟩,
     ⟨Fd.TSN_Q_SIZE_CODE, .rw, 0, wSHP⟩]⟩]
/-- Registers of block TSN, part 1. -/
def RegMap.TSN_part1 : List RegSpec := [
  ⟨0x2080, 64, 16, 0x8, 1, 0x0, .never, (some (218, 32)),
    [⟨Fd.TSN_QKNOT_QKNOT, .rw, 0, wSHP⟩]⟩]
/-- Registers of block TSN. -/
def RegMap.TSN : List RegSpec := RegMap.TSN_part0 ++ RegMap.TSN_part1
/-- Registers of block CWY. -/
def RegMap.CWY : List RegSpec := [
  ⟨0x0000, 32, 1, 0x0, 1, 0x0, .never, none,
    [⟨Fd.CWY_CTRL_LOCK, .rwl, 0, wS⟩]⟩,
  ⟨0x0008, 64, 1, 0x0, 1, 0x0, .never, none,
    [⟨Fd.CWY_ID_ETHERTYPE, .ro, 0, wNone⟩, ⟨Fd.CWY_ID_JUMBO, .ro, 0, wNone⟩,
     ⟨Fd.CWY_ID_DEVICE, .ro, 0, wNone⟩]⟩,
  ⟨0x0010, 32, 1, 0x0, 1, 0x0, .never, none,
    [⟨Fd.CWY_CFG_PEER_TMO_US, .rwl, 0x3e8, wSH⟩, ⟨Fd.CWY_CFG_RETX_US, .rwl, 0x14, wSH⟩]⟩,
  ⟨0x0040, 32, 1, 0x0, 1, 0x0, .never, none,
    [⟨Fd.CWY_RETX_CNT_COUNT, .rw, 0, wSH⟩]⟩,
  ⟨0x0044, 32, 1, 0x0, 1, 0x0, .never, none,
    [⟨Fd.CWY_OOO_DROP_COUNT, .rw, 0, wSH⟩]⟩,
  ⟨0x0048, 32, 1, 0x0, 1, 0x0, .never, none,
    [⟨Fd.CWY_PEER_LOST_CNT_COUNT, .rw, 0, wSH⟩]⟩,
  ⟨0x004C, 32, 1, 0x0, 1, 0x0, .never, none,
    [⟨Fd.CWY_REFUSE_CNT_COUNT, .rw, 0, wSH⟩]⟩,
  ⟨0x0050, 32, 1, 0x0, 1, 0x0, .never, none,
    [⟨Fd.CWY_SAT_SAT, .ro, 0, wNone⟩]⟩,
  ⟨0x0100, 32, 4, 0x40, 1, 0x0, .never, (some (214, 0)),
    [⟨Fd.CWY_PORT_EN, .rw, 0, wSH⟩, ⟨Fd.CWY_PORT_STATE, .ro, 0, wNone⟩,
     ⟨Fd.CWY_PORT_LANES, .ro, 0, wNone⟩, ⟨Fd.CWY_PORT_VLAN, .ro, 0, wNone⟩]⟩,
  ⟨0x0110, 32, 4, 0x40, 3, 0x4, .never, (some (214, 0)),
    [⟨Fd.CWY_FEC_UNCORR_COUNT, .rw, 0, wSH⟩]⟩,
  ⟨0x011C, 32, 4, 0x40, 1, 0x0, .never, (some (214, 0)),
    [⟨Fd.CWY_FEC_SAT_SAT, .ro, 0, wNone⟩]⟩,
  ⟨0x0400, 32, 1, 0x0, 1, 0x0, .never, none,
    [⟨Fd.CWY_PEER_SEL_CMD, .wo, 0, wSH⟩, ⟨Fd.CWY_PEER_SEL_STATUS, .ro, 0, wNone⟩,
     ⟨Fd.CWY_PEER_SEL_INDEX, .rw, 0, wSH⟩]⟩,
  ⟨0x0408, 64, 1, 0x0, 1, 0x0, .never, none,
    [⟨Fd.CWY_PEER_D0_STATE, .ro, 0, wNone⟩, ⟨Fd.CWY_PEER_D0_DIRECT, .ro, 0, wNone⟩,
     ⟨Fd.CWY_PEER_D0_PORTS, .ro, 0, wNone⟩, ⟨Fd.CWY_PEER_D0_MAC, .ro, 0, wNone⟩]⟩,
  ⟨0x0410, 64, 1, 0x0, 1, 0x0, .never, none,
    [⟨Fd.CWY_PEER_D1_SEQ, .ro, 0, wNone⟩, ⟨Fd.CWY_PEER_D1_DEVICE, .ro, 0, wNone⟩]⟩]
/-- Registers of block MEDIA. -/
def RegMap.MEDIA : List RegSpec := [
  ⟨0x0000, 32, 1, 0x0, 1, 0x0, .never, none,
    [⟨Fd.MEDIA_CTRL_LOCK, .rwl, 0, wS⟩]⟩,
  ⟨0x0100, 64, 2, 0x20, 1, 0x0, (.after 0 63), (some (210, 32)),
    [⟨Fd.MEDIA_DEC_EN, .rw, 0, wSH⟩, ⟨Fd.MEDIA_DEC_CODEC, .rw, 0, wSH⟩,
     ⟨Fd.MEDIA_DEC_CFG_ERR, .w1c, 0, wSH⟩, ⟨Fd.MEDIA_DEC_CHANNEL, .rw, 0, wSH⟩,
     ⟨Fd.MEDIA_DEC_MAX_FPS, .rw, 0x3c, wSH⟩, ⟨Fd.MEDIA_DEC_MAX_W, .rw, 0xf00, wSH⟩,
     ⟨Fd.MEDIA_DEC_MAX_H, .rw, 0x870, wSH⟩]⟩,
  ⟨0x0110, 32, 2, 0x20, 1, 0x0, .never, (some (210, 32)),
    [⟨Fd.MEDIA_DEC_ERR_COUNT, .rw, 0, wSH⟩]⟩,
  ⟨0x0200, 64, 1, 0x0, 1, 0x0, (.after 0 63), (some (211, 32)),
    [⟨Fd.MEDIA_ENC0_EN, .rw, 0, wSH⟩, ⟨Fd.MEDIA_ENC0_CFG_ERR, .w1c, 0, wSH⟩,
     ⟨Fd.MEDIA_ENC0_REL, .rw, 0, wSH⟩, ⟨Fd.MEDIA_ENC0_CHANNEL, .rw, 0, wSH⟩,
     ⟨Fd.MEDIA_ENC0_GOP, .rw, 0x1e, wSH⟩, ⟨Fd.MEDIA_ENC0_KBPS, .rw, 0x4e20, wSH⟩]⟩,
  ⟨0x0208, 64, 1, 0x0, 1, 0x0, (.before 8 63), (some (211, 32)),
    [⟨Fd.MEDIA_ENC1_GEN, .ro, 0, wNone⟩, ⟨Fd.MEDIA_ENC1_QBASE, .rw, 0, wSH⟩,
     ⟨Fd.MEDIA_ENC1_SIZE_CODE, .rw, 0, wSH⟩]⟩,
  ⟨0x0210, 64, 1, 0x0, 1, 0x0, (.before 16 63), (some (211, 32)),
    [⟨Fd.MEDIA_ENC2_KNOT, .rw, 0, wSH⟩]⟩,
  ⟨0x0220, 32, 1, 0x0, 1, 0x0, .never, (some (211, 32)),
    [⟨Fd.MEDIA_ENC_SKIP_COUNT, .rw, 0, wSH⟩]⟩,
  ⟨0x0224, 32, 1, 0x0, 1, 0x0, .never, none,
    [⟨Fd.MEDIA_SAT_SAT, .ro, 0, wNone⟩]⟩]

/-- The registers of one block by its index (R636). -/
def RegMap.block : Nat → List RegSpec
  | 0 => RegMap.GEN
  | 1 => RegMap.TIME
  | 2 => RegMap.ALW
  | 3 => RegMap.PWR
  | 4 => RegMap.MEM
  | 5 => RegMap.ARY
  | 6 => RegMap.RING
  | 7 => RegMap.KNOT
  | 8 => RegMap.INTK
  | 9 => RegMap.FUSE
  | 10 => RegMap.GFX
  | 11 => RegMap.DSP
  | 12 => RegMap.SAFE
  | 13 => RegMap.SPARE
  | 14 => RegMap.SEC
  | 15 => RegMap.AUDIT
  | 16 => RegMap.VI
  | 17 => RegMap.UBR
  | 18 => RegMap.GWY
  | 19 => RegMap.TSN
  | 20 => RegMap.CWY
  | 21 => RegMap.MEDIA
  | _ => []

/-- The element indices of `r` that a block offset names, if it names one. -/
def RegSpec.hit (r : RegSpec) (off : Nat) : Option (Nat × Nat) :=
  let d := off - r.off
  let i := if r.count = 1 then 0 else d / r.stride
  let j := if r.count2 = 1 then 0 else (d - i * r.stride) / r.stride2
  if r.off ≤ off ∧ i < r.count ∧ j < r.count2 ∧ r.off + i * r.stride + j * r.stride2 = off then some (i, j) else none

/-- The register at a block offset, with its element indices. -/
def RegMap.findIn : List RegSpec → Nat → Option (RegSpec × Nat × Nat)
  | [], _ => none
  | r :: rs, off =>
    match r.hit off with
    | some ij => some (r, ij)
    | none => RegMap.findIn rs off

/-- The register whose lowest byte stands at a set-up offset (block index × 2^16 + offset in the block). -/
def RegMap.find (key : Nat) : Option (RegSpec × Nat × Nat) := RegMap.findIn (RegMap.block (key / 0x10000)) (key % 0x10000)

/-- A register's reset word, composed from its fields' Reset columns. -/
def RegSpec.resetWord (r : RegSpec) : Nat := r.fields.foldl (fun a f => a + f.reset * 2 ^ f.fld.lo) 0

/-- THR and WIN of SAFE_SRC_CFG_i and the reaction codes at reset, by the table of R456: (REACT_EACH, REACT_LAST, THR,
WIN in seconds; WIN 0 means no limit, R457). -/
def RegMap.srcReset : Nat → Nat × Nat × Nat × Nat
  | 0 => (1, 2, 2, 10)
  | 1 => (2, 2, 1, 0)
  | 2 => (1, 2, 3, 1)
  | 3 => (2, 2, 1, 0)
  | 4 => (2, 2, 1, 0)
  | 5 => (1, 2, 2, 1)
  | 6 => (1, 1, 3, 86400)
  | 7 => (1, 1, 2, 86400)
  | 8 => (0, 1, 4, 1)
  | 9 => (2, 2, 1, 0)
  | 10 => (2, 2, 1, 0)
  | 11 => (2, 2, 1, 0)
  | 12 => (1, 1, 1, 0)
  | 13 => (2, 2, 1, 0)
  | 14 => (2, 2, 1, 0)
  | _ => (2, 2, 1, 0)

/-- A register key names a set-up offset, plus 2^24 times the bank of a window that is banked per origin class. -/
def RegMap.bankSize : Nat := 0x1000000

/-- The value a register holds at device reset (the Reset columns; R102, R215, R456 and R648 for the four families whose
reset value depends on the element). -/
def RegMap.resetNat (key : Nat) : Nat :=
  match RegMap.find (key % RegMap.bankSize) with
  | none => 0
  | some (r, i, _) =>
    if key = Reg.GEN_EVT_ROUTE 12 then 7
    else if key = Reg.MEM_CHMAP i then (if i < 256 then i else i + 8)
    else if key = Reg.ARY_CORE i then i
    else if key = Reg.SAFE_SRC_CFG i then
      let c := RegMap.srcReset i
      c.1 * 2 ^ 62 + c.2.1 * 2 ^ 60 + c.2.2.1 * 2 ^ 56 + c.2.2.2 * 1000
    else r.resetWord

/-- The same as a word: what a register that nothing has written reads. -/
def RegMap.reset (key : Nat) : Word := BitVec.ofNat 64 (RegMap.resetNat key)

end Sys2Proof.Machine
end

