-- ==== Sys2Proof/Machine/Flags.lean ====
section
/-! DEFINITION. The saturation flags: for every saturating 32-bit event counter, the bit that its saturation sets (R484 and
the counter rules of each chapter). -/

namespace Sys2Proof.Machine

/-- A saturation bit: its word's register and its bit number. -/
structure SatBit where
  word : Nat
  bit  : Nat
  deriving DecidableEq, Repr

/-- A family of counters: element (i, j) stands at base + st × i + st2 × j, and its SAT bit is bit + bi × i + bj × j of the
register at word + wst × i + wst2 × j. -/
structure SatRow where
  base : Nat
  n    : Nat
  st   : Nat
  n2   : Nat
  st2  : Nat
  word : Nat
  wst  : Nat
  wst2 : Nat
  bit  : Nat
  bi   : Nat
  bj   : Nat
  deriving DecidableEq, Repr

/-- One counter alone. -/
def satOne (k word bit : Nat) : SatRow := ⟨k, 1, 0, 1, 0, word, 0, 0, bit, 0, 0⟩

/-- A run of counters 4 bytes apart whose bits run with them. -/
def satRun (k n word bit : Nat) : SatRow := ⟨k, n, 4, 1, 0, word, 0, 0, bit, 1, 0⟩

/-- Counters of a unit at a stride, with a word of their own per unit; the second index runs over the unit's counters. -/
def satUnit (k units stride n word : Nat) : SatRow := ⟨k, units, stride, n, 4, word, stride, 0, 0, 0, 1⟩

/-- The counters of blocks GEN to KNOT. -/
def satRows0 : List SatRow := [
  satRun (Reg.GEN_EVQ_DROP_CNT 0) 3 Reg.GEN_SAT 0,
  satRun Reg.ALW_STALE_CNT 2 Reg.ALW_SAT 0,
  satRun (Reg.ALW_WAIT_CNT 0) 3 Reg.ALW_SAT 2,
  satRun Reg.PWR_RATE_LOW_CNT 2 Reg.PWR_SAT 0,
  satRun Reg.MEM_CE_CNT 4 Reg.MEM_SAT 0,
  satRun Reg.MEM_ERRQ_DROP_CNT 3 Reg.MEM_SAT 4,
  satOne Reg.ARY_BVOID_CNT Reg.ARY_SAT 0,
  satRun Reg.ARY_PACK_ERR_CNT 9 Reg.ARY_SAT 1,
  satRun Reg.RING_DB_BAD_CNT 3 Reg.RING_SAT 0,
  satRun Reg.KNOT_TMO_CNT 2 Reg.KNOT_SATW 0]

/-- The counters of blocks INTK to MEDIA. -/
def satRows1 : List SatRow := [
  satUnit (Reg.CH_VOID 0) 16 0x100 7 (Reg.CH_SAT 0),
  satUnit (Reg.FUSE_PASS_DROP 0) 2 0x20 6 (Reg.FUSE_SAT 0),
  satRun Reg.GFX_SPLIT_CNT 2 Reg.GFX_SAT 0,
  satUnit (Reg.PIPE_EARLY 0) 4 0x400 5 (Reg.PIPE_SAT 0),
  satRun Reg.SAFE_DEFER_CNT 3 Reg.SAFE_SAT 0,
  satRun (Reg.SAFE_SRC_CNT 0) 16 Reg.SAFE_SRC_SAT 0,
  satRun Reg.SPARE_STALE_CNT 3 Reg.SPARE_SAT 0,
  satRun Reg.SEC_TAG_FAIL_CNT 3 Reg.SEC_SAT 0,
  satRun Reg.AUDIT_LOST_CNT 2 Reg.AUDIT_SAT 0,
  satRun Reg.UBR_RD_TMO_CNT 4 Reg.UBR_SAT 0,
  satUnit (Reg.GWY_OVERRUN 0) 16 0x100 3 (Reg.GWY_CAN_SAT 0),
  satRun Reg.GWY_OVERWRITE 2 Reg.GWY_SLU_SAT 0,
  satOne Reg.GPTP_REFUSE_CNT Reg.TSN_SAT 0,
  satUnit (Reg.TSN_MAC_DROP 0) 8 0x100 3 (Reg.TSN_PORT_SAT 0),
  satRun Reg.CWY_RETX_CNT 4 Reg.CWY_SAT 0,
  satUnit (Reg.CWY_FEC_UNCORR 0 0) 4 0x40 3 (Reg.CWY_FEC_SAT 0),
  ⟨Reg.MEDIA_DEC_ERR 0, 2, 0x20, 1, 0, Reg.MEDIA_SAT, 0, 0, 0, 1, 0⟩,
  satOne Reg.MEDIA_ENC_SKIP Reg.MEDIA_SAT 2]

/-- MISS, SKIP and VOID of the planes: one row per counter, pipe p at 0x400, plane k at 0x20. -/
def satRows2 : List SatRow :=
  [0, 1, 2].map (fun c => ⟨Reg.PLANE_MISS 0 0 + 4 * c, 4, 0x400, 8, 0x20, Reg.PLANE_SAT 0 0, 0x400, 0x20, c, 0, 0⟩)

/-- The element of a family that a key names. -/
def SatRow.hit (r : SatRow) (k : Nat) : Option SatBit :=
  let d := k - r.base
  let i := if r.n = 1 then 0 else d / r.st
  let j := if r.n2 = 1 then 0 else (d - i * r.st) / r.st2
  if r.base ≤ k ∧ i < r.n ∧ j < r.n2 ∧ r.base + i * r.st + j * r.st2 = k then
    some ⟨r.word + r.wst * i + r.wst2 * j, r.bit + r.bi * i + r.bj * j⟩
  else none

/-- The SAT bit of a counter; none for TIME_TACK_CROWD, to which the manual gives no bit, and for what is no counter. -/
def satOf (k : Nat) : Option SatBit := (satRows0 ++ satRows1 ++ satRows2).findSome? (fun r => r.hit k)

/-- Is a key a saturating 32-bit event counter? -/
def isCounter (k : Nat) : Bool := (satOf k).isSome || k == Reg.TIME_TACK_CROWD

end Sys2Proof.Machine
end

