-- ==== Sys2Proof/Machine/Nets.lean ====
section
/-! DEFINITION. The records of the vehicle networks: acceptance filters, the sluice's tables and slots, the TSN switch (R581 to
R602). Plain data. -/

namespace Sys2Proof.Machine

/-- An acceptance filter (R585): identifier, mask, format; target 0 or 1 a receive queue, 2 the sluice, 3 discard. -/
structure CanFilter where
  id     : Nat
  mask   : Nat
  fmt    : Nat
  ide    : Bool
  target : Nat
  deriving DecidableEq, Repr

/-- A PDU table entry (R599, R610). -/
structure Pdu where
  valid  : Bool := false
  side   : Bool := false
  dst    : Bool := false
  ctrl   : Nat := 0
  fmt    : Nat := 0
  ide    : Bool := false
  id     : Nat := 0
  key32  : Nat := 0
  length : Nat := 0
  gap    : Nat := 0
  deriving DecidableEq, Repr

/-- A signal map entry (R600, R611). -/
structure SigMap where
  valid    : Bool := false
  src      : Nat := 0
  dst      : Nat := 0
  srcBig   : Bool := false
  dstBig   : Bool := false
  len      : Nat := 1
  srcStart : Nat := 0
  dstStart : Nat := 0
  deriving DecidableEq, Repr

/-- The pending slot of a destination PDU (R601): its bytes, whether it is updated and since when, the last send. -/
structure Slot where
  bytes    : List Byte := []
  updated  : Bool := false
  since    : Nat := 0
  lastSend : Option Nat := none
  deriving DecidableEq, Repr

/-- A forwarding entry (R591): address, VLAN, a mask of ports, learned or static, when it was last refreshed. -/
structure FdbEntry where
  mac   : Nat
  vid   : Nat
  ports : Nat
  fixed : Bool := false
  seen  : Nat := 0
  deriving DecidableEq, Repr

/-- A gate control list (R592): base time and cycle time in gPTP time, entries of 8 gate states and an interval in ns. -/
structure GateList where
  base  : Nat := 0
  cycle : Nat := 0
  ents  : List (Nat × Nat) := []
  deriving DecidableEq, Repr

/-- A gate list that runs: its bank, the number of its cycle, the interval; the offset in which it ends its cycle after an ACCEPT;
whether it waits for the start of cycle n (R592, R597). -/
structure GateRun where
  bank   : Nat
  n      : Nat
  idx    : Nat := 0
  frozen : Option Int := none
  hold   : Bool := false
  deriving DecidableEq, Repr

/-- A frame that waits for a gate: class, bytes, the transmit entry of port 6 that it came by, cycles it has waited through, its
ingress port and SFD. -/
structure WaitFrame where
  cls    : Nat
  bytes  : List Byte
  entry  : Option (Nat × Nat)
  cycles : Nat := 0
  ingress : Nat
  sfd    : Nat
  deriving DecidableEq, Repr

/-- A port of the switch beside its registers. -/
structure TsnPort where
  bank0   : GateList := {}
  bank1   : GateList := {}
  run     : Option GateRun := none
  waiting : List WaitFrame := []
  deriving DecidableEq, Repr

/-- A two-step Sync that has been forwarded (R593): its sender and sequence number, its egress port, what its Follow_Up takes. -/
structure TwoStep where
  key    : List Byte
  port   : Nat
  amount : Nat
  deriving DecidableEq, Repr

/-- The vehicle networks beside their registers: frame queues (CAN queue k of controller n at 6n + k, switch queue k at 96 + k),
acceptance filters by controller, the sluice's tables, slots and received source PDUs, VLANs as (VID, member ports), forwarding
entries, ports, the cumulative rate ratio held by the servo in 2^-41, two-step Syncs. -/
structure Nets where
  queues  : Sparse Ring := []
  filters : Sparse (List CanFilter) := []
  pdus    : Sparse Pdu := []
  maps    : Sparse SigMap := []
  slots   : Sparse Slot := []
  sluIn   : List (Nat × List Byte) := []
  vlans   : List (Nat × Nat) := [(1, 0xFF)]
  fdb     : List FdbEntry := []
  ports   : Sparse TsnPort := []
  ratio   : Nat := 0
  twoStep : List TwoStep := []
  deriving DecidableEq, Repr

end Sys2Proof.Machine
end

