-- ==== Sys2Proof/Machine/Streams.lean ====
section
/-! DEFINITION. The records of the intake and the media engine: samples, tack firings, channels, source queue entries (R331 to
R361, R654, R655). Plain data. -/

namespace Sys2Proof.Machine

/-- A sample with its sequence number and SAMPLE_ID, from the firing or start that assigned q until its slot is delivered: TIME,
the last data received, the instant of completion or voiding, STATUS (0 valid, else the void reason of R351), its lines as
received, the region set in force for it, the anchor of its late budget once it is done (R346 to R354). -/
structure Sample where
  q        : Nat
  sid      : Nat
  firing   : Option Nat := none
  started  : Bool := false
  time     : Nat := 0
  lastData : Nat := 0
  done     : Option Nat := none
  status   : Nat := 0
  anchor   : Nat := 0
  gap      : Bool := false
  camFc    : Nat := 0
  lines    : List (List Byte) := []
  regions  : List (List Byte) := []
  held     : Bool := false
  deriving DecidableEq, Repr

/-- A firing on a trigger-linked channel: its instant and the sequence number it assigned, none when no slot was free (R338,
R348). -/
structure Firing where
  time : Nat
  q    : Option Nat
  deriving DecidableEq, Repr

/-- A source queue entry (R359); `bad` says that its SEQ is wrong or a reserved bit is set, `epoch` counts the random-access points up to
it (R361). -/
structure SrcEntry where
  addr : Nat
  time : Nat
  size : Nat
  sid  : Nat
  rap  : Bool
  eos  : Bool
  seq  : Nat
  bad  : Bool
  epoch : Nat := 0
  deriving DecidableEq, Repr

/-- A stream channel beside its registers: the next sequence number, the first not yet delivered, samples not yet delivered,
open firings, the sample being received, whether its late data has been counted, TDM frames still to discard, the last frame
number, the region set in force and for how many frames it has been held, completed samples of an unordered channel, the rows
and columns of a source frame, the origin that owns UNORD, the source queue with the entries a decoder session has taken, the
random-access points fetched and the entries, each with its epoch, whose pictures are void (R361), the frames that a TDM port has still
to transmit, by entry, and whether it has run dry (R30, R333). -/
structure Chan where
  nextQ   : Nat := 0
  place   : Nat := 0
  samples : List Sample := []
  firings : List Firing := []
  cur     : Option Nat := none
  ghost   : Bool := false
  skip    : Nat := 0
  lastFc  : Nat := 0
  force   : List (List Byte) := []
  heldFor : Nat := 0
  ready   : List Sample := []
  dims    : Nat × Nat := (0, 0)
  owner   : Nat := 0
  queue   : Ring := {}
  entries : List SrcEntry := []
  epoch   : Nat := 0
  broken  : List (Nat × Nat) := []
  play    : List (Nat × List (List Nat)) := []
  dry     : Bool := true
  deriving DecidableEq, Repr

/-- The media encoder beside its registers: the next sample, whether a picture is being encoded and whether it is an IDR
picture, whether the next must be one, pictures since the last IDR picture, the output queue (R655). -/
structure Encoder where
  next     : Nat := 0
  active   : Bool := false
  idr      : Bool := false
  forceIdr : Bool := true
  count    : Nat := 0
  queue    : Ring := {}
  deriving DecidableEq, Repr

/-! ### Fusion (R372 to R391) -/

/-- What a pass saw in a feed slot when it started: the stamp and the tensor descriptor, and whether the slot could not be read (R373,
R376). -/
structure FeedSlot where
  stamp : List Byte
  desc  : List Byte
  lost  : Bool := false
  deriving DecidableEq, Repr

/-- A fusion pass: its grid, its number, its grid instant, the snapshot of each feed's slots (R376). -/
structure Pass where
  grid  : Nat
  num   : Nat := 0
  tg    : Nat
  slots : List (List FeedSlot) := []
  deriving DecidableEq, Repr

/-- A pass whose detection list is awaited: its number, its instant, its STALE mask, the value of LIST_KNOT last seen (R386). -/
structure Awaited where
  num   : Nat
  tg    : Nat
  stale : Nat
  knot  : Nat
  deriving DecidableEq, Repr

/-- An entry of a track table (R386 to R390): 0 free, 1 candidate, 2 tentative, 3 confirmed; position, velocity and score as FP32
codes; the history, the miss run, instants since it was opened, the pass of its birth, the instant it was last stepped. -/
structure Track where
  state : Nat := 0
  x     : Nat := 0
  y     : Nat := 0
  vx    : Nat := 0
  vy    : Nat := 0
  score : Nat := 0
  cls   : Nat := 0
  ident : Nat := 0
  hist  : Nat := 0
  miss  : Nat := 0
  age   : Nat := 0
  born  : Nat := 0
  last  : Nat := 0
  deriving DecidableEq, Repr

/-- A grid beside its registers: the next pass number, the list awaited, the track table, track lists not yet written with their
pass number. -/
structure Grid where
  next   : Nat := 0
  await  : Option Awaited := none
  tracks : Sparse Track := []
  lists  : List (Nat × List Byte) := []
  deriving DecidableEq, Repr

/-- The fusion unit: both grids, the pass that runs, the passes that wait, in firing order. -/
structure Fusion where
  grids   : Sparse Grid := []
  running : Option Pass := none
  queue   : List Pass := []
  deriving DecidableEq, Repr

/-! ### Display (R404 to R422) -/

/-- A buffer that a plane shows: position, size, addresses, pitches, FORMAT (R408). -/
structure Shown where
  x      : Nat
  y      : Nat
  w      : Nat
  h      : Nat
  fmt    : Nat
  addr   : Nat
  pitch  : Nat
  u      : Nat
  v      : Nat
  cpitch : Nat
  deriving DecidableEq, Repr

/-- A plane beside its registers: one past the last record accepted, the buffer it shows (R409). -/
structure Plane where
  next : Nat := 0
  cur  : Option Shown := none
  deriving DecidableEq, Repr

/-- A pipe beside its registers: link training under way, link trained, whether a frame has started since enable, the instant of its
last start, a held firing, a free run under way, its planes, the telltale table in force, whether a written table waits for a
latch. -/
structure Pipe where
  training : Bool := false
  trained  : Bool := false
  started  : Bool := false
  startAt  : Nat := 0
  held     : Bool := false
  freeRun  : Bool := false
  planes   : Sparse Plane := []
  table    : List (List Byte) := []
  staged   : Bool := false
  slips    : List (Nat × Nat) := []
  deriving DecidableEq, Repr

/-- Early view: the stream channel, the pipe, the plane, the plane's position (R420, R505). -/
structure EarlyView where
  channel : Nat
  pipe    : Nat
  plane   : Nat
  x       : Nat
  y       : Nat
  deriving DecidableEq, Repr

/-- The display beside its registers. -/
structure Display where
  pipes : Sparse Pipe := []
  early : Option EarlyView := none
  deriving DecidableEq, Repr

end Sys2Proof.Machine
end

