-- ==== Sys2Proof/Machine/State.lean ====
section
/-! DEFINITION. The state of the block: every register, table, queue, counter, mode and pin the manual gives it, as plain
data, with the queue of commands that wait. -/

namespace Sys2Proof.Machine

/-- No command ends in a fault: every refusal of the manual is an answer to its issuer and a next state (R98). The type has
no constructor, and nobody raises it; that is safe, since a claim that a command faults can then never be proved. -/
inductive Fault where
  deriving DecidableEq, Repr

/-- Why a command has no next state. -/
inductive Refusal where
  /-- Raised by the dispatch alone, for a command that has no meaning yet; safe, since nothing about its effect can be
  proved. -/
  | notModelled (mnemonic : String)
  deriving DecidableEq, Repr

/-- What a byte of on-package memory that nothing has written reads as (log 2). -/
abbrev Memory.blank : Nat → Byte := fun _ => 0

/-- On-package memory: (address, byte) pairs in canonical form. -/
abbrev Memory := List Host.Cell

/-- The canonical form of memory: addresses strictly rising, no entry equal to what an unlisted address reads as. -/
abbrev Memory.wf (m : Memory) : Bool := Sparse.wf Memory.blank m

/-- The state of the LFN-880. -/
structure State where
  /-- Device time in units of 2^-32 ns (R36, R37). -/
  time     : BitVec 96 := 0
  /-- Every set-up register, by its set-up offset plus 2^24 times its bank (R636). -/
  regs     : Sparse Word := []
  /-- On-package memory and its poisoned 64 B beats (R97, R105). -/
  mem      : Memory := []
  poison   : Sparse Bool := []
  /-- The bytes of host memory and of other devices' memory as reads over the bridge and the links last returned them. -/
  far      : Sparse Byte := []
  /-- The model's own count of free values used; no statement rests on it (log 3). -/
  free     : Nat := 0
  /-- The answer to the latest access and the messages sent to the outside, oldest first. -/
  resp     : Resp := .none
  out      : List Emit := []
  sys      : Sys := {}
  audit    : Audit := {}
  /-- The high halves latched by reads of TIME_NOW_LO, by origin (R57). -/
  timeLatch : Sparse Nat := []
  tacks    : Sparse Tack := []
  tackTick : TackTick := {}
  fsync    : Sparse FsyncPin := []
  alw      : Alw := {}
  memst    : MemStack := {}
  bridge   : Bridge := {}
  safe     : Safe := {}
  knots    : Sparse Nat := []
  rings    : Sparse Ring := []
  jobs     : List Job := []
  cores    : Sparse Core := []
  hot      : Sparse HotEntry := []
  tiles    : List SharedTile := []
  sched    : Sched := {}
  /-- The pending region set of each stream channel: commit instant and record (R354). -/
  regions  : Sparse (List (Nat × List Byte)) := []
  /-- Stream channels and the encoder (R331 to R362, R655). -/
  chans    : Sparse Chan := []
  encoder  : Encoder := {}
  fusion   : Fusion := {}
  display  : Display := {}
  seals    : List SealTask := []
  checkers : Checkers := {}
  darn     : Darn := {}
  watch    : Watch := {}
  trust    : Trust := {}
  insts    : Insts := {}
  journal  : Journal := {}
  cwy      : Cwy := {}
  nets     : Nets := {}
  /-- The EPOCH of each key slot, by origin identifier (R502). -/
  epochs   : Sparse Nat := []
  /-- The commands that wait, first in, first out. -/
  pending  : List Instr := []
  deriving DecidableEq, Repr

/-- The block at device reset: held in reset, every register at its reset value, no memory listed, nothing pending
(R43, R277, R642, R671). -/
def State.reset : State := {}

end Sys2Proof.Machine
end

