-- ==== Sys2Proof/Machine/Ops.lean ====
section
/-! DEFINITION. The named operations over the block's state: registers and their fields, memory, free values, answers and
messages, counters (R484), events (R645 to R648), the audit log (R525 to R527). -/

namespace Sys2Proof.Machine

/-! ### Registers and fields -/

/-- The word a register holds. -/
def State.reg (s : State) (k : Nat) : Word := Sparse.get RegMap.reset k s.regs

/-- Stores a word in a register. -/
def State.setReg (s : State) (k : Nat) (w : Word) : State := { s with regs := Sparse.put RegMap.reset k w s.regs }

/-- The value of a bit field of a word. -/
def Fld.of (f : Fld) (w : Word) : Nat := w.toNat / 2 ^ f.lo % 2 ^ f.width

/-- A word with one bit field replaced; a value wider than the field is cut to it. -/
def Fld.put (f : Fld) (w : Word) (v : Nat) : Word :=
  BitVec.ofNat 64 (w.toNat - f.of w * 2 ^ f.lo + v % 2 ^ f.width * 2 ^ f.lo)

/-- A field of a register. -/
def State.fld (s : State) (k : Nat) (f : Fld) : Nat := f.of (s.reg k)

/-- Writes a field of a register. -/
def State.setFld (s : State) (k : Nat) (f : Fld) (v : Nat) : State := s.setReg k (f.put (s.reg k) v)

/-- Is a one-bit field set? -/
def State.bit (s : State) (k : Nat) (f : Fld) : Bool := s.fld k f == 1

/-- Bit `b` of a register. -/
def State.regBit (s : State) (k b : Nat) : Bool := s.fld k ⟨b, b⟩ == 1

/-- Writes bit `b` of a register. -/
def State.setBit (s : State) (k b : Nat) (v : Bool) : State := s.setFld k ⟨b, b⟩ v.toNat

/-- The key of a window register in the bank of an origin class (R62, R288, R326): Selvage, hypervisor, safety pairs, USB4
host and each virtual function have their own copy. -/
def bankKey (o : Origin) (k : Nat) : Nat :=
  k + RegMap.bankSize * (match o with
    | .device => 0
    | .selvage => 1
    | .hypervisor => 2
    | .safety => 3
    | .usb4 => 4
    | .debug => 5
    | .causeway => 6
    | .vi v => 16 + v % 64)

/-- The Writers-column class of an origin, if it has one (R637). -/
def originWriter : Origin → Option Writer
  | .selvage => some .selvage
  | .hypervisor => some .hypervisor
  | .safety => some .safety
  | .usb4 => some .usb4
  | .vi _ => some .usb4
  | _ => none

/-- May this origin write a field with this Writers column? -/
def mayWrite (o : Origin) (ws : List Writer) : Bool :=
  match originWriter o with
  | some w => ws.contains w
  | none => false

/-! ### Device time (R36, R37) -/

/-- Device time in whole nanoseconds. -/
def State.now (s : State) : Nat := s.time.toNat / 2 ^ 32

/-- A signed reading of the low 32 bits of a number. -/
def signed32 (n : Nat) : Int := if n % 2 ^ 32 < 2 ^ 31 then (n % 2 ^ 32 : Nat) else (n % 2 ^ 32 : Nat) - 2 ^ 32

/-! ### Free values, answers, messages -/

/-- The next free value, and the state that has used it. -/
def State.takeFree (s : State) : Nat × State := (Config.freeNat s.free, { s with free := s.free + 1 })

/-- The amount of one tick on the backup oscillator: 5 ns within ±2 %, a free value (R40). -/
def backupTick (v : Nat) : Int := 5 * 2 ^ 32 - 429496729 + (v % 858993459 : Nat)

/-- One 200 MHz tick: 5 × (1 + A × 2^-32) ns are added, with a 32-bit fraction (R37); after a loss of the reference the backup
oscillator drives device time and syntonisation has no part (R40). -/
def State.tick (s : State) : State :=
  if s.bit Reg.TIME_STATUS Fd.TIME_STATUS_REF_LOSS then
    let (v, s1) := s.takeFree
    { s1 with time := s1.time + BitVec.ofInt 96 (backupTick v) }
  else
    let a := signed32 (s.fld Reg.TIME_RATE_ADJ Fd.TIME_RATE_ADJ_ADJ)
    { s with time := s.time + BitVec.ofInt 96 (5 * (2 ^ 32 + a)) }

/-- Records the answer to the issuer. -/
def State.answer (s : State) (r : Resp) : State := { s with resp := r }

/-- Sends a message to the outside. -/
def State.emit (s : State) (e : Emit) : State := { s with out := s.out ++ [e] }

/-! ### Bytes -/

/-- The little-endian bytes of a number. -/
def leBytes : Nat → Nat → List Byte
  | 0, _ => []
  | n + 1, v => BitVec.ofNat 8 v :: leBytes n (v / 256)

/-- The number that little-endian bytes spell. -/
def ofLe : List Byte → Nat
  | [] => 0
  | b :: bs => b.toNat + 256 * ofLe bs

/-- The big-endian bytes of a number. -/
def beBytes (n v : Nat) : List Byte := (leBytes n v).reverse

/-- The bits [hi:lo] of a number. -/
def bits (v hi lo : Nat) : Nat := v / 2 ^ lo % 2 ^ (hi + 1 - lo)

/-- Rounds up to a multiple. -/
def ceilDiv (a b : Nat) : Nat := (a + b - 1) / b

/-- Replaces the elements of a list that satisfy a test. -/
def updWhere {α : Type} (p : α → Bool) (f : α → α) (l : List α) : List α := l.map (fun x => if p x then f x else x)

/-- Bitwise operations on numbers as words of 64 bits. -/
def and64 (a b : Nat) : Nat := (BitVec.ofNat 64 a &&& BitVec.ofNat 64 b).toNat
def or64 (a b : Nat) : Nat := (BitVec.ofNat 64 a ||| BitVec.ofNat 64 b).toNat
def xor64 (a b : Nat) : Nat := (BitVec.ofNat 64 a ^^^ BitVec.ofNat 64 b).toNat
def andNot64 (a b : Nat) : Nat := (BitVec.ofNat 64 a &&& ~~~ (BitVec.ofNat 64 b)).toNat

/-! ### Memory (R97, R98, R105) -/

/-- The end of on-package memory in the address map of R97. -/
def dramEnd : Nat := 0x1000000000

/-- General DRAM of R97: below the pool and the reserved region. -/
def generalEnd : Nat := 0xFE0000000

/-- The reserved region of R97 (audit ring, protected memory). -/
def reservedBase : Nat := 0xFF0000000

/-- The host memory window of R97. -/
def inHostWindow (a : Nat) : Bool := 0x8000000000 ≤ a && a < 0xC000000000

/-- One byte of on-package memory. -/
def State.readByte (s : State) (a : Nat) : Byte := Sparse.get Memory.blank a s.mem

/-- Bytes of on-package memory from an address. -/
def State.readBytes (s : State) (a : Nat) : Nat → List Byte
  | 0 => []
  | n + 1 => s.readByte a :: State.readBytes s (a + 1) n

/-- A little-endian number of n bytes in memory. -/
def State.readLe (s : State) (a n : Nat) : Nat := ofLe (s.readBytes a n)

/-- Writes bytes at rising addresses of a memory. -/
def Memory.write : Memory → Nat → List Byte → Memory
  | m, _, [] => m
  | m, a, b :: bs => Memory.write (Sparse.put Memory.blank a b m) (a + 1) bs

/-- The 64 B beats that a range of n bytes at a covers whole (R105). -/
def wholeBeats (a n : Nat) : List Nat :=
  let first := ceilDiv a 64
  (List.range ((a + n) / 64 - first)).map (fun i => first + i)

/-- Is some beat of a range of n bytes at a poisoned? -/
def State.isPoisoned (s : State) (a n : Nat) : Bool :=
  (List.range ((a + n + 63) / 64 - a / 64)).any (fun i => Sparse.get (fun _ => false) (a / 64 + i) s.poison)

/-- Poisons the beats of a range (R105, R516). -/
def State.setPoison (s : State) (a n : Nat) : State :=
  { s with poison := Sparse.putAll (fun _ => false) ((List.range ((a + n + 63) / 64 - a / 64)).map (fun i => a / 64 + i)) true s.poison }

/-- Writes bytes to on-package memory; a write that covers all 64 bytes of a poisoned beat heals it (R105). -/
def State.writeBytes (s : State) (a : Nat) (bs : List Byte) : State :=
  { s with
    mem := Memory.write s.mem a bs
    poison := Sparse.putAll (fun _ => false) (wholeBeats a bs.length) false s.poison }

/-- Does a range of n bytes at a touch an enclave, whose ranges only its own code reaches (R521)? -/
def State.enclaved (s : State) (a n : Nat) : Bool :=
  s.trust.enclaves.any (fun e => e.2.ranges.any (fun r => decide (a < r.1 + r.2) && decide (r.1 < a + n)))

/-! ### Who reaches which on-package memory (R31, R95, R97, R98, R101, R102) -/

/-- Is a place on-package memory? -/
def onPackage (p : Nat) : Bool := decide (p < dramEnd)

/-- Does a local range touch the staging pool in force, which only the commit engine reaches (R97)? -/
def State.inStage (s : State) (a n : Nat) : Bool :=
  decide (a < s.memst.stageBase + s.memst.stageSize * 2 ^ 26) && decide (s.memst.stageBase < a + n)

/-- May an engine of the device reach n bytes at a local address: on-package memory outside the reserved region, the staging pool in
force and enclaves (R97, R521)? -/
def State.dmaOk (s : State) (a n : Nat) : Bool := n == 0 || (decide (a + n ≤ reservedBase) && !s.inStage a n && !s.enclaved a n)

/-- Logical channel and channel-local offset of a DRAM address (R101). -/
def dramChan (a : Nat) : Nat := xor64 (xor64 (bits a 17 9) (bits a 26 18)) (bits a 35 27)
def dramLocal (a : Nat) : Nat := bits a 35 18 * 512 + bits a 8 0

/-- The physical channel that serves a logical channel (R102). -/
def State.physChan (s : State) (n : Nat) : Nat := s.fld (Reg.MEM_CHMAP n) Fd.MEM_CHMAP_PHYS

/-- Does a rim domain run (R31, R650)? -/
def State.rimOn (s : State) (d : Nat) : Bool := s.regBit (Reg.PWR_RIM_ON (d / 64)) (d % 64)

/-- The channel groups: physical channels 66 × g to 66 × g + 65, in power domain 3 + g (R82, R95). -/
def groupChans (g : Nat) : List Nat := (List.range 66).map (fun i => 66 * g + i)
def groupDomain (g : Nat) : Nat := 3 + g

/-- The first physical channel, of those that n bytes of on-package memory lie in, whose rim is stopped (R31): blocks of 512 B go to the
channels of R101. -/
def State.chanStop (s : State) (a n : Nat) : Option Nat :=
  if n = 0 then none
  else ((List.range ((a + n + 511) / 512 - a / 512)).map (fun i => s.physChan (dramChan (512 * (a / 512 + i))))).find? (fun c => !s.rimOn c)

/-! ### Counters (R484) -/

/-- The largest value of a 32-bit event counter. -/
def cntMax : Nat := 0xFFFFFFFF

/-- One count of a saturating counter without its event; the second part says that it has just saturated. -/
def State.countOnly (s : State) (k : Nat) : State × Bool :=
  let c := s.fld k ⟨31, 0⟩
  if c = cntMax then (s, false)
  else
    let s1 := s.setFld k ⟨31, 0⟩ (c + 1)
    if c + 1 = cntMax then ((match satOf k with
      | some b => s1.setBit b.word b.bit true
      | none => s1), true)
    else (s1, false)

/-! ### Events (R645 to R648) -/

/-- The registers of event queue d. -/
abbrev Reg.EVQ_CFG (d : Nat) : Nat := 0x000100 + 0x20 * d
abbrev Reg.EVQ_HEAD (d : Nat) : Nat := 0x000108 + 0x20 * d
abbrev Reg.EVQ_TAIL (d : Nat) : Nat := 0x000110 + 0x20 * d

/-- A queue size from its code: 2^(code + 4), codes above 12 acting as 12. -/
def sizeOfCode (c : Nat) : Nat := 2 ^ (min c 12 + 4)

/-- The second word of an event record (R646). -/
def eventW1 (blk off unit seq : Nat) : Nat := blk * 2 ^ 56 + unit % 2 ^ 16 * 2 ^ 32 + off % 2 ^ 16 * 2 ^ 16 + seq % 2 ^ 16

/-- Occupied records of queue d: HEAD − TAIL as wrapping numbers. -/
def State.evqCount (s : State) (d : Nat) : Nat :=
  (s.fld (Reg.EVQ_HEAD d) Fd.GEN_EVQ_HEAD_0_HEAD + 2 ^ 32 - s.fld (Reg.EVQ_TAIL d) Fd.GEN_EVQ_TAIL_0_TAIL) % 2 ^ 32

/-- Writes one record into queue d, which has room (R645, R646). -/
def State.evqPush (s : State) (d blk off unit : Nat) : State :=
  let head := s.fld (Reg.EVQ_HEAD d) Fd.GEN_EVQ_HEAD_0_HEAD
  let size := sizeOfCode (s.fld (Reg.EVQ_CFG d) Fd.GEN_EVQ_CFG_0_SIZE_CODE)
  let base := s.fld (Reg.EVQ_CFG d) Fd.GEN_EVQ_CFG_0_BASE * 16
  let s1 := s.writeBytes (base + 16 * (head % size)) (leBytes 8 s.now ++ leBytes 8 (eventW1 blk off unit head))
  let s2 := s1.setFld (Reg.EVQ_HEAD d) Fd.GEN_EVQ_HEAD_0_HEAD (head + 1)
  if s.evqCount d = 0 then s2.emit (.evq d (s.fld (Reg.EVQ_TAIL d) Fd.GEN_EVQ_TAIL_0_VEC)) else s2

/-- Has queue d room for a record? -/
def State.evqRoom (s : State) (d : Nat) : Bool :=
  s.bit (Reg.EVQ_CFG d) Fd.GEN_EVQ_CFG_0_EN && s.evqCount d != sizeOfCode (s.fld (Reg.EVQ_CFG d) Fd.GEN_EVQ_CFG_0_SIZE_CODE)

/-- The blocks' events are routed to queue d by GEN_EVT_ROUTE (R648); the SAFE block's always to queues 0 and 2. -/
def State.routed (s : State) (blk d : Nat) : Bool :=
  s.regBit (Reg.GEN_EVT_ROUTE blk) d || (blk == 12 && (d == 0 || d == 2))

/-- UNIT of an event that concerns no unit (R646). -/
def noUnit : Nat := 0xFFFF

/-- Where the next record of queue d goes. -/
def State.evqNext (s : State) (d : Nat) : Nat :=
  s.fld (Reg.EVQ_CFG d) Fd.GEN_EVQ_CFG_0_BASE * 16 +
    16 * (s.fld (Reg.EVQ_HEAD d) Fd.GEN_EVQ_HEAD_0_HEAD % sizeOfCode (s.fld (Reg.EVQ_CFG d) Fd.GEN_EVQ_CFG_0_SIZE_CODE))

/-- Notes the first refusal at a stopped rim after a stop (R31). -/
def State.noteRim (s : State) (d : Nat) : State := { s with sys := { s.sys with rimRaised := d :: s.sys.rimRaised } }

/-- A record for queue d is written or lost; the saturation of the lost-record counter is itself an event of the GEN block
naming d, handled with the fuel left (R645, R648). A record whose channel's rim is stopped is not written, and the refusal is counted and
raised (R31, log 71); R647 keeps the queues where their owners reach them. -/
def State.deliver : Nat → State → Nat → Nat → Nat → Nat → State
  | 0, s, _, _, _, _ => s
  | n + 1, s, d, blk, off, unit =>
    if s.evqRoom d then
      match s.chanStop (s.evqNext d) 16 with
      | some r =>
        let c := s.countOnly Reg.PWR_RIM_REFUSE_CNT
        let s1 := if c.2 then [0, 1, 2].foldl (fun a q => if a.routed 3 q then State.deliver n a q 3 0x0468 noUnit else a) c.1 else c.1
        if s.sys.rimRaised.contains r then s1
        else [0, 1, 2].foldl (fun a q => if a.routed 3 q then State.deliver n a q 3 0x0468 r else a) (s1.noteRim r)
      | none => s.evqPush d blk off unit
    else
      let c := s.fld (Reg.GEN_EVQ_DROP_CNT d) Fd.GEN_EVQ_DROP_CNT_COUNT
      if c = cntMax then s
      else
        let s1 := s.setFld (Reg.GEN_EVQ_DROP_CNT d) Fd.GEN_EVQ_DROP_CNT_COUNT (c + 1)
        if c + 1 = cntMax then
          [0, 1, 2].foldl (fun a q => if a.routed 0 q then State.deliver n a q 0 (0x0300 + 4 * d) d else a)
            (s1.setBit Reg.GEN_SAT d true)
        else s1

/-- "Raises the event": one record into each queue to which the block's events are routed. -/
def State.raise (s : State) (blk off unit : Nat) : State :=
  [0, 1, 2].foldl (fun a q => if a.routed blk q then State.deliver 4 a q blk off unit else a) s

/-- Sets a counter's SAT bit, where it has one. -/
def State.setSat (s : State) (k : Nat) : State :=
  match satOf k with
  | some b => s.setBit b.word b.bit true
  | none => s

/-- One count of a saturating 32-bit event counter: at its maximum it stops, sets its SAT bit and raises its event once, with
the counter's offset and the unit it belongs to (R484, R646). -/
def State.bump (s : State) (k : Nat) (unit : Nat) : State :=
  let f : Fld := ⟨31, 0⟩
  let c := s.fld k f
  if c = cntMax then s
  else
    let s1 := s.setFld k f (c + 1)
    if c + 1 = cntMax then (s1.setSat k).raise (k / 0x10000 % 0x100) (k % 0x10000) unit else s1

/-- Counts several times. -/
def State.bumpN : Nat → State → Nat → Nat → State
  | 0, s, _, _ => s
  | n + 1, s, k, unit => State.bumpN n (s.bump k unit) k unit

/-- A saturating field of a register (R484): it stops at its maximum and raises nothing. -/
def State.bumpFld (s : State) (k : Nat) (f : Fld) : State :=
  if s.fld k f + 1 < 2 ^ f.width then s.setFld k f (s.fld k f + 1) else s

/-! ### Refusals (R98) -/

/-- An access that is refused: not performed, counted, answered with an error. -/
def State.refuse (s : State) : State :=
  (s.bump Reg.MEM_REFUSE_CNT noUnit).answer .refused

/-- Does an origin act through an application core or a safety pair, which take a precise access fault where another agent receives an
error response (R98, R106)? The software of the hypervisor, of the safety pairs and of an instance's guest runs on those cores. -/
def takesFaults : Origin → Bool
  | .hypervisor => true
  | .safety => true
  | .vi _ => true
  | _ => false

/-- The answer to an origin whose access is refused. -/
def refusal (o : Origin) : Resp := if takesFaults o then .accessFault else .refused

/-- An access by an origin is refused (R98). -/
def State.refuseTo (s : State) (o : Origin) : State := (s.bump Reg.MEM_REFUSE_CNT noUnit).answer (refusal o)

/-- A request reaches the crossing of a stopped rim: refused with an error to its issuer, counted, RIM_STOPPED at the first refusal after
each stop (R31). -/
def State.rimRefuse (s : State) (d : Nat) : State :=
  let s1 := (s.bump Reg.PWR_RIM_REFUSE_CNT noUnit).answer .refused
  if s1.sys.rimRaised.contains d then s1 else (s1.noteRim d).raise 3 0x0468 d

/-- An access by an engine to n bytes of on-package memory: done if the engine reaches them and their channels' rims run, otherwise
refused (R31, R98). -/
def State.dmaGate (s : State) (a n : Nat) (f : State → State) : State :=
  if !s.dmaOk a n then s.refuse
  else match s.chanStop a n with
    | some c => s.rimRefuse c
    | none => f s

/-- Does an engine's read of n bytes at a place find poison, or is it refused? -/
def State.readStops (s : State) (p n : Nat) : Bool := onPackage p && (!s.dmaOk p n || (s.chanStop p n).isSome)
def State.readFails (s : State) (p n : Nat) : Bool := s.isPoisoned p n || s.readStops p n

/-- Is a range inside the reserved region (R97)? -/
def inReserved (a n : Nat) : Bool := decide (reservedBase ≤ a) && decide (a + n ≤ dramEnd)

/-- Does a read of n bytes by the safety plane find poison, or is it refused? It reads only the reserved region (R97, R415). -/
def State.safeFails (s : State) (a n : Nat) : Bool := s.isPoisoned a n || !inReserved a n || (s.chanStop a n).isSome

/-- Counts the refusal of a read by the safety plane. -/
def State.noteSafe (s : State) (a n : Nat) : State :=
  if !inReserved a n then s.refuse
  else match s.chanStop a n with
    | some c => s.rimRefuse c
    | none => s

/-- Counts the refusal of an engine's read, and those of several. -/
def State.noteRead (s : State) (p n : Nat) : State := if onPackage p then s.dmaGate p n id else s
def State.noteReads (s : State) (l : List (Nat × Nat)) : State := l.foldl (fun a r => a.noteRead r.1 r.2) s

/-- The saturating 32-bit slip counter of a rim domain. DESIGN CHOICE (log 65): R30 puts it into the block that owns the interface, and
no register table shows one but PIPE_SLIP; the others count here. -/
def State.countSlip (s : State) (d : Nat) : State :=
  let n := Sparse.get (fun _ => 0) d s.sys.slips
  { s with sys := { s.sys with slips := Sparse.put (fun _ => 0) d (min cntMax (n + 1)) s.sys.slips } }

/-! ### The audit log (R525 to R527) -/

/-- Entry kinds of R526. -/
inductive AuditKind where
  | register
  | power
  | keySlot
  | tenant
  | journaled
  | debug
  | firmware
  | suspension
  | boot
  | lost
  | exported
  deriving DecidableEq, Repr

/-- KIND codes of R526. -/
def AuditKind.code : AuditKind → Nat
  | .register => 1
  | .power => 2
  | .keySlot => 3
  | .tenant => 4
  | .journaled => 5
  | .debug => 6
  | .firmware => 7
  | .suspension => 8
  | .boot => 9
  | .lost => 10
  | .exported => 11

/-- Entries that the ring holds and the occupancy at which AUDIT_NEAR is raised (R526, R527). -/
def auditSize : Nat := 524288
def auditNear : Nat := 471860

/-- AUDIT_HEAD − AUDIT_TAIL. -/
def State.auditOcc (s : State) : Nat := (s.reg Reg.AUDIT_HEAD).toNat - (s.reg Reg.AUDIT_TAIL).toNat

/-- Is the ring full? -/
def State.auditFull (s : State) : Bool := decide (auditSize ≤ s.auditOcc)

/-- Selvage, the safety pairs and the device itself proceed when the ring is full (R527). -/
def auditFree : Origin → Bool
  | .device => true
  | .selvage => true
  | .safety => true
  | _ => false

/-- The status fields that follow from the sequence values (R533). -/
def State.auditRefresh (s : State) : State :=
  let occ := s.auditOcc
  ((s.setFld Reg.AUDIT_STATUS Fd.AUDIT_STATUS_FULL (decide (auditSize ≤ occ)).toNat).setFld Reg.AUDIT_STATUS
    Fd.AUDIT_STATUS_NEAR (decide (auditNear ≤ occ)).toNat).setFld Reg.AUDIT_STATUS Fd.AUDIT_STATUS_OCCUPANCY occ

/-- Bytes 0 to 63 of an entry (R526). -/
def auditBody (seq time : Nat) (o : Origin) (kind : AuditKind) (result flags target old new : Nat) : List Byte :=
  leBytes 8 seq ++ leBytes 8 time ++ leBytes 1 o.code ++ leBytes 1 kind.code ++ leBytes 1 result ++ leBytes 1 flags ++
    leBytes 4 0 ++ leBytes 8 target ++ leBytes 8 old ++ leBytes 8 new ++ leBytes 16 0

/-- The CHAIN of the newest entry. -/
def State.setChain (s : State) (c : BitVec 512) : State := { s with audit := { s.audit with chain := c } }

/-- Raises AUDIT_NEAR, once for each crossing (R527). -/
def State.raiseNear (s : State) : State := { s with audit := { s.audit with near := true } }.raise 15 0x0008 noUnit

/-- Appends one entry to a ring that has room: bytes, chain, HEAD, the NEAR event once for each crossing (R526, R527). -/
def State.auditPut (s : State) (o : Origin) (kind : AuditKind) (result flags target old new : Nat) : State :=
  let seq := (s.reg Reg.AUDIT_HEAD).toNat
  let body := auditBody seq s.now o kind result flags target old new
  let chain := Config.sha512 (body ++ beBytes 64 s.audit.chain.toNat)
  let s1 := (s.writeBytes (reservedBase + 128 * (seq % auditSize)) (body ++ beBytes 64 chain.toNat)).setChain chain
  let s2 := (s1.setReg Reg.AUDIT_HEAD (BitVec.ofNat 64 (seq + 1))).auditRefresh
  if s2.auditOcc < auditNear || s.audit.near then s2 else s2.raiseNear

/-- FLAGS of an entry: bit 0 for a safety origin (R526). -/
def auditFlags : Origin → Nat
  | .safety => 1
  | _ => 0

/-- Audits one act: an entry, or with the ring full a lost entry (Selvage, safety pairs) or a counted refusal (R527). -/
def State.auditAs (s : State) (o : Origin) (kind : AuditKind) (result flags target old new : Nat) : State :=
  if s.auditFull then
    if auditFree o then
      let s1 := s.bump Reg.AUDIT_LOST_CNT noUnit
      { s1 with audit := { s1.audit with lost := s1.audit.lost + 1 } }
    else s.bump Reg.AUDIT_REFUSED_CNT noUnit
  else s.auditPut o kind result flags target old new

/-- Audits one act with the origin's own flags. -/
def State.auditLog (s : State) (o : Origin) (kind : AuditKind) (result target old new : Nat) : State :=
  s.auditAs o kind result (auditFlags o) target old new

/-- May an audited change by this origin take effect? Not while the ring is full, unless R527 exempts the origin. -/
def State.auditOpen (s : State) (o : Origin) : Bool := !s.auditFull || auditFree o

/-- The address of a set-up register from its key (R636). -/
def setupAddr (k : Nat) : Nat := 0xF000000000 + k % RegMap.bankSize

/-! ### Record updates by key -/

def State.tack (s : State) (i : Nat) : Tack := Sparse.get (fun _ => {}) i s.tacks
def State.setTack (s : State) (i : Nat) (t : Tack) : State := { s with tacks := Sparse.put (fun _ => {}) i t s.tacks }

def State.core (s : State) (n : Nat) : Core := Sparse.get (fun _ => {}) n s.cores
def State.setCore (s : State) (n : Nat) (c : Core) : State := { s with cores := Sparse.put (fun _ => {}) n c s.cores }
def State.modCore (s : State) (n : Nat) (f : Core → Core) : State := s.setCore n (f (s.core n))

def State.ring (s : State) (n : Nat) : Ring := Sparse.get (fun _ => {}) n s.rings
def State.setRing (s : State) (n : Nat) (r : Ring) : State := { s with rings := Sparse.put (fun _ => {}) n r s.rings }

def State.hotEntry (s : State) (i : Nat) : HotEntry := Sparse.get (fun _ => {}) i s.hot
def State.setHot (s : State) (i : Nat) (e : HotEntry) : State := { s with hot := Sparse.put (fun _ => {}) i e s.hot }

/-- The job with a ring and sequence number, if it has no record yet. -/
def State.job? (s : State) (ring seq : Nat) : Option Job := s.jobs.find? (fun j => j.ring == ring && j.seq == seq)

/-- Replaces a job's record. -/
def State.modJob (s : State) (ring seq : Nat) (f : Job → Job) : State :=
  { s with jobs := updWhere (fun j => j.ring == ring && j.seq == seq) f s.jobs }

/-- Removes a job that has its completion record. -/
def State.dropJob (s : State) (ring seq : Nat) : State :=
  { s with jobs := s.jobs.filter (fun j => !(j.ring == ring && j.seq == seq)) }

/-! ### The gate of reset -/

/-- Outside reset a command has its effect; while the device is in reset no agent acts and every output keeps its state in
reset (R671, R673). -/
def State.whenUp (s : State) (f : State → State) : Host.Outcome State Fault Refusal :=
  .next (if s.sys.up then f s else s)

end Sys2Proof.Machine
end

