-- ==== Sys2Proof/Machine/Access.lean ====
section
/-! DEFINITION. Writes of set-up registers field by field, with locks, freezes, power domains and the audit entry
(R637 to R643, R676, R525). -/

namespace Sys2Proof.Machine

/-- RESULT codes of R640. -/
def resOrigin : Nat := 0xF0
def resLocked : Nat := 0xF1
def resEnabled : Nat := 0xF2
def resWidth : Nat := 0xF3
def resOff : Nat := 0xF4
def resRange : Nat := 0xF5

/-- The register that holds a block's LOCK: its first, but in TIME and ALW (R60, R89, R643). -/
def lockReg (blk : Nat) : Nat := if blk = 1 then Reg.TIME_CTRL else if blk = 2 then Reg.ALW_CTRL else blk * 0x10000

/-- Is a block's LOCK set? PWR, RING and DSP have none (R636, R643). -/
def State.locked (s : State) (blk : Nat) : Bool := blk != 3 && blk != 6 && blk != 11 && s.regBit (lockReg blk) 31

/-- Is a power domain on (R94)? -/
def State.domainOn (s : State) (d : Nat) : Bool := s.regBit (Reg.PWR_DOMAIN_STATE (d / 32)) (d % 32)

/-- Switches a power domain. -/
def State.setDomain (s : State) (d : Nat) (on : Bool) : State := s.setBit (Reg.PWR_DOMAIN_STATE (d / 32)) (d % 32) on

/-- Is the domain of a register's unit off (R642)? -/
def State.unitOff (s : State) (r : RegSpec) (i : Nat) : Bool :=
  match r.dom with
  | none => false
  | some (b, sh) => !s.domainOn (b + i / 2 ^ sh)

/-- Does the EN bit that freezes a register read 1 (R676)? -/
def State.frozen (s : State) (k : Nat) (r : RegSpec) (i : Nat) : Bool :=
  match r.freeze with
  | .never => false
  | .after d b => s.regBit (k + d) b
  | .before d b => s.regBit (k - d) b
  | .grid => s.bit (Reg.FUSE_GRID_CFG i) Fd.FUSE_GRID_CFG_EN
  | .field _ b => s.regBit k b

/-- Is a field one that the freeze of its register leaves writable: the EN bit itself (R676), or a field beside the one frozen (R364)? -/
def exemptEn (r : RegSpec) (f : FieldSpec) : Bool :=
  match r.freeze with
  | .after 0 b => f.fld.hi == b && f.fld.lo == b
  | .field x _ => f.fld.hi != x
  | _ => false

/-- What a write does to one field: the new value, or the code of a value that was not changed (R640, R676). A RO field is
not written in any case. -/
def State.fieldWrite (s : State) (o : Origin) (k : Nat) (r : RegSpec) (i : Nat) (f : FieldSpec) (old new : Word) : Nat × Option Nat :=
  let cur := f.fld.of old
  let want := f.fld.of new
  let hit := match f.acc with
    | .ro => false
    | .w1c => and64 cur want != 0
    | .wo => want != 0
    | _ => want != cur
  if !hit then (cur, none)
  else if !mayWrite o f.writers then (cur, some resOrigin)
  else match f.acc with
    | .w1c => (andNot64 cur want, none)
    | .wo => (0, none)
    | .rwl => if s.locked (k / 0x10000 % 0x100) then (cur, some resLocked)
              else if s.frozen k r i && !exemptEn r f then (cur, some resEnabled) else (want, none)
    | _ => if s.frozen k r i && !exemptEn r f then (cur, some resEnabled) else (want, none)

/-- The word a write leaves in a register, and the RESULT of the write: the first code of R640 that applies, or 0. -/
def State.writtenWord (s : State) (o : Origin) (k : Nat) (r : RegSpec) (i : Nat) (new : Word) : Word × Nat :=
  let old := s.reg k
  r.fields.foldl (fun (w, c) f =>
    let (v, e) := s.fieldWrite o k r i f old new
    (f.fld.put w v, match e with
      | none => c
      | some x => if c = 0 then x else min c x)) (old, 0)

/-- A counter register written with 0 loses its SAT bit (R484). -/
def State.clearSat (s : State) (k : Nat) : State :=
  if s.fld k ⟨31, 0⟩ = 0 then
    match satOf k with
    | some b => s.setBit b.word b.bit false
    | none => s
  else s

/-- Stores the word of a write and audits it with the values before and after (R525, R640). -/
def State.commitWrite (s : State) (o : Origin) (k : Nat) (w : Word) (result : Nat) : State :=
  let old := s.reg k
  (s.setReg k w).auditLog o .register result (setupAddr k) old.toNat w.toNat

/-- A write that changes nothing but is audited with its RESULT. -/
def State.auditRefusal (s : State) (o : Origin) (k result : Nat) : State :=
  s.auditLog o .register result (setupAddr k) (s.reg k).toNat (s.reg k).toNat

/-- The general write of one register: refused while the audit log is full (R527), without effect while its unit's domain is
off (R642), otherwise field by field, a counter written with 0 losing its SAT bit (R484); then `after` acts on the state, given the state before. -/
def State.writeReg (s : State) (o : Origin) (k : Nat) (new : Word) (after : State → State → State) : State :=
  if !s.auditOpen o then s.auditRefusal o k 0
  else
    match RegMap.find (k % RegMap.bankSize) with
    | none => s
    | some (r, i, _) =>
      if s.unitOff r i then s.auditRefusal o k resOff
      else
        let (w, c) := s.writtenWord o k r i new
        after s ((s.commitWrite o k w c).clearSat k)

/-- The general write with nothing to follow. -/
def State.writePlain (s : State) (o : Origin) (k : Nat) (new : Word) : State := s.writeReg o k new (fun _ t => t)

/-- The origins that reach set-up registers with writes (R637); a USB4 host reaches only what its BAR0 view shows (R562). -/
def setupOrigin : Origin → Bool
  | .selvage => true
  | .hypervisor => true
  | .safety => true
  | _ => false

/-- A command register: its key, the fields INDEX (or DOMAIN, ORIGIN, TARGET, INSTANCE) and STATUS, its writers, the STATUS
code of a full audit log where it has one, the kind of its audit entry, and the STATUS code PENDING where it has one, which is
no refusal. -/
structure CmdReg where
  key     : Nat
  index   : Fld
  status  : Fld
  writers : List Writer
  full    : Option Nat
  kind    : AuditKind
  pend    : Option Nat
  deriving DecidableEq, Repr

/-- A command written by an origin: an origin outside the register's writers changes nothing and is audited; with the audit
log full the command is refused (R527); otherwise INDEX takes the written value, the command acts and answers its STATUS,
and the write is audited with that code (R640). `banked` registers act on the origin's own copy. -/
def State.command (s : State) (o : Origin) (c : CmdReg) (idx : Nat) (act : State → State × Nat) : State :=
  if !mayWrite o c.writers then
    if setupOrigin o then s.auditRefusal o c.key resOrigin else s.refuseTo o
  else if !s.auditOpen o then
    let s1 := s.bump Reg.AUDIT_REFUSED_CNT noUnit
    match c.full with
    | some code => s1.setFld c.key c.status code
    | none => s1
  else
    let old := s.reg c.key
    let s1 := s.setFld c.key c.index idx
    let (s2, code) := act s1
    let s3 := s2.setFld c.key c.status code
    s3.auditLog o c.kind (if c.pend = some code then 0 else code) (setupAddr c.key) old.toNat (s3.reg c.key).toNat

/-- A write of a plain register by an origin: refused under R98 where the origin does not reach set-up space (R637). -/
def State.writeBy (s : State) (o : Origin) (k : Nat) (new : Word) (after : State → State → State) : State :=
  if setupOrigin o then s.writeReg o k new after else s.refuseTo o

/-- The EPOCH of a tenant (R502). -/
def State.epoch (s : State) (tenant : Nat) : Nat := Sparse.get (fun _ => 0) tenant s.epochs

/-- The device's own number (R632). -/
def State.ownDev (s : State) : Nat := s.fld Reg.CWY_ID Fd.CWY_ID_DEVICE

/-- A write of a plain register with nothing to follow. -/
def State.writePlainBy (s : State) (o : Origin) (k : Nat) (new : Word) : State := s.writeBy o k new (fun _ t => t)

end Sys2Proof.Machine
end

