-- ==== Sys2Proof/Machine/Allow.lean ====
section
/-! DEFINITION. The allowance controller: charges, queues, quotas, reclaim by pacing, ramps, budgets (R65 to R81). -/

namespace Sys2Proof.Machine

/-! ### Charges -/

/-- Core-rail charge in mA of an array core's class: 4-bit, INT8, FP16, FP32 vector only, graphics (R67, codes of R200). -/
def classMa : Nat → Nat
  | 0 => 1450
  | 1 => 1300
  | 2 => 1100
  | 3 => 500
  | 4 => 900
  | _ => 0

/-- Retained idle, in mA (R67). -/
def idleMa : Nat := 20

/-- Charges of a traffic level on the core and the DRAM rail, in mA (R68). -/
def levelMa : Nat → Nat × Nat
  | 1 => (23, 55)
  | 2 => (47, 109)
  | 3 => (94, 219)
  | 4 => (188, 438)
  | _ => (0, 0)

/-- Class and traffic charge of one core of a pattern (R71, R213). -/
def coreCharge (cls level : Nat) : Nat × Nat := (classMa cls + (levelMa level).1, (levelMa level).2)

/-- Charges of the other units on the core and the DRAM rail, in mA (R69, R284, R309, R117, R440). What
a domain holds from the moment it is switched on is the charge of the domain (R67, R510, R604). -/
def unitCharge : Holder → Nat × Nat
  | .core _ => (0, 0)
  | .appCore _ => (1300, 100)
  | .appCluster _ => (600, 0)
  | .safetyPair _ => (1600, 50)
  | .selvage => (800, 10)
  | .channel _ => (350, 20)
  | .fusion => (2400, 200)
  | .pipe _ => (1000, 30)
  | .decoder => (8000, 150)
  | .encoder => (8000, 150)
  | .causewayPort _ => (0, 22)
  | .bridge => (0, 13)
  | .ufs => (0, 3)
  | .refresh => (0, 3000)
  | .jobEngine => (400, 10)
  | .sealChecker _ => (300, 109)
  | .loader _ => (300, 109)
  | .copyBack _ => (0, 438)
  | .comparator _ => (300, 109)
  | .spare _ => (1323, 55)
  | .domain d =>
    if 47 ≤ d ∧ d ≤ 198 then (20, 0) else if d = 213 then (2600, 60) else if d = 218 then (1200, 40)
    else if 219 ≤ d ∧ d ≤ 222 then (200, 10) else (0, 0)

/-- The retained-idle charge in mA inside a unit's charge, which the unit holds as a standing charge while it is powered (R67, R69,
R70). -/
def unitIdle : Holder → Nat
  | .core _ => idleMa
  | .spare _ => idleMa
  | .appCore _ => idleMa
  | _ => 0

/-- A charge at pacing level l of P0 to P7: idle + (full − idle) × (8 − l) / 8, rounded up to the next mA (R74). -/
def pacedMa (full idle l : Nat) : Nat := idle + ceilDiv ((full - idle) * (8 - l)) 8

/-! ### Charges held (R67, R78, R87) -/

/-- The pacing level in force for a grant: latency-critical and standing grants are never paced (R70, R75, R81). -/
def Alw.levelOf (a : Alw) (g : Grant) : Nat :=
  if g.standing || g.lifted then 0
  else match g.req.cls with
    | .lc => 0
    | .test => a.paceTest
    | .be => a.paceBe

/-- Core-rail and DRAM-rail charge of a grant at a level. -/
def Grant.coreAt (g : Grant) (l : Nat) : Nat := pacedMa g.req.coreMa (min g.req.idleMa g.req.coreMa) l
def Grant.dramAt (g : Grant) (l : Nat) : Nat := pacedMa g.req.dramMa 0 l

/-- What a grant adds on the core rail to the retained-idle charge that its powered unit holds already (R70, R79; log 82). -/
def Grant.coreNet (g : Grant) (l : Nat) : Nat := g.coreAt l - g.req.idleMa

/-- The grant of a holder. -/
def Alw.grantOf (a : Alw) (h : Holder) : Option Grant := a.grants.find? (fun g => g.req.holder == h)

/-- What granting a request adds on either rail: its whole charge, or for a holder with a grant the difference (R71, R314). -/
def Alw.rise (a : Alw) (r : AlwReq) : Nat × Nat :=
  match a.grantOf r.holder with
  | none => (r.coreMa, r.dramMa)
  | some g => (r.coreMa - g.coreAt (a.levelOf g), r.dramMa - g.dramAt (a.levelOf g))

/-- The charge of the ramp in progress, counted whole from its start. -/
def Alw.rampMa (a : Alw) : Nat × Nat :=
  match a.ramp.bind (·.req) with
  | some r => a.rise r
  | none => (0, 0)

/-- The charges of all grants and of the ramp in, apart from those a ramp is still taking down. -/
def Alw.coreSum (a : Alw) : Nat := (a.grants.map (fun g => g.coreNet (a.levelOf g))).sum + a.rampMa.1
def Alw.dramSum (a : Alw) : Nat := (a.grants.map (fun g => g.dramAt (a.levelOf g))).sum + a.rampMa.2

/-- The limit of R78 in mA/ns, and the device time that a change of so many mA takes, in units of 2^-32 ns. -/
def rampRate : Nat := 40
def rampTime (ma : Nat) : Nat := ceilDiv (ma * 2 ^ 32) rampRate

/-- What ramps have still to take down. -/
def State.fallLeft (s : State) : Nat := s.alw.fall - (s.time.toNat - s.alw.fallFrom) * rampRate / 2 ^ 32

/-- The charges held on either rail: ALW_HELD (R78, R87). -/
def State.heldCore (s : State) : Nat := s.alw.coreSum + s.fallLeft
def State.heldDram (s : State) : Nat := s.alw.dramSum

/-- A charge begins to ramp out on the core rail; the DRAM rail has no ramp (R78). -/
def State.addFall (s : State) (ma : Nat) : State :=
  { s with alw := { s.alw with fall := s.fallLeft + ma, fallFrom := s.time.toNat } }

/-! ### Budgets and quotas -/

/-- The budgets in mA (R65, R85, R86). -/
def State.budgetCore (s : State) : Nat := 250 * s.fld Reg.ALW_BUDGET Fd.ALW_BUDGET_CORE_QA
def State.budgetDram (s : State) : Nat := 250 * s.fld Reg.ALW_DRAM_BUDGET Fd.ALW_DRAM_BUDGET_DRAM_QA

/-- Do the holdings exceed a budget (OVER, R81)? -/
def State.alwOver (s : State) : Bool :=
  decide (s.budgetCore < s.heldCore) || decide (s.budgetDram < s.heldDram)

/-- The charges that an instance's grants, and its ramp in, hold. -/
def Alw.instRamp (a : Alw) (v : Nat) : Nat × Nat :=
  match a.ramp.bind (·.req) with
  | some r => if r.vi = some v then a.rise r else (0, 0)
  | none => (0, 0)
def Alw.instCore (a : Alw) (v : Nat) : Nat :=
  ((a.grants.filter (fun g => g.req.vi == some v)).map (fun g => g.coreAt (a.levelOf g))).sum + (a.instRamp v).1
def Alw.instDram (a : Alw) (v : Nat) : Nat :=
  ((a.grants.filter (fun g => g.req.vi == some v)).map (fun g => g.dramAt (a.levelOf g))).sum + (a.instRamp v).2

/-- Would a request take its instance above its quota (R73, R538)? -/
def State.overQuota (s : State) (r : AlwReq) : Bool :=
  match r.vi with
  | none => false
  | some v =>
    decide (250 * s.fld (Reg.VI_CFG v) Fd.VI_CFG_CORE_QA < s.alw.instCore v + (s.alw.rise r).1) ||
    decide (250 * s.fld (Reg.VI_CFG v) Fd.VI_CFG_DRAM_QA < s.alw.instDram v + (s.alw.rise r).2)

/-- The requests that do not stand aside, in arrival order: one over its quota stands aside, and with it the later requests of
its instance in its class (R73). -/
def State.active (s : State) : List AlwReq → List (Option Nat × Cls) → List AlwReq
  | [], _ => []
  | r :: rs, aside =>
    if r.vi.isSome && (aside.contains (r.vi, r.cls) || s.overQuota r) then State.active s rs ((r.vi, r.cls) :: aside)
    else r :: State.active s rs aside

/-- The requests that wait for want of allowance, in arrival order. -/
def State.alwActive (s : State) : List AlwReq := s.active s.alw.waiting []

/-- The head of the service order of R72: latency-critical before test before best-effort. -/
def State.alwHead (s : State) : Option AlwReq :=
  let l := s.alwActive
  match l.find? (fun r => r.cls == .lc) with
  | some r => some r
  | none =>
    match l.find? (fun r => r.cls == .test) with
    | some r => some r
    | none => l.head?

/-- Does a request fit in the free allowance of both rails? While OVER is set nothing does (R81). -/
def State.alwFits (s : State) (r : AlwReq) : Bool :=
  decide (s.heldCore + (s.alw.rise r).1 ≤ s.budgetCore) && decide (s.heldDram + (s.alw.rise r).2 ≤ s.budgetDram) && !s.alwOver

/-! ### Pacing -/

/-- Moves the common pacing levels; what the core rail gives up is taken down by a ramp (R74, R78). -/
def State.pace (s : State) (be test : Nat) : State :=
  let a := { s.alw with paceBe := be, paceTest := test }
  { s with alw := a }.addFall (s.alw.coreSum - a.coreSum)

/-- The fastest level, from l upward, at which best-effort holders free enough on both rails; 8 if none does. -/
def State.levelFor (s : State) (needCore needDram : Nat) : Nat → Nat → Nat
  | 0, _ => 8
  | n + 1, l =>
    let a := { s.alw with paceBe := l }
    if a.coreSum + needCore ≤ s.budgetCore ∧ a.dramSum + needDram ≤ s.budgetDram then l else State.levelFor s needCore needDram n (l + 1)

/-- The requests for which allowance is reclaimed: the waiting latency-critical ones, with none of them the waiting test ones. -/
def State.reclaimers (s : State) : List AlwReq :=
  let lcs := s.alwActive.filter (fun r => r.cls == .lc)
  if lcs.isEmpty then s.alwActive.filter (fun r => r.cls == .test) else lcs

/-- The level at which best-effort holders free enough for all of them at once (R75). -/
def State.reclaimLevel (s : State) : Nat :=
  let l := s.reclaimers
  s.levelFor ((l.map (fun r => (s.alw.rise r).1)).sum) ((l.map (fun r => (s.alw.rise r).2)).sum) (8 - s.alw.paceBe) s.alw.paceBe

/-- Reclaim for the waiting latency-critical requests, or with none of them for the waiting test requests: a choice over all of them,
only ever towards slower levels (R75). -/
def State.reclaim (s : State) : State :=
  if s.reclaimers.isEmpty then s
  else if s.reclaimLevel ≤ 7 then s.pace s.reclaimLevel s.alw.paceTest
  else (s.pace 7 s.alw.paceTest).bump Reg.ALW_SHORT_CNT noUnit

/-- A choice made again when room changed and no request arrived: one that finds nothing new to pace changes and counts nothing. -/
def State.reclaimMore (s : State) : State := if s.alw.paceBe < 7 then s.reclaim else s

/-- Pacing under a lowered budget: best-effort holders first, after them test-class holders, until the holdings fit (R81). -/
def State.paceUnder (s : State) : State :=
  let b := s.levelFor 0 0 (8 - s.alw.paceBe) s.alw.paceBe
  if b ≤ 7 then s.pace b s.alw.paceTest
  else
    let fits := fun t => decide (({ s.alw with paceBe := 7, paceTest := t }).coreSum ≤ s.budgetCore ∧
      ({ s.alw with paceBe := 7, paceTest := t }).dramSum ≤ s.budgetDram)
    match ([0, 1, 2, 3, 4, 5, 6, 7].filter (fun t => decide (s.alw.paceTest ≤ t))).find? fits with
    | some t => s.pace 7 t
    | none => s.pace 7 7

/-- The controller with every paced holder one level faster. -/
def Alw.faster (a : Alw) : Alw := { a with paceBe := a.paceBe - 1, paceTest := a.paceTest - 1 }

/-- One level of restoration when nothing waits and no ramp in runs; it stops where the next level would not fit (R76). Its rise is a
ramp in of its own (R78). -/
def State.restorePace (s : State) : State :=
  let a := s.alw.faster
  if s.alw.waiting.isEmpty && s.alw.ramp.isNone && (s.alw.paceBe != 0 || s.alw.paceTest != 0) &&
      decide (a.coreSum + s.fallLeft ≤ s.budgetCore) && decide (a.dramSum ≤ s.budgetDram) then
    { s with alw := { a with ramp := some ⟨none, s.time.toNat + rampTime (a.coreSum - s.alw.coreSum)⟩ } }
  else s

/-! ### Requests, grants, releases -/

/-- Counts a grant that waited, and its waiting time (R91, R92). -/
def State.countWait (s : State) (r : AlwReq) : State :=
  let i := r.cls.index
  let s1 := s.bump (Reg.ALW_WAIT_CNT i) noUnit
  s1.setReg (Reg.ALW_WAIT_NS i) (s1.reg (Reg.ALW_WAIT_NS i) + BitVec.ofNat 64 (s.now - r.made))

/-- What a grant list becomes when a request is held: a new grant, a grant whose charge changed, or one whose pacing is lifted. -/
def holdIn (gs : List Grant) (r : AlwReq) : List Grant :=
  if r.lift then updWhere (fun g => g.req.holder == r.holder) (fun g => { g with lifted := true }) gs
  else if gs.any (fun g => g.req.holder == r.holder) then
    updWhere (fun g => g.req.holder == r.holder) (fun g => { g with req := r }) gs
  else gs ++ [{ req := r }]

/-- A request's charge is held: it has left its queue, and what a holder's old charge exceeds the new one by ramps out (R71). -/
def State.takeHold (s : State) (r : AlwReq) : State :=
  let a := { s.alw with waiting := s.alw.waiting.erase r, grants := holdIn s.alw.grants r }
  { s with alw := a }.addFall (s.alw.coreSum - a.coreSum)

/-- A request leaves its queue: its charge starts to ramp in, or with nothing to add on the core rail is held at once (R72, R78). -/
def State.startGrant (s : State) (r : AlwReq) : State :=
  if (s.alw.rise r).1 = 0 then s.takeHold r
  else { s with alw := { s.alw with
    waiting := s.alw.waiting.erase r, ramp := some ⟨some r, s.time.toNat + rampTime (s.alw.rise r).1⟩ } }

/-- May a request be granted now: it fits, and no other charge ramps in on the core rail? -/
def State.mayGrant (s : State) (r : AlwReq) : Bool := (s.alw.ramp.isNone || (s.alw.rise r).1 == 0) && s.alwFits r

/-- Does a request change a grant only downwards: a fall in class, for which nothing waits (R71)? -/
def Alw.onlyFalls (a : Alw) (r : AlwReq) : Bool := (a.grantOf r.holder).isSome && a.rise r == (0, 0)

/-- The controller with a request in its queue. -/
def State.queued (s : State) (r : AlwReq) : State := { s with alw := { s.alw with waiting := s.alw.waiting ++ [r] } }

/-- Does a holder hold a grant? -/
def State.holdsGrant (s : State) (h : Holder) : Bool := s.alw.grants.any (fun g => g.req.holder == h)

/-- Does a holder wait for a grant, or does its charge ramp in? -/
def State.awaitsGrant (s : State) (h : Holder) : Bool :=
  s.alw.waiting.any (fun r => r.holder == h) || (s.alw.ramp.bind (·.req)).any (fun r => r.holder == h)

/-- A request reaches the controller, which lets a fall in charge through at once; any other joins its queue; if it heads the order and
fits, its charge starts to ramp in at once; otherwise it waits and, where its class may, allowance is reclaimed (R71 to R73, R75). -/
def State.alwRequest (s : State) (r : AlwReq) : State :=
  if s.alw.onlyFalls r then s.takeHold r
  else if (s.queued r).alwHead = some r ∧ (s.queued r).mayGrant r then (s.queued r).startGrant r
  else if r.cls = .be then s.queued r
  else (s.queued r).reclaim

/-- Does the controller hold a request's charge after it: was it held at once? -/
def State.heldAtOnce (s : State) (r : AlwReq) : Bool :=
  s.alw.grants.any (fun g => g.req == r || (r.lift && g.lifted && g.req.holder == r.holder))

/-- The next waiting grant, if one may start: a grant that waited is counted (R72, R91). -/
def State.alwServe (s : State) : State :=
  match s.alwHead with
  | none => s
  | some r => if s.mayGrant r then (if r.made = s.now then s.startGrant r else (s.startGrant r).countWait r) else s.reclaimMore

/-- Takes grants away, and the ramp in of one that is not held yet: their core-rail charges ramp out (R78), the DRAM rail is free at
once. -/
def State.dropGrants (s : State) (p : Grant → Bool) : State :=
  let a := { s.alw with
    grants := s.alw.grants.filter (fun g => !p g)
    ramp := if (s.alw.ramp.bind (·.req)).any (fun r => p { req := r }) then none else s.alw.ramp }
  { s with alw := a }.addFall (s.alw.coreSum - a.coreSum)

/-- Withdraws waiting requests. -/
def State.dropRequests (s : State) (p : AlwReq → Bool) : State :=
  { s with alw := { s.alw with waiting := s.alw.waiting.filter (fun r => !p r) } }

/-- A unit gives up its grant, its waiting request and its ramp in. -/
def State.alwDrop (s : State) (h : Holder) : State :=
  (s.dropGrants (fun g => !g.standing && g.req.holder == h)).dropRequests (fun r => r.holder == h)

/-- A standing charge, held from power-up and never paced or reclaimed (R70). -/
def standingGrant (h : Holder) : Grant :=
  { req := { holder := h, cls := .lc, vi := none, coreMa := (unitCharge h).1, dramMa := (unitCharge h).2, idleMa := 0, gen := 0, made := 0 }
    standing := true }

/-- The request of a unit for its charge of R69. -/
def State.unitReq (s : State) (h : Holder) (cls : Cls) (vi : Option Nat) (gen : Nat) : AlwReq :=
  { holder := h, cls := cls, vi := vi, coreMa := (unitCharge h).1, dramMa := (unitCharge h).2, idleMa := unitIdle h, gen := gen, made := s.now }

/-- The request for a domain's retained-idle charge (R83), at latency-critical rank (R510, R604; for the other domains log 61). -/
def State.domainReq (s : State) (d : Nat) : AlwReq := s.unitReq (.domain d) .lc none 0

/-- Power is applied to a domain at power-up, with its retained-idle charges as standing charges (R70). -/
def State.domainUp (s : State) (d : Nat) : State :=
  if s.domainOn d then s
  else { s.setDomain d true with alw := { s.alw with grants := s.alw.grants ++ [standingGrant (.domain d)] } }

/-- Power is removed from a domain, and its standing charges are released (R83, R78). -/
def State.domainDown (s : State) (d : Nat) : State :=
  (s.setDomain d false).dropGrants (fun g => g.req.holder == .domain d)

end Sys2Proof.Machine
end

