-- ==== Sys2Proof/Machine/Bridge.lean ====
section
/-! DEFINITION. The host bridge's shared operations: window translation, posted writes, held reads, messages, the error
queue (R562 to R579). -/

namespace Sys2Proof.Machine

/-- The mapping entry of a window granule of 64 MiB (R564). -/
def State.mapEntry (s : State) (i : Nat) : MapEntry := Sparse.get (fun _ => {}) i s.bridge.map

/-- Granule and offset of a window address. -/
def granuleOf (a : Nat) : Nat := (a - 0x8000000000) / 2 ^ 26

/-- May a function act: the physical function always, virtual function v while its bit of UBR_VF_EN is set (R562)? -/
def State.functionOn (s : State) (fn : Nat) : Bool := fn == 0 || s.regBit Reg.UBR_VF_EN (fn - 1)

/-- Is the link up? -/
def State.linkUp (s : State) : Bool := s.bit Reg.UBR_STATUS Fd.UBR_STATUS_LINK_UP

/-- Do the rim clocks of the USB4 port run (R31, R650)? -/
def State.usbRims (s : State) : Bool := s.rimOn 536 && s.rimOn 537

/-- Is an access to a window address let through (R31, R564, R568)? -/
def State.windowOpen (s : State) (a : Nat) : Bool :=
  let e := s.mapEntry (granuleOf a)
  inHostWindow a && e.en && s.functionOn e.func && s.linkUp && s.bridge.masters.contains e.func && s.domainOn 212 && s.usbRims

/-- An access to the window is refused: at the crossing of a stopped rim under R31, otherwise under R98. -/
def State.windowRefuse (s : State) : State :=
  if s.linkUp && !s.usbRims then s.rimRefuse (if s.rimOn 536 then 537 else 536) else s.refuse

/-- The host bus address of a window address. -/
def State.hostAddr (s : State) (a : Nat) : Nat := (s.mapEntry (granuleOf a)).host * 2 ^ 26 + (a - 0x8000000000) % 2 ^ 26

/-- Queues an error record; a record that finds 256 queued is lost and counted (R579). -/
def State.bridgeError (s : State) (kind fn addr origin count : Nat) : State :=
  if s.bridge.errq.length < 256 then
    { s with bridge := { s.bridge with errq := s.bridge.errq ++
        [⟨2 ^ 63 + kind * 2 ^ 59 + fn * 2 ^ 52 + addr % 2 ^ 48, s.now, origin * 2 ^ 56 + count % 2 ^ 32⟩] } }
  else s.bump Reg.UBR_LOG_DROP_CNT noUnit

/-- The events of the bridge: BLOCK 17, OFFSET 0x0008 (R646). -/
def State.bridgeEvent (s : State) (unit : Nat) : State := s.raise 17 0x0008 unit

/-- The 4 KiB pages of the window that a range touches (R565). -/
def pagesOf (a len : Nat) : List Nat :=
  let first := (a - 0x8000000000) / 4096
  (List.range ((a - 0x8000000000 + max 1 len - 1) / 4096 + 1 - first)).map (fun i => first + i)

/-- One prefetched page is discarded: counted, and logged in a SIDE granule (R574, R575). -/
def State.discardPage (s : State) (p : PfPage) : State :=
  let addr := 0x8000000000 + 4096 * p.page
  let e := s.mapEntry (granuleOf addr)
  let s1 := { s with bridge := { s.bridge with fetched := s.bridge.fetched.erase p } }.bump Reg.UBR_PF_DISCARD_CNT noUnit
  if e.side then s1.bridgeError 5 e.func addr p.issuer 1 else s1

/-- Discards the prefetched pages that satisfy a test. -/
def State.discardPages (s : State) (t : PfPage → Bool) : State := (s.bridge.fetched.filter t).foldl State.discardPage s

/-- Discards the prefetched pages of a granule (R574). -/
def State.discardGranule (s : State) (i : Nat) : State := s.discardPages (fun p => p.page / 16384 == i)

/-- A posted write inside a granule; an access that is not let through is refused and counted (R564, R568, R569, R574). -/
def State.bridgePost (s : State) (a : Nat) (bs : List Byte) : State :=
  if s.windowOpen a then
    let e := s.mapEntry (granuleOf a)
    let s1 := s.discardPages (fun p => (pagesOf a bs.length).contains p.page)
    { s1 with bridge := { s1.bridge with posted := s1.bridge.posted ++
        [⟨e.func, a, s.hostAddr a, bs, e.data, e.owner, s.epoch e.owner, e.metaBase⟩] } }
  else s.windowRefuse

/-- A write to the window, granule by granule. -/
def State.bridgeWrite (s : State) (a : Nat) (bs : List Byte) : State :=
  (List.range (granuleOf (a + max 1 bs.length - 1) + 1 - granuleOf a)).foldl (fun t i =>
    let from' := max a (0x8000000000 + 2 ^ 26 * (granuleOf a + i))
    let upto := 0x8000000000 + 2 ^ 26 * (granuleOf a + i + 1)
    t.bridgePost from' ((bs.drop (from' - a)).take (upto - from'))) s

/-- The metadata of a page that a sealed write goes to: the write counter is incremented, the tag covers the page under the IV of page index
and counter, with global address, origin and EPOCH as additional data; with the key retired since it is poisoned (R509, R517). The counter
that the page had before its first write is host memory's, a free value. -/
def State.sealPage (p : Posted) (s : State) (page : Nat) : State :=
  let known := Sparse.get (fun _ => 0) page s.bridge.counters
  let count := ((if known = 0 then Config.freeNat s.free else known - 1) + 1) % 2 ^ 64
  let index := page % 16384
  let gone := !((Sparse.get (fun _ => ({} : Tenant)) p.owner s.trust.tenants).state == 1 && s.epoch p.owner == p.epoch)
  let tag := Config.pageTag (Config.deriveKey 1 p.owner p.epoch) (index * 2 ^ 64 + count)
    [s.ownDev * 2 ^ 48 + 0x8000000000 + 4096 * page, p.owner, p.epoch] s.free
  { s with free := s.free + 1, bridge := { s.bridge with counters := Sparse.put (fun _ => 0) page (count + 1) s.bridge.counters } }.emit
    (.hostMeta p.fn (4096 * p.metaBase + 32 * index) (leBytes 16 tag.toNat ++ leBytes 8 count ++ leBytes 1 gone.toNat ++ List.replicate 7 0))

/-- The bridge sends one posted write, in the order in which the writes were issued (R569), with the metadata of the pages of a sealed one
(R508). -/
def State.drainPosted (s : State) : State :=
  match s.bridge.posted with
  | [] => s
  | p :: l =>
    let s1 := { s with bridge := { s.bridge with posted := l } }.emit (.hostWrite p.fn p.host p.bytes p.isSealed)
    if p.isSealed then (pagesOf p.addr p.bytes.length).foldl (State.sealPage p) s1 else s1

/-- A write by one of the device's engines: on-package memory that it reaches, the host memory window as a posted write, anything
else refused under R31, R97, R98 and R521. -/
def State.store (s : State) (a : Nat) (bs : List Byte) : State :=
  if a + bs.length ≤ dramEnd then s.dmaGate a bs.length (fun s => s.writeBytes a bs)
  else if inHostWindow a then s.bridgeWrite a bs
  else s.refuse

/-- The first of the 512 tags that no held read uses. -/
def State.freeTag (s : State) : Option Nat :=
  (List.range 512).find? (fun t => !s.bridge.held.any (fun h => h.tag == t))

/-- The generation of a tag. -/
def State.tagGen (s : State) (t : Nat) : Nat := Sparse.get (fun _ => 0) t s.bridge.tagGen

/-- The prefetched pages among those that an issuer reads are handed over; the answer says whether that was all of them (R574). -/
def State.handOver (s : State) (issuer a len : Nat) : State × Bool :=
  let ps := pagesOf a len
  let mine := fun (p : PfPage) => p.issuer == issuer && ps.contains p.page
  let all := ps.all (fun p => s.bridge.fetched.any (fun x => x.issuer == issuer && x.page == p))
  let last := if (s.mapEntry (granuleOf a)).data then Sparse.put (fun _ => 0) issuer (ps.getLastD 0 + 1) s.bridge.lastPage else s.bridge.lastPage
  ({ s with bridge := { s.bridge with
      fetched := s.bridge.fetched.filter (fun p => !mine p)
      lastPage := if all then last else s.bridge.lastPage } }, all)

/-- A read of the window begins: it is held under a lease of 2 ms; beyond 512 it waits for a tag, shown by tag 512 (R566). -/
def State.holdRead (s : State) (origin a len : Nat) (use : ReadFor) : State :=
  let t := s.freeTag.getD 512
  let fn := (s.mapEntry (granuleOf a)).func
  { s with bridge := { s.bridge with held := s.bridge.held ++
      [⟨t, s.tagGen t, fn, origin, a, len, s.now + 2000000, use⟩] } }

/-- A message of a function's vector: sent behind the posted writes, or left pending while the vector is masked; with the link
down it counts as a dropped write (R571, R568). -/
def State.msix (s : State) (fn vec : Nat) : State :=
  let k := 64 * fn + vec
  let v := Sparse.get (fun _ => {}) k s.bridge.msix
  if !s.functionOn fn then s
  else if v.masked then { s with bridge := { s.bridge with msix := Sparse.put (fun _ => {}) k { v with waiting := true } s.bridge.msix } }
  else if s.linkUp then
    { s with bridge := { s.bridge with posted := s.bridge.posted ++ [{ fn := fn, addr := 0, host := v.addr, bytes := leBytes 4 v.data, isSealed := false }] } }
  else s.bump Reg.UBR_WR_DROP_CNT noUnit

/-- The interrupt of a ring of instance v: a message to the instance's interrupt file on the device, an MSI-X message of its
virtual function for a USB4 host (R275, R571). -/
def State.ringInterrupt (s : State) (v vec : Nat) : State :=
  if s.functionOn (v + 1) then s.msix (v + 1) vec else s.emit (.ringIrq v vec)

end Sys2Proof.Machine
end

