-- ==== Sys2Proof/Machine/Knots.lean ====
section
/-! DEFINITION. Knots: ADD and SET with saturation, mirrors, ranges (R277 to R279). -/

namespace Sys2Proof.Machine

/-- The number of knots. -/
def knotCount : Nat := 16384

/-- The value of a knot; 0 at reset. -/
def State.knot (s : State) (k : Nat) : Nat := Sparse.get (fun _ => 0) k s.knots

/-- BASE and COUNT of the knot range of an instance (R278, R289). -/
def State.knotRange (s : State) (v : Nat) : Nat × Nat :=
  (s.fld (Reg.KNOT_RANGE v) Fd.KNOT_RANGE_BASE, s.fld (Reg.KNOT_RANGE v) Fd.KNOT_RANGE_COUNT)

/-- Does an instance's range hold a knot? -/
def State.ownsKnot (s : State) (v k : Nat) : Bool :=
  let r := s.knotRange v
  decide (r.1 ≤ k) && decide (k < r.1 + r.2)

/-- The instance whose range holds a knot, if any. -/
def State.knotOwner (s : State) (k : Nat) : Option Nat := (List.range 64).find? (fun v => s.ownsKnot v k)

/-- The mirror write that follows a change of knot k (R279). -/
def State.mirror (s : State) (k : Nat) : State :=
  match s.knotOwner k with
  | none => s
  | some v =>
    if s.bit (Reg.KNOT_MIRROR v) Fd.KNOT_MIRROR_EN then
      s.store (s.fld (Reg.KNOT_MIRROR v) Fd.KNOT_MIRROR_MIRROR_BASE * 8 + 8 * (k - (s.knotRange v).1)) (leBytes 8 (s.knot k))
    else s

/-- Gives a knot a value; a change is mirrored, an operation that changes nothing writes no mirror (R277, R279). -/
def State.setKnot (s : State) (k v : Nat) : State :=
  if s.knot k = v % 2 ^ 64 then s
  else { s with knots := Sparse.put (fun _ => 0) k (v % 2 ^ 64) s.knots }.mirror k

/-- SET v (R277). -/
def State.knotSet (s : State) (k v : Nat) : State := if k < knotCount then s.setKnot k v else s

/-- The saturation record of a knot: its bit is set, and KNOT_SAT is raised when the bit goes from 0 to 1 (R277, R652). -/
def State.knotSaturated (s : State) (k : Nat) : State :=
  if s.regBit (Reg.KNOT_SAT (k / 64)) (k % 64) then s
  else (s.setBit (Reg.KNOT_SAT (k / 64)) (k % 64) true).raise 7 0x0800 k

/-- ADD v: a sum above 2^64 − 1 saturates there and sets the knot's saturation bit (R277). -/
def State.knotAdd (s : State) (k v : Nat) : State :=
  if k < knotCount then
    if s.knot k + v < 2 ^ 64 then s.setKnot k (s.knot k + v)
    else (s.setKnot k (2 ^ 64 - 1)).knotSaturated k
  else s

end Sys2Proof.Machine
end

