-- ==== Sys2Proof/Machine/Operands.lean ====
section
/-! DEFINITION. The operand forms of the command interface: global addresses (R100), pattern headers (R200, R201), tensor
tables (R263), tensor descriptors (R262), tolerance words (R142, R143), address windows (R537), descriptors (R260). -/

namespace Sys2Proof.Machine

/-! ### Global addresses (R100) -/

/-- The device number of a global address. -/
def devOf (g : Nat) : Nat := bits g 62 48

/-- The key under which the bytes of a global address are held: the local address for the device's own number; an address
above 2^63, apart from every local one, for another device's. -/
def State.place (s : State) (g : Nat) : Nat := if devOf g = s.ownDev then g % 2 ^ 48 else 2 ^ 63 + g % 2 ^ 63

/-- A byte of any memory the device can name: on-package memory, or far memory as last read. -/
def State.peekByte (s : State) (p : Nat) : Byte := if onPackage p then s.readByte p else Sparse.get Memory.blank p s.far

/-- Bytes from a place. -/
def State.peekBytes (s : State) (p : Nat) : Nat → List Byte
  | 0 => []
  | n + 1 => s.peekByte p :: State.peekBytes s (p + 1) n

/-- A little-endian number of n bytes at a global address. -/
def State.peek (s : State) (g n : Nat) : Nat := ofLe (s.peekBytes (s.place g) n)

/-- n 64-bit words at a place. -/
def State.wordsAt (s : State) (p n : Nat) : List Nat := (List.range n).map (fun i => ofLe (s.peekBytes (p + 8 * i) 8))

/-- n consecutive 64-bit words at a global address. -/
def State.peekWords (s : State) (g n : Nat) : List Nat := (List.range n).map (fun i => s.peek (g + 8 * i) 8)

/-- May an engine read n bytes at a global address at all: bit 63 clear, on-package memory that it reaches, the host window or another
device (R97, R100)? -/
def State.reachable (s : State) (g n : Nat) : Bool :=
  let a := g % 2 ^ 48
  decide (g + n ≤ 2 ^ 63) && (devOf g != s.ownDev || (onPackage a && s.dmaOk a n) || (inHostWindow a && inHostWindow (a + n - 1)))

/-! ### Descriptors (R260) -/

/-- Field [hi:lo] of word i of a list of words. -/
def wordBits (ws : List Nat) (i hi lo : Nat) : Nat := bits (ws.getD i 0) hi lo

/-- The fields of a descriptor. -/
def descKind (d : List Nat) : Nat := wordBits d 0 63 60
def descTackHeld (d : List Nat) : Bool := wordBits d 0 59 59 == 1
def descBstitch (d : List Nat) : Bool := wordBits d 0 58 58 == 1
def descOrdered (d : List Nat) : Bool := wordBits d 0 57 57 == 1
def descIrq (d : List Nat) : Bool := wordBits d 0 56 56 == 1
def descQmode (d : List Nat) : Bool := wordBits d 0 55 55 == 1
def descNbind (d : List Nat) : Nat := wordBits d 0 39 32
def descSeq (d : List Nat) : Nat := wordBits d 0 31 0
def descPattern (d : List Nat) : Nat := wordBits d 1 62 0
def descFirst (d : List Nat) : Nat := wordBits d 1 31 0
def descBindings (d : List Nat) : Nat := wordBits d 2 63 0
def descDeadline (d : List Nat) : Nat := wordBits d 3 63 32
def descLeaseUs (d : List Nat) : Nat := wordBits d 3 31 0
def descWaitValue (d : List Nat) : Nat := wordBits d 4 63 0
def descWaitEn (d : List Nat) : Bool := wordBits d 5 63 63 == 1
def descWaitTmo (d : List Nat) : Nat := wordBits d 5 55 32
def descWaitKnot (d : List Nat) : Nat := wordBits d 5 13 0
def descSigValue (d : List Nat) : Nat := wordBits d 6 63 0
def descSigOp (d : List Nat) : Nat := wordBits d 7 63 62
def descTag (d : List Nat) : Nat := wordBits d 7 47 32
def descSigDev (d : List Nat) : Nat := wordBits d 7 30 16
def descSigKnot (d : List Nat) : Nat := wordBits d 7 13 0

/-- Is a reserved bit of R260 set, or a field that must be 0 for the descriptor's kind (R265 reason 1)? -/
def descReserved (d : List Nat) : Bool :=
  wordBits d 0 54 40 != 0 || wordBits d 5 62 56 != 0 || wordBits d 5 31 14 != 0 || wordBits d 7 61 48 != 0 ||
  wordBits d 7 31 31 != 0 || wordBits d 7 15 14 != 0 || descSigOp d == 3 ||
  (match descKind d with
   | 0 => wordBits d 1 63 0 != 0 || wordBits d 2 63 0 != 0 || descBstitch d || descQmode d
   | 1 => wordBits d 1 63 63 != 0
   | 2 => wordBits d 1 63 32 != 0 || wordBits d 2 63 0 != 0 || descBstitch d || descQmode d
   | _ => true)

/-! ### Patterns (R200, R201) -/

/-- Reads a pattern header of eight words. -/
def parsePattern (addr : Nat) (ws : List Nat) : Pattern :=
  { addr := addr
    graphics := wordBits ws 0 47 40 == 1
    cores := wordBits ws 0 39 32
    cls := wordBits ws 1 63 60
    level := wordBits ws 1 59 57
    transform := wordBits ws 1 56 54
    maxSpan := wordBits ws 1 31 0
    cheapCnt := wordBits ws 2 63 32
    liveMax := wordBits ws 2 31 0
    steps := wordBits ws 3 63 0
    codeOff := wordBits ws 4 63 0
    cheapOff := wordBits ws 5 63 0
    tensorOff := wordBits ws 6 63 0
    residency := wordBits ws 7 63 0 }

/-- The values CORES may take (R200). -/
def coresOk (n : Nat) : Bool := [1, 2, 4, 8].contains n || (decide (16 ≤ n) && decide (n ≤ 128) && n % 8 == 0)

/-- The checks of R201 that the header alone decides. -/
def headerOk (ws : List Nat) : Bool :=
  let p := parsePattern 0 ws
  wordBits ws 0 31 0 == 0x50544E01 && wordBits ws 0 63 48 == 1 && wordBits ws 1 53 32 == 0 &&
  decide (wordBits ws 0 47 40 ≤ 1) && coresOk p.cores && decide (p.cls ≤ 4) && (p.graphics == (p.cls == 4)) &&
  decide (1 ≤ p.level) && decide (p.level ≤ 4) && decide (p.maxSpan ≤ 40000) &&
  !(decide (p.maxSpan < p.steps) && p.cheapCnt == 0)

/-- The checker header of a transformed pattern agrees with the main header (R432). -/
def checkerOk (main ck : List Nat) : Bool :=
  let p := parsePattern 0 main
  let q := parsePattern 0 ck
  p.transform == 0 || (headerOk ck && p.cores == q.cores && p.cls == q.cls && p.level == q.level && p.transform == q.transform &&
    p.cheapCnt == q.cheapCnt)

/-! ### Tensor tables (R263) -/

/-- One 32 B entry of a tensor table, as bytes. -/
abbrev TableEntry := List Byte

/-- Bytes [i, i + n) of an entry as a number. -/
def entryField (e : TableEntry) (i n : Nat) : Nat := ofLe ((e.drop i).take n)

/-- The checks of R263 on the header entry. -/
def tableHeadOk (e : TableEntry) : Bool :=
  entryField e 0 1 == 0xFF && entryField e 1 3 == 0 && entryField e 6 26 == 0 &&
  decide (1 ≤ entryField e 4 2) && decide (entryField e 4 2 ≤ 64)

/-- The checks of R263 on a tensor's entry. -/
def tableEntryOk (e : TableEntry) : Bool :=
  decide (entryField e 0 1 ≤ 2) && decide (entryField e 2 1 < 32) && entryField e 3 1 == 0 && entryField e 12 4 == 0 &&
  entryField e 24 8 == 0

/-- The image of a pattern, as a reader of n bytes from an offset: a resident copy lies in granules, not in a run (R302). -/
abbrev Image := Nat → Nat → List Byte

/-- Eight-byte words of an image. -/
def Image.words (im : Image) (off n : Nat) : List Nat := (List.range n).map (fun i => ofLe (im (off + 8 * i) 8))

/-- The entry of tensor i, at TENSOR_OFFSET + 32 × (i + 1). -/
def Image.tableEntry (im : Image) (p : Pattern) (i : Nat) : TableEntry := im (p.tensorOff + 32 * (i + 1)) 32

/-- The number of tensors in the header entry. -/
def Image.tableCount (im : Image) (p : Pattern) : Nat := entryField (im p.tensorOff 32) 4 2

/-- The tensor table of a pattern passes R263. -/
def Image.tableOk (im : Image) (p : Pattern) : Bool :=
  tableHeadOk (im p.tensorOff 32) && (List.range (im.tableCount p)).all (fun i => tableEntryOk (im.tableEntry p i))

/-! ### Cheap point records (R204) -/

/-- INDEX of record i. -/
def Image.cheapIndex (im : Image) (p : Pattern) (i : Nat) : Nat := ofLe (im (p.cheapOff + 80 * i) 8)

/-- No CHEAP has two records: the INDEX values are distinct (R204). -/
def Image.cheapOk (im : Image) (p : Pattern) : Bool :=
  let l := (List.range p.cheapCnt).map (im.cheapIndex p)
  l.eraseDups.length == l.length

/-- The record of the CHEAP at an instruction index. -/
def Image.cheapRecord (im : Image) (p : Pattern) (pc : Nat) : Option Nat :=
  (List.range p.cheapCnt).find? (fun i => im.cheapIndex p i == pc)

/-- The live set of a record: scratchpad pages, vector registers, accumulator entries. -/
def Image.liveSet (im : Image) (p : Pattern) (i : Nat) : List Nat × List Nat × List Nat :=
  let r := im (p.cheapOff + 80 * i) 80
  let ones := fun (a n : Nat) => (List.range n).filter (fun b => ofLe (r.drop a) / 2 ^ b % 2 == 1)
  (ones 8 256, ones 40 256, ones 72 64)

/-- The checks that the hot set makes of an image (R201, R263, R432): header, checker header, table, cheap point records,
and the checks of the code, which rest on the instruction set reference (log 6). -/
def Image.patternOk (im : Image) (length : Nat) : Bool :=
  let ws := im.words 0 8
  let ck := im.words 64 8
  let p := parsePattern 0 ws
  headerOk ws && checkerOk ws ck && im.tableOk p && im.cheapOk p && (p.transform == 0 || im.cheapOk (parsePattern 0 ck)) &&
    Config.codeOk (im 0 length)

/-! ### Tensor descriptors (R262) and tolerance words (R142) -/

/-- Reads a tensor descriptor of eight words. -/
def parseTensor (addr role : Nat) (ws : List Nat) : Tensor :=
  { descAddr := addr
    role := role
    addr := wordBits ws 0 63 0
    n := wordBits ws 1 63 48
    h := wordBits ws 1 47 32
    w := wordBits ws 1 31 16
    c := wordBits ws 1 15 0
    fmt := wordBits ws 2 63 56
    trim := wordBits ws 2 55 54
    packed := wordBits ws 2 53 53 == 1
    zmap := wordBits ws 2 52 52 == 1
    isSealed := wordBits ws 2 51 51 == 1
    pitch := wordBits ws 2 31 0
    aux := wordBits ws 3 63 0
    maxAge := wordBits ws 4 63 40
    scale := wordBits ws 4 31 0
    zmapAddr := wordBits ws 5 63 0
    sealAddr := wordBits ws 6 63 0
    tol := wordBits ws 7 63 0 }

/-- ABS and REL of a tolerance word: binary32 encodings with the sign implied 0. -/
def tolAbs (w : Nat) : Nat := bits w 62 32
def tolRel (w : Nat) : Nat := bits w 30 0

/-- The encoding of infinity: unbounded. -/
def unbounded : Nat := 0x7F800000

/-- A tolerance word that R143 refuses: a NaN encoding, or the reserved bit set. -/
def tolBad (w : Nat) : Bool := decide (unbounded < tolAbs w) || decide (unbounded < tolRel w) || bits w 31 31 == 1

/-- BOUND_VOID. -/
def tolVoid (w : Nat) : Bool := bits w 63 63 == 1

/-- Trim levels that R172 allows, by FORMAT code (0x07 FP16, 0x08 BF16, 0x09 FP32), for an output tensor. -/
def trimOk (fmt trim : Nat) : Bool :=
  trim == 0 || (fmt == 9 && decide (trim ≤ 3)) || (fmt == 7 && decide (trim ≤ 2)) || (fmt == 8 && trim == 1)

/-- Does a descriptor differ from its table entry in FORMAT, flags or dimensions, or exceed N_MAX (R265 reason 5)? FLAGS:
bit 0 PACKED, bit 1 ZMAP, bit 2 SEALED, bits [4:3] TRIM. -/
def tensorDiffers (t : Tensor) (e : TableEntry) : Bool :=
  let flags := entryField e 2 1
  t.fmt != entryField e 1 1 || t.packed != (flags % 2 == 1) || t.zmap != (flags / 2 % 2 == 1) ||
  t.isSealed != (flags / 4 % 2 == 1) || t.trim != flags / 8 % 4 || decide (entryField e 4 2 < t.n) ||
  t.h != entryField e 6 2 || t.w != entryField e 8 2 || t.c != entryField e 10 2 || (t.isSealed && t.role == 0 && decide (64 < t.n))

/-- The bits per element of a FORMAT code (R128). -/
def formatBits : Nat → Nat
  | 1 => 4
  | 4 => 4
  | 7 => 16
  | 8 => 16
  | 9 => 32
  | 10 => 32
  | _ => 8

/-- Is a FORMAT code an MX format? -/
def isMx (fmt : Nat) : Bool := decide (3 ≤ fmt) && decide (fmt ≤ 6)

/-- Stored bits of an element at a trim level of R172. -/
def storedBits (fmt trim : Nat) : Nat :=
  match fmt, trim with
  | 9, 1 => 24
  | 9, 2 => 16
  | 9, 3 => 12
  | 7, 1 => 12
  | 7, 2 => 8
  | 8, 1 => 12
  | _, _ => formatBits fmt

/-- Channels of a pixel as stored: MX tensors are padded to whole 32-element blocks (R130). -/
def storedChans (fmt c : Nat) : Nat := if isMx fmt then ceilDiv c 32 * 32 else c

/-- Pixel pitch of R219 for w bits an element: rounded up to 1, 2, 4, 8, 16, 32 or a multiple of 64 B. -/
def pixelPitch (fmt w c : Nat) : Nat :=
  let b := ceilDiv (storedChans fmt c * w) 8
  match [1, 2, 4, 8, 16, 32].find? (fun p => decide (b ≤ p)) with
  | some p => p
  | none => ceilDiv b 64 * 64

/-- Bits of a stored element, pixel pitch and row pitch of a tensor (R174, R219). -/
def Tensor.bits (t : Tensor) : Nat := storedBits t.fmt t.trim
def Tensor.pixPitch (t : Tensor) : Nat := pixelPitch t.fmt t.bits t.c
def Tensor.rowPitch (t : Tensor) : Nat := ceilDiv (t.w * t.pixPitch) 64 * 64

/-- The bytes of the element array: the last sample's end, from SAMPLE_PITCH and the row pitch. -/
def tensorBytes (t : Tensor) : Nat := (t.n - 1) * (t.pitch * 64) + t.h * t.rowPitch

/-- Does an address lie in a tensor's element array? -/
def Tensor.covers (t : Tensor) (g : Nat) : Bool := decide (t.addr ≤ g) && decide (g < t.addr + tensorBytes t)

/-! ### Address windows (R537) -/

/-- The enabled ranges of an instance: global addresses from BASE to the end of LIMIT's granule. -/
def State.windowRanges (s : State) (v : Nat) : List (Nat × Nat) :=
  (List.range 4).filterMap (fun k =>
    let b := s.fld (Reg.VI_WIN_BASE v k) Fd.VI_WIN_BASE_BASE
    let l := s.fld (Reg.VI_WIN_LIMIT v k) Fd.VI_WIN_LIMIT_LIMIT
    if s.bit (Reg.VI_WIN_BASE v k) Fd.VI_WIN_BASE_EN ∧ b ≤ l then some (b * 2 ^ 21, (l + 1) * 2 ^ 21) else none)

/-- Do n bytes from a global address lie in one range? -/
def inRanges (w : List (Nat × Nat)) (g n : Nat) : Bool := w.any (fun r => decide (r.1 ≤ g) && decide (g + n ≤ r.2))

end Sys2Proof.Machine
end

