-- ==== Sys2Proof/Machine/Links.lean ====
section
/-! DEFINITION. Sending over Causeway: peers, sequences, the window of 64 unacknowledged frames, link keys (R621 to R624). -/

namespace Sys2Proof.Machine

/-- A peer table entry. -/
def State.peer (s : State) (i : Nat) : Peer := Sparse.get (fun _ => {}) i s.cwy.peers

/-- Replaces a peer table entry. -/
def State.setPeer (s : State) (i : Nat) (p : Peer) : State :=
  { s with cwy := { s.cwy with peers := Sparse.put (fun _ => {}) i p s.cwy.peers } }

/-- The peer table entry of a device number (R621). -/
def State.peerOf (s : State) (dev : Nat) : Option Nat :=
  (List.range s.cwy.nPeers).find? (fun i => (s.peer i).state != 0 && (s.peer i).device == dev)

/-- Is a port up: trained on one or two lanes (R633)? -/
def State.portUp (s : State) (p : Nat) : Bool := decide (2 ≤ s.fld (Reg.CWY_PORT p) Fd.CWY_PORT_STATE)

/-- The port on which frames to a peer leave: the lowest-numbered one of its mask that is up (R623). -/
def State.portFor (s : State) (i : Nat) : Option Nat :=
  (List.range 4).find? (fun p => (s.peer i).ports / 2 ^ p % 2 == 1 && s.portUp p)

/-- Is a tenant removed, or being removed (R502, R517)? -/
def State.goneTenant (s : State) (t : Nat) : Bool :=
  decide (2 ≤ (Sparse.get (fun _ => ({} : Tenant)) t s.trust.tenants).state)

/-- Is the link key of a tenant and peer in the cache (R622)? A retired slot holds a random key (R502). -/
def State.hasKey (s : State) (tenant i : Nat) : Bool := s.goneTenant tenant || s.cwy.keys.contains (tenant, i)

/-- A use of a link key makes it the most recently used of the 1,024 in the cache. -/
def State.touchKey (s : State) (tenant i : Nat) : State :=
  if s.goneTenant tenant then s
  else
    let l := s.cwy.keys.erase (tenant, i) ++ [(tenant, i)]
    { s with cwy := { s.cwy with keys := l.drop (l.length - 1024) } }

/-- The transmit and the receive rim of a port (R650). -/
def cwyTx (p : Nat) : Nat := 538 + 2 * p
def cwyRx (p : Nat) : Nat := 539 + 2 * p

/-- Puts a frame on the wire with a new IVC and the current ACK; with no port up nothing leaves, and at the crossing of a stopped rim
it is refused (R31, R622, R623). -/
def State.transmit (s : State) (i : Nat) (f : Frame) : State :=
  match s.portFor i with
  | none => s
  | some port =>
    if s.rimOn (cwyTx port) then
      let p := s.peer i
      (s.setPeer i { p with ivc := p.ivc + 1, sentAt := s.now, ackDue := false }).emit
        (.cwyFrame port { f with ivc := p.ivc, ack := p.expect, src := s.ownDev, dst := p.device })
    else s.rimRefuse (cwyTx port)

/-- FLAGS bits of R619. -/
def flagPoison : Nat := 1
def flagUnsync : Nat := 2

/-- Seals a frame under the link key of its tenant and transmits it; one of a removed tenant goes out under the random key, with
POISON set (R517). -/
def State.wire (s : State) (i : Nat) (f : Frame) : State :=
  (s.transmit i (if s.goneTenant f.tenant then { f with flags := or64 f.flags flagPoison } else f)).touchKey f.tenant i

/-- Takes the next SEQ of the pair and holds the frame until it is acknowledged; it leaves at once when the link key of its
tenant is in the cache and no earlier frame of the pair waits for one (R622, R623). -/
def State.hold (s : State) (i : Nat) (f : Frame) : State :=
  let p := s.peer i
  let g := { f with seq := p.seq }
  let go := s.hasKey f.tenant i && p.unacked.all (fun h => h.sent)
  let s1 := s.setPeer i { p with
    seq := (p.seq + 1) % 2 ^ 32
    moved := if p.unacked.isEmpty then s.now else p.moved
    unacked := p.unacked ++ [⟨g, go⟩] }
  if go then s1.wire i g else s1

/-- Sends a sequenced frame to a peer: with 64 frames held it waits in order (R623). -/
def State.send (s : State) (i : Nat) (f : Frame) : State :=
  let p := s.peer i
  if p.unacked.length < 64 && p.backlog.isEmpty then s.hold i f
  else s.setPeer i { p with backlog := p.backlog ++ [f] }

/-- A signal to a knot of another device: a KNOT frame to an UP peer; otherwise it is dropped and counted (R280, R624). -/
def State.sendKnot (s : State) (dev knot op value tenant : Nat) : State :=
  match s.peerOf dev with
  | none => s.bump Reg.KNOT_REMOTE_DROP_CNT noUnit
  | some i =>
    if (s.peer i).state = 3 then
      s.send i { type := 3, tenant := tenant, arg := value, op := op, knot := knot, epoch := s.epoch tenant }
    else s.bump Reg.KNOT_REMOTE_DROP_CNT noUnit

/-- The lease of a DMA stream, 1 ms (R481). -/
def streamLease : Nat := 1000000

/-- A range as requests of at most 4,096 B (R619). -/
def readParts (g len : Nat) : List (Nat × Nat) :=
  (List.range (ceilDiv len 4096)).map (fun k => (g + 4096 * k, min 4096 (len - 4096 * k)))

/-- The first request tag from the next one on that no held read carries. -/
def Cwy.freeTag (c : Cwy) : Nat :=
  ((List.range (c.reads.length + 1)).map (fun k => (c.nextTag + k) % 65536)).find? (fun t => !c.reads.any (fun r => r.tag == t)) |>.getD c.nextTag

/-- One READ_REQ or SEAL_REQ to a peer, held under a DMA stream lease (R481, R625, R626, R629). -/
def State.sendRead (s : State) (i tenant g len : Nat) (isSeal : Bool) (use : ReadFor) : State :=
  let tag := s.cwy.freeTag
  let s1 := { s with cwy := { s.cwy with
    nextTag := (tag + 1) % 65536
    reads := s.cwy.reads ++ [{ tag := tag, peer := i, tenant := tenant, addr := g, len := len,
                               expiry := s.now + streamLease, isSeal := isSeal, use := use : RemoteRead }] } }
  s1.send i { type := if isSeal then 9 else 1, tenant := tenant, length := len, arg := g, tag := tag, epoch := s.epoch tenant }

/-- Begins a read of another device's memory; to a device that is no UP peer it is refused under R98 and nothing is held, and so at the
crossing of a stopped rim (R31, R621). The result counts the requests held. -/
def State.readRemote (s : State) (tenant g len : Nat) (isSeal : Bool) (use : ReadFor) : State × Nat :=
  match s.peerOf (devOf g) with
  | none => (s.refuse, 0)
  | some i =>
    let stopped := match s.portFor i with
      | some port => !s.rimOn (cwyTx port)
      | none => false
    if (s.peer i).state ≠ 3 then (s.refuse, 0)
    else if stopped then (s.rimRefuse (cwyTx ((s.portFor i).getD 0)), 0)
    else
      let l := readParts g len
      (l.foldl (fun a r => a.sendRead i tenant r.1 r.2 isSeal use) s, l.length)

end Sys2Proof.Machine
end

