-- ==== Sys2Proof/Machine/Jobs.lean ====
section
/-! DEFINITION. The job engine: doorbells and fetching (R251 to R259), the stages up to Ready (R266), completion records and
their signals (R270 to R280), withdrawals (R276). -/

namespace Sys2Proof.Machine

/-! ### Rings -/

/-- The number of rings. -/
def ringCount : Nat := 1024

/-- The instance of a ring (R251). -/
def ringVi (n : Nat) : Nat := n / 16

/-- The class of a ring; code 3 acts as 2 (R253, R287). -/
def State.ringCls (s : State) (n : Nat) : Cls :=
  match s.fld (Reg.RING_CFG n) Fd.RING_CFG_CLASS with
  | 0 => .lc
  | 1 => .test
  | _ => .be

/-- SIZE of a ring (R286). -/
def State.ringSize (s : State) (n : Nat) : Nat := sizeOfCode (s.fld (Reg.RING_DESC n) Fd.RING_DESC_SIZE_CODE)

/-- The address of a ring's doorbell word (R251). -/
def State.ringDb (s : State) (n : Nat) : Nat := s.fld (Reg.RING_DB n) Fd.RING_DB_DB_ADDR * 16

/-- Does sequence number a precede b (R252)? -/
def seqBefore (a b : Nat) : Bool := decide (2 ^ 31 ≤ (a + 2 ^ 32 - b % 2 ^ 32) % 2 ^ 32)

/-- Writes a ring's status word (R255). -/
def State.writeStatus (s : State) (n : Nat) : State :=
  s.store (s.ringDb n + 8) (leBytes 4 (s.ring n).head ++ leBytes 4 (s.ring n).retired)

/-- The state of an instance (R540). -/
def State.viState (s : State) (v : Nat) : Nat := s.fld (Reg.VI_STATE v) Fd.VI_STATE_STATE

/-- Is an instance suspended (R321)? -/
def State.suspended (s : State) (v : Nat) : Bool := s.regBit Reg.ARY_SUSPEND v

/-- Do the leases of an instance run (R540, R545)? -/
def State.leasesRun (s : State) (v : Nat) : Bool := decide (s.viState v ≤ 3)

/-- Fetched descriptors of an instance whose records are not yet written (R539). -/
def State.inFlight (s : State) (v : Nat) : Nat :=
  (s.jobs.filter (fun j => ringVi j.ring == v)).length +
    ((List.range 16).map (fun i => (s.ring (16 * v + i)).fetched.length)).sum

/-- May the job engine fetch from a ring at all (R287, R322, R539, R540)? -/
def State.mayFetch (s : State) (n : Nat) : Bool :=
  s.bit (Reg.RING_CFG n) Fd.RING_CFG_EN && s.viState (ringVi n) == 1 && !s.suspended (ringVi n) && decide (s.inFlight (ringVi n) < 1024)

/-- The place of slot x of a ring's descriptor area. -/
def State.descAddr (s : State) (n seq : Nat) : Nat :=
  s.fld (Reg.RING_DESC n) Fd.RING_DESC_DESC_BASE * 64 + 64 * (seq % s.ringSize n)

/-- Fetches descriptors in sequence order while R257 lets it; one that reads as poison stops the ring until its next pick-up. -/
def State.fetchLoop : Nat → State → Nat → State
  | 0, s, _ => s
  | k + 1, s, n =>
    let r := s.ring n
    if s.mayFetch n ∧ !r.retry ∧ seqBefore r.head r.lastTail ∧ (r.head + 2 ^ 32 - r.retired) % 2 ^ 32 < s.ringSize n then
      let a := s.descAddr n r.head
      if s.readFails a 64 then (s.noteRead a 64).setRing n { r with retry := true }
      else
        let s1 := s.setRing n { r with fetched := r.fetched ++ [(r.head, s.wordsAt a 8)], head := (r.head + 1) % 2 ^ 32 }
        State.fetchLoop k (s1.writeStatus n) n
    else s

/-- Fetches what a ring's last doorbell announced. -/
def State.fetch (s : State) (n : Nat) : State := s.fetchLoop 1024 n

/-- A doorbell word is read: a stale RGEN, a reserved bit or a TAIL that precedes HEAD is ignored and counted; otherwise its
descriptors are fetched (R254, R257). A doorbell that reads as poison gives nothing. -/
def State.pickUp (s : State) (n : Nat) : State :=
  let a := s.ringDb n
  if s.readFails a 8 then s.noteRead a 8
  else
    let w := ofLe (s.peekBytes a 8)
    let r := s.ring n
    let tail := bits w 31 0
    if bits w 63 48 ≠ 0 ∨ bits w 47 32 ≠ s.fld (Reg.RING_CFG n) Fd.RING_CFG_GEN ∨ seqBefore tail r.head then
      s.bump Reg.RING_DB_BAD_CNT noUnit
    else (s.setRing n { r with lastTail := tail, retry := false }).fetch n

/-! ### Completion (R271 to R275) -/

/-- Completion codes of R271. -/
def codeDone : Nat := 0
def codeDoneLate : Nat := 1
def codeDoneVoid : Nat := 2
def codeDoneStale : Nat := 3
def codeMismatch : Nat := 4
def codeFault : Nat := 5
def codeTimeout : Nat := 6
def codeCancelled : Nat := 7
def codeRefused : Nat := 8
def codeSealFail : Nat := 9
def codeGone : Nat := 10

/-- The 32 B completion record (R274). -/
def recordBytes (code flags tag seq time requeues preempts detail : Nat) : List Byte :=
  leBytes 8 (code * 2 ^ 56 + flags * 2 ^ 48 + tag * 2 ^ 32 + seq) ++ leBytes 8 time ++
    leBytes 8 (min requeues 0xFFFF * 2 ^ 48 + min preempts 0xFFFF * 2 ^ 32) ++ leBytes 8 detail

/-- Where the completion record of a sequence number goes (R252). -/
def State.recordAddr (s : State) (n seq : Nat) : Nat :=
  s.fld (Reg.RING_CPL n) Fd.RING_CPL_CPL_BASE * 64 + 32 * (seq % s.ringSize n)

/-- RETIRED moves past every sequence number whose record is written (R255). -/
def retire : Nat → Nat → List Nat → Nat × List Nat
  | 0, r, w => (r, w)
  | n + 1, r, w => if w.contains r then retire n ((r + 1) % 2 ^ 32) (w.erase r) else (r, w)

/-- A record is written for a sequence number: RETIRED, the status word, polling (R255, R259). -/
def State.retired (s : State) (n seq : Nat) : State :=
  let r := s.ring n
  let w := if seqBefore seq r.retired then r.written else r.written ++ [seq]
  let q := retire w.length r.retired w
  (s.setRing n { r with retired := q.1, written := q.2, polling := true }).writeStatus n

/-- The signal of a descriptor's completion knot (R260, R265, R280): a local knot outside the instance's range is not
signalled. -/
def State.signal (s : State) (n : Nat) (d : List Nat) : State :=
  let op := descSigOp d
  if op = 1 ∨ op = 2 then
    if descSigDev d = s.ownDev then
      if s.ownsKnot (ringVi n) (descSigKnot d) then
        if op = 1 then s.knotAdd (descSigKnot d) (descSigValue d) else s.knotSet (descSigKnot d) (descSigValue d)
      else s
    else s.sendKnot (descSigDev d) (descSigKnot d) op (descSigValue d) (0x10 + ringVi n)
  else s

/-- A quiescing instance with nothing between fetch and record becomes QUIESCED (R542). -/
def State.quiesced (s : State) (v : Nat) : State :=
  if s.viState v = 2 ∧ s.inFlight v = 0 then
    (s.setFld (Reg.VI_STATE v) Fd.VI_STATE_STATE 3).raise 16 (0x100 + 8 * v) v
  else s

/-- Is a job on cores, so that it stops only at a cheap point (R276)? -/
def Stage.onCores : Stage → Bool
  | .running => true
  | .preempting => true
  | .halted => true
  | _ => false

/-- A freezing instance with no job left on cores becomes FROZEN (R544). -/
def State.frozenCheck (s : State) (v : Nat) : State :=
  if s.viState v = 4 ∧ !s.jobs.any (fun j => ringVi j.ring == v && (j.stage.onCores || j.stage == .checking || j.stage == .faulted)) then
    (s.setFld (Reg.VI_STATE v) Fd.VI_STATE_STATE 5).raise 16 (0x100 + 8 * v) v
  else s

/-- Writes the one completion record of a descriptor, with its signal and its interrupt, and forgets it (R273 to R275, R280). -/
def State.finish (s : State) (j : Job) (code detail flags : Nat) : State :=
  let s1 := s.dropJob j.ring j.seq
  let s2 := s1.store (s1.recordAddr j.ring j.seq)
    (recordBytes code flags (descTag j.desc) j.seq s.now j.requeues j.preempts detail)
  let s3 := (s2.retired j.ring j.seq).signal j.ring j.desc
  let s4 := if descIrq j.desc then s3.ringInterrupt (ringVi j.ring) (s3.fld (Reg.RING_CFG j.ring) Fd.RING_CFG_IRQ_VEC) else s3
  ((if inHostWindow (s4.descAddr j.ring 0) then s4 else s4.fetch j.ring).quiesced (ringVi j.ring)).frozenCheck (ringVi j.ring)

/-! ### Entering Ready (R266, R267) -/

/-- Does a descriptor's knot hold its threshold? -/
def State.waitMet (s : State) (d : List Nat) : Bool := decide (descWaitValue d ≤ s.knot (descWaitKnot d))

/-- WAIT_TMO and LEASE_US in ns, with the ring's defaults (R260, R287). -/
def State.waitNs (s : State) (n : Nat) (d : List Nat) : Nat :=
  if descWaitTmo d = 0 then 1000000 * max 1 (s.fld (Reg.RING_CFG n) Fd.RING_CFG_WAIT_DEF_MS) else 1000 * descWaitTmo d
def State.leaseNs (s : State) (n : Nat) (d : List Nat) : Nat :=
  if descLeaseUs d = 0 then 1000000 * max 1 (s.fld (Reg.RING_CFG n) Fd.RING_CFG_LEASE_DEF_MS) else 1000 * descLeaseUs d

/-- The stage a descriptor takes once no tack holds it (R266). -/
def State.afterHeld (s : State) (j : Job) : Job :=
  if descWaitEn j.desc then { j with stage := .waiting, waitEnd := s.now + s.waitNs j.ring j.desc } else { j with stage := .cleared }

/-- Has every earlier descriptor of a ring entered Ready, or with ORDERED its record written (R260, R266)? CANCEL descriptors
stand outside launch order. -/
def State.turn (s : State) (j : Job) : Bool :=
  s.jobs.all (fun k => k.ring != j.ring || !seqBefore k.seq j.seq || (!descOrdered j.desc && (k.entered || k.kind == 2)))

/-- BOUND_VOID of a job's inputs, read when it becomes ready (R264). -/
def State.inputsVoid (s : State) (j : Job) : Bool :=
  j.tens.any (fun t => t.role == 0 && tolVoid (s.peek (t.descAddr + 56) 8))

/-- The lowest fair counter of the class among instances with a job in it, for R293. -/
def State.fair (s : State) (v : Nat) (c : Cls) : Nat := Sparse.get (fun _ => 0) (3 * v + c.index) s.sched.fair
def State.setFair (s : State) (v : Nat) (c : Cls) (x : Nat) : State :=
  { s with sched := { s.sched with fair := Sparse.put (fun _ => 0) (3 * v + c.index) (x % 2 ^ 64) s.sched.fair } }

/-- Is a job Ready with a resident pattern, of instance v and class c (R293)? -/
def State.contends (s : State) (v : Nat) (c : Cls) : Bool :=
  s.jobs.any (fun j => j.kind == 1 && j.stage == .ready && ringVi j.ring == v && s.ringCls j.ring == c && (s.hotEntry j.entry).state == 3)

/-- An instance that gains its first Ready job of a class is raised to the lowest counter of the others (R293). -/
def State.raiseFair (s : State) (v : Nat) (c : Cls) : State :=
  if s.contends v c then s
  else
    match (((List.range 64).filter (fun u => s.contends u c)).map (fun u => s.fair u c)).min? with
    | some m => s.setFair v c (max (s.fair v c) m)
    | none => s

/-- A descriptor enters Ready: a KNOT descriptor signals and completes; a job's lease starts (R260, R266, R267, R269). -/
def State.enterReady (s : State) (j : Job) : State :=
  if j.kind = 0 then s.finish j codeDone 0 0
  else
    let c := s.ringCls j.ring
    let s1 := if (s.hotEntry j.entry).state = 3 then s.raiseFair (ringVi j.ring) c else s
    let tack := match j.tackTime with
      | some t => t
      | none => s.now
    s1.modJob j.ring j.seq (fun k => { k with
      stage := .ready, entered := true, tackTime := some tack, readyAt := s.now, leaseEnd := s.now + s.leaseNs j.ring j.desc
      inVoid := s.inputsVoid j })

/-- A CANCEL descriptor completes once nothing it withdrew is left (R276). -/
def State.cancelDone (s : State) (j : Job) : Bool :=
  j.kind == 2 && !s.jobs.any (fun k => k.ring == j.ring && k.withdrawn == some (1, j.seq))

/-- One thing that the job engine can do at once: a wait that is satisfied, a descriptor whose turn it is to enter Ready, a
CANCEL that completes. -/
def State.settleOne (s : State) : Option State :=
  match s.jobs.find? (fun j => j.stage == .waiting && s.waitMet j.desc) with
  | some j => some (s.modJob j.ring j.seq (fun k => { k with stage := .cleared }))
  | none =>
    match s.jobs.find? (fun j => j.kind != 2 && j.stage == .cleared && !j.entered && s.turn j) with
    | some j => some (s.enterReady j)
    | none =>
      match s.jobs.find? s.cancelDone with
      | some j => some (s.finish j codeDone 0 0)
      | none => none

/-- The job engine acts until nothing is left to do. -/
def State.settleLoop : Nat → State → State
  | 0, s => s
  | n + 1, s =>
    match s.settleOne with
    | none => s
    | some t => State.settleLoop n t

/-- Each descriptor takes at most three such actions. -/
def State.settle (s : State) : State := s.settleLoop (3 * s.jobs.length)

/-! ### The end of a job's work on the array (R293, R296) -/

/-- The accounting register of an instance and class (R295). -/
def acctReg (v : Nat) : Cls → Nat
  | .lc => Reg.ARY_ACCT_NS_LC v
  | .test => Reg.ARY_ACCT_NS_TEST v
  | .be => Reg.ARY_ACCT_NS_BE v

/-- Adds to a 64-bit accounting counter. -/
def State.addReg (s : State) (k n : Nat) : State := s.setReg k (s.reg k + BitVec.ofNat 64 n)

/-- SHARE of an instance in a class (R328). -/
def State.share (s : State) (v : Nat) : Cls → Nat
  | .lc => s.fld (Reg.ARY_SHARE v) Fd.ARY_SHARE_SHARE_LC
  | .test => s.fld (Reg.ARY_SHARE v) Fd.ARY_SHARE_SHARE_TEST
  | .be => s.fld (Reg.ARY_SHARE v) Fd.ARY_SHARE_SHARE_BE

/-- Charges core time to an instance and class, and advances its fair counter (R293, R295). -/
def State.charge (s : State) (v : Nat) (c : Cls) (ns : Nat) : State :=
  let s1 := s.addReg (acctReg v c) ns
  if s.share v c = 0 then s1 else s1.setFair v c (s1.fair v c + ns * 65536 / s.share v c)

/-- A core gives up its allowance, unless it is being scrubbed or switches: a scrub and a switch go on to their end (R211, R514). -/
def State.releaseCore (s : State) (n : Nat) : State :=
  if (s.core n).scrubs || s.fld (Reg.ARY_CORE n) Fd.ARY_CORE_MODE == 2 then s else s.alwDrop (.core n)

/-- One core stops work for a job: its time is charged if it held the job's allowance, the sequencer and the marks of
ARY_CORE_n are cleared, its allowance is released (R296, R215, R76). -/
def State.stopCore (s : State) (j : Job) (n : Nat) : State :=
  let held := j.granted.contains n
  let ns := s.now - (s.core n).since
  let s1 := if held then s.charge (ringVi j.ring) (s.ringCls j.ring) ns else s
  let s2 := if held then s1.modJob j.ring j.seq (fun k => { k with nsRun := k.nsRun + ns }) else s1
  let s3 := (s2.setFld (Reg.ARY_CORE n) Fd.ARY_CORE_BUSY 0).setFld (Reg.ARY_CORE n) Fd.ARY_CORE_YIELD 0
  (s3.modCore n (fun c => { c with job := none, wdogEnd := none, halted := false, atCheap := false, tags := [], queues := [], waitTag := none, waitPush := false })).releaseCore n

/-- All cores of a job stop work for it. -/
def State.stopCores (s : State) (j : Job) : State :=
  let s1 := (j.cores ++ j.ckCores).foldl (fun a n => a.stopCore j n) s
  s1.modJob j.ring j.seq (fun k => { k with cores := [], ckCores := [], granted := [], stopped := [] })

/-- The seal checks and the comparison of a job end with it. -/
def State.dropChecks (s : State) (j : Job) : State :=
  let hs := (s.seals.filterMap (fun t => if t.ring == j.ring && t.seq == j.seq then t.checker.map Holder.sealChecker else none)) ++
    (s.checkers.cmps.filterMap (fun t => if t.ring == j.ring && t.seq == j.seq then t.unit.map Holder.comparator else none))
  let s1 := hs.foldl (fun a h => a.alwDrop h) s
  { s1 with
    seals := s1.seals.filter (fun t => !(t.ring == j.ring && t.seq == j.seq))
    checkers := { s1.checkers with cmps := s1.checkers.cmps.filter (fun t => !(t.ring == j.ring && t.seq == j.seq)) } }

/-- Ends a job that does not commit: its cores stop, its pending outputs are discarded with it, its record is written
(R118, R273). -/
def State.endJob (s : State) (ring seq code detail : Nat) : State :=
  match s.job? ring seq with
  | none => s
  | some j => ((s.stopCores j).dropChecks j).finish j code detail 0

/-! ### Withdrawals (R276, R287, R541) -/

/-- Sets YIELD on the cores of a job (R310, R292). -/
def State.yieldCores (s : State) (j : Job) : State :=
  (j.cores ++ j.ckCores).foldl (fun a n => a.setFld (Reg.ARY_CORE n) Fd.ARY_CORE_YIELD 1) s

/-- DETAIL of CANCELLED: the reason, and for reason 1 the SEQ of the CANCEL descriptor (R274). -/
def cancelDetail (why : Nat × Nat) : Nat := why.1 + why.2 * 2 ^ 32

/-- Withdraws one descriptor: a job on cores is marked and stops at its next cheap point; one whose fault has been taken keeps its code
(R273); any other completes at once. -/
def State.withdrawOne (s : State) (why : Nat × Nat) (j : Job) : State :=
  if j.stage = .faulted then s
  else if j.stage.onCores then
    (s.modJob j.ring j.seq (fun k => { k with withdrawn := some why })).yieldCores j
  else s.endJob j.ring j.seq codeCancelled (cancelDetail why)

/-- Withdraws the descriptors that satisfy a test, in the order of their fetch. -/
def State.withdraw (s : State) (why : Nat × Nat) (p : Job → Bool) : State :=
  (s.jobs.filter (fun j => p j && j.withdrawn.isNone)).foldl (fun a j => a.withdrawOne why j) s

/-- Withdraws the fetched descriptors of a ring that have not been admitted. -/
def State.withdrawFetched (s : State) (why : Nat × Nat) (n : Nat) : State :=
  let l := (s.ring n).fetched
  let s1 := s.setRing n { s.ring n with fetched := [] }
  l.foldl (fun a (seq, d) => a.finish { ring := n, seq := seq, desc := d, kind := descKind d } codeCancelled (cancelDetail why) 0) s1

/-- The descriptors that hold no core that runs: held, waiting, ready or placed (R541). -/
def Job.queued (j : Job) : Bool :=
  match j.stage with
  | .held => true
  | .waiting => true
  | .cleared => true
  | .ready => true
  | .placed => true
  | _ => false

/-- The descriptors that have not been launched: neither running nor back from a preemption or a flush (R287). -/
def Job.unlaunched (j : Job) : Bool := j.queued && j.preempts == 0 && j.requeues == 0

end Sys2Proof.Machine
end

