-- ==== Sys2Proof/Machine/Numeric.lean ====
section
/-! DEFINITION. Number formats: decoding, rounding to nearest even, saturation, special values, MX blocks (R128 to R137), the
matrix unit's reductions (R138), activation trim (R172 to R175), the comparator's window (R436). -/

namespace Sys2Proof.Machine

/-- A value: NaN, an infinity, or ± m × 2^e exactly. -/
inductive Num where
  | nan
  | inf (neg : Bool)
  | fin (neg : Bool) (m : Nat) (e : Int)
  deriving DecidableEq, Repr

/-- Zero. -/
def Num.zero : Num := .fin false 0 0

/-- Is a value finite? -/
def Num.isFin : Num → Bool
  | .fin _ _ _ => true
  | _ => false

/-! ### Exact arithmetic -/

/-- The signed integer of ± m. -/
def sgn (neg : Bool) (m : Nat) : Int := if neg then -(m : Int) else m

/-- The value of an integer times 2^e. -/
def Num.ofInt (i : Int) (e : Int) : Num := .fin (decide (i < 0)) i.natAbs e

/-- 2^n of an integer exponent, 0 below 0. -/
def shl (m : Nat) (e : Int) : Nat := m * 2 ^ e.toNat

/-- Exact sum; opposite infinities and NaN give NaN (R135). -/
def Num.add : Num → Num → Num
  | .nan, _ => .nan
  | _, .nan => .nan
  | .inf a, .inf b => if a = b then .inf a else .nan
  | .inf a, _ => .inf a
  | _, .inf b => .inf b
  | .fin a m e, .fin b n f =>
    let q := min e f
    let i := sgn a (shl m (e - q)) + sgn b (shl n (f - q))
    if i = 0 then .fin (a && b) 0 q else Num.ofInt i q

/-- Exact product; an infinity times zero is NaN. -/
def Num.mul : Num → Num → Num
  | .nan, _ => .nan
  | _, .nan => .nan
  | .inf a, .inf b => .inf (a != b)
  | .inf a, .fin b n _ => if n = 0 then .nan else .inf (a != b)
  | .fin a m _, .inf b => if m = 0 then .nan else .inf (a != b)
  | .fin a m e, .fin b n f => .fin (a != b) (m * n) (e + f)

/-- Negation. -/
def Num.neg : Num → Num
  | .nan => .nan
  | .inf a => .inf (!a)
  | .fin a m e => .fin (!a) m e

/-- Magnitude. -/
def Num.abs : Num → Num
  | .nan => .nan
  | .inf _ => .inf false
  | .fin _ m e => .fin false m e

/-- Is a ≤ b, false if either is NaN? -/
def Num.le : Num → Num → Bool
  | .nan, _ => false
  | _, .nan => false
  | .inf a, .inf b => a || !b
  | .inf a, _ => a
  | _, .inf b => !b
  | .fin a m e, .fin b n f =>
    let q := min e f
    decide (sgn a (shl m (e - q)) ≤ sgn b (shl n (f - q)))

/-! ### Rounding (R133) -/

/-- m × 2^e as a multiple of 2^q, to nearest with ties to even. -/
def roundAt (q : Int) (m : Nat) (e : Int) : Nat :=
  if q ≤ e then shl m (e - q)
  else
    let d := 2 ^ (q - e).toNat
    let a := m / d
    let r := m % d
    if d < 2 * r ∨ (2 * r = d ∧ a % 2 = 1) then a + 1 else a

/-- ⌊log2 (m × 2^e)⌋ for m above 0. -/
def topBit (m : Nat) (e : Int) : Int := (Nat.log2 m : Int) + e

/-- Rounds to a significand of p bits. -/
def Num.round (p : Nat) : Num → Num
  | .fin a m e =>
    if m = 0 then .fin a 0 e
    else
      let q := topBit m e - (p - 1 : Nat)
      if q ≤ e then .fin a m e else .fin a (roundAt q m e) q
  | x => x

/-! ### Formats (R128) -/

/-- A floating format: exponent bits, mantissa bits, bias, whether it has IEEE infinities and NaNs, whether its subnormals are
flushed (R136), the code of its largest finite magnitude. -/
structure FloatFmt where
  eb    : Nat
  mb    : Nat
  bias  : Nat
  ieee  : Bool
  flush : Bool
  top   : Nat
  deriving DecidableEq, Repr

def fp4 : FloatFmt := ⟨2, 1, 1, false, false, 0x7⟩
def e4m3 : FloatFmt := ⟨4, 3, 7, false, false, 0x7E⟩
def e5m2 : FloatFmt := ⟨5, 2, 15, true, false, 0x7B⟩
def fp16 : FloatFmt := ⟨5, 10, 15, true, false, 0x7BFF⟩
def bf16 : FloatFmt := ⟨8, 7, 127, true, true, 0x7F7F⟩
def fp32 : FloatFmt := ⟨8, 23, 127, true, true, 0x7F7FFFFF⟩

/-- The sign's weight in a code. -/
def FloatFmt.sign (f : FloatFmt) : Nat := 2 ^ (f.eb + f.mb)

/-- The value of a code. -/
def FloatFmt.decode (f : FloatFmt) (c : Nat) : Num :=
  let neg := c / f.sign % 2 == 1
  let ex := c / 2 ^ f.mb % 2 ^ f.eb
  let man := c % 2 ^ f.mb
  if f.ieee ∧ ex = 2 ^ f.eb - 1 then (if man = 0 then .inf neg else .nan)
  else if f = e4m3 ∧ c % 128 = 0x7F then .nan
  else if ex = 0 then (if f.flush then .fin neg 0 0 else .fin neg man (1 - (f.bias : Int) - f.mb))
  else .fin neg (2 ^ f.mb + man) ((ex : Int) - f.bias - f.mb)

/-- The code of a finite magnitude rounded to nearest even, possibly beyond the largest finite one. -/
def FloatFmt.magnitude (f : FloatFmt) (m : Nat) (e : Int) : Nat :=
  if m = 0 then 0
  else
    let low : Int := 1 - (f.bias : Int) - f.mb
    let q := max (topBit m e - f.mb) low
    let c := (q - low).toNat * 2 ^ f.mb + roundAt q m e
    if f.flush ∧ c < 2 ^ f.mb then 0 else c

/-- The code of a NaN of a format. -/
def FloatFmt.nanCode (f : FloatFmt) (k : Nat) : Nat :=
  if f = e4m3 then 0x7F + 128 * (Config.nanBits k % 2)
  else Config.nanBits k / 2 ^ f.mb % 2 * f.sign + (2 ^ f.eb - 1) * 2 ^ f.mb + 1 + Config.nanBits k % (2 ^ f.mb - 1)

/-- A saturating conversion: the code, and whether it counts as a saturation, as every finite value beyond the largest finite
magnitude does (R134, R135; log 29). -/
def FloatFmt.convert (f : FloatFmt) (k : Nat) : Num → Nat × Bool
  | .nan => (f.nanCode k, false)
  | .inf a => (a.toNat * f.sign + f.top, true)
  | .fin a m e =>
    (a.toNat * f.sign + min f.top (f.magnitude m e), !(Num.fin false m e).le (f.decode f.top))

/-- FP32 arithmetic results: overflow gives an infinity (R135). -/
def toFp32 : Num → Nat
  | .nan => fp32.nanCode 9
  | .inf a => a.toNat * 2 ^ 31 + 0x7F800000
  | .fin a m e =>
    let c := fp32.magnitude m e
    a.toNat * 2 ^ 31 + (if fp32.top < c then 0x7F800000 else c)

/-- The value of an FP32 code. -/
def ofFp32 (c : Nat) : Num := fp32.decode c

/-- Signed integers of w bits. -/
def signedOf (w c : Nat) : Int := if c % 2 ^ w < 2 ^ (w - 1) then (c % 2 ^ w : Nat) else (c % 2 ^ w : Nat) - (2 ^ w : Nat)
def codeOf (w : Nat) (i : Int) : Nat := (i % (2 ^ w : Nat)).toNat

/-- The nearest integer to a value, ties to even. -/
def Num.toInt : Num → Int
  | .fin a m e => sgn a (roundAt 0 m e)
  | _ => 0

/-- A saturating conversion to the symmetric integers of magnitude up to `top`, with whether the rounded result lay beyond `top`; NaN
and infinities give 0 (R134, R135; log 29). -/
def toSym (top : Nat) (x : Num) : Int × Bool :=
  (max (-(top : Int)) (min top x.toInt), decide (top < x.toInt.natAbs))

/-- The floating format of an element format code: 0x04 to 0x09 (R158, R262). -/
def floatOf : Nat → Option FloatFmt
  | 4 => some fp4
  | 5 => some e4m3
  | 6 => some e5m2
  | 7 => some fp16
  | 8 => some bf16
  | 9 => some fp32
  | _ => none

/-- The value of an element code of a format, before any scale. -/
def elemValue (fmt c : Nat) : Num :=
  match floatOf fmt with
  | some f => f.decode c
  | none =>
    if fmt = 1 then Num.ofInt (signedOf 4 c) 0
    else if fmt = 3 then Num.ofInt (signedOf 8 c) (-6)
    else if fmt = 10 then Num.ofInt (signedOf 32 c) 0
    else Num.ofInt (signedOf 8 c) 0

/-- An integer as INT32, saturating (R134, R227). -/
def satInt (i : Int) : Nat × Bool :=
  let j := max (-(2 ^ 31 : Int)) (min (2 ^ 31 - 1) i)
  (codeOf 32 j, decide (j ≠ i))

/-- A saturating conversion to an element format, with the code and the saturation mark; R135 states no INT32 for NaN and infinities,
so theirs is a free code (log 7). -/
def elemCode (fmt : Nat) (x : Num) : Nat × Bool :=
  match floatOf fmt with
  | some f => if fmt = 9 then (toFp32 x, false) else f.convert fmt x
  | none =>
    if fmt = 1 then let r := toSym 7 x; (codeOf 4 r.1, r.2)
    else if fmt = 3 then let r := toSym 127 (x.mul (.fin false 64 0)); (codeOf 8 r.1, r.2)
    else if fmt = 10 then (if x.isFin then satInt x.toInt else (Config.nanBits 10 % 2 ^ 32, Config.nanBits 11 % 2 == 1))
    else let r := toSym 127 x; (codeOf 8 r.1, r.2)

/-! ### MX blocks (R128, R132, R137) -/

/-- The value of an E8M0 scale code. -/
def scaleValue (c : Nat) : Num := if c = 0xFF then .nan else .fin false 1 ((c : Int) - 127)

/-- The largest finite value of an MX element format. -/
def mxTop : Nat → Num
  | 3 => .fin false 127 (-6)
  | 4 => .fin false 6 0
  | 5 => .fin false 448 0
  | _ => .fin false 57344 0

/-- The scale code of a block: the smallest scale at which the largest finite magnitude fits; where none does, which only an MXINT8
block above 127/64 × 2^127 meets, the largest (R132; log 29). -/
def mxScale (fmt : Nat) (xs : List Num) : Nat :=
  if xs.contains .nan then 0xFF
  else
    let fins := xs.filter (fun x => match x with
      | .fin _ m _ => m != 0
      | _ => false)
    if fins.isEmpty then (if xs.any (fun x => !x.isFin) then 0x7F else 0)
    else ((List.range 255).find? (fun c => fins.all (fun x => x.abs.le ((mxTop fmt).mul (scaleValue c))))).getD 254

/-- The element codes of a block that holds a NaN: the NaN itself in the FP8 formats, and otherwise free codes, since R132 gives such a
block its scale and no elements (log 7). -/
def nanBlock (fmt : Nat) (xs : List Num) : List Nat :=
  xs.mapIdx (fun i x => match floatOf fmt, x with
    | some f, .nan => if fmt = 4 then Config.nanBits (64 + i) % 16 else f.nanCode fmt
    | _, _ => Config.nanBits (64 + i) % (if fmt = 4 then 16 else 256))

/-- Quantises one block of values: scale, element codes, whether a saturation counts (R132, R134). -/
def mxQuantise (fmt : Nat) (xs : List Num) : Nat × List Nat × Bool :=
  let s := mxScale fmt xs
  if s = 0xFF then (s, nanBlock fmt xs, false)
  else
    let cs := xs.map (fun x => match x with
      | .inf a => ((elemCode fmt (if a then (mxTop fmt).neg else mxTop fmt)).1, true)
      | x => elemCode fmt (x.mul (.fin false 1 (127 - (s : Int)))))
    (s, cs.map (·.1), cs.any (·.2))

/-! ### The matrix unit's reductions (R138, R140) -/

/-- A permutation chosen by a number: the order in which a tree takes its leaves is open (R17, R140). -/
def permute {α : Type} : Nat → Nat → List α → List α
  | 0, _, _ => []
  | n + 1, seed, l =>
    match l[seed % max 1 l.length]? with
    | none => []
    | some a => a :: permute n (seed / max 1 l.length) (l.eraseIdx (seed % max 1 l.length))

/-- One level of an adder tree, each node rounded to a 24-bit significand. -/
def treeLevel : List Num → List Num
  | a :: b :: l => (a.add b).round 24 :: treeLevel l
  | l => l

/-- An adder tree of a depth. -/
def tree : Nat → List Num → Num
  | 0, l => l.headD Num.zero
  | n + 1, l => tree n (treeLevel l)

/-- A tree over as many levels as its leaves need. -/
def treeSum (l : List Num) : Num := tree (Nat.log2 (max 1 l.length) + 1) l

/-- A value as FP32 arithmetic holds it: rounded, flushed, infinite beyond the format (R133, R135, R136). -/
def f32 (x : Num) : Num := ofFp32 (toFp32 x)

/-- One level of an FP32 tree, and the tree. -/
def fpLevel : List Num → List Num
  | a :: b :: l => f32 (a.add b) :: fpLevel l
  | l => l
def fpTree : Nat → List Num → Num
  | 0, l => l.headD Num.zero
  | n + 1, l => fpTree n (fpLevel l)

/-- A sum in FP32, by a tree over as many levels as its terms need. -/
def fpSum (l : List Num) : Num := fpTree (Nat.log2 (max 1 l.length) + 1) l

/-- The product of two block scales as an exponent sum: above 127 infinity, below −126 the block is flushed to zero (R137). -/
def scaleProduct (a b : Nat) : Num :=
  if a = 0xFF ∨ b = 0xFF then .nan
  else
    let e := (a : Int) + b - 254
    if 127 < e then .inf false else if e < -126 then Num.zero else .fin false 1 e

/-- A block's contribution: its sum times the product of its scales; zero where the exponent sum is below −126, unless the block's sum
is NaN (R135, R137). -/
def blockTerm (sum : Num) (a b : Nat) : Num :=
  match scaleProduct a b, sum with
  | .fin _ 0 _, .fin n _ _ => .fin n 0 0
  | .fin _ 0 _, .inf n => .fin n 0 0
  | p, x => x.mul p

/-- The saturating INT32 accumulator (R134). -/
def accInt (acc : Nat) (sum : Int) : Nat × Bool :=
  let i := signedOf 32 acc + sum
  let j := max (-(2 ^ 31 : Int)) (min (2 ^ 31 - 1) i)
  (codeOf 32 j, decide (j ≠ i))

/-- The FP32 accumulator: one rounding; the mark says that finite operands gave an infinity (R138, R144). -/
def accFp (acc : Nat) (x : Num) : Nat × Bool :=
  let a := ofFp32 acc
  let r := toFp32 (a.add x)
  (r, a.isFin && x.isFin && !(ofFp32 r).isFin)

/-! ### Trim (R172 to R175) -/

/-- Trims one element code: its top bits; a NaN stays a NaN (R173). -/
def trimElem (fmt level c : Nat) : Nat :=
  let w := formatWidth fmt
  let b := storedBits fmt level
  let t := c / 2 ^ (w - b)
  match floatOf fmt with
  | some f => if f.decode c = .nan ∧ t % 2 ^ (f.mb - (w - b)) = 0 then t + 1 else t
  | none => t
where
  /-- Bits of a trimmable element. -/
  formatWidth : Nat → Nat
    | 9 => 32
    | _ => 16

/-- Restores a trimmed element by appending zero bits (R175). -/
def untrimElem (fmt level c : Nat) : Nat := c * 2 ^ ((if fmt = 9 then 32 else 16) - storedBits fmt level)

/-! ### Elements in bytes (R129, R174) -/

/-- Elements of `w` bits, least significant bits first, as a number. -/
def packElems (w : Nat) : List Nat → Nat
  | [] => 0
  | c :: cs => c % 2 ^ w + 2 ^ w * packElems w cs

/-- Elements of `w` bits as bytes. -/
def elemBytes (w : Nat) (cs : List Nat) : List Byte := leBytes (ceilDiv (w * cs.length) 8) (packElems w cs)

/-- n elements of `w` bits from bytes. -/
def bytesElems (w n : Nat) (bs : List Byte) : List Nat :=
  let v := ofLe bs
  (List.range n).map (fun i => v / 2 ^ (w * i) % 2 ^ w)

/-- Is an element code ± 0 in its format (R166)? -/
def elemZero (fmt c : Nat) : Bool :=
  match floatOf fmt with
  | some f => c % f.sign == 0
  | none => c == 0

/-- Is a block all zero (R166)? A block of scale 0xFF is not, since its elements read as NaN (R132; log 29). -/
def blockZ (fmt scale : Nat) (codes : List Nat) : Bool := codes.all (elemZero fmt) && !(isMx fmt && scale == 0xFF)

/-- Is an element code a NaN or an infinity (the S tag of R170)? -/
def elemSpecial (fmt c : Nat) : Bool := !(elemValue fmt c).isFin

/-! ### The vector functions (R148, R149) -/

/-- m × 2^e in units of 2^q, rounded towards zero or away from it. -/
def unitsOf (up : Bool) (q : Int) (m : Nat) (e : Int) : Nat :=
  if q ≤ e then shl m (e - q) else if up then ceilDiv m (2 ^ (q - e).toNat) else m / 2 ^ (q - e).toNat

/-- The FP32 code of the largest magnitude not above m × 2^e, or of the smallest not below it. -/
def codeBound (up : Bool) (m : Nat) (e : Int) : Nat :=
  if m = 0 then 0 else let q := max (topBit m e - 23) (-149); (q + 149).toNat * 2 ^ 23 + unitsOf up q m e

/-- An FP32 code of the sign of ± m × 2^e within a tolerance of it, at a free place among the codes there; zero stays zero. -/
def codeNear (free : Nat) (tol : Num) (a : Bool) (m : Nat) (e : Int) : Nat :=
  let lo := match (Num.fin false m e).add tol.neg with
    | .fin false n f => codeBound true n f
    | _ => 0
  let hi := match (Num.fin false m e).add tol with
    | .fin _ n f => min fp32.top (codeBound false n f)
    | _ => 0
  let c := lo + free % max 1 (hi + 1 - lo)
  a.toNat * 2 ^ 31 + (if m = 0 ∨ c < 2 ^ 23 then 0 else c)

/-- An FP32 code within k ulp of a finite value of 2^-126 and more, within 2^-126 and k ulp of a smaller one (R148). -/
def nearFn (free k : Nat) (y : Num) : Nat :=
  match y with
  | .fin a m e => codeNear free (if topBit m e < -126 then (Num.fin false 1 (-126)).add (.fin false (k * m) (e - 23)) else .fin false k (topBit m e - 23)) a m e
  | y => toFp32 y

/-- Fraction bits of the fixed-point numbers that the functions are computed in, and ln 2 in them (log 29). -/
def fixBits : Nat := 320
def ln2Fix : Nat := 1480553391661173448385607439722553250922680800745876974795605978609098082859138712941075737848984

/-- m × 2^e in fixed point, towards zero. -/
def toFix (m : Nat) (e : Int) : Nat := unitsOf false (-(fixBits : Int)) m e

/-- The exponential series at r from its n-th term on, in fixed point. -/
def expSeries : Nat → Nat → Nat → Nat → Nat
  | 0, _, _, _ => 0
  | k + 1, n, r, term => term + expSeries k (n + 1) r (term * r / 2 ^ fixBits / (n + 1))

/-- e^x of a fixed-point x = ± f, as a value. -/
def expFix (neg : Bool) (f : Nat) : Num :=
  let x := sgn neg f
  let n := x / (ln2Fix : Int)
  .fin false (expSeries 80 0 (x % (ln2Fix : Int)).toNat (2 ^ fixBits)) (n - fixBits)

/-- e^x of a finite value of moderate magnitude. -/
def expNum : Num → Num
  | .fin a m e => expFix a (toFix m e)
  | x => x

/-- 2^x of a finite value of moderate magnitude. -/
def exp2Num : Num → Num
  | .fin a m e =>
    let x := sgn a (toFix m e)
    let n := x / (2 ^ fixBits : Nat)
    .fin false (expSeries 80 0 ((x % (2 ^ fixBits : Nat)).toNat * ln2Fix / 2 ^ fixBits) (2 ^ fixBits)) (n - fixBits)
  | x => x

/-- 2 × artanh z: the terms of the series from z^n / n on, in fixed point, for p = z^n and q = z². -/
def atanhSeries : Nat → Nat → Nat → Nat → Nat
  | 0, _, _, _ => 0
  | k + 1, n, p, q => 2 * p / n + atanhSeries k (n + 2) (p * q / 2 ^ fixBits) q

/-- ln of a positive finite value. -/
def logNum : Num → Num
  | .fin _ m e =>
    let y := 2 ^ fixBits * m / 2 ^ Nat.log2 m
    let z := (y - 2 ^ fixBits) * 2 ^ fixBits / (y + 2 ^ fixBits)
    Num.ofInt (topBit m e * ln2Fix + (atanhSeries 110 1 z (z * z / 2 ^ fixBits) : Nat)) (-(fixBits : Int))
  | x => x

/-- The quotient of two positive finite values to more than fixBits bits. -/
def ratio : Num → Num → Num
  | .fin _ m e, .fin _ n f =>
    let k := fixBits + Nat.log2 n + 1
    .fin false (m * 2 ^ k / max 1 n) (e - f - (k : Int))
  | x, _ => x

/-- The smaller of a magnitude and 100, beyond which tanh and sigmoid differ from 1 by less than 2^-144. -/
def cap100 (m : Nat) (e : Int) : Num := if (Num.fin false m e).le (.fin false 100 0) then .fin false m e else .fin false 100 0

/-- tanh of a magnitude: by its series near 0, else from e^2x. -/
def tanhNum (m : Nat) (e : Int) : Num :=
  if topBit m e < -40 then
    let x := Num.fin false m e
    x.add (((x.mul x).mul x).mul (.fin true 0x5555555555 (-40)))
  else
    let x := expNum ((cap100 m e).mul (.fin false 2 0))
    ratio (x.add (.fin true 1 0)) (x.add (.fin false 1 0))

/-- 1 / (1 + e^−x). -/
def sigmoidNum (neg : Bool) (m : Nat) (e : Int) : Num :=
  let x := expNum (cap100 m e)
  if neg then ratio (.fin false 1 0) (x.add (.fin false 1 0)) else ratio x (x.add (.fin false 1 0))

/-- The reciprocal of a value that is not 0. -/
def recipNum : Num → Num
  | .fin a m e => let q := ratio (.fin false 1 0) (.fin false m e); if a then q.neg else q
  | x => x

/-- The integer square root, by bisection on its bits. -/
def isqrt : Nat → Nat → Nat → Nat
  | 0, _, r => r
  | k + 1, m, r => let t := r + 2 ^ k; isqrt k m (if t * t ≤ m then t else r)

/-- The square root of a positive value. -/
def sqrtNum : Num → Num
  | .fin a m e =>
    let sh : Nat := if e % 2 = 0 then 320 else 321
    .fin a (isqrt 200 (m * 2 ^ sh) 0) ((e - sh) / 2)
  | x => x

/-! ### The comparator (R436, R437) -/

/-- A non-negative rational num / den × 2^e rounded up to binary32, as a value; infinity beyond the largest finite one. -/
def roundUp (num den : Nat) (e : Int) : Num :=
  if num = 0 then Num.zero
  else
    let n := num * 2 ^ 64
    let t := (Nat.log2 n : Int) - Nat.log2 den + e - 64
    let q := max (t - 24) (-149)
    let sh := e - 64 - q
    let v := ceilDiv (shl n sh) (shl den (-sh))
    let k := Nat.log2 v - 23
    let r := if v < 2 ^ 24 then (v, q) else (ceilDiv v (2 ^ k), q + (k : Nat))
    if (128 : Int) ≤ topBit r.1 r.2 then .inf false else .fin false r.1 r.2

/-- Magnitude and exponent of a finite value. -/
def Num.parts : Num → Nat × Int
  | .fin _ m e => (m, e)
  | _ => (0, 0)

/-- Does an element pass R436: values of both copies, ABS and REL as binary32 codes, whether SCALE applies? Infinities and NaNs
fail, and so does a REL of 1 or more (R437). -/
def elementPasses (ym yc : Num) (absCode relCode : Nat) (scale : Bool) : Bool :=
  match ym, yc with
  | .fin _ _ _, .fin _ _ _ =>
    let r := ofFp32 relCode
    if Num.le (.fin false 1 0) r then false
    else
      let a := ofFp32 absCode
      let least := if ym.abs.le yc.abs then ym.abs else yc.abs
      let top := (least.add a).parts
      let den := ((Num.fin false 1 0).add r.neg).parts
      let x := roundUp top.1 den.1 (top.2 - den.2)
      let tail := if scale then Num.fin false 1 (-126) else Num.zero
      let w := ((Num.fin false 2 0).mul (a.add (r.mul x))).add tail
      let wUp := match w with
        | .fin _ m e => roundUp m 1 e
        | y => y
      let d := (ym.add yc.neg).parts
      (roundUp d.1 1 d.2).le wUp
  | _, _ => false

end Sys2Proof.Machine
end

