-- ==== Sys2Proof/Machine/Packing.lean ====
section
/-! DEFINITION. Packed weight tensors: header, segment index, segments, the canonical code, the loader's checks and the
unpacker (R155 to R166), and CRC-32C. -/

namespace Sys2Proof.Machine

/-! ### CRC-32C -/

/-- One bit of the reflected CRC-32C register. -/
def crcBit (c : Nat) : Nat := if c % 2 = 1 then (c / 2) ^^^ 0x82F63B78 else c / 2

/-- One byte. -/
def crcByte (c : Nat) (b : Byte) : Nat :=
  crcBit (crcBit (crcBit (crcBit (crcBit (crcBit (crcBit (crcBit (c ^^^ b.toNat))))))))

/-- CRC-32C of a byte string. -/
def crc32c (bs : List Byte) : Nat := (bs.foldl crcByte 0xFFFFFFFF) ^^^ 0xFFFFFFFF

/-! ### The header (R158) -/

/-- The fields of the 64 B header. -/
structure PackHead where
  fmt      : Nat
  segLog   : Nat
  blocks   : Nat
  segments : Nat
  bytes    : Nat
  crc      : Nat
  deriving DecidableEq, Repr

/-- Reads a header of eight words; none where MAGIC, VERSION, FORMAT or a reserved field breaks R158. -/
def parsePack (ws : List Nat) : Option PackHead :=
  let h : PackHead := ⟨wordBits ws 0 47 40, wordBits ws 0 39 32, wordBits ws 1 63 0, wordBits ws 2 63 32, wordBits ws 4 63 0,
    wordBits ws 5 31 0⟩
  if wordBits ws 0 31 0 = 0x574B5031 ∧ wordBits ws 0 63 48 = 1 ∧ 1 ≤ h.fmt ∧ h.fmt ≤ 8 ∧ 5 ≤ h.segLog ∧ h.segLog ≤ 10 ∧
      h.segments = ceilDiv h.blocks (2 ^ h.segLog) ∧ wordBits ws 2 31 0 = 0 ∧ wordBits ws 5 63 32 = 0 ∧ wordBits ws 6 63 0 = 0 ∧
      wordBits ws 7 63 0 = 0 then some h
  else none

/-! ### The code (R161, R162) -/

/-- A codeword as it stands in the stream: its length, its bits with the most significant lowest, its symbol. -/
structure CodeWord where
  len  : Nat
  bits : Nat
  sym  : Nat
  deriving DecidableEq, Repr

/-- Reverses the low n bits. -/
def revBits : Nat → Nat → Nat
  | 0, _ => 0
  | n + 1, v => v % 2 * 2 ^ n + revBits n (v / 2)

/-- Canonical assignment: for each length in turn, the symbols of that length in order. -/
def codeWords (lens : List Nat) : List CodeWord :=
  ((List.range 15).foldl (fun (code, out) i =>
    let len := i + 1
    let syms := (List.range lens.length).filter (fun s => lens.getD s 0 == len)
    let r := syms.foldl (fun (c, o) s => (c + 1, o ++ [⟨len, revBits len c, s⟩])) (code, out)
    (r.1 * 2, r.2)) (0, ([] : List CodeWord))).2

/-- The code lengths of a table of n symbols. -/
def codeLens (n : Nat) (bs : List Byte) : List Nat := bytesElems 4 n bs

/-- Is the sum of 2^−length at most 1? -/
def kraftOk (lens : List Nat) : Bool := decide ((lens.map (fun l => if l = 0 then 0 else 2 ^ (15 - l))).sum ≤ 2 ^ 15)

/-- Decodes n symbols from the low `avail` bits of a number; none unless they take exactly those bits. -/
def decodeSyms (code : List CodeWord) : Nat → Nat → Nat → Option (List Nat)
  | 0, avail, _ => if avail = 0 then some [] else none
  | n + 1, avail, v =>
    match code.find? (fun c => decide (c.len ≤ avail) && v % 2 ^ c.len == c.bits) with
    | none => none
    | some c => (decodeSyms code n (avail - c.len) (v / 2 ^ c.len)).map (c.sym :: ·)

/-! ### Segments (R160) -/

/-- A block of the plain form: 32 element codes and, in MX formats, the scale; an elided block is 32 zeros with scale 0. -/
structure Block where
  scale : Nat
  elems : List Nat
  deriving DecidableEq, Repr

/-- The all-zero block. -/
def Block.zero : Block := ⟨0, List.replicate 32 0⟩

/-- Bits of a symbol of the element stream. -/
def symBits (fmt : Nat) : Nat := if fmt = 1 ∨ fmt = 4 then 4 else 8

/-- Lays the present blocks out over the zero map. -/
def spread : List Bool → List Block → List Block
  | [], _ => []
  | true :: m, bs => Block.zero :: spread m bs
  | false :: m, b :: bs => b :: spread m bs
  | false :: m, [] => Block.zero :: spread m []

/-- The blocks of one segment of `count` blocks; none where a bit pattern is no codeword, the segment ends early or runs over,
or a field breaks R160 or R163. -/
def unpackSegment (fmt segLog count : Nat) (bs : List Byte) : Option (List Block) :=
  let w := ofLe (bs.take 8)
  let mode := bits w 63 62
  let zm := bits w 61 61
  let present := bits w 47 32
  let nbits := bits w 31 0
  if bits w 60 48 ≠ 0 ∨ mode = 3 ∨ bs.length < 8 then none
  else if mode = 2 then (if bs.length = 8 then some (List.replicate count Block.zero) else none)
  else
    let mapLen := if zm = 1 then ceilDiv (2 ^ segLog) 64 * 8 else 0
    let tabLen := if mode = 1 then (if symBits fmt = 4 then 8 else 128) else 0
    let scLen := if isMx fmt then present else 0
    let lowLen := if fmt = 7 ∨ fmt = 8 then 32 * present else 0
    let a := 8 + mapLen
    let b := a + tabLen
    let c := b + scLen
    let d := c + lowLen
    let map := (List.range count).map (fun i => zm == 1 && ofLe ((bs.drop 8).take mapLen) / 2 ^ i % 2 == 1)
    let lens := codeLens (2 ^ symBits fmt) ((bs.drop a).take tabLen)
    let stream := ofLe (bs.drop d) % 2 ^ nbits
    let n := 32 * present
    let syms := if mode = 1 then (if kraftOk lens then decodeSyms (codeWords lens) n nbits stream else none)
      else if nbits = n * symBits fmt then some (bytesElems (symBits fmt) n (bs.drop d)) else none
    if d + ceilDiv nbits 8 ≠ bs.length ∨ (map.filter (fun x => !x)).length ≠ present then none
    else syms.map (fun ss => spread map ((List.range present).map (fun p =>
      ⟨if isMx fmt then ((bs.drop b).getD p 0).toNat else 0,
       (List.range 32).map (fun e => ss.getD (32 * p + e) 0 * (if lowLen = 0 then 1 else 256) +
         (if lowLen = 0 then 0 else ((bs.drop c).getD (32 * p + e) 0).toNat))⟩)))

/-- Reads a packed tensor's header; a packed tensor is read as an image, from its first byte. -/
def Image.packHead (im : Image) : Option PackHead := parsePack (im.words 0 8)

/-- The blocks of segment i of a packed tensor. -/
def Image.unpackAt (im : Image) (h : PackHead) (i : Nat) : Option (List Block) :=
  let e := ofLe (im (64 + 8 * i) 8)
  let count := min (2 ^ h.segLog) (h.blocks - i * 2 ^ h.segLog)
  unpackSegment h.fmt h.segLog count (im (64 * bits e 63 32) (bits e 31 0))

/-- The loader's checks of one packed tensor (R163). -/
def Image.packedOk (im : Image) : Bool :=
  match im.packHead with
  | none => false
  | some h =>
    decide (64 ≤ h.bytes) && crc32c (im 64 (h.bytes - 64)) == h.crc &&
    (List.range h.segments).all (fun i => (im.unpackAt h i).isSome)

/-- The image part that starts at an offset. -/
def Image.tail (im : Image) (a : Nat) : Image := fun off n => im (a + off) n

/-- The checks that the hot set makes of an image it admits: those of the pattern, and the loader's of each packed tensor in it, which
lies inside the image (R163, R201, R222, R302, R308, R326). -/
def Image.admitOk (im : Image) (length : Nat) : Bool :=
  im.patternOk length && (Config.packedIn (im 0 length)).all (fun off =>
    (im.tail off).packedOk && (match (im.tail off).packHead with
      | some h => decide (off + h.bytes ≤ length)
      | none => false))

/-- The segments that hold the blocks [first, first + n). -/
def PackHead.segs (h : PackHead) (first n : Nat) : List Nat :=
  (List.range (ceilDiv (first + n) (2 ^ h.segLog) - first / 2 ^ h.segLog)).map (fun i => first / 2 ^ h.segLog + i)

/-- The plain blocks [first, first + n) of a packed tensor: every segment from the one that holds the first is decoded from its
start (R165); none is an unpack error (R164). -/
def Image.unpackBlocks (im : Image) (first n : Nat) : Option (List Block) :=
  match im.packHead with
  | none => none
  | some h =>
    let segs := (h.segs first n).map (im.unpackAt h)
    if first + n ≤ h.blocks ∧ segs.all (·.isSome) then some (((segs.filterMap id).flatten.drop (first % 2 ^ h.segLog)).take n) else none

/-- The parts of a packed tensor that such a fill reads, as (offset, length): header, index entries, segments (R164). -/
def Image.packedReads (im : Image) (first n : Nat) : List (Nat × Nat) :=
  match im.packHead with
  | none => [(0, 64)]
  | some h => (0, 64) :: (h.segs first n).flatMap (fun i =>
      let e := ofLe (im (64 + 8 * i) 8)
      [(64 + 8 * i, 8), (64 * bits e 63 32, bits e 31 0)])

end Sys2Proof.Machine
end

