-- ==== Sys2Proof/Machine/Hot.lean ====
section
/-! DEFINITION. The hot set: resident images, lookup, room and eviction, pinned lines, the start of a load (R302 to R309). -/

namespace Sys2Proof.Machine

/-- Entries of the directory, and bytes of a granule (R302, R303). -/
def hotCount : Nat := 4096
def granule : Nat := 2 ^ 21

/-- The granules of the region in force. -/
def State.hotGranules (s : State) : Nat := 32 * s.sched.hotSize

/-- The image of an entry: the pattern itself in place, or its copy through the granules. -/
def State.hotImage (s : State) (e : HotEntry) : Image := fun off n =>
  if e.kind = 0 then s.peekBytes (s.place e.key + off) n
  else (List.range n).map (fun i =>
    s.readByte (s.sched.hotBase + granule * e.granules.getD ((off + i) / granule) 0 + (off + i) % granule))

/-- Does a read of an image meet poison? -/
def State.hotPoisoned (s : State) (e : HotEntry) (off n : Nat) : Bool :=
  if e.kind = 0 then s.readFails (s.place e.key + off) n
  else (List.range (ceilDiv n 64 + 1)).any (fun i =>
    let x := min (off + 64 * i) (off + n - 1)
    s.readFails (s.sched.hotBase + granule * e.granules.getD (x / granule) 0 + x % granule) 1)

/-- The entry with a key and owner. -/
def State.hotFind (s : State) (key owner : Nat) : Option Nat :=
  (s.hot.find? (fun x => x.2.state != 0 && x.2.key == key && x.2.owner == owner)).map (·.1)

/-- The entry that a descriptor of instance v names: its own before the shared one (R304). -/
def State.hotLookup (s : State) (key v : Nat) : Option Nat :=
  match s.hotFind key (0x10 + v) with
  | some i => some i
  | none => s.hotFind key 0x02

/-- Does a job between admission and record name an entry (R306)? -/
def State.hotInUse (s : State) (i : Nat) : Bool := s.jobs.any (fun j => j.kind == 1 && j.entry == i)

/-- Is an entry evictable (R306)? -/
def State.evictable (s : State) (i : Nat) : Bool :=
  let e := s.hotEntry i
  e.kind != 0 && !e.pin && e.state == 3 && !s.hotInUse i

/-- Unpins the lines of an entry in the array cache (R307). -/
def State.unpin (s : State) (i : Nat) : State :=
  { s with memst := { s.memst with cache := updWhere (fun l => l.pin == some i) (fun l => { l with pin := none }) s.memst.cache } }

/-- A copy leaves the region: the entry stays registered, not resident (R303, R306). -/
def State.hotDrop (s : State) (i : Nat) : State :=
  (s.setHot i { s.hotEntry i with state := 1, granules := [], waitRoom := false }).unpin i

/-- The evictable entry, of a set, with the oldest LAST_USE (R306). -/
def State.victim (s : State) (p : HotEntry → Bool) : Option Nat :=
  let l := s.hot.filter (fun x => p x.2 && s.evictable x.1)
  (l.foldl (fun (b : Option (Nat × HotEntry)) x => match b with
    | none => some x
    | some y => if x.2.lastUse < y.2.lastUse then some x else b) none).map (·.1)

/-- Granules of a length. -/
def granulesOf (length : Nat) : Nat := ceilDiv length granule

/-- Granules taken, and the lowest free ones. -/
def State.hotTaken (s : State) : List Nat := s.hot.flatMap (fun x => x.2.granules)
def State.hotFree (s : State) : List Nat :=
  let t := s.hotTaken
  (List.range s.hotGranules).filter (fun g => !t.contains g)

/-- Granules that copies of an owner occupy or are loading into (R305). -/
def State.hotOwned (s : State) (owner : Nat) : Nat :=
  ((s.hot.filter (fun x => x.2.owner == owner && x.2.kind != 0)).map (fun x => x.2.granules.length)).sum

/-- The quota of an owner in granules; none for the shared tenant (R305). -/
def State.hotQuota (s : State) (owner : Nat) : Option Nat :=
  if owner < 0x10 then none else some (32 * s.fld (Reg.ARY_SHARE (owner - 0x10)) Fd.ARY_SHARE_HOT_QUOTA)

/-- Evicts until a load of an entry fits its owner's quota and the region, as far as it can (R305). -/
def State.makeRoom : Nat → State → Nat → State × Bool
  | 0, s, _ => (s, false)
  | n + 1, s, i =>
    let e := s.hotEntry i
    let need := granulesOf e.length
    let above := match s.hotQuota e.owner with
      | some q => decide (q < s.hotOwned e.owner + need)
      | none => false
    if above then
      match s.victim (fun x => x.owner == e.owner) with
      | some v => State.makeRoom n (s.hotDrop v) i
      | none => (s, false)
    else if s.hotFree.length < need then
      match s.victim (fun _ => true) with
      | some v => State.makeRoom n (s.hotDrop v) i
      | none => (s, false)
    else (s, true)

/-- The highest class among the jobs that wait for an entry's load, best-effort for a reload that none waits for (R309). -/
def State.loadCls (s : State) (i : Nat) : Cls :=
  let cs := (s.jobs.filter (fun j => j.kind == 1 && j.entry == i)).map (fun j => s.ringCls j.ring)
  if cs.contains .lc then .lc else if cs.contains .test then .test else .be

/-- The request of the loader of an entry (R309): at the rank of the highest-class job that waits, on its owner's quota. -/
def State.loaderReq (s : State) (i : Nat) : AlwReq :=
  let o := (s.hotEntry i).owner
  s.unitReq (.loader i) (s.loadCls i) (if o < 0x10 then none else some (o - 0x10)) 0

/-- Begins or continues the wait of a load for room; with room its granules are taken and its grant requested (R303 to R309). -/
def State.startLoad (s : State) (i : Nat) : State :=
  let (s1, ok) := State.makeRoom hotCount s i
  let e := s1.hotEntry i
  if ok then
    let s2 := s1.setHot i { e with state := 2, waitRoom := false, granules := s1.hotFree.take (granulesOf e.length) }
    s2.alwRequest (s2.loaderReq i)
  else s1.setHot i { e with state := 2, waitRoom := true }

/-- A loader's request and grant follow the class of the highest-class job that waits for it (R309). -/
def State.reclass (s : State) (i : Nat) : State :=
  let c := s.loadCls i
  let f := fun (r : AlwReq) => if r.holder = .loader i then { r with cls := c } else r
  { s with alw := { s.alw with
      waiting := s.alw.waiting.map f
      grants := s.alw.grants.map (fun g => { g with req := f g.req })
      ramp := s.alw.ramp.map (fun x => { x with req := x.req.map f }) } }

/-- Is a loader's request of another class than its jobs'? -/
def State.wrongCls (s : State) (i : Nat) : Bool :=
  (s.alw.waiting ++ s.alw.grants.map (·.req) ++ (s.alw.ramp.bind (·.req)).toList).any (fun r => r.holder == .loader i && r.cls != s.loadCls i)

/-- Loads that wait for room try again, and loads under way take the class of the jobs that wait for them. -/
def State.hotRetry (s : State) : State :=
  let s1 := (s.hot.filter (fun x => x.2.waitRoom)).foldl (fun a x => a.startLoad x.1) s
  (s1.hot.filter (fun x => x.2.state == 2)).foldl (fun a x => if a.wrongCls x.1 then (a.reclass x.1).reclaimMore else a) s1

/-- The job engine acts, and loads that wait for room try again: the end of every command that may end a job. -/
def State.wrapUp (s : State) : State := s.settle.hotRetry

/-! ### The array cache (R196, R199) -/

/-- The set of a line in its slice (R196). -/
def cacheSet (line : Nat) : Nat := Config.cacheSet line % 2048

/-- Allocated lines leave the cache, what they hold written back: memory reads as before (R199). -/
def State.dropLines (s : State) (p : CacheLine → Bool) : State :=
  { s with memst := { s.memst with cache := s.memst.cache.filter (fun l => !p l) } }

/-- The slice of an address (R196). -/
def cacheSlice (a : Nat) : Nat := (bits a 9 6 ^^^ bits a 21 18) ^^^ bits a 33 30

/-- Do two lines share a set? -/
def sameSet (a b : Nat) : Bool := cacheSlice (64 * a) == cacheSlice (64 * b) && cacheSet a == cacheSet b

end Sys2Proof.Machine
end

