-- ==== Sys2Proof/Machine/Cores.lean ====
section
/-! DEFINITION. Reading and writing the parts of an array core, saves and restores, clearing (R183 to R192, R203 to R209). -/

namespace Sys2Proof.Machine

/-- What an unlisted cell of a core's memories holds: 0, or after a restore an undefined value (R205). -/
def blankCell (fill : Option Nat) (i : Nat) : Nat :=
  match fill with
  | none => 0
  | some g => Config.freeCell g i

/-- The bytes that a scratchpad holds (R188). -/
def spSize : Nat := 2 ^ 20

/-- The scratchpad: an offset has 20 bits (R188). -/
def Core.spBlank (c : Core) (a : Nat) : Byte := BitVec.ofNat 8 (blankCell c.fillSp a)
def Core.spByte (c : Core) (a : Nat) : Byte := Sparse.get c.spBlank (a % spSize) c.sp
def Core.spBytes (c : Core) (a n : Nat) : List Byte := (List.range n).map (fun i => c.spByte (a + i))
def Core.putSp (c : Core) : Nat → List Byte → Core
  | _, [] => c
  | a, b :: bs => Core.putSp { c with sp := Sparse.put c.spBlank (a % spSize) b c.sp } (a + 1) bs

/-- The vector registers: 64 lanes of 32 bits. -/
def Core.vBlank (c : Core) (v : Nat) : List Nat := (List.range 64).map (fun i => blankCell c.fillRegs (64 * v + i) % 2 ^ 32)
def Core.lanes (c : Core) (v : Nat) : List Nat := Sparse.get c.vBlank v c.vreg
def Core.putLanes (c : Core) (v : Nat) (l : List Nat) : Core :=
  { c with vreg := Sparse.put c.vBlank v ((List.range 64).map (fun i => l.getD i 0 % 2 ^ 32)) c.vreg }

/-- The accumulator file: 32 lanes an entry; outside a restored live set an entry's kind is undefined too (R205). -/
def Core.aBlank (c : Core) (e : Nat) : AccEntry :=
  { kind := match c.fillRegs with
      | none => .cleared
      | some g => match Config.freeCell g (0x40000 + e) % 3 with
        | 0 => .cleared
        | 1 => .int32
        | _ => .fp32
    lanes := (List.range 32).map (fun i => blankCell c.fillRegs (0x10000 + 32 * e + i) % 2 ^ 32) }
def Core.entry (c : Core) (e : Nat) : AccEntry := Sparse.get c.aBlank e c.acc
def Core.putEntry (c : Core) (e : Nat) (a : AccEntry) : Core := { c with acc := Sparse.put c.aBlank e a c.acc }

/-- The active and the inactive half of the tile buffer (R184). -/
def Core.active (c : Core) : TileHalf := if c.active1 then c.half1 else c.half0
def Core.putInactive (c : Core) (h : TileHalf) : Core := if c.active1 then { c with half0 := h } else { c with half1 := h }
def Core.tileByte (c : Core) (i : Nat) : Nat :=
  match c.active.bytes[i]? with
  | some b => b.toNat
  | none => blankCell c.fillRegs (0x20000 + i) % 256
def Core.tileScale (c : Core) (i : Nat) : Nat :=
  match c.active.scales[i]? with
  | some b => b.toNat
  | none => blankCell c.fillRegs (0x30000 + i) % 256

/-- The sequencer's parts at the start of a job (R192, R202). -/
def Core.fresh (c : Core) : Core :=
  { c with span := 0, pc := 0, atCheap := false, tags := [], queues := [], waitTag := none, waitPush := false, halted := false, tile := none,
           cheapCount := 0, cheapPc := 0, held := false, stepOk := false, wdogLeft := none }

/-- Clears vector registers, accumulator file and tile buffers (R209, R317). -/
def Core.clearRegs (c : Core) : Core := { c with vreg := [], acc := [], half0 := {}, half1 := {}, active1 := false, fillRegs := none }

/-- A tenant scrub clears everything that a tenant owned (R513). -/
def Core.scrub (c : Core) : Core :=
  { c.clearRegs.fresh with sp := [], fillSp := none, blockTag := [], resid := 0, assist := [] }

/-- Restores a whole state onto a core (R206). -/
def Core.restoreWhole (c saved : Core) : Core :=
  { c with
    half0 := saved.half0, half1 := saved.half1, active1 := saved.active1, acc := saved.acc, vreg := saved.vreg, sp := saved.sp
    fillSp := saved.fillSp, fillRegs := saved.fillRegs, tags := saved.tags, blockTag := saved.blockTag, resid := saved.resid
    resident := saved.resident, span := saved.span, pc := saved.pc, atCheap := saved.atCheap, queues := saved.queues
    assist := saved.assist, waitTag := saved.waitTag, waitPush := saved.waitPush
    cheapCount := saved.cheapCount, cheapPc := saved.cheapPc }

/-- Does a set of live pages hold n bytes of the scratchpad from an offset? -/
def livePages (pages : List Nat) (a n : Nat) : Bool :=
  (List.range ((a + n + 4095) / 4096 - a / 4096)).all (fun i => pages.contains (a / 4096 + i))

/-- Restores a live set: everything outside it becomes undefined, under a new generation g, block tags and candidate areas of pages that
are not live with it (R205, R242). -/
def Core.restoreLive (c saved : Core) (g : Nat) (live : List Nat × List Nat × List Nat) : Core :=
  let c0 := { c.fresh with sp := [], vreg := [], acc := [], half0 := {}, half1 := {}, active1 := false, fillSp := some g, fillRegs := some g
                           assist := saved.assist.filter (fun x => livePages live.1 x.1 65536), pc := saved.pc + 1
                           resident := saved.resident, resid := saved.resid
                           blockTag := saved.blockTag.filter (fun x => livePages live.1 x.1 (x.2 / 4)), cheapCount := saved.cheapCount + 1, cheapPc := saved.pc + 1 }
  let c1 := live.1.foldl (fun a p => a.putSp (4096 * p) (saved.spBytes (4096 * p) 4096)) c0
  let c2 := live.2.1.foldl (fun a v => a.putLanes v (saved.lanes v)) c1
  live.2.2.foldl (fun a e => a.putEntry e (saved.entry e)) c2

/-! ### ARY_CORE_n (R215) -/

/-- MODE: 0 compute, 1 graphics, 2 switching, 3 out of service. -/
def State.coreMode (s : State) (n : Nat) : Nat := s.fld (Reg.ARY_CORE n) Fd.ARY_CORE_MODE
def State.setMode (s : State) (n m : Nat) : State := s.setFld (Reg.ARY_CORE n) Fd.ARY_CORE_MODE m

/-- TENANT: the origin identifier whose state the core holds. -/
def State.coreTenant (s : State) (n : Nat) : Nat := s.fld (Reg.ARY_CORE n) Fd.ARY_CORE_TENANT

/-- The power domain of the physical core that serves a logical core (R179). -/
def State.coreDomain (s : State) (n : Nat) : Nat := 47 + s.fld (Reg.ARY_CORE n) Fd.ARY_CORE_PHYS

/-- The physical core that serves a logical core (R179). -/
def State.physOf (s : State) (n : Nat) : Nat := s.fld (Reg.ARY_CORE n) Fd.ARY_CORE_PHYS

/-- Does a core wait for the replacement of a scratchpad row (R475)? -/
def State.rowWaits (s : State) (n : Nat) : Bool := s.darn.spWait.any (fun r => r.phys == s.physOf n)

/-- Is a core in service and not withdrawn from placement: its domain and its panel's shared logic on (R84), no row awaiting
replacement? -/
def State.inService (s : State) (n : Nat) : Bool :=
  s.coreMode n != 3 && !(s.core n).withdrawn && !s.rowWaits n && s.domainOn (s.coreDomain n) && s.domainOn (31 + n / 8) && !s.watch.panels.contains (n / 8)

/-- Is a core idle: no job, no golden run, no scrub, no switch? -/
def State.coreIdle (s : State) (n : Nat) : Bool :=
  let c := s.core n
  s.inService n && c.job.isNone && c.test.isNone && !c.scrubs && s.coreMode n != 2

end Sys2Proof.Machine
end

