-- ==== Sys2Proof/Machine/Sched.lean ====
section
/-! DEFINITION. The scheduler: shapes and ranks, advance placement, placement, preemption, the start of a run, job faults and
the array flush (R291 to R320). -/

namespace Sys2Proof.Machine

/-! ### Ranks (R297, R298) -/

/-- The tenant and the mode of a job. -/
def jobTenant (j : Job) : Nat := 0x10 + ringVi j.ring
def jobMode (j : Job) : Nat := if j.pat.graphics then 1 else 0

/-- Is the job on a core a best-effort job that the scheduler may preempt: a running one, or one that is placed and has not started
(R291)? -/
def State.beRunning (s : State) (n : Nat) : Bool :=
  match (s.core n).job with
  | none => false
  | some (r, q) =>
    match s.job? r q with
    | none => false
    | some j => s.ringCls r == .be && (j.stage == .placed || j.stage == .running || j.stage == .preempting)

/-- Is a core kept for another job that is past Held and waits for it, of the same or a higher class? The preemption that frees it was
made for that job (R312). -/
def State.claimed (s : State) (j : Job) (n : Nat) : Bool :=
  s.jobs.any (fun k => !(k.ring == j.ring && k.seq == j.seq) && k.stage != .held && (s.ringCls k.ring).index ≤ (s.ringCls j.ring).index &&
    (match k.resv with
      | some r => (r.cores ++ r.ckCores).contains n
      | none => false))

/-- The rank of a core for a job; none where it cannot be had. A job that was refused a preemption waits for cores that become free
otherwise (R311). -/
def State.rank (s : State) (j : Job) (n : Nat) : Option Nat :=
  if s.claimed j n then none
  else if s.coreIdle n then
    if s.coreMode n = jobMode j then
      if s.coreTenant n = jobTenant j then
        if j.pat.residency ≠ 0 ∧ (s.core n).resid = j.pat.residency then some 1 else some 2
      else some 3
    else some 4
  else if s.inService n && s.ringCls j.ring != .be && !j.noPreempt && s.beRunning n then some 5
  else none

/-- The cores of a panel. -/
def panelCores (p : Nat) : List Nat := (List.range 8).map (fun k => 8 * p + k)

/-- Is every core of a panel idle? -/
def State.panelIdle (s : State) (p : Nat) : Bool := (panelCores p).all s.coreIdle

/-- May a job use a panel: a best-effort job takes no panel that is kept for a gathering job (R300)? -/
def State.panelOpen (s : State) (j : Job) (p : Nat) : Bool :=
  s.ringCls j.ring != .be || (match s.sched.gather with
    | none => true
    | some (r, q) => (r == j.ring && q == j.seq) || !s.panelIdle p)

/-- The fair counter of the best-effort job that runs on a core (R312). -/
def State.victimFair (s : State) (n : Nat) : Nat :=
  match (s.core n).job with
  | none => 0
  | some (r, _) => s.fair (ringVi r) .be

/-- Inserts a core among others, those with the higher fair counter of their job first (R312). -/
def State.byFair (s : State) (n : Nat) : List Nat → List Nat
  | [] => [n]
  | m :: l => if s.victimFair m < s.victimFair n then n :: m :: l else m :: State.byFair s n l

/-- The n best-ranked cores of a panel, lower numbers first, and among cores to be freed by preemption those of the instance with the
highest fair counter; with the set's rank: that of its worst core. -/
def State.panelSet (s : State) (j : Job) (n p : Nat) : Option (Nat × List Nat) :=
  let l := [1, 2, 3, 4].flatMap (fun r => ((panelCores p).filter (fun c => s.rank j c == some r)).map (fun c => (r, c))) ++
    (((panelCores p).filter (fun c => s.rank j c == some 5)).foldl (fun a c => s.byFair c a) []).map (fun c => (5, c))
  if l.length < n then none else some ((((l.take n).map (·.1)).foldl max 0), (l.take n).map (·.2))

/-- The cores that other held jobs have reserved (R299). -/
def State.reservedBy (s : State) (j : Job) : List Nat :=
  s.jobs.flatMap (fun k => if k.ring == j.ring && k.seq == j.seq then [] else match k.resv with
    | some r => r.cores ++ r.ckCores
    | none => [])

/-- The measured rate of a panel (R24, R25). -/
def State.panelRate (s : State) (p : Nat) : Nat := s.fld (Reg.PWR_RATE p) Fd.PWR_RATE_RATE

/-- Is candidate a, of rank, panel and cores, better than b for a job (R298)? -/
def State.better (s : State) (j : Job) (a b : Nat × Nat × List Nat) : Bool :=
  if a.1 ≠ b.1 then decide (a.1 < b.1)
  else if s.ringCls j.ring = .be then decide (s.panelRate b.2.1 < s.panelRate a.2.1)
  else
    let res := s.reservedBy j
    let ra := a.2.2.any res.contains
    let rb := b.2.2.any res.contains
    rb && !ra

/-- The best k of the candidates, which stand in panel order. -/
def State.bestSets (s : State) (j : Job) : Nat → List (Nat × Nat × List Nat) → List (Nat × Nat × List Nat)
  | 0, _ => []
  | k + 1, l =>
    match l with
    | [] => []
    | c :: cs =>
      let b := cs.foldl (fun x y => if s.better j y x then y else x) c
      b :: State.bestSets s j k (l.erase b)

/-- A set of cores for a job's shape, on panels other than the excluded ones (R297, R298). -/
def State.chooseSet (s : State) (j : Job) (excl : List Nat) : Option (List Nat) :=
  let n := j.pat.cores
  let per := min n 8
  let want := if n ≤ 8 then 1 else n / 8
  let cand := (List.range 16).filterMap (fun p =>
    if excl.contains p || !s.panelOpen j p then none else (s.panelSet j per p).map (fun x => (x.1, p, x.2)))
  let got := s.bestSets j want cand
  if got.length < want then none else some (got.flatMap (·.2.2))

/-- The panels of a set of cores. -/
def panelsOf (l : List Nat) : List Nat := (l.map (· / 8)).eraseDups

/-! ### Advance placement (R299) -/

/-- The enabled RING_SLOT entry that targets a ring. -/
def State.slotEntry (s : State) (ring : Nat) : Option Nat :=
  (s.tacks.find? (fun x => x.2.enable && !x.2.spent && x.2.action == 1 && x.2.target == ring)).map (·.1)

/-- Is a reserved core still usable: in service and not held by latency-critical or test work? -/
def State.reservable (s : State) (n : Nat) : Bool :=
  s.inService n && (s.core n).test.isNone && ((s.core n).job.isNone || s.beRunning n)

/-- Places a held latency-critical or test job in advance, if an enabled RING_SLOT entry targets its ring. -/
def State.advance (s : State) (j : Job) : State :=
  if j.kind = 1 ∧ j.stage = .held ∧ s.ringCls j.ring ≠ .be ∧ (s.hotEntry j.entry).state = 3 then
    match s.slotEntry j.ring with
    | none => s
    | some e =>
      match s.chooseSet j [] with
      | none => s
      | some main =>
        let ck := if descBstitch j.desc then (s.chooseSet j (panelsOf main)).getD [] else []
        let r : Reservation := ⟨main, ck, s.sched.resvGen, (s.tack e).instant / 65536 + 100000, e⟩
        { s.modJob j.ring j.seq (fun k => { k with resv := some r }) with sched := { s.sched with resvGen := s.sched.resvGen + 1 } }
  else s

/-- Reservations whose cores have left service or are held by latency-critical or test work are dropped; their jobs are placed
afresh at release. -/
def State.checkReservations (s : State) : State :=
  (s.jobs.filter (fun j => j.stage == .held && (match j.resv with
    | some r => !((r.cores ++ r.ckCores).all s.reservable)
    | none => false))).foldl (fun a j => a.modJob j.ring j.seq (fun k => { k with resv := none })) s

/-- The held jobs whose reservation a latency-critical or test job takes over with a set of cores; best-effort work runs on reserved
cores without that (R298, R299). -/
def State.displaced (s : State) (j : Job) (cs : List Nat) : List Job :=
  if s.ringCls j.ring = .be then []
  else s.jobs.filter (fun k => !(k.ring == j.ring && k.seq == j.seq) && (match k.resv with
    | some r => (r.cores ++ r.ckCores).any cs.contains
    | none => false))

/-- Their reservations are dropped, and once the set is taken they are placed afresh. -/
def State.dropResv (s : State) (l : List Job) : State := l.foldl (fun a k => a.modJob k.ring k.seq (fun x => { x with resv := none })) s
def State.replace (s : State) (l : List Job) : State :=
  l.foldl (fun a k => match a.job? k.ring k.seq with
    | some x => a.advance x
    | none => a) s

/-! ### Runs (R192, R212, R266, R296, R315) -/

/-- WDOG_US in ns (R212, R214). -/
def State.wdogNs (s : State) : Nat := 1000 * max 10 (s.fld Reg.ARY_WDOG Fd.ARY_WDOG_WDOG_US)

/-- One core starts work for a job, or resumes it from a saved state. -/
def State.startCore (s : State) (j : Job) (n : Nat) : State :=
  let ck := j.ckCores.contains n
  let pos := (if ck then j.ckCores else j.cores).idxOf n
  let c := s.core n
  let base : Core := { c.fresh with job := some (j.ring, j.seq), checker := ck, wdogEnd := some (s.now + s.wdogNs) }
  let same := j.pat.residency != 0 && c.resid == j.pat.residency
  let s1 := (s.setFld (Reg.ARY_CORE n) Fd.ARY_CORE_BUSY 1).setFld (Reg.ARY_CORE n) Fd.ARY_CORE_TENANT (jobTenant j)
  match j.saves.find? (fun v => v.position == pos && v.checker == ck) with
  | none => s1.setCore n { base with resident := same, resid := if same then c.resid else 0 }
  | some v =>
    match v.live with
    | none => s1.setCore n (base.restoreWhole v.core)
    | some live =>
      let (_, s2) := s1.takeFree
      s2.setCore n (base.restoreLive v.core s.free live)

/-- The seal checks of a job begin with its first run: one task for each SEALED input (R270). -/
def State.startSeals (s : State) (j : Job) : State :=
  let bs := (List.range j.tens.length).filter (fun i => match j.tens[i]? with
    | some t => t.isSealed && t.role == 0
    | none => false)
  let new := bs.filter (fun b => !(j.seals.any (fun v => v.binding == b)) &&
    !(s.seals.any (fun t => t.ring == j.ring && t.seq == j.seq && t.binding == b)))
  { s with seals := s.seals ++ new.map (fun b => ⟨j.ring, j.seq, b, none, false⟩) }

/-- A seal checker's read of a range that leaves the package: of another device, or of a DATA mapping of the host memory window; a
refused one delivers poison (R508, R564, R625, R629). -/
def State.checkerRead (s : State) (k tenant g len : Nat) (isSeal : Bool) : State :=
  if devOf g ≠ s.ownDev then
    let q := s.readRemote tenant g len isSeal (.checker k)
    if q.2 = 0 then q.1.setPoison (s.place g) len else q.1
  else if inHostWindow (g % 2 ^ 48) then
    let a := g % 2 ^ 48
    if s.windowOpen a && (s.mapEntry (granuleOf a)).data then
      let h := s.handOver tenant a len
      if h.2 then h.1 else h.1.holdRead tenant a len (.checker k)
    else s.windowRefuse.setPoison a len
  else s

/-- A seal checker that starts on a tensor outside the package reads its seals and the payload. -/
def State.sealReads (s : State) (k : Nat) : State :=
  match s.seals.find? (fun t => t.checker == some k) with
  | none => s
  | some t =>
    match s.job? t.ring t.seq with
    | none => s
    | some j =>
      let x := j.tens.getD t.binding {}
      let s1 := (List.range x.n).foldl (fun a i => a.checkerRead k (jobTenant j) (x.sealAddr + 32 * i) 32 true) s
      let s2 := s1.checkerRead k (jobTenant j) x.addr (tensorBytes x) false
      if isMx x.fmt then s2.checkerRead k (jobTenant j) x.aux (x.n * x.h * x.w * ceilDiv x.c 32) false else s2

/-- The request of a checker for a job: at its class, on its instance's quota, under its lease (R80, R284). -/
def State.taskReq (s : State) (h : Holder) (ring seq : Nat) : AlwReq :=
  s.unitReq h (s.ringCls ring) (some (ringVi ring)) ((s.job? ring seq).elim 0 (·.gen))

/-- A seal checker holds its grant and reads what it checks. -/
def State.sealGranted (s : State) (k : Nat) : State :=
  ({ s with seals := updWhere (fun u => u.checker == some k) (fun u => { u with granted := true }) s.seals }).sealReads k

/-- Free seal checkers take waiting checks and ask for their grants, in the order the checks began (R270, R284). -/
def State.assignSeals : Nat → State → State
  | 0, s => s
  | n + 1, s =>
    match s.seals.find? (fun t => t.checker.isNone), (List.range 4).find? (fun k => !s.checkers.badSeal.contains k && !s.seals.any (fun t => t.checker == some k)) with
    | some t, some k =>
      let s1 := { s with seals := updWhere (fun u => u == t) (fun u => { u with checker := some k }) s.seals }
      let r := s1.taskReq (.sealChecker k) t.ring t.seq
      let s2 := s1.alwRequest r
      State.assignSeals n (if s2.heldAtOnce r then s2.sealGranted k else s2)
    | _, _ => s

/-- The saves of a checker copy that has no cores yet stay until it restores (R310, R315, R431). -/
def Job.savesLeft (j : Job) : List CoreSave := if j.ckCores.isEmpty then j.saves.filter (·.checker) else []

/-- A job whose cores all hold their grants enters Running. -/
def State.startRun (s : State) (j : Job) : State :=
  let s1 := (j.cores ++ j.ckCores).foldl (fun a n => a.startCore j n) s
  let e := s1.hotEntry j.entry
  let s2 := (s1.setHot j.entry { e with lastUse := s.now }).modJob j.ring j.seq (fun k => { k with
    stage := .running, saves := j.savesLeft, slots := j.savesLeft.length, resv := none, stopped := [], forced := false, noPreempt := false })
  State.assignSeals 4 (s2.startSeals j)

/-- A core of a job holds its grant (R296); with the last one the job runs. A copy that joins a running job starts alone. -/
def State.coreGranted (s : State) (n : Nat) : State :=
  match (s.core n).job with
  | none => s
  | some (r, q) =>
    match s.job? r q with
    | none => s
    | some j =>
      let j1 := { j with granted := if j.granted.contains n then j.granted else j.granted ++ [n] }
      let s1 := (s.modJob r q (fun _ => j1)).modCore n (fun c => { c with since := s.now })
      if j.stage = .running then
        if j.ckCores.contains n ∧ j.ckCores.all j1.granted.contains then
          (j.ckCores.foldl (fun a m => a.startCore j1 m) s1).modJob r q (fun k => { k with saves := [], slots := 0, resv := none })
        else s1
      else if j.stage = .placed ∧ (j.cores ++ j.ckCores).all j1.granted.contains then s1.startRun j1
      else s1

/-- What a unit does when its grant comes (R72, R266, R284). -/
def State.onGrant (s : State) (h : Holder) : State :=
  match h with
  | .core n =>
    if (s.core n).test.isSome then s.modCore n (fun c => { c with since := s.now })
    else if (s.core n).scrubs || s.coreMode n == 2 then s else s.coreGranted n
  | .sealChecker k => s.sealGranted k
  | .comparator k =>
    { s with checkers := { s.checkers with cmps := updWhere (fun u => u.unit == some k) (fun u => { u with granted := true }) s.checkers.cmps } }
  | _ => s

/-- Requests a grant and, if its charge is held at once, lets the unit act on it. -/
def State.ask (s : State) (r : AlwReq) : State :=
  let s1 := s.alwRequest r
  if s1.heldAtOnce r then s1.onGrant r.holder else s1

/-- Makes sure that a unit holds or awaits its grant. -/
def State.obtain (s : State) (r : AlwReq) : State := if s.holdsGrant r.holder || s.awaitsGrant r.holder then s else s.ask r

/-- Free comparators take waiting jobs, in class order and within a class in the order in which their later runs ended (R438). -/
def State.assignCmps : Nat → State → State
  | 0, s => s
  | n + 1, s =>
    let free := (List.range 8).find? (fun k => !s.checkers.badCmp.contains k && !s.checkers.cmps.any (fun t => t.unit == some k))
    let next := [Cls.lc, .test, .be].findSome? (fun c => s.checkers.cmps.find? (fun t => t.unit.isNone && s.ringCls t.ring == c))
    match next, free with
    | some t, some k =>
      let s1 := { s with checkers := { s.checkers with cmps := updWhere (fun u => u == t) (fun u => { u with unit := some k }) s.checkers.cmps } }
      State.assignCmps n (s1.ask (s1.taskReq (.comparator k) t.ring t.seq))
    | _, _ => s

/-! ### Cores taken for golden runs (R440, R452, R454) -/

/-- The slot number that marks a golden run without a slot (R439, R454). -/
def noSlot : Nat := 256

/-- The request of a core for a golden run in its present mode (R440). -/
def State.goldenReq (s : State) (n : Nat) : AlwReq :=
  { holder := .core n, cls := .test, vi := none, coreMa := if s.coreMode n = 1 then 923 else 1323, dramMa := 55, idleMa := idleMa,
    gen := 0, made := s.now }

/-- A core in service by its domains that nothing uses. -/
def State.coreFree (s : State) (n : Nat) : Bool :=
  let c := s.core n
  c.job.isNone && c.test.isNone && !c.scrubs && s.coreMode n != 2 && s.coreMode n != 3 && s.domainOn (s.coreDomain n) && s.domainOn (31 + n / 8)

/-- Takes a free core for a golden run and asks for its charge. -/
def State.takeForTest (s : State) (n slot : Nat) : State :=
  if s.coreFree n then (s.modCore n (fun c => { c with test := some slot })).ask (s.goldenReq n) else s

/-- The free cores of open slots, and those due for a run without a slot, are taken. -/
def State.startTests (s : State) : State :=
  if s.sched.flush.isSome then s
  else
    let s1 := s.watch.due.foldl (fun a n => a.takeForTest n noSlot) s
    (s1.watch.opened.filter (fun x => !x.started)).foldl (fun a x => x.cores.foldl (fun b n => b.takeForTest n x.slot) a) s1

/-! ### Save slots and preemption requests (R310, R311) -/

/-- Save slots of the pool in force, and those taken (R311, R324): 1.125 MiB each. -/
def State.slotCount (s : State) : Nat := s.sched.saveSize * 67108864 / 1179648
def State.slotsTaken (s : State) : Nat := (s.jobs.map (·.slots)).sum

/-- The request for what pacing takes from a core's grant, at a rank (R314). -/
def State.liftReq (s : State) (g : Grant) (rank : Cls) : AlwReq := { g.req with cls := rank, made := s.now, lift := true }

/-- The pacing of a core's grant is lifted for a preemption (R314). -/
def State.liftCore (s : State) (rank : Cls) (n : Nat) : State :=
  match s.alw.grantOf (.core n) with
  | none => s
  | some g => s.alwRequest (s.liftReq g rank)

/-- A preemption request at the rank of the requesting job: YIELD on every core of the victim, its pacing lifted, one slot reserved for
each core (R310, R311, R314). -/
def State.preempt (s : State) (v : Job) (rank : Cls) : State :=
  let cs := v.cores ++ v.ckCores
  cs.foldl (fun a n => a.liftCore rank n) ((s.modJob v.ring v.seq (fun k => { k with
    stage := .preempting, preemptAt := s.now, slots := k.savesLeft.length + cs.length, stopped := [], forced := false })).yieldCores v)

/-- The running jobs of a freezing instance are preempted as far as the save pool has room (R544, R311). -/
def State.freezeMore (s : State) : State :=
  (s.jobs.filter (fun j => j.freezing && j.stage == .running)).foldl (fun a j =>
    if a.slotsTaken + (j.cores ++ j.ckCores).length ≤ a.slotCount then a.preempt j (a.ringCls j.ring) else a) s

/-- The end of every command that may end a job or change a knot: checkers and comparators take waiting work, the job engine
acts, loads that wait for room try again. -/
def State.conclude (s : State) : State := ((State.assignCmps 8 (State.assignSeals 4 s)).startTests.freezeMore).wrapUp

/-! ### Preparing cores (R208 to R210, R299, R513) -/

/-- The request of one core for a job's class and level (R71, R213). -/
def State.coreReq (s : State) (j : Job) (n : Nat) : AlwReq :=
  let c := coreCharge j.pat.cls j.pat.level
  { holder := .core n, cls := s.ringCls j.ring, vi := some (ringVi j.ring), coreMa := c.1, dramMa := c.2, idleMa := idleMa,
    gen := j.gen, made := s.now }

/-- The request of a core for its scrub: 0.50 A at the rank of the job it is prepared for, on no instance's account (R510, R514). -/
def State.scrubReq (s : State) (j : Job) (n : Nat) : AlwReq := { s.coreReq j n with coreMa := 500, dramMa := 0, vi := none }

/-- The request of a core that switches from graphics: the graphics charge (R210). -/
def State.switchReq (s : State) (j : Job) (n : Nat) : AlwReq := { s.coreReq j n with coreMa := classMa 4, dramMa := 0 }

/-- The next thing a core needs before it may work for its job: a scrub for another tenant's state (R513), a switch of mode (R209,
R210), or its grant. A core that is being scrubbed or switches already goes on (R211, R514). -/
def State.prepCore (s : State) (j : Job) (n : Nat) : State :=
  let t := s.coreTenant n
  if (s.core n).scrubs || s.coreMode n == 2 then s
  else if t ≠ 0 ∧ t ≠ jobTenant j then
    (s.modCore n (fun c => { c with scrubs := true })).ask (s.scrubReq j n)
  else if s.coreMode n ≠ jobMode j then
    let s1 := (s.modCore n (fun c => { c with switchTo := jobMode j })).setMode n 2
    if s.coreMode n = 1 then s1.ask (s.switchReq j n) else s1
  else s.ask (s.coreReq j n)

/-- Gives idle cores to a copy of a job. -/
def State.assign (s : State) (j : Job) (cs : List Nat) (ck : Bool) : State :=
  let s1 := s.modJob j.ring j.seq (fun k => { k with
    ckCores := if ck then cs else k.ckCores, cores := if ck then k.cores else cs
    stage := if k.stage = .ready then .placed else k.stage })
  let s2 := cs.foldl (fun a n => a.modCore n (fun c => { c with job := some (j.ring, j.seq), checker := ck })) s1
  match s2.job? j.ring j.seq with
  | none => s2
  | some j2 => cs.foldl (fun a n => a.prepCore j2 n) s2

/-! ### Preemption (R310 to R314) -/

/-- The victims on a set of cores that are not yet being preempted. -/
def State.victims (s : State) (cs : List Nat) : List Job :=
  s.jobs.filter (fun j => (j.stage == .running || j.stage == .placed) && (j.cores ++ j.ckCores).any cs.contains)

/-- A job goes back to Ready, with the rise of R293 for an instance that had none. -/
def State.backToReady (s : State) (j : Job) (f : Job → Job) : State :=
  (s.raiseFair (ringVi j.ring) (s.ringCls j.ring)).modJob j.ring j.seq (fun k => { f k with stage := .ready })

/-- A Placed job is placed afresh. -/
def State.unplace (s : State) (j : Job) : State := (s.stopCores j).backToReady j id

/-- Requests the preemption of one victim at a rank, if the save pool has slots for all its cores; otherwise it does not start and is
counted (R311). A victim that has not started has nothing to save: it gives its cores back at once. -/
def State.preemptOne (s : State) (v : Job) (rank : Cls) : State × Bool :=
  if v.stage = .placed then (s.unplace v, true)
  else if s.slotsTaken + (v.cores ++ v.ckCores).length ≤ s.slotCount then (s.preempt v rank, true)
  else (s.bump Reg.ARY_SAVE_FULL_CNT noUnit, false)

/-- Preempts the victims on a set of cores for a job; one that does not start leaves the job to wait for cores that become free
otherwise (R311). -/
def State.preemptFor (s : State) (j : Job) (cs : List Nat) : State :=
  let r := (s.victims cs).foldl (fun a v => let p := a.1.preemptOne v (s.ringCls j.ring); (p.1, a.2 && p.2)) (s, true)
  if r.2 then r.1 else r.1.modJob j.ring j.seq (fun k => { k with resv := none, noPreempt := true })

/-! ### Placement (R294, R298 to R300) -/

/-- Does a job still need a copy placed? -/
def Job.needsMain (j : Job) : Bool := j.cores.isEmpty && j.stage == .ready
def Job.needsCheck (j : Job) : Bool :=
  descBstitch j.desc && j.ckCores.isEmpty && (j.stage == .placed || j.stage == .running)

/-- May the scheduler place jobs of an instance (R322, R540)? -/
def State.placing (s : State) (v : Nat) : Bool := s.viState v == 1 && !s.suspended v

/-- The cores a job would take now: its reserved ones, or a set by rank. -/
def State.wouldTake (s : State) (j : Job) : Option (List Nat) :=
  if j.needsMain then
    match j.resv with
    | some r => if r.cores.all s.reservable then some r.cores else s.chooseSet j []
    | none => s.chooseSet j []
  else
    match j.resv with
    | some r => if !r.ckCores.isEmpty && r.ckCores.all s.reservable && !(panelsOf r.ckCores).any (panelsOf j.cores).contains then some r.ckCores else s.chooseSet j (panelsOf j.cores)
    | none => s.chooseSet j (panelsOf j.cores)

/-- The jobs that want cores, of a class, with resident patterns. -/
def State.wanting (s : State) (c : Cls) : List Job :=
  s.jobs.filter (fun j => j.kind == 1 && (j.needsMain || j.needsCheck) && s.ringCls j.ring == c && s.placing (ringVi j.ring) &&
    (s.hotEntry j.entry).state == 3)

/-- Does job a come before job b within a class: instances with a share first, the lower fair counter, the lower instance, the
earlier ready instant, ring order (R294)? -/
def State.before (s : State) (c : Cls) (a b : Job) : Bool :=
  let va := ringVi a.ring
  let vb := ringVi b.ring
  let za := s.share va c == 0
  let zb := s.share vb c == 0
  if za ≠ zb then zb
  else if s.fair va c ≠ s.fair vb c then decide (s.fair va c < s.fair vb c)
  else if va ≠ vb then decide (va < vb)
  else if a.readyAt ≠ b.readyAt then decide (a.readyAt < b.readyAt)
  else a.ring == b.ring && seqBefore a.seq b.seq

/-- The jobs of a class in the order of R294. -/
def State.ordered (s : State) (c : Cls) : Nat → List Job → List Job
  | 0, _ => []
  | n + 1, l =>
    match l with
    | [] => []
    | j :: js =>
      let b := js.foldl (fun x y => if s.before c y x then y else x) j
      b :: State.ordered s c n (l.erase b)

/-- Places one copy of a job on cores: busy ones are preempted first, and the job keeps the set as its reservation. -/
def State.placeOn (s : State) (j : Job) (cs : List Nat) : State :=
  let gone := s.displaced j cs
  let s0 := s.dropResv gone
  (if cs.all s0.coreIdle then s0.assign j cs (!j.needsMain)
  else
    let r : Reservation := if j.needsMain then ⟨cs, [], s0.sched.resvGen, s.now + 100000, 0⟩ else ⟨[], cs, s0.sched.resvGen, s.now + 100000, 0⟩
    (s0.modJob j.ring j.seq (fun k => { k with resv := match k.resv with
      | some x => if j.needsMain then (if x.cores = cs then some x else some r) else some { x with ckCores := cs }
      | none => some r })).preemptFor j cs).replace gone

/-- Would placing a job on a set change nothing now: its cores are not all idle, and each victim is being preempted already? Such a job
waits for them and does not hold back the others (R294). -/
def State.awaitsCores (s : State) (cs : List Nat) : Bool := !cs.all s.coreIdle && (s.victims cs).isEmpty

/-- The first job of a list that can be placed, with its cores. -/
def State.firstPlaceable (s : State) : List Job → Option (Job × List Nat)
  | [] => none
  | j :: js =>
    match s.wouldTake j with
    | some cs => if s.awaitsCores cs then State.firstPlaceable s js else some (j, cs)
    | none => State.firstPlaceable s js

/-- Gathering starts for a best-effort job of 16 or more cores that is next and finds too few panels (R300). -/
def State.gatherFor (s : State) (l : List Job) : State :=
  match l.head? with
  | none => s
  | some j =>
    if s.sched.gather.isNone && decide (16 ≤ j.pat.cores) && (s.chooseSet j []).isNone then
      { s with sched := { s.sched with gather := some (j.ring, j.seq) } }
    else s

/-- Gathering ends when its job has been placed or completed. -/
def State.checkGather (s : State) : State :=
  match s.sched.gather with
  | none => s
  | some (r, q) =>
    match s.job? r q with
    | some j => if j.needsMain then s else { s with sched := { s.sched with gather := none } }
    | none => { s with sched := { s.sched with gather := none } }

/-- The scheduler places one copy of the next job (R291, R294). -/
def State.placeNext (s : State) : State :=
  if s.sched.flush.isSome then s
  else
    let s0 := s.checkReservations.checkGather
    let of := fun c => s0.ordered c (s0.wanting c).length (s0.wanting c)
    match s0.firstPlaceable (of .lc) with
    | some (j, cs) => s0.placeOn j cs
    | none =>
      match s0.firstPlaceable (of .test) with
      | some (j, cs) => s0.placeOn j cs
      | none =>
        let s1 := s0.gatherFor (of .be)
        match s1.firstPlaceable (of .be) with
        | some (j, cs) => s1.placeOn j cs
        | none => s1

/-! ### Saves (R204 to R207, R310) -/

/-- The cores of a job that work for it: those of a checker copy only once all of them hold their grants and have started (R310,
R431). -/
def Job.active (j : Job) : List Nat := j.cores ++ (if j.ckCores.all j.granted.contains then j.ckCores else [])

/-- A core that stands at a cheap point, as it goes on behind it. -/
def Core.pastCheap (c : Core) : Core := { c with span := 0, atCheap := false, tile := none, pc := c.pc + 1, cheapCount := c.cheapCount + 1, cheapPc := c.pc + 1 }

/-- The state that a core saves: its live set at a cheap point, or all of it, from which a core that stopped at a cheap point goes on
behind it. -/
def State.saveOf (s : State) (j : Job) (n : Nat) (whole : Bool) : CoreSave :=
  let ck := j.ckCores.contains n
  let c := s.core n
  let e := s.hotEntry j.entry
  let im := s.hotImage e
  let p := if ck && j.pat.transform != 0 then parsePattern 0 (im.words 64 8) else j.pat
  let live := match im.cheapRecord p c.pc with
    | some i => im.liveSet p i
    | none => ([], [], [])
  ⟨(if ck then j.ckCores else j.cores).idxOf n, ck, if whole then none else some live, if whole && j.stopped.contains n then c.pastCheap else c⟩

/-- All cores of a preempted job have stopped: their states are saved (R310); a checker copy that had not started keeps what an earlier
preemption saved of it. -/
def State.saveAll (s : State) (j : Job) (whole : Bool) : State :=
  s.modJob j.ring j.seq (fun k => { k with
    saves := j.active.map (fun n => s.saveOf j n whole) ++ (if j.active.any j.ckCores.contains then [] else j.saves.filter (·.checker))
    stopped := j.cores ++ j.ckCores, forced := false })

/-- A save ends: the cores are free, the job is Ready again, its slots stay its own until it restores (R310, R311). -/
def State.endSave (s : State) (j : Job) : State :=
  let s1 := (s.stopCores j).backToReady j (fun k => { k with preempts := k.preempts + 1, stopped := [] })
  s1.frozenCheck (ringVi j.ring)

/-! ### Faults and the flush (R316 to R320) -/

/-- Is a job discarded and re-queued by a flush (R318)? -/
def Stage.flushed : Stage → Bool
  | .running => true
  | .preempting => true
  | .checking => true
  | _ => false

/-- The flush halts one job that has not committed: its cores stop, its pending outputs and verdicts are discarded. -/
def State.haltJob (s : State) (j : Job) : State :=
  ((s.stopCores j).dropChecks j).modJob j.ring j.seq (fun k => { k with
    stage := .halted, pend := [], pendCk := [], extents := [], places := [], wrote := [], voided := false, voidedCk := false, verdict := none
    compared := false, seals := [], voidMask := 0, lineOwner := [], lineOwnerCk := [], saves := [], slots := 0, regions := []
    freezing := false, forced := false, tileAt := none, splits := [] })

/-- A run that a flush discards: its core time is counted in FLUSHED_NS of its instance (R295). -/
def State.discardRun (s : State) (j : Job) : State :=
  let s1 := s.haltJob j
  match s1.job? j.ring j.seq with
  | none => s1
  | some k => (s1.addReg (Reg.ARY_ACCT_FLUSHED_NS (ringVi j.ring)) k.nsRun).modJob j.ring j.seq (fun x => { x with nsRun := 0 })

/-- The flush clears a core: registers and residency tag; a switch in progress ends in compute mode (R211, R317). -/
def State.flushCore (s : State) (n : Nat) : State :=
  let s1 := s.modCore n (fun c => { c.clearRegs with resid := 0, resident := false, test := none })
  if s.coreMode n = 2 then s1.setMode n 0 else s1

/-- A golden run on a core stops: the time for which the core held its charge is counted (R296), and the charge goes. -/
def State.stopTest (s : State) (n : Nat) : State :=
  (if s.holdsGrant (.core n) then s.addReg Reg.ARY_TEST_NS (s.now - (s.core n).since) else s).alwDrop (.core n)

/-- The golden runs that the flush halts: their slots are not started (R452). -/
def State.haltTests (s : State) : State :=
  let ns := (List.range 128).filter (fun n => (s.core n).test.isSome)
  let slots := (ns.filterMap (fun n => (s.core n).test)).eraseDups
  let s1 := ns.foldl (fun a n => a.stopTest n) s
  let s2 := (slots.filter (fun k => k != noSlot)).foldl (fun a _ => a.bump Reg.SAFE_DEFER_CNT noUnit) s1
  { s2 with watch := { s2.watch with opened := s2.watch.opened.filter (fun x => !slots.contains x.slot) } }

/-- The cores that run a job, with it. -/
def State.runningCores (s : State) : List (Nat × Core × Job) :=
  (s.jobs.filter (fun j => j.stage == .running || j.stage == .preempting)).flatMap (fun j => j.active.map (fun n => (n, s.core n, j)))

/-- The start of an array flush (R317). -/
def State.startFlush (s : State) (origin cause core : Nat) : State :=
  let s0 := { s with sched := { s.sched with flush := some { start := s.now, origin := origin, cause := cause, core := core, before := s.runningCores } } }
  let s1 := (s0.jobs.filter (fun j => j.stage.flushed || !j.saves.isEmpty)).foldl (fun a j => a.discardRun j) s0
  let s2 := (s1.jobs.filter (fun j => j.stage == .placed)).foldl (fun a j => a.unplace j) s1
  (List.range 128).foldl (fun a n => a.flushCore n) s2.haltTests

/-- A job faults on a core (R316). A job that a cancel has already been taken for keeps its code (R273). A fault during a flush
joins it. -/
def State.jobFault (s : State) (ring seq cause core : Nat) : State :=
  match s.job? ring seq with
  | none => s
  | some j =>
    match j.withdrawn with
    | some why => s.endJob ring seq codeCancelled (cancelDetail why)
    | none =>
      let s1 := ((s.discardRun j).modJob ring seq (fun k => { k with stage := .faulted, fault := some (cause, core) }))
      if s.sched.flush.isSome then s1 else s1.startFlush (jobTenant j) cause core

/-- A core that ran a job when the flush started ends its step: what it does is gone with the flush, but a fault that it meets joins it,
and its job completes with FAULT at the flush's end (R316, R317). -/
def State.lateFault (s : State) (n : Nat) (f : State → Job → State) : State :=
  match s.sched.flush.bind (fun x => x.before.find? (fun y => y.1 == n)) with
  | none => s
  | some (_, c, j) =>
    match s.job? j.ring j.seq with
    | none => s
    | some k =>
      if k.stage ≠ .halted ∨ k.withdrawn.isSome then s
      else
        match (f ((s.setCore n c).modJob j.ring j.seq (fun _ => j)) j).job? j.ring j.seq with
        | none => s
        | some x => if x.stage = .faulted then s.modJob j.ring j.seq (fun y => { y with stage := .faulted, fault := x.fault }) else s

end Sys2Proof.Machine
end

