-- ==== Sys2Proof/Machine/Admission.lean ====
section
/-! DEFINITION. The checks of admission and a job's way into its first stage (R261 to R266, R304). -/

namespace Sys2Proof.Machine

/-- Bytes that a read from outside delivered: they replace what was known of the place, poison included. -/
def State.farBytes (s : State) (p : Nat) (bs : List Byte) : State :=
  { s with
    far := Memory.write s.far p bs
    poison := Sparse.putAll (fun _ => false) ((List.range ((p + bs.length + 63) / 64 - p / 64)).map (fun i => p / 64 + i)) false s.poison }

/-- An event of the SEC block: SEC_TAG_FAIL, counted in SEC_TAG_FAIL_CNT (R509). -/
def State.tagFail (s : State) : State := (s.bump Reg.SEC_TAG_FAIL_CNT noUnit).raise 14 0x0050 noUnit

/-- A read of the window whose lease expired: counted and logged (R567). -/
def State.readExpired (s : State) (fn addr origin : Nat) : State :=
  (s.bump Reg.UBR_RD_TMO_CNT noUnit).bridgeError 2 fn addr origin 1

/-- Can the bytes of a window address be delivered: a DATA granule's only while its owner is a live tenant (R517)? -/
def State.readable (s : State) (a : Nat) : Bool :=
  let e := s.mapEntry (granuleOf a)
  e.en && (!e.data || (Sparse.get (fun _ => ({} : Tenant)) e.owner s.trust.tenants).state == 1)

/-- What came of a read of n bytes of the window is delivered: bytes, or poison with the count and the record that R567, R572 and
R517 give it. -/
def State.deliverRead (s : State) (fn origin a n : Nat) (d : FarData) : State :=
  match d with
  | .ok bs =>
    if s.readable a then s.farBytes a (bs.take n ++ List.replicate (n - bs.length) 0) else (s.bump Reg.SEC_POISON_CNT noUnit).setPoison a n
  | .expired => (s.readExpired fn a origin).setPoison a n
  | .error => (s.bridgeError 1 fn a origin 1).setPoison a n
  | .poisoned => (s.bridgeError 4 fn a origin 1).setPoison a n
  | .tagFail => s.tagFail.setPoison a n

/-- The device learns what reads from outside, made within one command by an origin, returned (R105, R567, R572, R626): a window
address that is not let through is refused and delivers poison (R564). -/
def State.learn (s : State) (origin : Nat) (l : List FarRead) : State :=
  l.foldl (fun a r =>
    let p := a.place r.addr
    if onPackage p then a
    else if inHostWindow p then
      if a.windowOpen p then
        a.deliverRead (a.mapEntry (granuleOf p)).func origin p (match r.data with
          | .ok bs => bs.length
          | _ => 64) r.data
      else a.windowRefuse.setPoison p 64
    else match r.data with
      | .ok bs => a.farBytes p bs
      | _ => a.setPoison p 64) s

/-- The global addresses of a job's bindings: tensor descriptors (R261). -/
def State.bindingAddr (s : State) (d : List Nat) (i : Nat) : Nat := s.peek (descBindings d + 8 * i) 8

/-- Reads a job's tensor descriptors, with the roles of the pattern's table (R262, R263). -/
def State.readTensors (s : State) (im : Image) (p : Pattern) (d : List Nat) : List Tensor :=
  (List.range (descNbind d)).map (fun i =>
    let a := s.bindingAddr d i
    parseTensor a (entryField (im.tableEntry p i) 0 1) (s.peekWords a 8))

/-- The first index of a list that satisfies a test. -/
def firstBad {α : Type} (p : Nat → α → Bool) (l : List α) : Option Nat :=
  (List.range l.length).find? (fun i => match l[i]? with
    | some a => p i a
    | none => false)

/-- The ranges of global addresses that a binding makes the job use (R265 reason 6): element array, zero map, scales or
AUX array, seals. -/
def tensorRanges (t : Tensor) : List (Nat × Nat) :=
  [(t.addr, tensorBytes t)] ++
  (if t.zmap then [(t.zmapAddr, ceilDiv (t.n * t.h * t.w * ceilDiv t.c 32) 8)] else []) ++
  (if isMx t.fmt then [(t.aux, t.n * t.h * t.w * ceilDiv t.c 32)] else if t.aux ≠ 0 then [(t.aux, 4 * t.c)] else []) ++
  (if t.isSealed then [(t.sealAddr, 32 * t.n)] else [])

/-- Does a binding name an address outside the window, or an output outside the device? -/
def State.addressBad (s : State) (w : List (Nat × Nat)) (t : Tensor) : Bool :=
  !inRanges w t.descAddr 64 || (tensorRanges t).any (fun r => !inRanges w r.1 r.2) ||
  (t.role != 0 && (devOf t.addr != s.ownDev || devOf t.descAddr != s.ownDev))

/-- Is a tensor's bytes of PACKED weights acceptable to the loader (R163)? -/
def State.weightsOk (s : State) (t : Tensor) : Bool := !t.packed || Image.packedOk (fun off n => s.peekBytes (s.place t.addr + off) n)

/-- The checks of R265 that need no pattern: reasons 1, 2 and 8, in the order of the table. -/
def refuseEarly (seq : Nat) (d : List Nat) : Option Nat :=
  if descReserved d then some 1
  else if descSeq d ≠ seq then some 2
  else none

/-- Reason 8: a knot outside the instance's range. -/
def State.knotBad (s : State) (ring : Nat) (d : List Nat) : Bool :=
  (descWaitEn d && !s.ownsKnot (ringVi ring) (descWaitKnot d)) ||
  (descSigOp d != 0 && descSigDev d == s.ownDev && !s.ownsKnot (ringVi ring) (descSigKnot d))

/-- Can the binding table, or a tensor descriptor, not be read: outside the window, poison, or a refusal (R31, R98, R106)? -/
def State.tableFails (s : State) (w : List (Nat × Nat)) (d : List Nat) : Bool :=
  !inRanges w (descBindings d) (8 * descNbind d) || s.readFails (s.place (descBindings d)) (8 * descNbind d)
def State.descFails (s : State) (w : List (Nat × Nat)) (t : Tensor) : Bool :=
  !inRanges w t.descAddr 64 || s.readFails (s.place t.descAddr) 64

/-- Counts the refusals that the reads of a job's bindings meet. -/
def State.noteBindings (s : State) (w : List (Nat × Nat)) (d : List Nat) (ts : List Tensor) : State :=
  let s1 := if inRanges w (descBindings d) (8 * descNbind d) then s.noteRead (s.place (descBindings d)) (8 * descNbind d) else s
  s1.noteReads ((ts.filter (fun t => !s.tableFails w d && inRanges w t.descAddr 64)).map (fun t => (s.place t.descAddr, 64)))

/-- The checks of R265 on a JOB descriptor whose pattern is resident: reasons 3 to 11 with the binding index, in the order of
the table. What a descriptor that cannot be read would hold decides nothing: such a one gives reason 6. -/
def State.refuseLate (s : State) (ring : Nat) (d : List Nat) (w : List (Nat × Nat)) (im : Image) (p : Pattern) : Option (Nat × Nat) :=
  let ts := s.readTensors im p d
  let entry := fun i => im.tableEntry p i
  let tabBad := s.tableFails w d
  let known := fun (t : Tensor) => !tabBad && !s.descFails w t
  if ts.any (fun t => known t && !s.weightsOk t) then some (3, (firstBad (fun _ t => known t && !s.weightsOk t) ts).getD 0)
  else if descNbind d ≠ im.tableCount p then some (4, 0)
  else if descQmode d && decide (8 < p.cores) then some (5, 0)
  else
    match firstBad (fun i t => known t && tensorDiffers t (entry i)) ts with
    | some i => some (5, i)
    | none =>
      if tabBad then some (6, 0)
      else
        match firstBad (fun _ t => s.descFails w t || s.addressBad w t) ts with
        | some i => some (6, i)
        | none =>
          let tolBroken := fun (i : Nat) (t : Tensor) =>
            let e := entryField (entry i) 16 8
            tolBad t.tol ||
            (if t.role = 0 then decide (tolAbs e < tolAbs t.tol) || decide (tolRel e < tolRel t.tol)
             else decide (tolAbs t.tol < tolAbs e) || decide (tolRel t.tol < tolRel e)) ||
            (descBstitch d && t.role == 2 && (tolAbs t.tol == unbounded || tolRel t.tol == unbounded))
          match firstBad tolBroken ts with
          | some i => some (7, i)
          | none =>
            if s.knotBad ring d then some (8, 0)
            else if descBstitch d && (descQmode d || !ts.any (fun t => t.role == 2)) then some (9, 0)
            else if p.graphics != s.bit (Reg.RING_CFG ring) Fd.RING_CFG_COMPOSITOR then some (10, 0)
            else
              match firstBad (fun _ t => !(trimOk t.fmt t.trim && (t.trim == 0 || !p.graphics))) ts with
              | some i => some (11, i)
              | none => none

/-- DETAIL of REFUSED (R274). -/
def refusedDetail (r : Nat × Nat) : Nat := r.1 + r.2 * 256

/-- A job whose pattern is resident takes its pattern and bindings, or is refused; a held one is placed in advance. -/
def State.admitResident (s : State) (j : Job) : State :=
  let e := s.hotEntry j.entry
  let im := s.hotImage e
  let p := parsePattern e.key (im.words 0 8)
  if !im.admitOk e.length then s.endJob j.ring j.seq codeRefused (refusedDetail (3, 0))
  else
    match s.refuseLate j.ring j.desc j.window im p with
    | some r => (s.noteBindings j.window j.desc (s.readTensors im p j.desc)).endJob j.ring j.seq codeRefused (refusedDetail r)
    | none =>
      let j1 := { j with pat := p, tens := s.readTensors im p j.desc }
      let j2 := if j1.entered then { j1 with inVoid := s.inputsVoid j1 } else j1
      (s.modJob j.ring j.seq (fun _ => j2)).advance j2

/-- The first stage of an admitted descriptor (R266). -/
def State.firstStage (s : State) (j : Job) : Job :=
  if descTackHeld j.desc then { j with stage := .held } else s.afterHeld j

/-- A fetched JOB descriptor, or one of a reserved KIND, is checked and enters its first stage (R265, R304). -/
def State.admitJob (s : State) (ring seq : Nat) (d : List Nat) : State :=
  let j : Job := { ring := ring, seq := seq, kind := 1, desc := d, gen := s.fld (Reg.RING_CFG ring) Fd.RING_CFG_GEN, stage := .cleared,
                   window := s.windowRanges (ringVi ring) }
  match refuseEarly seq d with
  | some r =>
    let s1 := if r = 2 then s.bump Reg.RING_SEQ_BAD_CNT noUnit else s
    s1.finish j codeRefused (refusedDetail (r, 0)) 0
  | none =>
    match s.hotLookup (descPattern d) (ringVi ring) with
    | none => s.finish j codeRefused (refusedDetail (3, 0)) 0
    | some i =>
      let j1 := s.firstStage { j with entry := i }
      let s1 := { s with jobs := s.jobs ++ [j1] }
      if (s.hotEntry i).state = 3 then s1.admitResident j1
      else if s.knotBad ring d then s1.endJob ring seq codeRefused (refusedDetail (8, 0))
      else if (s.hotEntry i).state = 1 then s1.startLoad i
      else s1

/-- A fetched KNOT descriptor (R260, R265). -/
def State.admitKnot (s : State) (ring seq : Nat) (d : List Nat) : State :=
  let j : Job := { ring := ring, seq := seq, kind := 0, desc := d, gen := s.fld (Reg.RING_CFG ring) Fd.RING_CFG_GEN, stage := .cleared }
  match refuseEarly seq d with
  | some r =>
    let s1 := if r = 2 then s.bump Reg.RING_SEQ_BAD_CNT noUnit else s
    s1.finish j codeRefused (refusedDetail (r, 0)) 0
  | none =>
    if s.knotBad ring d then s.finish j codeRefused (refusedDetail (8, 0)) 0
    else { s with jobs := s.jobs ++ [s.firstStage j] }

/-- A fetched CANCEL descriptor withdraws [FIRST, its own number) of its ring, nothing where FIRST does not precede its own number
(R276). -/
def State.admitCancel (s : State) (ring seq : Nat) (d : List Nat) : State :=
  let j : Job := { ring := ring, seq := seq, kind := 2, desc := d, gen := s.fld (Reg.RING_CFG ring) Fd.RING_CFG_GEN, stage := .cleared }
  match refuseEarly seq d with
  | some r =>
    let s1 := if r = 2 then s.bump Reg.RING_SEQ_BAD_CNT noUnit else s
    s1.finish j codeRefused (refusedDetail (r, 0)) 0
  | none =>
    if s.knotBad ring d then s.finish j codeRefused (refusedDetail (8, 0)) 0
    else
      ({ s with jobs := s.jobs ++ [j] }).withdraw (1, seq)
        (fun k => k.ring == ring && seqBefore (descFirst d) seq && !seqBefore k.seq (descFirst d) && seqBefore k.seq seq)

end Sys2Proof.Machine
end

