-- ==== Sys2Proof/Machine/Tensors.lean ====
section
/-! DEFINITION. Reading and writing tensors by element: stored codes, zero maps, scales, the checker's transforms, bands for
fills and drains (R130, R167 to R175, R219, R221, R433, R434). -/

namespace Sys2Proof.Machine

/-- Block k of a tensor's maps and scale array: sample by sample, row, column, block within the pixel (R130, R167). -/
def Tensor.blockNo (t : Tensor) (n y x c : Nat) : Nat := ((n * t.h + y) * t.w + x) * ceilDiv t.c 32 + c / 32

/-- Offset of a pixel in the element array. -/
def Tensor.pixel (t : Tensor) (n y x : Nat) : Nat := n * (t.pitch * 64) + y * t.rowPitch + x * t.pixPitch

/-- A reader of bytes at places. -/
abbrev Reader := Nat → Byte

/-- Is a block elided by the zero map? -/
def Tensor.elided (t : Tensor) (rd : Reader) (zmap n y x c : Nat) : Bool :=
  let k := t.blockNo n y x c
  t.zmap && (rd (zmap + k / 8)).toNat / 2 ^ (k % 8) % 2 == 1

/-- The stored code of an element at a place, expanded to its format; elided blocks read as zeros (R169, R175). -/
def Tensor.code (t : Tensor) (rd : Reader) (base zmap n y x c : Nat) : Nat :=
  if t.elided rd zmap n y x c then 0
  else
    let b := t.bits * c
    let a := base + t.pixel n y x + b / 8
    let v := ofLe ((List.range 5).map (fun i => rd (a + i))) / 2 ^ (b % 8) % 2 ^ t.bits
    if t.trim = 0 then v else untrimElem t.fmt t.trim v

/-- The scale byte of a block of an MX tensor; 0x00 for an elided block. -/
def Tensor.scaleAt (t : Tensor) (rd : Reader) (aux zmap n y x c : Nat) : Nat :=
  if t.elided rd zmap n y x c then 0 else (rd (aux + t.blockNo n y x c)).toNat

/-! ### Transforms (R433) -/

/-- Does each transform of a TRANSFORM code apply to a tensor? -/
def Tensor.mirrors (t : Tensor) (tr : Nat) : Bool := tr % 2 == 1 && decide (2 ≤ t.w)
def Tensor.rotates (t : Tensor) (tr : Nat) : Bool := tr / 2 % 2 == 1 && decide (64 ≤ t.c) && t.c % 32 == 0
def Tensor.doubles (t : Tensor) (tr : Nat) : Bool := tr / 4 % 2 == 1 && decide (3 ≤ t.fmt) && decide (t.fmt ≤ 9)

/-- The source column and channel of a position of the transformed tensor. -/
def Tensor.fromX (t : Tensor) (tr x : Nat) : Nat := if t.mirrors tr then t.w - 1 - x else x
def Tensor.fromC (t : Tensor) (tr c : Nat) : Nat := if t.rotates tr then (c + t.c - 32) % t.c else c

/-- The position in the transformed tensor of a channel of the original. -/
def Tensor.toC (t : Tensor) (tr c : Nat) : Nat := if t.rotates tr then (c + 32) % t.c else c

/-- An element of a floating format doubled; special values stay; the mark says that it saturated. -/
def doubleElem (fmt c : Nat) : Nat × Bool :=
  match elemValue fmt c with
  | .fin n m e =>
    let r := elemCode fmt (.fin n (2 * m) e)
    match floatOf fmt with
    | some f => if fmt = 9 ∧ f.top < r.1 % f.sign then (r.1 / f.sign % 2 * f.sign + f.top, true) else r
    | none => r
  | _ => (c, false)

/-- A scale byte doubled. -/
def doubleScale (s : Nat) : Nat × Bool := if s = 0xFF then (s, false) else if s = 0xFE then (s, true) else (s + 1, false)

/-! ### Bands -/

/-- Rows, columns and channels of a band lie in the tensor; only FILL may reach outside rows and columns. -/
def bandInside (b : Band) (t : Tensor) : Bool :=
  decide (b.sample < t.n) && decide (0 ≤ b.y) && decide (0 ≤ b.x) && decide (b.y + (b.step * (b.rows - 1) + 1 : Nat) ≤ t.h) &&
  decide (b.x + (b.step * (b.cols - 1) + 1 : Nat) ≤ t.w) &&
  decide (b.chan + b.chans ≤ storedChans t.fmt t.c)

/-- The pixels of a band in order, as (index, row, column): every step-th row and column (R225). -/
def bandPixels (b : Band) : List (Nat × Int × Int) :=
  (List.range (b.rows * b.cols)).map (fun i => (i, b.y + (b.step * (i / b.cols) : Nat), b.x + (b.step * (i % b.cols) : Nat)))

/-- Pixel and row pitch of a band in the scratchpad, where tensors lie untrimmed and unmapped (R219). -/
def bandPitch (b : Band) (t : Tensor) : Nat := pixelPitch t.fmt (formatBits t.fmt) b.chans
def bandRow (b : Band) (t : Tensor) : Nat := ceilDiv (b.cols * bandPitch b t) 64 * 64

/-- Where pixel i of a band lies in the scratchpad. -/
def bandAt (b : Band) (t : Tensor) (sp i : Nat) : Nat := sp + i / b.cols * bandRow b t + i % b.cols * bandPitch b t

/-- Channels of a band in the 32-element blocks that a fill writes: first channel and length. -/
def bandRuns (b : Band) : List (Nat × Nat) :=
  (List.range (ceilDiv b.chans 32)).map (fun i => (b.chan + 32 * i, min 32 (b.chans - 32 * i)))

/-- Channels of a band by the blocks of the tensor, as a drain writes them (R167). -/
def drainRuns (b : Band) : List (Nat × Nat) :=
  (List.range (ceilDiv (b.chan % 32 + b.chans) 32)).map (fun i =>
    let lo := max b.chan (b.chan / 32 * 32 + 32 * i)
    (lo, min (b.chan + b.chans) (b.chan / 32 * 32 + 32 * (i + 1)) - lo))

/-- Where the scale of run j of pixel i lies. -/
def bandScaleAt (b : Band) (sc i j : Nat) : Nat := sc + i * (bandRuns b).length + j

/-- What a fill delivers for one block: element codes, scale byte, whether doubling saturated. -/
structure FillBlock where
  codes : List Nat
  scale : Nat
  sat   : Bool
  deriving DecidableEq, Repr

/-- The zeros that a fill writes outside the tensor. -/
def FillBlock.zero (n : Nat) : FillBlock := ⟨List.replicate n 0, 0, false⟩

/-- One block of a band as a fill delivers it, under a transform; samples that are void slots read as zeros (R270, R434). -/
def Tensor.fillBlock (t : Tensor) (rd : Reader) (base zmap aux tr n : Nat) (y x : Int) (c len : Nat) : FillBlock :=
  if 0 ≤ y ∧ 0 ≤ x ∧ y < t.h ∧ x < t.w ∧ n < t.n then
    let xs := t.fromX tr x.toNat
    let codes := (List.range len).map (fun i => t.code rd base zmap n y.toNat xs (t.fromC tr (c + i)))
    let sc := if isMx t.fmt then t.scaleAt rd aux zmap n y.toNat xs (t.fromC tr c) else 0
    if t.doubles tr then
      if isMx t.fmt then let d := doubleScale sc; ⟨codes, d.1, d.2⟩
      else let ds := codes.map (doubleElem t.fmt); ⟨ds.map (·.1), sc, ds.any (·.2)⟩
    else ⟨codes, sc, false⟩
  else FillBlock.zero len

/-- S of a block (R170). -/
def blockS (fmt : Nat) (scale : Nat) (codes : List Nat) : Bool := codes.any (elemSpecial fmt) || (isMx fmt && scale == 0xFF)

/-- A tag of the scratchpad: first byte, bytes, Z, S, as one number for the core's table. -/
def tagValue (size : Nat) (z sp : Bool) : Nat := 4 * size + 2 * sp.toNat + z.toNat

/-- Tags that overlap a written range are dropped: only the fill path tags (R170). A candidate area that a write meets no longer holds
what the assist put there (R242). -/
def Core.untag (c : Core) (a n : Nat) : Core :=
  let meets := fun (x len : Nat) => decide (x < a % spSize + n) && decide (a % spSize < x + len)
  { c with blockTag := c.blockTag.filter (fun e => !meets e.1 (e.2 / 4)), assist := c.assist.filter (fun e => !meets e.1 65536) }

/-- Writes bytes to a scratchpad by another path than fills. -/
def Core.write (c : Core) (a : Nat) (bs : List Byte) : Core := if bs.isEmpty then c else (c.untag a bs.length).putSp a bs

/-- Writes one filled block and the padding behind it, with its tag. -/
def Core.writeBlock (c : Core) (fmt a pad : Nat) (b : FillBlock) : Core :=
  let bs := elemBytes (formatBits fmt) b.codes ++ List.replicate pad 0
  let c1 := c.write a bs
  { c1 with blockTag := Sparse.put (fun _ => 0) (a % spSize) (tagValue bs.length (blockZ fmt b.scale b.codes) (blockS fmt b.scale b.codes)) c1.blockTag }

/-- Do tagged blocks with Z cover a whole range (R170)? -/
def Core.allZ : Nat → Core → Nat → Nat → Bool
  | 0, _, a, e => decide (e ≤ a)
  | k + 1, c, a, e =>
    if e ≤ a then true
    else match c.blockTag.find? (fun t => decide (t.1 ≤ a) && decide (a < t.1 + t.2 / 4)) with
      | some t => t.2 % 2 == 1 && Core.allZ k c (t.1 + t.2 / 4) e
      | none => false

/-- Do tagged blocks without S cover a whole range? An untagged range may hold a NaN or an infinity (log 76). -/
def Core.noS : Nat → Core → Nat → Nat → Bool
  | 0, _, a, e => decide (e ≤ a)
  | k + 1, c, a, e =>
    if e ≤ a then true
    else match c.blockTag.find? (fun t => decide (t.1 ≤ a) && decide (a < t.1 + t.2 / 4)) with
      | some t => t.2 / 2 % 2 == 0 && Core.noS k c (t.1 + t.2 / 4) e
      | none => false

/-! ### Reading a band from a scratchpad -/

/-- Element k of w bits from a scratchpad offset. -/
def Core.spElem (c : Core) (w a k : Nat) : Nat :=
  ofLe (c.spBytes (a + w * k / 8) (ceilDiv w 8)) / 2 ^ (w * k % 8) % 2 ^ w

end Sys2Proof.Machine
end

