-- ==== Sys2Proof/Machine/Fills.lean ====
section
/-! DEFINITION. What a fill delivers into a scratchpad, and what a scratchpad reads as while transfers into it are unfinished (R156,
R169, R175, R194, R195, R219, R270, R434). -/

namespace Sys2Proof.Machine

/-- Is the copy on a core the checker copy? -/
def Job.isCk (j : Job) (n : Nat) : Bool := j.ckCores.contains n

/-- The cores of the copy that a core belongs to. -/
def Job.copyOf (j : Job) (n : Nat) : List Nat := if j.isCk n then j.ckCores else j.cores

/-- The transform that applies to a core's fills: the pattern's in the checker copy, none in the main copy (R434). -/
def Job.transform (j : Job) (n : Nat) : Nat := if j.isCk n then j.pat.transform else 0

/-- The tensor of a binding. -/
def Job.tensor (j : Job) (b : Nat) : Tensor := j.tens.getD b {}

/-- A packed tensor of a binding, as an image. -/
def State.packedAt (s : State) (t : Tensor) : Image := fun off n => s.peekBytes (s.place t.addr + off) n

/-! ### The bytes that a fill reads -/

/-- Joins ranges that follow one another. -/
def coalesce : List (Nat × Nat) → List (Nat × Nat)
  | [] => []
  | (a, n) :: l =>
    match coalesce l with
    | (b, m) :: r => if a + n = b then (a, n + m) :: r else (a, n) :: (b, m) :: r
    | [] => [(a, n)]

/-- The packed blocks that run (c, len) of a pixel lies in: first block and count. -/
def Tensor.blocksOf (t : Tensor) (n y x c len : Nat) : Nat × Nat := (t.blockNo n y x c, ceilDiv (c % 32 + len) 32)

/-- The ranges of global addresses that one run of a band reads: none outside the tensor; of a mapped tensor the map, and nothing under
it for an elided block (R169). -/
def State.runReads (s : State) (t : Tensor) (tr : Nat) (b : Band) (y x : Int) (c len : Nat) : List (Nat × Nat) :=
  if 0 ≤ y ∧ 0 ≤ x ∧ y < t.h ∧ x < t.w ∧ b.sample < t.n then
    let xs := t.fromX tr x.toNat
    let cs := t.fromC tr c
    let k := t.blockNo b.sample y.toNat xs cs
    if t.packed then
      let r := t.blocksOf b.sample y.toNat xs cs len
      (Image.packedReads (s.packedAt t) r.1 r.2).map (fun r => (t.addr + r.1, r.2))
    else
      (if t.zmap then [(t.zmapAddr + k / 8, 1)] else []) ++
      (if t.elided s.peekByte (s.place t.zmapAddr) b.sample y.toNat xs cs then [] else
        (t.addr + t.pixel b.sample y.toNat xs + t.bits * cs / 8, ceilDiv (t.bits * len) 8) :: (if isMx t.fmt then [(t.aux + k, 1)] else []))
  else []

/-- The transform of a fill of a band: the checker copy's, on inputs that are not packed (R434). -/
def Job.fillTransform (j : Job) (n : Nat) (t : Tensor) : Nat := if t.packed || t.role != 0 then 0 else j.transform n

/-- The ranges of global addresses that a fill of a core reads. -/
def State.fillReads (s : State) (j : Job) (n : Nat) : FillSrc → List (Nat × Nat)
  | .raw a len => [(a, len)]
  | .band b =>
    let t := j.tensor b.binding
    (coalesce ((bandPixels b).flatMap (fun (_, y, x) =>
      (bandRuns b).flatMap (fun (c, len) => s.runReads t (j.fillTransform n t) b y x c len)))).eraseDups
  | .blocks b first k => (Image.packedReads (s.packedAt (j.tensor b)) first k).map (fun r => ((j.tensor b).addr + r.1, r.2))
  | .image _ _ => []
  | .imageBlocks _ _ _ => []

/-! ### What a fill delivers -/

/-- Is a sample of a sealed input a void slot (R270, R345)? -/
def State.sampleVoid (s : State) (t : Tensor) (n : Nat) : Bool :=
  t.isSealed && bits (s.peek (t.sealAddr + 32 * n + 8) 8) 15 8 != 0

/-- The byte of a void sample's payload reads as zero (R270): the bytes of a plain fill, with those of void samples zero. -/
def State.voidByte (s : State) (j : Job) (a : Nat) : Bool :=
  j.tens.any (fun t => t.role == 0 && t.isSealed && (List.range t.n).any (fun n => s.sampleVoid t n &&
    ((decide (t.addr + n * (t.pitch * 64) ≤ a) && decide (a < t.addr + n * (t.pitch * 64) + t.h * t.rowPitch)) ||
      (isMx t.fmt && (let k := t.h * t.w * ceilDiv t.c 32; decide (t.aux + n * k ≤ a) && decide (a < t.aux + n * k + k))))))

/-- What one run of a band delivers: poison, an unpack error, the block. -/
structure RunPart where
  poison  : Bool
  badCode : Bool
  block   : FillBlock
  deriving DecidableEq, Repr

/-- A run of a packed tensor, unpacked (R156, R164). -/
def State.packedRun (s : State) (t : Tensor) (n y x c len : Nat) : RunPart :=
  let im := s.packedAt t
  let r := t.blocksOf n y x c len
  let p := (Image.packedReads im r.1 r.2).any (fun q => s.readFails (s.place t.addr + q.1) q.2)
  match Image.unpackBlocks im r.1 r.2 with
  | none => ⟨p, true, FillBlock.zero len⟩
  | some bs => ⟨p, false, ⟨((bs.flatMap (·.elems)).drop (c % 32)).take len, (bs.headD Block.zero).scale, false⟩⟩

/-- What a fill of a band meets and delivers at run k of pixel i. -/
def State.bandBlock (s : State) (t : Tensor) (tr : Nat) (b : Band) (y x : Int) (c len : Nat) : RunPart :=
  if s.sampleVoid t b.sample then ⟨false, false, FillBlock.zero len⟩
  else if !(decide (0 ≤ y) && decide (0 ≤ x) && decide (y < t.h) && decide (x < t.w) && decide (b.sample < t.n)) then
    ⟨false, false, FillBlock.zero len⟩
  else if t.packed then s.packedRun t b.sample y.toNat x.toNat c len
  else
    ⟨(s.runReads t tr b y x c len).any (fun r => s.readFails (s.place r.1) r.2), false,
      t.fillBlock s.peekByte (s.place t.addr) (s.place t.zmapAddr) (s.place t.aux) tr b.sample y x c len⟩

/-- What a fill delivers: the core after it, whether it met poison, whether the unpacker failed, whether a doubling saturated. -/
structure Filled where
  core   : Core
  poison : Bool
  badCode : Bool
  sat    : Bool
  deriving DecidableEq, Repr

/-- Bytes behind run k of a pixel up to the pixel pitch, which hold zero padding channels (R219). -/
def runPad (b : Band) (t : Tensor) (k : Nat) : Nat :=
  if k + 1 = (bandRuns b).length then bandPitch b t - ceilDiv (formatBits t.fmt * b.chans) 8 else 0

/-- Delivers a band into a scratchpad. -/
def State.fillBand (s : State) (j : Job) (n : Nat) (b : Band) (sp sc : Nat) : Filled :=
  let t := j.tensor b.binding
  (bandPixels b).foldl (fun f (i, y, x) =>
    (List.range (bandRuns b).length).foldl (fun (g : Filled) k =>
      let r := (bandRuns b).getD k (0, 0)
      let p := s.bandBlock t (j.fillTransform n t) b y x r.1 r.2
      let c1 := g.core.writeBlock t.fmt (bandAt b t sp i + 32 * k * formatBits t.fmt / 8) (runPad b t k) p.block
      let c2 := if isMx t.fmt then c1.write (bandScaleAt b sc i k) [BitVec.ofNat 8 p.block.scale] else c1
      ⟨c2, g.poison || p.poison, g.badCode || p.badCode, g.sat || p.block.sat⟩) f) ⟨s.core n, false, false, false⟩

/-- Delivers unpacked blocks: elements at sp, scales at sc. -/
def fillBlocks (c : Core) (fmt sp sc : Nat) (bs : List Block) : Core :=
  (List.range bs.length).foldl (fun a i =>
    let b := bs.getD i Block.zero
    let a1 := a.writeBlock fmt (sp + i * (32 * formatBits fmt / 8)) 0 ⟨b.elems, b.scale, false⟩
    if isMx fmt then a1.write (sc + i) [BitVec.ofNat 8 b.scale] else a1) c

/-- What a fill delivers. -/
def State.filled (s : State) (j : Job) (n : Nat) (src : FillSrc) (sp sc : Nat) : Filled :=
  let c := s.core n
  let e := s.hotEntry j.entry
  let packed := fun (im : Image) (po : Nat → Nat → Bool) (first k : Nat) =>
    let p := (Image.packedReads im first k).any (fun r => po r.1 r.2)
    match Image.packHead im, Image.unpackBlocks im first k with
    | some h, some bs => (⟨fillBlocks c h.fmt sp sc bs, p, false, false⟩ : Filled)
    | _, _ => ⟨c, p, true, false⟩
  match src with
  | .raw a len => ⟨c.write sp ((s.peekBytes (s.place a) len).mapIdx (fun i x => if s.voidByte j (a + i) then 0 else x)),
      s.readFails (s.place a) len, false, false⟩
  | .band b => s.fillBand j n b sp sc
  | .blocks b first k => packed (s.packedAt (j.tensor b)) (fun o l => s.readFails (s.place (j.tensor b).addr + o) l) first k
  | .image off len => ⟨c.write sp (s.hotImage e off len), s.hotPoisoned e off len, false, false⟩
  | .imageBlocks off first k => packed (Image.tail (s.hotImage e) off) (fun o l => s.hotPoisoned e (off + o) l) first k

/-! ### Reads during unfinished transfers (R194, R238) -/

/-- A core as each unfinished transfer into its scratchpad would leave it: its own fills whose data have come, and the exchanges of its
mates. -/
def State.incoming (s : State) (j : Job) (n : Nat) : List Core :=
  ((s.core n).tags.filterMap (fun t => match t.move with
    | .fill src sp sc => if t.awaits = 0 then (let f := s.filled j n src sp sc; if f.poison || f.badCode then none else some f.core) else none
    | _ => none)) ++
  ((j.copyOf n).filter (fun m => m != n)).flatMap (fun m => (s.core m).tags.filterMap (fun t => match t.move with
    | .xchg dest dst sp len => if dest = n then some ((s.core n).write dst ((s.core m).spBytes sp len)) else none
    | _ => none))

/-- Some of the 64 B granules of a scratchpad take the data of an unfinished transfer: which is open, by a free value. -/
def Core.mix (old new : Core) (g : Nat) : Core :=
  { old with
    sp := ((old.sp ++ new.sp).map (·.1)).foldl (fun m a => if Config.freeCell g (a / 64) % 2 = 1 then
      Sparse.put old.spBlank a (Sparse.get old.spBlank a new.sp) m else m) old.sp
    blockTag := if Config.freeCell g 16384 % 2 = 1 then new.blockTag else old.blockTag }

/-- Before a core's scratchpad is read, the unfinished transfers into it have delivered some of their granules. -/
def State.progress (s : State) (j : Job) (n : Nat) : State :=
  (s.incoming j n).foldl (fun a c => { a with free := a.free + 1 }.modCore n (fun d => d.mix c a.free)) s

end Sys2Proof.Machine
end

