-- ==== Sys2Proof/Machine/Report.lean ====
section
/-! DEFINITION. Reports to the SAFE block: windows, reactions, the error pins (R456 to R461). -/

namespace Sys2Proof.Machine

/-- Reaction codes: 3 acts as 2 (R468). -/
def State.reactEach (s : State) (i : Nat) : Nat := min 2 (s.fld (Reg.SAFE_SRC_CFG i) Fd.SAFE_SRC_CFG_REACT_EACH)
def State.reactLast (s : State) (i : Nat) : Nat := min 2 (s.fld (Reg.SAFE_SRC_CFG i) Fd.SAFE_SRC_CFG_REACT_LAST)

/-- Hours of a window field: 0 acts as 1, above 168 acts as 168 (R123, R214). -/
def windowHours (h : Nat) : Nat := min 168 (max 1 h)

/-- Nanoseconds in an hour. -/
def hourNs : Nat := 3600000000000

/-- THR and WIN (in ns, 0 for no limit) of a source (R457): sources 6 and 7 take those of MEM_ROW_WIN and ARY_SP_WIN. -/
def State.srcWindow (s : State) (i : Nat) : Nat × Nat :=
  if i = 6 then (max 1 (s.fld Reg.MEM_ROW_WIN Fd.MEM_ROW_WIN_ROW_THR),
    windowHours (s.fld Reg.MEM_ROW_WIN Fd.MEM_ROW_WIN_ROW_WIN_H) * hourNs)
  else if i = 7 then (max 1 (s.fld Reg.ARY_SP_WIN Fd.ARY_SP_WIN_THR), windowHours (s.fld Reg.ARY_SP_WIN Fd.ARY_SP_WIN_WIN_H) * hourNs)
  else (max 1 (s.fld (Reg.SAFE_SRC_CFG i) Fd.SAFE_SRC_CFG_THR), s.fld (Reg.SAFE_SRC_CFG i) Fd.SAFE_SRC_CFG_WIN_MS * 1000000)

/-- Does some source with reaction 2 have its PENDING or LASTING bit set (R461), has injection not passed (R459), did the start fail
(R498), or has the hardware timer run out (R482)? -/
def State.pinDemand (s : State) : Bool :=
  s.bit Reg.SAFE_PIN Fd.SAFE_PIN_FORCE || !s.safe.injected || s.safe.blocked || s.watch.lostAt.isSome ||
  (List.range 16).any (fun i =>
    (s.regBit Reg.SAFE_PENDING i && s.reactEach i == 2) || (s.regBit Reg.SAFE_PENDING (32 + i) && s.reactLast i == 2))

/-- Drives the error pins: the error level while it is demanded and until the least assertion time has run out (R461). -/
def State.drivePins (s : State) : State :=
  s.setFld Reg.SAFE_PIN Fd.SAFE_PIN_LEVEL (s.pinDemand || decide (s.now < s.safe.minEnd)).toNat

/-- Starts the least assertion time; MIN_US 0 acts as 1 (R461, R464). -/
def State.assertPins (s : State) : State :=
  { s with safe := { s.safe with minEnd := max s.safe.minEnd (s.now + 1000 * max 1 (s.fld Reg.SAFE_PIN Fd.SAFE_PIN_MIN_US)) } }

/-- The earlier reports of a source for a unit, newest first. -/
def State.windowOf (s : State) (src unit : Nat) : List Nat :=
  match s.safe.windows.find? (fun w => w.src == src && w.unit == unit) with
  | some w => w.times
  | none => []

/-- Records the newest report; 15 reports are enough for any threshold. -/
def State.pushWindow (s : State) (src unit : Nat) : State :=
  let ts := (s.now :: s.windowOf src unit).take 15
  { s with safe := { s.safe with windows := ⟨src, unit, ts⟩ :: s.safe.windows.filter (fun w => !(w.src == src && w.unit == unit)) } }

/-- Is a unit lasting at this report: do it and the THR − 1 reports before it fall within WIN (R457)? -/
def State.isLasting (s : State) (src unit : Nat) : Bool :=
  let tw := s.srcWindow src
  match (s.windowOf src unit)[tw.1 - 1]? with
  | some t => tw.2 == 0 || decide (s.now - t ≤ tw.2)
  | none => false

/-- Applies a report's reactions, given whether it declares the unit lasting (R458, R460, R461). -/
def State.react (s : State) (src : Nat) (lasting : Bool) : State :=
  let each := s.reactEach src
  let last := if lasting then s.reactLast src else 0
  let s1 := if 1 ≤ each then s.setBit Reg.SAFE_PENDING src true else s
  let s2 := if 1 ≤ last then s1.setBit Reg.SAFE_PENDING (32 + src) true else s1
  let s3 := if 1 ≤ each ∨ 1 ≤ last then s2.raise 12 0x0010 src else s2
  if each = 2 ∨ last = 2 then s3.assertPins.drivePins else s3

/-- One report of an error source for a unit. The second result says whether the unit was declared lasting. -/
def State.reportLasting (s : State) (src unit : Nat) : State × Bool :=
  let s1 := (s.bump (Reg.SAFE_SRC_CNT src) src).pushWindow src unit
  let l := s1.isLasting src unit
  (s1.react src l, l)

/-- A report whose lasting declaration is made elsewhere: row counts of R109 and R191. -/
def State.reportAs (s : State) (src : Nat) (lasting : Bool) : State :=
  (s.bump (Reg.SAFE_SRC_CNT src) src).react src lasting

/-- A report whose lasting action is none. -/
def State.report (s : State) (src unit : Nat) : State := (s.reportLasting src unit).1

end Sys2Proof.Machine
end

