-- ==== Sys2Proof/Machine/ArrayCore.lean ====
section
/-! DEFINITION. The instructions of the array cores: matrix, vector, transfers, control, queues (R182 to R207, R281, R282). -/

namespace Sys2Proof.Machine

/-! ### Issue -/

/-- May a core's sequencer issue: not halted, not stopped at a cheap point, waiting for nothing, no drain of its waiting for a staging
extent, inside its span (R120, R194)? -/
def Core.ready (c : Core) (p : Pattern) : Bool :=
  (!c.halted || c.stepOk) && !c.atCheap && c.waitTag.isNone && !c.waitPush && !c.tags.any (·.stalled) && decide (c.span ≤ p.maxSpan)

/-- The job that a core runs now. -/
def State.runs (s : State) (n : Nat) : Option Job :=
  match (s.core n).job with
  | none => none
  | some (r, q) =>
    match s.job? r q with
    | none => none
    | some j =>
      if (j.stage == .running || j.stage == .preempting) && j.granted.contains n && (s.core n).ready j.pat then some j else none

/-- A trace record (R446). -/
def traceRecord (now source event data : Nat) : List Byte :=
  leBytes 8 (now % 2 ^ 32 * 2 ^ 32 + source % 256 * 2 ^ 24 + event % 256 * 65536) ++ leBytes 8 data

/-- What the trace unit records of a step of an agent: nothing of a confidential tenant's work (R512). DESIGN CHOICE (log 57): the
manual names no events and no place for the records, so that which steps leave one, its event and its payload are open, and a record goes
out. -/
def State.traceOf (s : State) (source core at' : Nat) : List Emit :=
  if (Sparse.get (fun _ => ({} : Tenant)) source s.trust.tenants).conf then []
  else ((Config.traceEvent source core at' s.free).map (fun e => Emit.trace (traceRecord s.now source e.1 e.2))).toList

/-- A step of a core is traced on the main copy of a job, never on the checker (R446). -/
def State.traced (s : State) (j : Job) (n : Nat) : State :=
  { s with out := s.out ++ (if j.isCk n then [] else s.traceOf (jobTenant j) n (s.core n).pc) }

/-- Issues one instruction on a core: its effect, and the sequencer moves on; a core that runs nothing ignores it, unless a flush has just
halted it (R316). In graphics mode every step in which the sequencer issues counts toward the span (R399). The step is traced (R446). -/
def State.issue (s : State) (n : Nat) (f : State → Job → State) : State :=
  match s.runs n with
  | none => s.lateFault n f
  | some j =>
    let t := f (s.traced j n) j
    if (t.core n).job = (s.core n).job ∧ !(t.core n).waitPush then
      t.modCore n (fun c => { c with pc := c.pc + 1, span := c.span + j.pat.graphics.toNat, stepOk := false })
    else t

/-- Issues an instruction of a class that only one mode runs; the hot set refuses a pattern whose code holds another, so none comes
(R193, R201). -/
def State.issueIn (s : State) (n : Nat) (graphics : Bool) (f : State → Job → State) : State :=
  match s.runs n with
  | none => s.lateFault n f
  | some j => if j.pat.graphics = graphics then s.issue n f else s

/-- A saturation, or an infinity or NaN made from finite operands, voids the bound of a copy's outputs (R144). -/
def State.void (s : State) (j : Job) (n : Nat) (v : Bool) : State :=
  if v then s.modJob j.ring j.seq (fun k => if j.isCk n then { k with voidedCk := true } else { k with voided := true }) else s

/-- A job faults on a core with a cause of R274, and the device acts on it (R316). -/
def State.fault (s : State) (j : Job) (n cause : Nat) : State := (s.jobFault j.ring j.seq cause n).conclude

/-! ### Errors of the codes over the core's memories (R191) -/

/-- A lasting scratchpad row waits for its replacement; its core takes no new job meanwhile (R191, R475). -/
def State.spRowLasting (s : State) (r : SpRow) : State :=
  if s.darn.spWait.contains r then s else { s with darn := { s.darn with spWait := s.darn.spWait ++ [r] } }

/-- A corrected scratchpad error: counted, and tracked per row for source SP_ROW (R191, R456). -/
def State.spCorrected (s : State) (n : Nat) (at? : Option (Nat × Nat)) : State :=
  let s1 := s.bump Reg.ARY_SP_CE_CNT noUnit
  match at? with
  | none => s1
  | some (bank, row) =>
    let r : SpRow := ⟨s.physOf n, bank, row⟩
    let (thr, win) := s.srcWindow 7
    let old := match s1.darn.spTracks.find? (fun t => t.place == r) with
      | some t => t.times
      | none => []
    let ts := s.now :: old.filter (fun t => decide (s.now - t ≤ win))
    let lasting := decide (thr ≤ ts.length)
    let s2 : State := { s1 with darn := { s1.darn with
      spTracks := (if lasting then [] else [⟨r, ts⟩]) ++ s1.darn.spTracks.filter (fun t => t.place != r) } }
    let s3 := s2.reportAs 7 lasting
    if lasting then s3.spRowLasting r else s3

/-- An access meets an error: a single bit is corrected and counted, a double-bit error faults the job with cause 5. -/
def State.withErr (s : State) (n : Nat) (j : Job) (e : Option SpErr) (f : State → State) : State :=
  match e with
  | none => f s
  | some x => if x.double then s.fault j n 5 else f (s.spCorrected n x.row)

/-- An instruction that reads the scratchpad: unfinished transfers into it may have delivered part of their data (R194). -/
def State.accesses (s : State) (n : Nat) (j : Job) (e : Option SpErr) (f : State → State) : State :=
  s.withErr n j e (fun s => f (s.progress j n))

/-! ### Matrix unit (R182 to R185) -/

/-- B of an operand pair, and whether its accumulator is INT32 (R138, R182). -/
def matB (p : MatPair) : Option (Nat × Bool) :=
  match p.wFmt, p.xFmt with
  | 2, 2 => some (64, true)
  | 1, 2 => some (64, true)
  | 1, 1 => some (128, true)
  | 3, 3 => some (64, false)
  | 4, 4 => some (128, false)
  | 7, 7 => some (16, false)
  | 8, 8 => some (16, false)
  | w, x =>
    if (w = 4 ∨ w = 5 ∨ w = 6) ∧ (x = 5 ∨ x = 6) then some (64, false) else none

/-- MLOAD fills the inactive half with a tile and its scales (R184, R220). -/
def State.mload (s : State) (n sp len sc scLen : Nat) : State :=
  s.modCore n (fun c => c.putInactive {
    bytes := c.spBytes sp len, scales := c.spBytes sc scLen
    zero := Core.allZ (len + 1) c sp (sp + len), special := !Core.noS (len + 1) c sp (sp + len) })

/-- MLOAD: the inactive half of the tile buffer is filled from the scratchpad. -/
def execMload (core sp len sc scLen : Nat) (err : Option SpErr) (s : State) : Host.Outcome State Fault Refusal :=
  s.whenUp (fun s => s.issue core (fun s j => s.accesses core j err (fun s => s.mload core sp len sc scLen)))

/-- The exact integer dot product of the streamed vector and column j of the tile. -/
def Core.dotInt (c : Core) (p : MatPair) (b sp j : Nat) : Int :=
  let w := formatBits p.wFmt
  let x := formatBits p.xFmt
  ((List.range b).map (fun i =>
    signedOf w (ofLe ((List.range (ceilDiv w 8)).map (fun k => BitVec.ofNat 8 (c.tileByte ((j * b + i) * w / 8 + k)))) / 2 ^ ((j * b + i) * w % 8)) *
    signedOf x (c.spElem x sp i))).sum

/-- Element i of column j of the tile as a value. -/
def Core.tileElem (c : Core) (fmt b j i : Nat) : Num :=
  let w := formatBits fmt
  let k := (j * b + i) * w
  elemValue fmt (ofLe ((List.range (ceilDiv w 8)).map (fun m => BitVec.ofNat 8 (c.tileByte (k / 8 + m)))) / 2 ^ (k % 8) % 2 ^ w)

/-- The tree output of the streamed vector and column j: products exact, block sums times scale products, adder tree; the order
of the leaves is open and comes from a free value (R137, R138, R140). -/
def Core.dotFp (c : Core) (p : MatPair) (b sp sc j seed : Nat) : Num × Bool :=
  let prods := (List.range b).map (fun i => (c.tileElem p.wFmt b j i).mul (elemValue p.xFmt (c.spElem (formatBits p.xFmt) sp i)))
  let fine := prods.all Num.isFin
  if isMx p.xFmt then
    let terms := (List.range (b / 32)).map (fun k =>
      let sum := treeSum (permute 32 seed ((prods.drop (32 * k)).take 32))
      blockTerm sum (c.tileScale (j * (b / 32) + k)) ((c.spByte (sc + k)).toNat))
    let r := treeSum (permute (b / 32) seed terms)
    (r, fine && (List.range (b / 32)).all (fun k => c.tileScale (j * (b / 32) + k) != 0xFF && (c.spByte (sc + k)).toNat != 0xFF))
  else (treeSum (permute b seed prods), fine)

/-- One lane of one step: the new accumulator lane, and whether it voids the bound. -/
def Core.lane (c : Core) (p : MatPair) (b sp sc acc j seed : Nat) (int : Bool) : Nat × Bool :=
  if int then accInt acc (c.dotInt p b sp j)
  else
    let d := c.dotFp p b sp sc j seed
    let r := accFp acc d.1
    (r.1, r.2 || (d.2 && (ofFp32 acc).isFin && !(ofFp32 r.1).isFin))

/-- One step of MSTEP: streamed vector at sp, scales at sc, into entry e; none where the entry holds the other kind (R185). The
second part says that the bound is voided, the third that the step was skipped (R170). -/
def Core.step (c : Core) (p : MatPair) (b : Nat) (int : Bool) (sp sc e seed : Nat) (clear : Bool) : Option (Core × Bool × Bool) :=
  let kind := if int then AccKind.int32 else AccKind.fp32
  let old := c.entry e
  let cur : AccEntry := if clear then {} else old
  if cur.kind ≠ .cleared ∧ cur.kind ≠ kind then none
  else
    let n := b * formatBits p.xFmt / 8
    let skip := (Core.allZ (n + 1) c sp (sp + n) && !c.active.special) || (c.active.zero && Core.noS (n + 1) c sp (sp + n))
    let start := (List.range 32).map (fun j => if cur.kind = .cleared then 0 else cur.lanes.getD j 0)
    if skip then some (c.putEntry e ⟨kind, start⟩, false, true)
    else
      let ls := (List.range 32).map (fun j => c.lane p b sp sc (start.getD j 0) j (seed + j) int)
      some (c.putEntry e ⟨kind, ls.map (·.1)⟩, ls.any (·.2), false)

/-- The steps of MSTEP, up to the first whose entry holds the other kind: core, voided, skipped steps, steps not done (R183). -/
def Core.steps (p : MatPair) (b : Nat) (int : Bool) (stride scStride seed : Nat) (clear : Bool) :
    Nat → Core → Nat → Nat → Nat → Core × Bool × Nat × Nat
  | 0, c, _, _, _ => (c, false, 0, 0)
  | k + 1, c, sp, sc, e =>
    match c.step p b int sp sc e (Config.freeNat (seed + k)) clear with
    | none => (c, false, 0, k + 1)
    | some (d, v, z) =>
      let r := Core.steps p b int stride scStride seed clear k d (sp + stride) (sc + scStride) (e + 1)
      (r.1, v || r.2.1, z.toNat + r.2.2.1, r.2.2.2)

/-- MSTEP: c steps, the swap of the halves first; a kind mismatch faults the job with cause 6; every step counts towards the span,
towards the STEPS of its job's VI (R295), and skipped ones towards ARY_ZSKIP (R178, R183, R184, R185, R202). -/
def State.mstep (s : State) (n : Nat) (j : Job) (p : MatPair) (b : Nat) (int : Bool) (cnt e sp stride sc scStride : Nat)
    (clear swap : Bool) : State :=
  let c0 := s.core n
  let c1 := if swap then { c0 with active1 := !c0.active1 } else c0
  let r := Core.steps p b int stride scStride s.free clear cnt c1 sp sc e
  let done := cnt - r.2.2.2
  let s1 := (({ s with free := s.free + cnt }.setCore n { r.1 with span := r.1.span + done }).addReg (Reg.ARY_ZSKIP (n / 8)) r.2.2.1).addReg
    (Reg.ARY_ACCT_STEPS (ringVi j.ring)) done
  if r.2.2.2 = 0 then s1.void j n r.2.1 else s1.fault j n 6

/-- MSTEP: c matrix steps into accumulator entries e to e + c − 1; in graphics mode of the FP16 class only (R193). -/
def execMstep (core : Nat) (pair : MatPair) (cnt e sp stride sc scStride : Nat) (clear swap : Bool) (err : Option SpErr) (s : State) :
    Host.Outcome State Fault Refusal :=
  s.whenUp (fun s =>
    match matB pair with
    | none => s
    | some (b, int) =>
      if 1 ≤ cnt ∧ cnt ≤ 64 ∧ e + cnt ≤ 64 then
        (if b = 16 then s.issue core else s.issueIn core false) (fun s j => s.accesses core j err (fun s => s.mstep core j pair b int cnt e sp stride sc scStride clear swap))
      else s)

/-- The integers k with |k × s − y| ≤ 2^-23 × |y| + s / 2, for y = ± m × 2^e and s = n × 2^f above 0: the least and the greatest. -/
def requantRange (neg : Bool) (m : Nat) (e : Int) (n : Nat) (f : Int) : Int × Int :=
  let q := min e f - 24
  let y := sgn neg (shl m (e - q))
  let s := shl n (f - q)
  let tol : Int := (shl m (e - 23 - q) + s / 2 : Nat)
  (-((tol - y) / (s : Int)), (y + tol) / (s : Int))

/-- A requantised lane: INT32 or FP32 × multiplier + bias, to INT8 with a scale, at a free place among the results within R146; with a
scale of 0 it is a free value. An FP32 overflow on the way gives 0, as an infinity does (R131, R134, R135, R146; log 29). -/
def requantLane (free : Nat) (kind : AccKind) (lane mul bias scale : Nat) : Nat × Bool :=
  let x := if kind = .int32 then Num.ofInt (signedOf 32 lane) 0 else ofFp32 lane
  let y := (x.mul (ofFp32 mul)).add (ofFp32 bias)
  let big := x.isFin && (ofFp32 mul).isFin && (ofFp32 bias).isFin && !(f32 y).isFin
  match y, ofFp32 scale with
  | .fin a m e, .fin b n f =>
    if big then (0, true)
    else if n = 0 then (codeOf 32 ((free % 255 : Nat) - 127 : Int), true)
    else
      let r := requantRange (a != b) m e n f
      let k := r.1 + (free % max 1 (r.2 + 1 - r.1).toNat : Nat)
      (codeOf 32 (max (-127) (min 127 k)), decide (127 < k.natAbs))
  | _, _ => (0, big)

/-- MDRAIN moves an entry into half of a vector register, with requantisation and clear (R185). -/
def State.mdrain (s : State) (n : Nat) (j : Job) (e v half : Nat) (clear : Bool) (rq : Option Requant) : State :=
  let c := s.core n
  let a := c.entry e
  let ls := (List.range 32).map (fun i => match rq with
    | none => (a.lanes.getD i 0, false)
    | some r => requantLane (Config.freeNat (s.free + i)) a.kind (a.lanes.getD i 0) ((c.lanes r.mulReg).getD i 0) ((c.lanes r.biasReg).getD i 0) r.scale)
  let old := c.lanes v
  let new := if half = 0 then ls.map (·.1) ++ old.drop 32 else old.take 32 ++ ls.map (·.1)
  let c1 := c.putLanes v new
  ({ s with free := s.free + 32 }.setCore n (if clear then c1.putEntry e {} else c1)).void j n (ls.any (·.2))

/-- MDRAIN: one accumulator entry into half of a vector register. -/
def execMdrain (run : CoreAt) (e v half : Nat) (clear : Bool) (rq : Option Requant) (s : State) : Host.Outcome State Fault Refusal :=
  s.whenUp (fun s => s.issue run.core (fun s j => s.withErr run.core j run.err (fun s => s.mdrain run.core j (e % 64) (v % 256) (half % 2) clear rq)))

/-! ### Vector loads and stores (R186) -/

/-- A scratchpad element as a lane: integers as INT32, floating formats as FP32, MX elements under their block's scale. -/
def loadLane (fmt code scale : Nat) : Nat :=
  if fmt = 1 then codeOf 32 (signedOf 4 code)
  else if fmt = 2 then codeOf 32 (signedOf 8 code)
  else if fmt = 10 then code
  else if isMx fmt then toFp32 ((elemValue fmt code).mul (scaleValue scale))
  else toFp32 (elemValue fmt code)

/-- Does an MX element under a scale give an infinity though it is finite (R144)? -/
def loadVoid (fmt code scale : Nat) : Bool :=
  isMx fmt && scale != 0xFF && (elemValue fmt code).isFin && !(ofFp32 (loadLane fmt code scale)).isFin

/-- VLOAD: 64 elements of a format from the scratchpad into a register. -/
def State.vload (s : State) (n : Nat) (j : Job) (v sp fmt sc : Nat) : State :=
  let c := s.core n
  let es := (List.range 64).map (fun i => (c.spElem (formatBits fmt) sp i, (c.spByte (sc + i / 32)).toNat))
  (s.modCore n (fun c => c.putLanes v (es.map (fun x => loadLane fmt x.1 x.2)))).void j n (es.any (fun x => loadVoid fmt x.1 x.2))

/-- VLOAD: a vector register is loaded from the scratchpad with conversion. -/
def execVload (core v sp fmt sc : Nat) (err : Option SpErr) (s : State) : Host.Outcome State Fault Refusal :=
  s.whenUp (fun s => s.issue core (fun s j => s.accesses core j err (fun s => s.vload core j (v % 256) sp fmt sc)))

/-- A lane as a stored code: integer formats take INT32 lanes, floating formats FP32 lanes (R134). -/
def storeLane (fmt lane : Nat) : Nat × Bool :=
  if fmt = 10 then (lane, false)
  else if fmt = 1 ∨ fmt = 2 then elemCode fmt (Num.ofInt (signedOf 32 lane) 0)
  else elemCode fmt (ofFp32 lane)

/-- The codes, scales and saturation mark of a register stored in a format; `raw` stores lanes that hold codes already. -/
def storeCodes (fmt : Nat) (raw : Bool) (lanes : List Nat) : List Nat × List Byte × Bool :=
  if raw then (lanes, [], false)
  else if isMx fmt then
    let a := mxQuantise fmt ((lanes.take 32).map ofFp32)
    let b := mxQuantise fmt (((lanes.drop 32).take 32).map ofFp32)
    (a.2.1 ++ b.2.1, [BitVec.ofNat 8 a.1, BitVec.ofNat 8 b.1], a.2.2 || b.2.2)
  else
    let r := lanes.map (storeLane fmt)
    (r.map (·.1), [], r.any (·.2))

/-- VSTORE: 64 lanes of a register into the scratchpad. -/
def State.vstore (s : State) (n : Nat) (j : Job) (v sp fmt sc : Nat) (raw : Bool) : State :=
  let r := storeCodes fmt raw ((s.core n).lanes v)
  (s.modCore n (fun c => (c.write sp (elemBytes (formatBits fmt) r.1)).write sc r.2.1)).void j n r.2.2

/-- VSTORE: a vector register is stored to the scratchpad with conversion. -/
def execVstore (core v sp fmt sc : Nat) (raw : Bool) (err : Option SpErr) (s : State) : Host.Outcome State Fault Refusal :=
  s.whenUp (fun s => s.issue core (fun s j => s.withErr core j err (fun s => s.vstore core j (v % 256) sp fmt sc raw)))

/-! ### Vector operations (R187, R148) -/

/-- An FP32 result of finite operands that is not finite voids the bound. -/
def fpVoid (ins : List Nat) (out : Nat) : Bool := ins.all (fun a => (ofFp32 a).isFin) && !(ofFp32 out).isFin

/-- A correctly rounded FP32 operation with its mark. -/
def fpOp (ins : List Nat) (x : Num) : Nat × Bool := let r := toFp32 x; (r, fpVoid ins r)

/-- The order of two values. -/
def lessThan (a b : Num) : Bool := a.le b && !b.le a

/-- Reciprocal: within 1 ulp; ± infinity at ± 0, ± 0 from 2^126 on (R148). -/
def fnRecip (free x : Nat) : Nat :=
  match ofFp32 x with
  | .nan => toFp32 .nan
  | .inf a => toFp32 (.fin a 0 0)
  | .fin a m e =>
    if m = 0 then toFp32 (.inf a)
    else if (126 : Int) ≤ topBit m e then toFp32 (.fin a 0 0)
    else nearFn free 1 (recipNum (.fin a m e))

/-- Square root: within 1 ulp; NaN below 0. -/
def fnSqrt (free x : Nat) : Nat :=
  match ofFp32 x with
  | .nan => toFp32 .nan
  | .inf a => if a then toFp32 .nan else toFp32 (.inf false)
  | .fin a m e => if m = 0 then x else if a then toFp32 .nan else nearFn free 1 (sqrtNum (.fin false m e))

/-- Reciprocal square root: within 2 ulp; + infinity at + 0, NaN below 0, a free value at − 0, of which R148 states nothing. -/
def fnRsqrt (free x : Nat) : Nat :=
  match ofFp32 x with
  | .nan => toFp32 .nan
  | .inf a => if a then toFp32 .nan else 0
  | .fin a m e =>
    if m = 0 then (if a then free % 2 ^ 32 else toFp32 (.inf false))
    else if a then toFp32 .nan else nearFn free 2 (recipNum (sqrtNum (.fin false m e)))

/-- exp of a value: + 0 below −87.33, + infinity above 88.72, else within 2 ulp (R148). -/
def fnExpOf (free : Nat) (x : Num) : Nat :=
  match x with
  | .nan => toFp32 .nan
  | .inf a => if a then 0 else toFp32 (.inf false)
  | .fin a m e =>
    let x := Num.fin a (100 * m) e
    if lessThan x (Num.ofInt (-8733) 0) then 0
    else if lessThan (Num.ofInt 8872 0) x then toFp32 (.inf false)
    else nearFn free 2 (expNum (.fin a m e))

/-- exp2: + 0 below −126, + infinity from 128, else within 1 ulp. -/
def fnExp2 (free x : Nat) : Nat :=
  match ofFp32 x with
  | .nan => toFp32 .nan
  | .inf a => if a then 0 else toFp32 (.inf false)
  | x =>
    if lessThan x (Num.ofInt (-126) 0) then 0
    else if (Num.ofInt 128 0).le x then toFp32 (.inf false)
    else nearFn free 1 (exp2Num x)

/-- log: −infinity at + 0, NaN below 0, a free value at − 0, of which R148 states nothing; else within 2 ulp. -/
def fnLog (free x : Nat) : Nat :=
  match ofFp32 x with
  | .nan => toFp32 .nan
  | .inf a => if a then toFp32 .nan else toFp32 (.inf false)
  | .fin a m e =>
    if m = 0 then (if a then free % 2 ^ 32 else toFp32 (.inf true))
    else if a then toFp32 .nan
    else nearFn free 2 (logNum (.fin a m e))

/-- tanh: within 3 ulp; ± 1 at the infinities. -/
def fnTanh (free x : Nat) : Nat :=
  match ofFp32 x with
  | .nan => toFp32 .nan
  | .inf a => a.toNat * 2 ^ 31 + 0x3F800000
  | .fin a m e => if m = 0 then x else nearFn free 3 (if a then (tanhNum m e).neg else tanhNum m e)

/-- sigmoid: + 0 below −87.33, else within 3 ulp; 1 at + infinity. -/
def fnSigmoid (free x : Nat) : Nat :=
  match ofFp32 x with
  | .nan => toFp32 .nan
  | .inf a => if a then 0 else 0x3F800000
  | .fin a m e => if lessThan (.fin a (100 * m) e) (Num.ofInt (-8733) 0) then 0 else nearFn free 3 (sigmoidNum a m e)

/-- A lane operation of one, two or three register lanes, with its mark and a free value. -/
def laneOp (op : VecOp) (free : Nat) (a b c : Nat) : Nat × Bool :=
  let x := ofFp32 a
  let y := ofFp32 b
  let i := signedOf 32 a
  let k := signedOf 32 b
  match op with
  | .add _ _ => fpOp [a, b] (x.add y)
  | .mul _ _ => fpOp [a, b] (x.mul y)
  | .fma _ _ _ => fpOp [a, b, c] ((x.mul y).add (ofFp32 c))
  | .cmpLt _ _ => if x = .nan ∨ y = .nan then (toFp32 .nan, false) else (if lessThan x y then 2 ^ 32 - 1 else 0, false)
  | .cmpEq _ _ => if x = .nan ∨ y = .nan then (toFp32 .nan, false) else (if x.le y && y.le x then 2 ^ 32 - 1 else 0, false)
  | .select _ _ _ => (if a = 0 then c else b, false)
  | .min _ _ => (if x = .nan ∨ y = .nan then toFp32 .nan else if x.le y then a else b, false)
  | .max _ _ => (if x = .nan ∨ y = .nan then toFp32 .nan else if x.le y then b else a, false)
  | .iadd _ _ => satInt (i + k)
  | .isub _ _ => satInt (i - k)
  | .imul _ _ => satInt (i * k)
  | .imadd _ _ _ => satInt (i * k + signedOf 32 c)
  | .imin _ _ => (codeOf 32 (min i k), false)
  | .imax _ _ => (codeOf 32 (max i k), false)
  | .iand _ _ => (and64 a b, false)
  | .ior _ _ => (or64 a b, false)
  | .ixor _ _ => (xor64 a b, false)
  | .ishl _ _ => (if b < 32 then a * 2 ^ b % 2 ^ 32 else free % 2 ^ 32, false)
  | .ishr _ _ => (if b < 32 then codeOf 32 (i / (2 ^ b : Nat)) else free % 2 ^ 32, false)
  | .toFloat _ => fpOp [] (Num.ofInt i 0)
  | .toInt _ => elemCode 10 x
  | .convert _ fmt => if fmt = 1 ∨ fmt = 2 then (let r := elemCode fmt x; (codeOf 32 (signedOf (formatBits fmt) r.1), r.2)) else elemCode fmt x
  | .recip _ => let r := fnRecip free a; (r, fpVoid [a] r)
  | .sqrt _ => let r := fnSqrt free a; (r, fpVoid [a] r)
  | .rsqrt _ => let r := fnRsqrt free a; (r, fpVoid [a] r)
  | .exp _ => let r := fnExpOf free x; (r, fpVoid [a] r)
  | .expSub _ _ => let r := fnExpOf free ((x.add y.neg).round 48); (r, fpVoid [a, b] r)
  | .exp2 _ => let r := fnExp2 free a; (r, fpVoid [a] r)
  | .log _ => let r := fnLog free a; (r, fpVoid [a] r)
  | .tanh _ => (fnTanh free a, false)
  | .sigmoid _ => (fnSigmoid free a, false)
  | .quantise _ _ _ => (a, false)
  | .permute _ _ => (a, false)
  | .sumLanes _ => (a, false)
  | .maxLanes _ => (a, false)

/-- The registers that an operation reads. -/
def opRegs : VecOp → Nat × Nat × Nat
  | .add a b => (a, b, a)
  | .mul a b => (a, b, a)
  | .fma a b c => (a, b, c)
  | .cmpLt a b => (a, b, a)
  | .cmpEq a b => (a, b, a)
  | .select m a b => (m, a, b)
  | .min a b => (a, b, a)
  | .max a b => (a, b, a)
  | .iadd a b => (a, b, a)
  | .isub a b => (a, b, a)
  | .imul a b => (a, b, a)
  | .imadd a b c => (a, b, c)
  | .imin a b => (a, b, a)
  | .imax a b => (a, b, a)
  | .iand a b => (a, b, a)
  | .ior a b => (a, b, a)
  | .ixor a b => (a, b, a)
  | .ishl a b => (a, b, a)
  | .ishr a b => (a, b, a)
  | .toFloat a => (a, a, a)
  | .toInt a => (a, a, a)
  | .convert a _ => (a, a, a)
  | .quantise a _ _ => (a, a, a)
  | .permute a b => (a, b, a)
  | .sumLanes a => (a, a, a)
  | .maxLanes a => (a, a, a)
  | .recip a => (a, a, a)
  | .sqrt a => (a, a, a)
  | .rsqrt a => (a, a, a)
  | .exp a => (a, a, a)
  | .expSub a b => (a, b, a)
  | .exp2 a => (a, a, a)
  | .log a => (a, a, a)
  | .tanh a => (a, a, a)
  | .sigmoid a => (a, a, a)

/-- The larger of two values, NaN if either is. -/
def numMax (a b : Num) : Num := if a = .nan ∨ b = .nan then .nan else if a.le b then b else a

/-- A register operation: the destination's lanes, a second register's lanes where it writes one, the mark. -/
def Core.vecOp (c : Core) (op : VecOp) (free : Nat) : List Nat × Option (Nat × List Nat) × Bool :=
  let (ra, rb, rc) := opRegs op
  let a := c.lanes (ra % 256)
  let b := c.lanes (rb % 256)
  let d := c.lanes (rc % 256)
  match op with
  | .quantise _ fmt scales =>
    let q0 := mxQuantise fmt ((a.take 32).map ofFp32)
    let q1 := mxQuantise fmt (((a.drop 32).take 32).map ofFp32)
    (q0.2.1 ++ q1.2.1, some (scales % 256, q0.1 :: q1.1 :: (c.lanes (scales % 256)).drop 2), q0.2.2 || q1.2.2)
  | .permute _ _ => ((List.range 64).map (fun i => a.getD (b.getD i 0 % 64) 0), none, false)
  | .sumLanes _ =>
    let r := toFp32 (fpSum (permute 64 (Config.freeNat free) (a.map ofFp32)))
    (List.replicate 64 r, none, fpVoid a r)
  | .maxLanes _ => (List.replicate 64 (toFp32 ((a.map ofFp32).foldl numMax (ofFp32 (a.getD 0 0)))), none, false)
  | _ =>
    let r := (List.range 64).map (fun i => laneOp op (Config.freeNat (free + i)) (a.getD i 0) (b.getD i 0) (d.getD i 0))
    (r.map (·.1), none, r.any (·.2))

/-- A vector instruction on a core. -/
def State.vectorOp (s : State) (n : Nat) (j : Job) (dst : Nat) (op : VecOp) : State :=
  let r := (s.core n).vecOp op s.free
  let s1 := ({ s with free := s.free + 64 }).modCore n (fun c => match r.2.1 with
    | some (k, l) => (c.putLanes dst r.1).putLanes k l
    | none => c.putLanes dst r.1)
  s1.void j n r.2.2

/-- VECTOR_OP: one vector instruction. -/
def execVectorOp (run : CoreAt) (dst : Nat) (op : VecOp) (s : State) : Host.Outcome State Fault Refusal :=
  s.whenUp (fun s => s.issue run.core (fun s j => s.withErr run.core j run.err (fun s => s.vectorOp run.core j (dst % 256) op)))

end Sys2Proof.Machine
end

