-- ==== Sys2Proof/Machine/Cache.lean ====
section
/-! DEFINITION. The array cache: pending lines and their places, allocation, eviction, pins (R84, R115, R120, R196 to R199, R307). -/

namespace Sys2Proof.Machine

/-! ### Pending lines (R115, R197) -/

/-- The pending bytes and line owners of a copy. -/
def Job.pending (j : Job) (ck : Bool) : Sparse (Option Byte) := if ck then j.pendCk else j.pend

/-- The 64 B lines of n bytes from an address. -/
def linesFrom (a n : Nat) : List Nat := (List.range ((a + n + 63) / 64 - a / 64)).map (fun i => a / 64 + i)

/-- The lines that a drain of a band touches: of a mapped output those of the whole blocks. -/
def State.drainLines (s : State) (t : Tensor) (b : Band) : List Nat :=
  ((bandPixels b).flatMap (fun (_, y, x) =>
    let px := s.place t.addr + t.pixel b.sample y.toNat x.toNat
    let k := fun c => t.blockNo b.sample y.toNat x.toNat c
    (drainRuns b).flatMap (fun (c, len) =>
      let lo := if t.zmap then c / 32 * 32 else c
      let hi := if t.zmap then min (c / 32 * 32 + 32) (storedChans t.fmt t.c) else c + len
      let stop := if t.c ≤ hi then t.pixPitch else ceilDiv (t.bits * hi) 8
      linesFrom (px + t.bits * lo / 8) (stop - t.bits * lo / 8) ++ (if t.zmap then linesFrom (s.place t.zmapAddr + k c / 8) 1 else []) ++
        (if isMx t.fmt then linesFrom (s.place t.aux + k c) 1 else [])))).eraseDups

/-- A checker's drains of outputs that are not compared are dropped (R434). -/
def Job.drops (j : Job) (n : Nat) (b : Band) : Bool := j.isCk n && (j.tensor b.binding).role != 2

/-- The lines of the drains in flight on a core. -/
def State.linesComing (s : State) (j : Job) (n : Nat) : List Nat :=
  (s.core n).tags.flatMap (fun t => match t.move with
    | .drain b _ _ => if t.stalled || j.drops n b then [] else s.drainLines (j.tensor b.binding) b
    | _ => [])

/-- The 64 B lines that a copy of a job holds pending in the array cache, those of its drains in flight included: outside its staged
extents. -/
def State.copyLines (s : State) (j : Job) (ck : Bool) : List Nat :=
  ((j.pending ck).map (fun (x : Nat × Option Byte) => x.1 / 64) ++ (if ck then j.ckCores else j.cores).flatMap (fun n => s.linesComing j n)).eraseDups.filter
    (fun l => !j.extents.contains (l / 1024))

/-- Pending lines in the set of a line (R197). -/
def State.waysPending (s : State) (line : Nat) : Nat :=
  ((s.jobs.flatMap (fun j => s.copyLines j false ++ s.copyLines j true)).filter (sameSet line)).length

/-! ### Allocation (R197 to R199) -/

/-- The allocated lines of a set, and those of them that are pinned. -/
def State.waysUsed (s : State) (line : Nat) : Nat := (s.memst.cache.filter (fun x => sameSet line x.line)).length
def State.waysPinned (s : State) (line : Nat) : Nat := (s.memst.cache.filter (fun x => sameSet line x.line && x.pin.isSome)).length

/-- A line of a set that is not pinned makes way: which one is open, by a free value. -/
def State.evictWay (s : State) (line : Nat) : State :=
  let l := s.memst.cache.filter (fun x => sameSet line x.line && x.pin.isNone)
  match l[Config.freeNat s.free % max 1 l.length]? with
  | none => s
  | some x => { s with free := s.free + 1 }.dropLines (fun y => y == x)

/-- A line of the set of a pending line makes way if the set is full. -/
def State.claimWay (s : State) (line : Nat) : State := if 16 < s.waysPending line + s.waysUsed line then s.evictWay line else s

/-- Allocates a line for an origin, as committed data or as a clean copy, pinned or not; with its slice off, or with no way of its set
that is neither pending nor pinned, it is not allocated (R84, R197). -/
def State.allocLine (s : State) (origin : Nat) (dirty : Bool) (pin : Option Nat) (line : Nat) : State :=
  if s.memst.cache.any (fun x => x.line == line) then
    { s with memst := { s.memst with cache := updWhere (fun x => x.line == line) (fun x => { x with
        origin := if dirty then origin else x.origin, dirty := x.dirty || dirty, pin := if pin.isSome then pin else x.pin }) s.memst.cache } }
  else if !s.domainOn (15 + cacheSlice (64 * line)) || 16 ≤ s.waysPending line + s.waysPinned line then s
  else
    let s1 := if 16 ≤ s.waysPending line + s.waysUsed line then s.evictWay line else s
    { s1 with memst := { s1.memst with cache := s1.memst.cache ++ [⟨line, origin, dirty, pin⟩] } }

/-- PIN_WAYS in force (R214). -/
def State.pinWays (s : State) : Nat := min 8 (s.fld Reg.ARY_CACHE_CFG Fd.ARY_CACHE_CFG_PIN_WAYS)

/-- Allocates a line pinned for a hot-set entry; beyond the limit it is an ordinary clean line, and with the slice off none: both are
counted (R84, R198, R307). -/
def State.pinLine (s : State) (origin i line : Nat) : State :=
  if s.memst.cache.any (fun x => x.line == line && x.pin.isSome) then s
  else if s.waysPinned line < s.pinWays ∧ s.domainOn (15 + cacheSlice (64 * line)) then s.allocLine origin false (some i) line
  else (s.bump Reg.ARY_PIN_MISS_CNT noUnit).allocLine origin false none line

/-! ### Room for drains (R115, R120) -/

/-- The extents of the pool in force, and those taken by uncommitted and by redirected extents (R117, R120). -/
def State.extentCount (s : State) : Nat := s.memst.stageSize * 1024
def State.extentsTaken (s : State) : Nat := (s.jobs.map (fun j => j.extents.length)).sum + s.memst.extents.length

/-- The first free extent of the pool (DESIGN CHOICE, log 51: which one is open), and where extent k lies. -/
def State.freeExtent (s : State) : Nat :=
  let used := s.jobs.flatMap (fun j => j.places) ++ s.memst.places
  ((List.range s.extentCount).find? (fun k => !used.contains k)).getD 0
def State.poolAt (s : State) (k : Nat) : Nat := s.memst.stageBase + 65536 * k

/-- A job takes an extent of the pool for one of its home extents; whole lines go into it, which heals it (R105, R115). -/
def State.takeExtent (s : State) (ring seq home : Nat) : State :=
  let k := s.freeExtent
  { s.modJob ring seq (fun j => { j with extents := j.extents ++ [home], places := j.places ++ [k] }) with
    poison := s.poison.filter (fun x => x.1 / 1024 != s.poolAt k / 65536) }

/-- Has staged output of a job gone bad in the pool: a pending byte in an extent whose beat there is poisoned (R106)? -/
def State.stagedPoison (s : State) (j : Job) : Bool :=
  (j.extents.zip j.places).any (fun (h, k) =>
    (j.pend.filter (fun x => x.1 / 65536 == h)).any (fun x => s.isPoisoned (s.poolAt k + x.1 % 65536) 1))


/-- Does a line of a copy have its place: pending already, in an extent of the job, or in a set with fewer than 8 pending ways, those in
`acc` included, of a slice that is on? -/
def State.lineFits (s : State) (j : Job) (ck : Bool) (acc : List Nat) (line : Nat) : Bool :=
  j.extents.contains (line / 1024) || (s.copyLines j ck).contains line ||
  (decide (s.waysPending line + (acc.filter (sameSet line)).length < 8) && s.domainOn (15 + cacheSlice (64 * line)))

/-- Room for lines beside those in `acc`, taking extents where the cache has none; none where the pool has no free extent. -/
def State.roomLoop (s : State) (ring seq : Nat) (ck : Bool) (acc : List Nat) : List Nat → Option State
  | [] => some s
  | l :: ls =>
    match s.job? ring seq with
    | none => some s
    | some j =>
      if s.lineFits j ck acc l then State.roomLoop s ring seq ck (l :: acc) ls
      else if s.extentsTaken < s.extentCount then
        State.roomLoop (s.takeExtent ring seq (l / 1024)) ring seq ck acc ls
      else none

/-- Room for the lines of a drain. -/
def State.roomFor (s : State) (ring seq : Nat) (ck : Bool) (ls : List Nat) : Option State := s.roomLoop ring seq ck [] ls

end Sys2Proof.Machine
end

