-- ==== Sys2Proof/Machine/Transfers.lean ====
section
/-! DEFINITION. Transfers, control and queue instructions of the array cores, staging, span and watchdog (R193 to R212, R115,
R120, R281, R282). -/

namespace Sys2Proof.Machine

/-! ### Fills (R195, R303, R307, R434) -/

/-- Do all granules of a local range of the host memory window let a job through: mapped, on, DATA (R508, R564, R568)? -/
def State.dataOpen (s : State) (a n : Nat) : Bool :=
  (List.range (granuleOf (a + n - 1) + 1 - granuleOf a)).all (fun i =>
    let x := a + i * 2 ^ 26
    s.windowOpen x && (s.mapEntry (granuleOf x)).data)

/-- May an array core reach n bytes at a global address: DRAM outside the reserved region, the staging pool and enclaves, a DATA
mapping, or for a read the memory of an UP peer (R97, R100, R521, R564, R621, R625)? -/
def State.spanOk (s : State) (g len : Nat) (read : Bool) : Bool :=
  let n := max 1 len
  let a := g % 2 ^ 48
  decide (g + n ≤ 2 ^ 63) && (if devOf g = s.ownDev then
      s.dmaOk a n || (inHostWindow a && inHostWindow (a + n - 1) && s.dataOpen a n)
    else read && (match s.peerOf (devOf g) with
      | some i => (s.peer i).state == 3
      | none => false))

/-- The ranges of global addresses that a source may read, for the window (R537). -/
def State.fillRanges (s : State) (j : Job) : FillSrc → List (Nat × Nat)
  | .raw a len => [(a, len)]
  | .band b => tensorRanges (j.tensor b.binding)
  | .blocks b first n => (Image.packedReads (s.packedAt (j.tensor b)) first n).map (fun r => ((j.tensor b).addr + r.1, r.2))
  | .image _ _ => []
  | .imageBlocks _ _ _ => []

/-- Is a fill inside what its job may read: the tenant's window, an address that it reaches, the pattern's LENGTH (R98, R195,
R303)? -/
def State.fillAllowed (s : State) (j : Job) (src : FillSrc) : Bool :=
  let e := s.hotEntry j.entry
  match src with
  | .image off len => decide (off + len ≤ e.length)
  | .imageBlocks off first n => (Image.packedReads (Image.tail (s.hotImage e) off) first n).all (fun r => decide (off + r.1 + r.2 ≤ e.length))
  | .band b => decide (b.binding < j.tens.length) && (s.fillRanges j src).all (fun r => inRanges j.window r.1 r.2 && s.spanOk r.1 r.2 true)
  | _ => (s.fillRanges j src).all (fun r => inRanges j.window r.1 r.2 && s.spanOk r.1 r.2 true)

/-- Is a place behind the host bridge or on another device? -/
def isFar (p : Nat) : Bool := !onPackage p

/-- Begins the reads that leave the package for a fill: each is held by the bridge or by the Causeway engine; one that is not let
through delivers poison (R564, R621). The result counts the reads held. -/
def State.farReads (s : State) (j : Job) (n tag : Nat) (src : FillSrc) : State × Nat :=
  ((s.fillReads j n src).filter (fun r => isFar (s.place r.1) && r.2 != 0)).foldl (fun (a, k) r =>
    if devOf r.1 = a.ownDev then
      if a.windowOpen (r.1 % 2 ^ 48) then
        let h := a.handOver (jobTenant j) (r.1 % 2 ^ 48) r.2
        if h.2 then (h.1, k) else (h.1.holdRead (jobTenant j) (r.1 % 2 ^ 48) r.2 (.fill n tag j.ring j.seq j.gen), k + 1)
      else (a.windowRefuse.setPoison (a.place r.1) r.2, k)
    else
      let q := a.readRemote (jobTenant j) r.1 r.2 false (.fill n tag j.ring j.seq j.gen)
      if q.2 = 0 then (q.1.setPoison (a.place r.1) r.2, k) else (q.1, k + q.2)) (s, 0)

/-- The parts of a pattern's image that a fill reads. -/
def State.imageReads (s : State) (j : Job) : FillSrc → List (Nat × Nat)
  | .image off len => [(off, len)]
  | .imageBlocks off first k => (Image.packedReads (Image.tail (s.hotImage (s.hotEntry j.entry)) off) first k).map (fun r => (off + r.1, r.2))
  | _ => []

/-- The place of an offset in the resident image of a hot-set entry. -/
def State.imagePlace (s : State) (e : HotEntry) (off : Nat) : Nat :=
  if e.kind = 0 then s.place e.key + off else s.sched.hotBase + granule * e.granules.getD (off / granule) 0 + off % granule

/-- The places of the lines of a resident image that a fill reads. -/
def State.imageLines (s : State) (j : Job) (src : FillSrc) : List Nat :=
  ((s.imageReads j src).flatMap (fun r => linesFrom r.1 r.2)).map (fun l => s.imagePlace (s.hotEntry j.entry) (64 * l) / 64)

/-- The places on the package that a fill reads, as (place, length). -/
def State.localReads (s : State) (j : Job) (n : Nat) (src : FillSrc) : List (Nat × Nat) :=
  ((s.fillReads j n src).map (fun r => (s.place r.1, r.2))).filter (fun r => onPackage r.1) ++ (s.imageLines j src).map (fun l => (64 * l, 64))

/-- The first stopped rim of a channel that a fill reads from (R31). -/
def State.fillStop (s : State) (j : Job) (n : Nat) (src : FillSrc) : Option Nat :=
  (s.localReads j n src).findSome? (fun r => s.chanStop r.1 r.2)

/-- The lines that a fill reads are allocated for its tenant; those of a pattern's image are pinned while CPIN is set (R197, R199,
R307). -/
def State.cacheFill (s : State) (j : Job) (n : Nat) (src : FillSrc) : State :=
  let ls := (((s.fillReads j n src).map (fun r => (s.place r.1, r.2))).filter (fun r => onPackage r.1)).flatMap (fun r => linesFrom r.1 r.2)
  (s.imageLines j src).foldl (fun a l => if (s.hotEntry j.entry).cpin then a.pinLine (jobTenant j) j.entry l else a.allocLine (jobTenant j) false none l)
    (ls.foldl (fun a l => a.allocLine (jobTenant j) false none l) s)

/-- Is a transfer tag free? -/
def Core.tagFree (c : Core) (tag : Nat) : Bool := !c.tags.any (fun t => t.tag == tag)

/-- FILL: a transfer into the scratchpad starts; a read outside the job's window, or one refused at a stopped rim, faults it with cause 3
(R31, R98, R195). -/
def State.fill (s : State) (n : Nat) (j : Job) (tag : Nat) (src : FillSrc) (sp sc : Nat) : State :=
  if s.fillAllowed j src then
    match s.fillStop j n src with
    | some c => (s.rimRefuse c).fault j n 3
    | none =>
      let r := s.farReads j n tag src
      (r.1.cacheFill j n src).modCore n (fun c => { c with tags := c.tags ++ [{ tag := tag, move := .fill src sp sc, awaits := r.2 }] })
  else (s.bump Reg.MEM_REFUSE_CNT noUnit).fault j n 3

/-- FILL: starts a transfer on a free tag; with its tag in use it waits. Only compute patterns transfer (R193). -/
def execFill (core tag : Nat) (src : FillSrc) (sp sc : Nat) (s : State) : Host.Outcome State Fault Refusal :=
  s.whenUp (fun s => if tag < 16 ∧ (s.core core).tagFree tag then s.issueIn core false (fun s j => s.fill core j tag src sp sc) else s)

/-! ### Drains and staging (R115, R120, R167, R173, R197) -/

/-- A byte as a copy sees it: its own pending write, else memory. -/
def State.overlay (s : State) (j : Job) (ck : Bool) (a : Nat) : Byte :=
  match Sparse.get (fun _ => none) a (j.pending ck) with
  | some b => b
  | none => s.peekByte a

/-- Writes bytes pending for a copy and tags their lines with the core that wrote them (R115, R439). -/
def Job.writePend (j : Job) (ck : Bool) (core : Nat) (a : Nat) (bs : List Byte) : Job :=
  let p := (List.range bs.length).foldl (fun m i => Sparse.put (fun _ => none) (a + i) (bs[i]?) m) (j.pending ck)
  let lines := (List.range (ceilDiv (a % 64 + bs.length) 64)).map (fun i => a / 64 + i)
  let o := Sparse.putAll (fun _ => 0) lines (core + 1) (if ck then j.lineOwnerCk else j.lineOwner)
  if ck then { j with pendCk := p, lineOwnerCk := o } else { j with pend := p, lineOwner := o }

/-- The stored code of an element of an output as a copy sees it. -/
def State.pendCode (s : State) (j : Job) (ck : Bool) (t : Tensor) (n y x c : Nat) : Nat :=
  t.code (s.overlay j ck) (s.place t.addr) (s.place t.zmapAddr) n y x c

/-- Writes element codes from channel c of a pixel on, trimmed; behind the tensor's last channel the pixel's padding is zero (R173,
R219). -/
def State.putRun (s : State) (core : Nat) (ck : Bool) (t : Tensor) (n y x c : Nat) (codes : List Nat) (j : Job) : Job :=
  let bit := t.bits * c
  let a := s.place t.addr + t.pixel n y x + bit / 8
  let es := if t.trim = 0 then codes else codes.map (trimElem t.fmt t.trim)
  let last := decide (t.c ≤ c + codes.length)
  let len := if last then t.pixPitch - bit / 8 else ceilDiv (bit % 8 + t.bits * codes.length) 8
  let old := ofLe ((List.range len).map (fun i => s.overlay j ck (a + i)))
  let body := packElems t.bits es * 2 ^ (bit % 8)
  let span := 2 ^ (bit % 8 + t.bits * codes.length)
  j.writePend ck core a (leBytes len (old % 2 ^ (bit % 8) + body % span + (if last then 0 else old / span * span)))

/-- One run of a pixel, within one block of the tensor, drained to an output: the zero map's bit, judged on the whole block, the
elements, the MX scale. A block that was elided and no longer is gets zeros beside the run (R166, R167). -/
def State.drainRun (s : State) (core : Nat) (ck : Bool) (t : Tensor) (n y x c : Nat) (codes : List Nat) (scale : Nat) (j : Job) : Job :=
  let k := t.blockNo n y x c
  let lo := c / 32 * 32
  let block := (List.range (min 32 (storedChans t.fmt t.c - lo))).map (fun e =>
    if c ≤ lo + e ∧ lo + e < c + codes.length then codes.getD (lo + e - c) 0 else s.pendCode j ck t n y x (lo + e))
  let was := t.elided (s.overlay j ck) (s.place t.zmapAddr) n y x c
  let zero := t.zmap && blockZ t.fmt scale block
  let j1 := if t.zmap then
      let a := s.place t.zmapAddr + k / 8
      let old := (s.overlay j ck a).toNat
      j.writePend ck core a [BitVec.ofNat 8 (if zero then or64 old (2 ^ (k % 8)) else andNot64 old (2 ^ (k % 8)))]
    else j
  if zero then j1
  else
    let j2 := if was then s.putRun core ck t n y x lo block j1 else s.putRun core ck t n y x c codes j1
    if isMx t.fmt then j2.writePend ck core (s.place t.aux + k) [BitVec.ofNat 8 scale] else j2

/-- May a drain write: a declared output, inside it and inside the window, at an address that the core reaches (R98, R115, R195,
R537)? -/
def State.drainOk (s : State) (j : Job) (b : Band) : Bool :=
  match j.tens[b.binding]? with
  | none => false
  | some t => t.role != 0 && bandInside b t && (tensorRanges t).all (fun r => inRanges j.window r.1 r.2 && s.spanOk r.1 r.2 false)

/-- Lines of the cache make way for the pending lines of a drain that has room (R197). -/
def State.claimFor (s : State) (j : Job) (n : Nat) (b : Band) (s1 : State) : State :=
  if j.drops n b then s1 else (s.drainLines (j.tensor b.binding) b).foldl State.claimWay s1

/-- DRAIN: a transfer to a declared output starts; elsewhere it faults the job with cause 3; with no free extent it waits
(R115, R120, R195). -/
def State.drain (s : State) (n : Nat) (j : Job) (tag : Nat) (b : Band) (sp sc : Nat) : State :=
  if !s.drainOk j b then (s.bump Reg.MEM_REFUSE_CNT noUnit).fault j n 3
  else
    let t : Transfer := { tag := tag, move := .drain b sp sc }
    let room := if j.drops n b then some s else s.roomFor j.ring j.seq (j.isCk n) (s.drainLines (j.tensor b.binding) b)
    match room with
    | some s1 => (s.claimFor j n b s1).modCore n (fun c => { c with tags := c.tags ++ [t] })
    | none => (s.bump Reg.MEM_STAGE_FULL_CNT noUnit).modCore n (fun c => { c with tags := c.tags ++ [{ t with stalled := true }] })

/-- DRAIN: starts a transfer of scratchpad data to an output of the job. -/
def execDrain (run : CoreAt) (tag : Nat) (band : Band) (sp sc : Nat) (s : State) : Host.Outcome State Fault Refusal :=
  s.whenUp (fun s => if tag < 16 ∧ (s.core run.core).tagFree tag then
    s.issueIn run.core false (fun s j => s.withErr run.core j run.err (fun s => s.drain run.core j tag band sp sc)) else s)

/-- Performs a drain: every run of the band becomes pending for its copy. -/
def State.drained (s : State) (n : Nat) (j : Job) (b : Band) (sp sc : Nat) : State :=
  if j.drops n b then s
  else
    let t := j.tensor b.binding
    let c := s.core n
    let ck := j.isCk n
    let j1 := (bandPixels b).foldl (fun k (i, y, x) =>
      (List.range (drainRuns b).length).foldl (fun (k : Job) r =>
        let q := (drainRuns b).getD r (0, 0)
        let codes := (List.range q.2).map (fun e => c.spElem (formatBits t.fmt) (bandAt b t sp i) (q.1 - b.chan + e))
        s.drainRun n ck t b.sample y.toNat x.toNat q.1 codes (c.spByte (bandScaleAt b sc i r)).toNat k) k) j
    let j2 := if !ck && !j1.wrote.contains b.binding then { j1 with wrote := j1.wrote ++ [b.binding] } else j1
    s.modJob j.ring j.seq (fun _ => j2)

/-- The stalled drain of a core, if it has one. -/
def Core.stalledDrain (c : Core) : Option (Transfer × Band) :=
  c.tags.findSome? (fun t => if t.stalled then (match t.move with
    | .drain b _ _ => some (t, b)
    | _ => none) else none)

/-- STAGE_WAIT_END: a core that waits for a staging extent obtains one and continues, once the pool has it (R120). -/
def execStageWaitEnd (core : Nat) (s : State) : Host.Outcome State Fault Refusal :=
  s.whenUp (fun s =>
    match (s.core core).stalledDrain, (s.core core).job with
    | some (t, b), some (r, q) =>
      (match s.job? r q with
      | none => s
      | some j =>
        match s.roomFor r q (j.isCk core) (s.drainLines (j.tensor b.binding) b) with
        | none => s
        | some s1 => (s.claimFor j core b s1).modCore core (fun c => { c with tags := updWhere (fun x => x == t) (fun x => { x with stalled := false }) c.tags }))
    | _, _ => s)

/-! ### Exchanges and the end of transfers (R195, R194) -/

/-- Is a core of the same copy of a job in the same panel? -/
def Job.mates (j : Job) (n m : Nat) : Bool :=
  n / 8 == m / 8 && ((j.cores.contains n && j.cores.contains m) || (j.ckCores.contains n && j.ckCores.contains m))

/-- XCHG: writes into the scratchpad of another core of the same job in the panel; any other target faults with cause 7. -/
def State.xchg (s : State) (n : Nat) (j : Job) (tag dest dst sp len : Nat) : State :=
  if j.mates n dest && dest != n then s.modCore n (fun c => { c with tags := c.tags ++ [{ tag := tag, move := .xchg dest dst sp len }] })
  else s.fault j n 7

/-- XCHG: starts an exchange on a free tag. -/
def execXchg (run : CoreAt) (tag dest dst sp len : Nat) (s : State) : Host.Outcome State Fault Refusal :=
  s.whenUp (fun s => if tag < 16 ∧ (s.core run.core).tagFree tag then
    s.issueIn run.core false (fun s j => s.withErr run.core j run.err (fun s => s.xchg run.core j tag dest dst sp len)) else s)

/-- Frees a tag; a WAIT on it ends. -/
def Core.freeTag (c : Core) (tag : Nat) : Core :=
  { c with tags := c.tags.filter (fun t => t.tag != tag), waitTag := if c.waitTag = some tag then none else c.waitTag }

/-- Does a source go through the unpacker? -/
def Job.unpacks (j : Job) : FillSrc → Bool
  | .band b => (j.tensor b.binding).packed
  | .blocks _ _ _ => true
  | .imageBlocks _ _ _ => true
  | _ => false

/-- The end of a fill: poison faults the job with cause 2, an unpack error with cause 1; both are counted in the unpacker (R106, R164). -/
def State.fillDone (s : State) (n : Nat) (j : Job) (tag : Nat) (src : FillSrc) (sp sc : Nat) : State :=
  let f := s.filled j n src sp sc
  if f.poison then (if j.unpacks src then s.bump Reg.ARY_PACK_ERR_CNT noUnit else s).fault j n 2
  else if f.badCode then (s.bump Reg.ARY_PACK_ERR_CNT noUnit).fault j n 1
  else (s.setCore n (f.core.freeTag tag)).void j n f.sat

/-- The end of any transfer of a core that runs, or that is being preempted; a drain and an exchange read the scratchpad as R194 says. -/
def State.transferDone (s : State) (n : Nat) (j : Job) (t : Transfer) : State :=
  match t.move with
  | .fill src sp sc => s.fillDone n j t.tag src sp sc
  | .drain b sp sc => ((s.progress j n).drained n j b sp sc).modCore n (fun c => c.freeTag t.tag)
  | .xchg dest dst sp len =>
    let s1 := s.progress j n
    (s1.modCore dest (fun c => c.write dst ((s1.core n).spBytes sp len))).modCore n (fun c => c.freeTag t.tag)

/-- Once the transfers of a forced job have finished, its whole state is saved (R206, R313). -/
def State.forcedSave (s : State) (ring seq : Nat) : State :=
  match s.job? ring seq with
  | none => s
  | some j => if j.forced && j.active.all (fun n => (s.core n).tags.isEmpty) then s.saveAll j true else s

/-- TRANSFER_DONE: a FILL, DRAIN or XCHG finishes and frees its tag; one that waits for an extent or for a read outside the
package has not finished. -/
def execTransferDone (core tag : Nat) (s : State) : Host.Outcome State Fault Refusal :=
  s.whenUp (fun s =>
    match (s.core core).tags.find? (fun t => t.tag == tag && !t.stalled && t.awaits == 0), (s.core core).job with
    | some t, some (r, q) =>
      (match s.job? r q with
      | some j => if j.stage == .running || j.stage == .preempting then (s.transferDone core j t).forcedSave r q else s
      | none => s)
    | _, _ => s.lateFault core (fun s j => match (s.core core).tags.find? (fun t => t.tag == tag && !t.stalled && t.awaits == 0) with
      | some t => s.transferDone core j t
      | none => s))

/-! ### Control (R193, R194, R203, R282) -/

/-- WAIT: the sequencer stalls until a transfer tag completes. -/
def execWaitTag (core tag : Nat) (s : State) : Host.Outcome State Fault Refusal :=
  s.whenUp (fun s => s.issue core (fun s _ => if (s.core core).tagFree tag then s else s.modCore core (fun c => { c with waitTag := some tag })))

/-- FENCE: orders the core's scratchpad accesses, which this machine performs in order; the sequencer moves on. -/
def execFence (core : Nat) (s : State) : Host.Outcome State Fault Refusal := s.whenUp (fun s => s.issue core (fun s _ => s))

/-- BRANCH: a loop or branch instruction falls through or goes on at an instruction index; in graphics mode it counts towards the span
(R399). -/
def execBranch (core : Nat) (dest : BranchTo) (s : State) : Host.Outcome State Fault Refusal :=
  s.whenUp (fun s =>
    match s.runs core, dest with
    | some j, some k => (s.traced j core).modCore core (fun c => { c with pc := k, span := c.span + j.pat.graphics.toNat, stepOk := false })
    | _, _ => s.issue core (fun s _ => s))

/-- A core passes a cheap point: the span count restarts, so does the watchdog, one step (R202, R203, R212). -/
def State.passCheap (s : State) (n : Nat) : State :=
  s.modCore n (fun c => { c with
    span := 0, wdogEnd := some (s.now + s.wdogNs), atCheap := false, tile := none, pc := c.pc + 1
    cheapCount := c.cheapCount + 1, cheapPc := c.pc + 1, held := false, stepOk := false })

/-- A core stops at a cheap point: its YIELD falls, its watchdog stops (R203, R212, R215). -/
def State.stopAtCheap (s : State) (j : Job) (n : Nat) : State :=
  ((s.setFld (Reg.ARY_CORE n) Fd.ARY_CORE_YIELD 0).modCore n (fun c => { c with atCheap := true, tile := none, wdogEnd := none, span := 0 })).modJob j.ring j.seq
    (fun k => { k with stopped := if k.stopped.contains n then k.stopped else k.stopped ++ [n] })

/-- Once every core of a job has stopped, the job is withdrawn or its live sets are saved (R276, R310, R435). -/
def State.afterStop (s : State) (ring seq : Nat) : State :=
  match s.job? ring seq with
  | none => s
  | some j =>
    if j.active.all j.stopped.contains then
      match j.withdrawn with
      | some why => (s.endJob ring seq codeCancelled (cancelDetail why)).conclude
      | none => s.saveAll j false
    else s

/-- A cheap point that ends a tile pass once its span count has reached MAX_SPAN − 4,096 may split the tile (R399). -/
def State.markSplit (s : State) (j : Job) (n : Nat) : State :=
  match (s.core n).tile with
  | none => s
  | some t =>
    if j.pat.maxSpan ≤ (s.core n).span + 4096 then
      s.modJob j.ring j.seq (fun k => { k with splits := if k.splits.contains t then k.splits else k.splits ++ [t] })
    else s

/-- A core reaches a cheap point (R203): it passes, or with YIELD set it stops there. -/
def State.cheapOn (s : State) (j : Job) (n : Nat) : State :=
  let s1 := s.markSplit j n
  if s1.fld (Reg.ARY_CORE n) Fd.ARY_CORE_YIELD = 1 then (s1.stopAtCheap j n).afterStop j.ring j.seq else s1.passCheap n

/-- In queue mode CHEAP is a barrier: the conditions of R203 hold once every core of the job has reached it and every queue of
the job is empty (R282). -/
def State.cheapBarrier (s : State) (j : Job) (n : Nat) : State :=
  let s1 := s.modCore n (fun c => { c with atCheap := true })
  let cs := j.copyOf n
  if cs.all (fun m => (s1.core m).atCheap && (s1.core m).queues.all (fun q => q.count == 0)) then
    cs.foldl (fun a m => match a.job? j.ring j.seq with
      | some k => a.cheapOn k m
      | none => a) s1
  else s1

/-- While a debugger holds the main copy of a backstitched job, the checker does not pass the cheap point that the main copy
passed last (R444): cheap points are counted from the start of the job on both copies. -/
def State.cheapHeld (s : State) (j : Job) (n : Nat) : Bool :=
  j.debugged && j.isCk n && (match j.cores[j.ckCores.idxOf n]? with
    | some m => decide ((s.core m).cheapCount ≤ (s.core n).cheapCount + 1)
    | none => false)

/-- CHEAP: a cheap point executes, once every earlier instruction has completed and no transfer is in flight. -/
def execCheap (core : Nat) (s : State) : Host.Outcome State Fault Refusal :=
  s.whenUp (fun s =>
    match s.runs core with
    | none => s
    | some j =>
      if !(s.core core).tags.isEmpty then s
      else if s.cheapHeld j core then s.modCore core (fun c => { c with held := true })
      else if descQmode j.desc then s.cheapBarrier j core else s.cheapOn j core)

/-! ### Queue mode (R281) -/

/-- Is an inbound queue well formed: 2 to 64 entries of 64 B to 4 KiB, at most 8 queues of a core? -/
def queueOk (c : Core) (base size cap : Nat) : Bool :=
  match c.queues.find? (fun q => q.base == base) with
  | some q => q.entrySize == size && q.capacity == cap
  | none => decide (c.queues.length < 8) && decide (64 ≤ size) && decide (size ≤ 4096) && decide (2 ≤ cap) && decide (cap ≤ 64) &&
      decide (base + size * cap ≤ spSize)

/-- The queue at an offset, new if the core has none there. -/
def Core.queue (c : Core) (base size cap : Nat) : InQueue :=
  match c.queues.find? (fun q => q.base == base) with
  | some q => q
  | none => { base := base, entrySize := size, capacity := cap }

/-- Replaces a queue of a core. -/
def Core.putQueue (c : Core) (q : InQueue) : Core := { c with queues := c.queues.filter (fun x => x.base != q.base) ++ [q] }

/-- QPUSH moves an entry into another core's queue, or waits for a credit. -/
def State.qpush (s : State) (n : Nat) (j : Job) (dest base size cap sp : Nat) : State :=
  let d := s.core dest
  if !descQmode j.desc then s.fault j n 9
  else if !j.mates n dest || dest == n || !queueOk d base size cap then s.fault j n 7
  else
    let q := d.queue base size cap
    if q.count < q.capacity then
      (s.modCore dest (fun c => (c.write (base + size * ((q.head + q.count) % cap)) ((s.core n).spBytes sp size)).putQueue { q with count := q.count + 1 }))
    else s.modCore n (fun c => { c with waitPush := true })

/-- QPUSH: exchanges an entry into another core's queue, taking a credit; with none left it waits and is issued again. -/
def execQpush (run : CoreAt) (dest base size cap sp : Nat) (s : State) : Host.Outcome State Fault Refusal :=
  s.whenUp (fun s => s.issue run.core (fun s j => s.accesses run.core j run.err (fun s => s.qpush run.core j dest base size cap sp)))

/-- QPOP frees the oldest entry; cores of the job that wait for a credit try again. -/
def State.qpop (s : State) (n : Nat) (j : Job) (base : Nat) : State :=
  if !descQmode j.desc then s.fault j n 9
  else
    let s1 := s.modCore n (fun c => match c.queues.find? (fun q => q.base == base) with
      | some q => if q.count = 0 then c else c.putQueue { q with head := (q.head + 1) % q.capacity, count := q.count - 1 }
      | none => c)
    (j.copyOf n).foldl (fun a m => a.modCore m (fun c => { c with waitPush := false })) s1

/-- QPOP: frees the oldest entry of a queue of the core and returns its credit. -/
def execQpop (core base : Nat) (s : State) : Host.Outcome State Fault Refusal :=
  s.whenUp (fun s => s.issue core (fun s j => s.qpop core j base))

/-! ### Span and watchdog (R202, R212) -/

/-- The job of a core, whatever keeps the core from issuing. -/
def State.jobOn (s : State) (n : Nat) : Option Job :=
  match (s.core n).job with
  | none => none
  | some (r, q) => match s.job? r q with
    | some j => if (j.stage == .running || j.stage == .preempting) && j.granted.contains n then some j else none
    | none => none

/-- SPAN_OVERRUN: a core's step count since its last cheap point has passed MAX_SPAN; the job faults with cause 4. -/
def State.spanOverrun (s : State) (n : Nat) (j : Job) : State := (s.bump Reg.ARY_SPAN_CNT noUnit).fault j n 4

/-- SPAN_OVERRUN: the step count of a core is above its pattern's MAX_SPAN. -/
def execSpanOverrun (core : Nat) (s : State) : Host.Outcome State Fault Refusal :=
  s.whenUp (fun s =>
    match s.jobOn core with
    | some j => if j.pat.maxSpan < (s.core core).span then s.spanOverrun core j else s
    | none => s.lateFault core (fun s j => if j.pat.maxSpan < (s.core core).span then s.spanOverrun core j else s))

/-- A watchdog expires: the cores of both copies halt, the job completes with TIMEOUT, counted and raised (R212, R435). -/
def State.watchdog (s : State) (j : Job) : State :=
  let s1 := (s.bump Reg.ARY_WDOG_CNT noUnit).raise 5 0x0414 noUnit
  (match j.withdrawn with
    | some why => s1.endJob j.ring j.seq codeCancelled (cancelDetail why)
    | none => s1.endJob j.ring j.seq codeTimeout 3).conclude

/-- WATCHDOG_EXPIRE: a core watchdog reaches its limit; a span overrun of the same step takes precedence (R212). -/
def execWatchdogExpire (core : Nat) (s : State) : Host.Outcome State Fault Refusal :=
  s.whenUp (fun s =>
    match s.jobOn core, (s.core core).wdogEnd with
    | some j, some e =>
      if s.now < e then s else if j.pat.maxSpan < (s.core core).span then s.spanOverrun core j else s.watchdog j
    | _, _ => s)

end Sys2Proof.Machine
end

