-- ==== Sys2Proof/Machine/Commit.lean ====
section
/-! DEFINITION. The commit of a job, its seal checks, copy-back, the staging pool (R115 to R118, R124, R142 to R145, R264, R269
to R275, R345, R354). -/

namespace Sys2Proof.Machine

/-! ### Codes (R271 to R274) -/

/-- Was the commit instant after the deadline (R269)? -/
def Job.late (j : Job) (now : Nat) : Bool :=
  descDeadline j.desc != 0 && (match j.tackTime with
    | some t => decide (t + descDeadline j.desc < now)
    | none => false)

/-- Is the bound of the outputs void (R144)? -/
def Job.boundVoid (j : Job) : Bool := (j.voided || j.inVoid) && !j.wrote.isEmpty

/-- Code and DETAIL of a committing job, the first that applies in the order of R272. -/
def Job.code (j : Job) (now : Nat) : Nat × Nat :=
  match j.verdict with
  | some b => (codeMismatch, b)
  | none => if j.voidMask ≠ 0 then (codeDoneVoid, j.voidMask) else if j.late now then (codeDoneLate, 0) else (codeDone, 0)

/-- FLAGS of the record: every condition that held. -/
def Job.flags (j : Job) (now : Nat) : Nat := (j.late now).toNat + 2 * (decide (j.voidMask ≠ 0)).toNat + 8 * j.boundVoid.toNat

/-! ### Making outputs visible -/

/-- Pending bytes as runs of consecutive addresses. -/
def pendRuns : Sparse (Option Byte) → List (Nat × List Byte)
  | [] => []
  | (a, b) :: m =>
    match pendRuns m with
    | (a', bs) :: l => if a' = a + 1 then (a, b.getD 0 :: bs) :: l else (a, [b.getD 0]) :: (a', bs) :: l
    | [] => [(a, [b.getD 0])]

/-- The pending outputs of a job become ordinary memory; its extents await copy-back (R116, R117). On the package they are lines of the
array cache and extents of the pool already. -/
def State.publish (s : State) (j : Job) : State :=
  let s1 := (pendRuns j.pend).foldl (fun a r => if onPackage r.1 then a.writeBytes r.1 r.2 else a.store r.1 r.2) s
  { s1 with memst := { s1.memst with extents := s1.memst.extents ++ j.extents, places := s1.memst.places ++ j.places } }

/-- BOUND_VOID goes into the tolerance word of every output written; a job whose own arithmetic voided it is counted (R144, R145,
R264). -/
def State.writeBounds (s : State) (j : Job) : State :=
  let s1 := j.wrote.foldl (fun a b =>
    let p := a.place ((j.tensor b).descAddr + 63)
    let old := (a.peekByte p).toNat
    a.store p [BitVec.ofNat 8 (old % 128 + 128 * j.boundVoid.toNat)]) s
  if j.boundVoid && !j.inVoid then s1.bump Reg.ARY_BVOID_CNT noUnit else s1

/-- The pending region set of a channel. -/
def State.regionSet (s : State) (c : Nat) : List (Nat × List Byte) := Sparse.get (fun _ => []) c s.regions

/-- One region record reaches its channel's pending set, or is dropped beyond 64 (R354, R355). -/
def State.addRegion (s : State) (r : RegionOut) : State :=
  if (s.regionSet r.channel).length < 64 then
    { s with regions := Sparse.put (fun _ => []) r.channel (s.regionSet r.channel ++ [(s.now, r.bytes)]) s.regions }
  else s.bump (Reg.CH_REGION_DROP r.channel) r.channel

/-- The two copy-back engines ask for their grants while extents wait (R117). -/
def State.askCopyBack (s : State) : State :=
  if s.memst.extents.isEmpty then s
  else [0, 1].foldl (fun a k =>
    a.obtain (a.unitReq (.copyBack k) .be none 0)) s

/-- The commit instant of a job (R116): outputs, bounds, regions, record and signal at once; its pending lines become ordinary ones
(R197). -/
def State.commit (s : State) (j : Job) : State :=
  let r := j.code s.now
  let s1 := ((s.stopCores j).publish j).writeBounds j
  let s2 := if r.1 = codeDone ∨ r.1 = codeDoneLate then j.regions.foldl State.addRegion s1 else s1
  let ls := s.copyLines j false
  let s3 := ls.foldl (fun a l => a.allocLine (jobTenant j) true none l) ((s2.dropChecks j).finish j r.1 r.2 (j.flags s.now))
  s3.askCopyBack.conclude

/-- The commit of a job; staged output that reads as poison faults it instead, named on its first core (R106, log 51). -/
def State.commitRun (s : State) (j : Job) : State :=
  if s.stagedPoison j then s.fault j (j.cores.headD 0) 2 else s.commit j

/-! ### The end of a run (R266, R270, R436) -/

/-- Does a job still wait for a verdict: its comparison, or a seal check? -/
def State.verdictsOpen (s : State) (j : Job) : Bool :=
  (descBstitch j.desc && !j.compared) || s.seals.any (fun t => t.ring == j.ring && t.seq == j.seq)

/-- A job of sealed inputs with no seal checker left (R450). -/
def State.noSealChecker (s : State) (j : Job) : Bool :=
  decide (4 ≤ s.checkers.badSeal.length) && j.tens.any (fun t => t.isSealed && t.role == 0)

/-- A job ends with SEAL_FAIL, reported as source SEAL on a latency-critical ring (R270, R456). -/
def State.sealFail (s : State) (j : Job) (detail : Nat) : State :=
  ((if s.ringCls j.ring = .lc then s.report 2 0 else s).endJob j.ring j.seq codeSealFail detail).conclude

/-- A backstitched job waits for its comparison; with no comparator left its verdict is a mismatch, of an output that the spec does not
name (R438, R450). -/
def State.startCompare (s : State) (j : Job) : State :=
  if !descBstitch j.desc then s
  else if 8 ≤ s.checkers.badCmp.length then
    let (v, s1) := s.takeFree
    s1.modJob j.ring j.seq (fun k => { k with compared := true, verdict := some (v % 256) })
  else State.assignCmps 8 { s with checkers := { s.checkers with cmps := s.checkers.cmps ++ [{ ring := j.ring, seq := j.seq, since := s.now }] } }

/-- Each core of a job whose run ends carries the residency tag that its pattern declares (R192). -/
def State.declare (s : State) (j : Job) : State :=
  (j.cores ++ j.ckCores).foldl (fun a n => a.modCore n (fun c => { c with resid := j.pat.residency })) s

/-- The last output of a job is written in every copy: its cores stop; it commits, or waits in Checking for its verdicts. With no seal
checker left a job of sealed inputs ends with SEAL_FAIL, whose DETAIL the spec does not give (R450). -/
def State.runEnded (s : State) (j : Job) : State :=
  match j.withdrawn with
  | some why => (s.endJob j.ring j.seq codeCancelled (cancelDetail why)).conclude
  | none =>
    if s.noSealChecker j then
      let (v, s1) := s.takeFree
      s1.sealFail j (v % 2 ^ 32)
    else
      let s1 := (((s.declare j).stopCores j).modJob j.ring j.seq (fun k => { k with stage := .checking })).startCompare j
      match s1.job? j.ring j.seq with
      | none => s1
      | some k => if s1.verdictsOpen k then s1.conclude else s1.commitRun k

/-- Have all copies of a job run: both of a backstitched job? -/
def Job.bothRan (j : Job) : Bool := !descBstitch j.desc || !j.ckCores.isEmpty

/-- JOB_COMMIT: a running job has written its last output, or a checking job has its verdicts. -/
def execJobCommit (ring seq : Nat) (s : State) : Host.Outcome State Fault Refusal :=
  s.whenUp (fun s =>
    match s.job? ring seq with
    | none => s
    | some j =>
      if (j.stage = .running ∨ j.stage = .preempting) ∧ j.bothRan ∧ (j.cores ++ j.ckCores).all (fun n => (s.core n).tags.isEmpty) then s.runEnded j
      else if j.stage = .checking ∧ !s.verdictsOpen j then s.commitRun j
      else s)

/-! ### Seal checks (R270, R345) -/

/-- The payload of a sample: element bytes row by row without row padding, then its scales. -/
def State.payload (s : State) (t : Tensor) (n : Nat) : List Byte :=
  let base := s.place t.addr
  let rows := (List.range t.h).flatMap (fun y => s.peekBytes (base + t.pixel n y 0) (t.w * t.pixPitch))
  let k := t.h * t.w * ceilDiv t.c 32
  rows ++ (if isMx t.fmt then s.peekBytes (s.place t.aux + n * k) k else [])

/-- The verdict of one sample: 0 good, 1 CRC, 2 age, 3 void; the age of a seal of an unsynchronised device fails (R630). -/
def State.sealVerdict (s : State) (t : Tensor) (tack n : Nat) : Nat :=
  let a := t.sealAddr + 32 * n
  let time := s.peek a 8
  let unsync := s.cwy.unsync.contains (s.place a)
  let w1 := s.peek (a + 8) 8
  if bits w1 15 8 ≠ 0 then 3
  else if crc32c (s.payload t n) ≠ bits w1 63 32 then 1
  else if t.maxAge ≠ 0 ∧ (unsync ∨ time + 1000 * t.maxAge < tack) then 2
  else 0

/-- The first failing sample of a tensor, with its verdict. -/
def State.sealFailure (s : State) (t : Tensor) (tack : Nat) : Option (Nat × Nat) :=
  (List.range t.n).findSome? (fun n => let v := s.sealVerdict t tack n; if v = 1 ∨ v = 2 then some (n, v) else none)

/-- The void samples of a tensor as a mask. -/
def State.voidSamples (s : State) (t : Tensor) (tack : Nat) : Nat :=
  ((List.range (min 64 t.n)).map (fun n => if s.sealVerdict t tack n = 3 then 2 ^ n else 0)).sum

/-- Does a tensor's payload or one of its seals read as poison? -/
def State.sealPoisoned (s : State) (t : Tensor) : Bool :=
  s.readFails (s.place t.addr) (tensorBytes t) || s.readFails (s.place t.sealAddr) (32 * t.n) ||
  (isMx t.fmt && s.readFails (s.place t.aux) (t.n * t.h * t.w * ceilDiv t.c 32))

/-- Does seal checker k still wait for a read that has left the package? -/
def State.checkerWaits (s : State) (k : Nat) : Bool :=
  s.bridge.held.any (fun h => h.use == .checker k) || s.cwy.reads.any (fun r => r.use == .checker k)

/-- A seal checker finishes an input: its grant ends; a failure ends the job with SEAL_FAIL (R270); poison faults the job
(R106, R625). -/
def State.sealDone (s : State) (t : SealTask) (k : Nat) (j : Job) : State :=
  let x := j.tensor t.binding
  let tack := j.tackTime.getD s.now
  let s1 := ({ s with seals := s.seals.filter (fun u => u != t) }.alwDrop (.sealChecker k)).noteReads
    ([(s.place x.addr, tensorBytes x), (s.place x.sealAddr, 32 * x.n)] ++ if isMx x.fmt then [(s.place x.aux, x.n * x.h * x.w * ceilDiv x.c 32)] else [])
  if s.sealPoisoned x then s1.fault j (j.cores.headD 0) 2
  else match s.sealFailure x tack with
  | some (n, v) =>
    match j.withdrawn with
    | some why => (s1.endJob j.ring j.seq codeCancelled (cancelDetail why)).conclude
    | none => s1.sealFail j (v + 256 * t.binding + 65536 * n)
  | none =>
    (s1.modJob j.ring j.seq (fun i => { i with
      seals := i.seals ++ [⟨t.binding, 0, 0⟩], voidMask := or64 i.voidMask (s.voidSamples x tack) })).conclude

/-- SEAL_CHECK_DONE: a seal checker that holds its grant finishes a sealed input. -/
def execSealCheckDone (checker : Nat) (s : State) : Host.Outcome State Fault Refusal :=
  s.whenUp (fun s =>
    match s.seals.find? (fun t => t.checker == some checker && t.granted) with
    | none => s
    | some t =>
      match s.job? t.ring t.seq with
      | none => s
      | some j => if s.checkerWaits checker then s else s.sealDone t checker j)

/-! ### Copy-back and the staging pool (R117, R124) -/

/-- A redirected extent is home, with the poison that its lines in the pool hold (R105, R117). -/
def State.movedHome (s : State) (extent : Nat) : State :=
  let i := s.memst.extents.idxOf extent
  let src := s.poolAt (s.memst.places.getD i 0)
  let bad := (List.range 1024).filter (fun b => s.isPoisoned (src + 64 * b) 64)
  bad.foldl (fun a b => a.setPoison (65536 * extent + 64 * b) 64)
    { s with memst := { s.memst with extents := s.memst.extents.eraseIdx i, places := s.memst.places.eraseIdx i } }

/-- COPY_BACK_DONE: a copy-back engine that holds its grant has moved a redirected extent home. -/
def execCopyBackDone (extent : Nat) (s : State) : Host.Outcome State Fault Refusal :=
  s.whenUp (fun s =>
    if s.memst.extents.contains extent && (s.holdsGrant (.copyBack 0) || s.holdsGrant (.copyBack 1)) then
      let s1 := s.movedHome extent
      if s1.memst.extents.isEmpty then (s1.alwDrop (.copyBack 0)).alwDrop (.copyBack 1) else s1
    else s)

/-- MEM_STAGE_WRITE: a write of MEM_STAGE; a change of BASE or SIZE waits for the pool to be empty. -/
def State.writeStage (s : State) (o : Origin) (value : Word) : State :=
  s.writeBy o Reg.MEM_STAGE value (fun a b =>
    if mayWrite o [.selvage, .hypervisor] ∧ !a.locked 4 then b.setFld Reg.MEM_STAGE Fd.MEM_STAGE_MOVE_PENDING 1 else b)

/-- MEM_STAGE_WRITE: sets MOVE_PENDING for a move of the staging pool (R124). -/
def execMemStageWrite (o : Origin) (value : Word) (s : State) : Host.Outcome State Fault Refusal :=
  s.whenUp (fun s => s.writeStage o value)

/-- Units of 64 MiB that a SIZE field means: 0 acts as 1, above 64 as 64 (R124). -/
def stageUnits (n : Nat) : Nat := min 64 (max 1 n)

/-- STAGE_MOVE: the pool is empty and the pending move takes effect. -/
def execStageMove (s : State) : Host.Outcome State Fault Refusal :=
  s.whenUp (fun s =>
    if s.bit Reg.MEM_STAGE Fd.MEM_STAGE_MOVE_PENDING && s.memst.extents.isEmpty && s.jobs.all (fun j => j.extents.isEmpty) then
      { s with memst := { s.memst with
          stageBase := s.fld Reg.MEM_STAGE Fd.MEM_STAGE_BASE * 2 ^ 26
          stageSize := stageUnits (s.fld Reg.MEM_STAGE Fd.MEM_STAGE_SIZE) } }.setFld Reg.MEM_STAGE Fd.MEM_STAGE_MOVE_PENDING 0
    else s)

end Sys2Proof.Machine
end

