-- ==== Sys2Proof/Machine/ArraySched.lean ====
section
/-! DEFINITION. The commands of the scheduler and the hot set: placement, preemption, switches and scrubs, the end of a flush,
suspension, the hot-set directory, moves of the pools (R208 to R211, R291 to R330, R513). -/

namespace Sys2Proof.Machine

/-! ### Placement and preemption (R291 to R313) -/

/-- JOB_PLACE: the scheduler places one copy of the next job, as R291 to R300 choose it. -/
def execJobPlace (s : State) : Host.Outcome State Fault Refusal := s.whenUp (fun s => s.placeNext)

/-- The cores of a job halt where they stand. -/
def State.haltCores (s : State) (j : Job) : State :=
  (j.cores ++ j.ckCores).foldl (fun a n => a.modCore n (fun c => { c with halted := true, wdogEnd := none })) s

/-- A victim is forced: its cores issue nothing more, their transfers finish, and then the whole state is saved; counted (R206,
R313). -/
def State.force (s : State) (j : Job) : State :=
  (((s.haltCores j).modJob j.ring j.seq (fun k => { k with forced := true })).forcedSave j.ring j.seq).bump Reg.ARY_FORCED_CNT noUnit

/-- Have all cores of a preempted job stopped, so that its saves run? -/
def Job.saving (j : Job) : Bool := (j.cores ++ j.ckCores).all j.stopped.contains

/-- FORCED_PREEMPT: a victim has not stopped 30 µs after the request (R312, R313); a switch of one of its cores ends first (R211). -/
def execForcedPreempt (ring seq : Nat) (s : State) : Host.Outcome State Fault Refusal :=
  s.whenUp (fun s =>
    match s.job? ring seq with
    | none => s
    | some j => if j.stage = .preempting ∧ !j.saving ∧ !j.forced ∧ j.preemptAt + 30000 ≤ s.now ∧
        (j.cores ++ j.ckCores).all (fun n => s.coreMode n != 2) then s.force j else s)

/-- SAVE_DONE: a preemption save ends (R310, R314); a job withdrawn meanwhile completes with CANCELLED (R276). -/
def execSaveDone (ring seq : Nat) (s : State) : Host.Outcome State Fault Refusal :=
  s.whenUp (fun s =>
    match s.job? ring seq with
    | none => s
    | some j =>
      if j.stage = .preempting ∧ j.saving ∧ !j.saves.isEmpty then
        (match j.withdrawn with
          | some why => s.endJob ring seq codeCancelled (cancelDetail why)
          | none => s.endSave j).conclude
      else s)

/-- RESERVATION_EXPIRE: a panel reservation's lease has expired and it is dropped; the job is placed afresh at its release
(R299). An act that names an old generation is counted (R481). -/
def execReservationExpire (ring seq gen : Nat) (s : State) : Host.Outcome State Fault Refusal :=
  s.whenUp (fun s =>
    match s.job? ring seq with
    | none => s.bump Reg.SPARE_STALE_CNT noUnit
    | some j =>
      match j.resv with
      | none => s.bump Reg.SPARE_STALE_CNT noUnit
      | some r =>
        if r.gen ≠ gen then s.bump Reg.SPARE_STALE_CNT noUnit
        else if r.expiry ≤ s.now ∧ j.stage = .held then s.modJob ring seq (fun k => { k with resv := none })
        else s)

/-! ### Switches and scrubs (R208 to R211, R513, R514) -/

/-- The job that waits for a core to be prepared. -/
def State.jobOf (s : State) (n : Nat) : Option Job :=
  match (s.core n).job with
  | none => none
  | some (r, q) => s.job? r q

/-- The core goes on with the next thing its job needs; one whose job has gone gives up its allowance. -/
def State.prepareOn (s : State) (n : Nat) : State :=
  match s.jobOf n with
  | none => s.alwDrop (.core n)
  | some j => if j.stage = .placed ∨ j.stage = .running then s.prepCore j n else s.alwDrop (.core n)

/-- A switch ends; registers, accumulators and tile buffers are clear, the scratchpad is kept, the core reports its new mode and asks
for the charge of its class, from graphics for the rise only (R209, R210); the switch is counted (R218). -/
def State.switchDone (s : State) (n : Nat) : State :=
  let m := (s.core n).switchTo
  (((s.addReg Reg.ARY_SWITCH_TOTAL 1).setMode n m).modCore n (fun c => c.clearRegs)).prepareOn n

/-- May the switch of a core run: one from graphics holds the graphics charge (R210)? -/
def State.switchHeld (s : State) (n : Nat) : Bool := (s.core n).switchTo != 0 || s.holdsGrant (.core n)

/-- MODE_SWITCH_DONE: a core that is switching completes its switch. -/
def execModeSwitchDone (core : Nat) (s : State) : Host.Outcome State Fault Refusal :=
  s.whenUp (fun s => if core < 128 ∧ s.coreMode core = 2 ∧ s.switchHeld core then (s.switchDone core).conclude else s)

/-- A tenant scrub of a core completes: everything a tenant owned is clear and TENANT reads 0 (R513). -/
def State.scrubbed (s : State) (n : Nat) : State :=
  (((s.alwDrop (.core n)).setFld (Reg.ARY_CORE n) Fd.ARY_CORE_TENANT 0).modCore n (fun c =>
    { c.scrub with scrubs := false })).prepareOn n

/-- Is an origin no live tenant's: neither the hypervisor's nor that of a live instance? -/
def State.departed (s : State) (o : Nat) : Bool := o != 2 && (decide (o < 0x10) || decide (0x4F < o) || (Sparse.get (fun _ => ({} : Tenant)) o s.trust.tenants).state != 1)

/-- SCRUB_DONE: a tenant scrub of a core that holds its grant completes, or with no core that of the array cache: the lines of departed
tenants are written back and invalidated (R199, R513). -/
def execScrubDone (core : Option Nat) (s : State) : Host.Outcome State Fault Refusal :=
  s.whenUp (fun s =>
    match core with
    | none => s.dropLines (fun l => s.departed l.origin)
    | some n => if (s.core n).scrubs && s.holdsGrant (.core n) then (s.scrubbed n).conclude else s)

/-! ### The end of a flush (R318 to R321) -/

/-- FAULT_THR and FAULT_WIN_S in ns (R324). -/
def State.faultThr (s : State) : Nat := max 1 (s.fld Reg.ARY_SCHED_CTRL Fd.ARY_SCHED_CTRL_FAULT_THR)
def State.faultWin (s : State) : Nat := 1000000000 * max 1 (s.fld Reg.ARY_SCHED_CTRL Fd.ARY_SCHED_CTRL_FAULT_WIN_S)

/-- A FAULT completion of an instance enters its window; at the threshold the instance is suspended (R321). -/
def State.countFault (s : State) (v : Nat) : State :=
  let l := (v, s.now) :: s.sched.faults.filter (fun x => x.1 != v || decide (s.now - x.2 ≤ s.faultWin))
  let s1 := { s with sched := { s.sched with faults := l } }
  if s.faultThr ≤ (l.filter (fun x => x.1 == v)).length && !s.suspended v then
    let old := (s1.reg Reg.ARY_SUSPEND).toNat
    let s2 := (s1.setBit Reg.ARY_SUSPEND v true).raise 5 0x0620 v
    s2.auditLog .selvage .suspension 0 (setupAddr Reg.ARY_SUSPEND) old (s2.reg Reg.ARY_SUSPEND).toNat
  else s1

/-- A faulting job completes with FAULT, its cause and logical core in DETAIL (R274, R319). -/
def State.faultDone (s : State) (j : Job) : State :=
  let f := j.fault.getD (0, 0)
  (s.endJob j.ring j.seq codeFault (f.1 + f.2 * 256)).countFault (ringVi j.ring)

/-- A halted job is re-queued from its start; one withdrawn meanwhile completes with CANCELLED (R318). -/
def State.requeue (s : State) (j : Job) : State :=
  match j.withdrawn with
  | some why => s.endJob j.ring j.seq codeCancelled (cancelDetail why)
  | none =>
    s.backToReady j (fun k => { k with requeues := k.requeues + 1, nsRun := 0 })

/-- ARY_FLUSH_REC describes the latest flush (R325). -/
def State.flushRecord (s : State) (f : Flush) (requeued faulted : Nat) : State :=
  let w1 := min requeued 0xFFFF * 2 ^ 48 + min faulted 0xFF * 2 ^ 40 + f.origin % 256 * 2 ^ 32 +
    min ((s.now - f.start) / 16) 0xFFFF * 2 ^ 16 + f.cause % 256 * 2 ^ 8 + f.core % 256
  (s.setReg Reg.ARY_FLUSH_REC0 (BitVec.ofNat 64 f.start)).setReg Reg.ARY_FLUSH_REC1 (BitVec.ofNat 64 w1)

/-- The flush ends: faulting jobs complete, the others are re-queued, the record is written (R318 to R320, R544, R546). -/
def State.flushEnd (s : State) (f : Flush) : State :=
  let faulted := s.jobs.filter (fun j => j.stage == .faulted)
  let halted := s.jobs.filter (fun j => j.stage == .halted)
  let s1 := { s with sched := { s.sched with flush := none } }
  let s2 := halted.foldl State.requeue s1
  let s3 := faulted.foldl State.faultDone s2
  let s4 := ((s3.flushRecord f (halted.filter (fun j => j.withdrawn.isNone)).length faulted.length).bump Reg.ARY_FLUSH_CNT noUnit).raise 5 0x0610 noUnit
  ((List.range 64).foldl State.frozenCheck s4).conclude

/-- FLUSH_END: the array flush in progress ends. -/
def execFlushEnd (s : State) : Host.Outcome State Fault Refusal :=
  s.whenUp (fun s => match s.sched.flush with
    | none => s
    | some f => s.flushEnd f)

/-- The instances that a write of ARY_SUSPEND resumed: windows cleared, fetch restarted (R323). -/
def State.resumed (s t : State) : State :=
  let vs := (List.range 64).filter (fun v => s.suspended v && !t.suspended v)
  (vs.foldl (fun a v =>
    let a1 := { a with sched := { a.sched with faults := a.sched.faults.filter (fun x => x.1 != v) } }
    (List.range 16).foldl (fun b i => b.fetch (16 * v + i)) a1) t).conclude

/-- A write of ARY_SUSPEND (R323). -/
def State.writeSuspend (s : State) (o : Origin) (value : Word) : State := s.writeBy o Reg.ARY_SUSPEND value State.resumed

/-- VI_RESUME: an origin writes 1 to an instance's bit of ARY_SUSPEND. -/
def execViResume (o : Origin) (v : Nat) (s : State) : Host.Outcome State Fault Refusal :=
  s.whenUp (fun s => s.writeSuspend o (BitVec.ofNat 64 (2 ^ (v % 64))))

/-! ### The hot-set directory (R302 to R308, R326, R327) -/

/-- ARY_HOT_SEL in an origin's bank. -/
def hotSel (o : Origin) : CmdReg :=
  ⟨bankKey o Reg.ARY_HOT_SEL, Fd.ARY_HOT_SEL_INDEX, Fd.ARY_HOT_SEL_STATUS, [.selvage, .hypervisor], some 4, .register, none⟩

/-- The five words of an entry (R327). -/
def hotWords (e : HotEntry) : List Nat :=
  [e.key, e.kind * 2 ^ 62 + e.lun * 2 ^ 56 + e.source,
   e.owner * 2 ^ 56 + e.pin.toNat * 2 ^ 55 + e.cpin.toNat * 2 ^ 54 + e.state * 2 ^ 52 + e.length, e.lastUse, e.loads]

/-- Writes words into consecutive 64-bit registers. -/
def State.putWords (s : State) (k : Nat) : List Nat → State
  | [] => s
  | w :: ws => State.putWords (s.setReg k (BitVec.ofNat 64 w)) (k + 8) ws

/-- HOT_READ: copies an entry into D0 to D4 of the origin's bank. -/
def execHotRead (o : Origin) (idx : Nat) (s : State) : Host.Outcome State Fault Refusal :=
  s.whenUp (fun s => s.command o (hotSel o) idx (fun s =>
    (s.putWords (bankKey o Reg.ARY_HOT_D0) (hotWords (s.hotEntry (idx % hotCount))), 0)))

/-- The entry that words D0 to D2 describe (R327). -/
def hotOf (d0 d1 d2 : Word) : HotEntry :=
  { key := Fd.ARY_HOT_D0_KEY.of d0
    kind := Fd.ARY_HOT_D1_KIND.of d1
    lun := Fd.ARY_HOT_D1_LUN.of d1
    source := Fd.ARY_HOT_D1_SOURCE.of d1
    owner := Fd.ARY_HOT_D2_OWNER.of d2
    pin := Fd.ARY_HOT_D2_PIN.of d2 == 1
    cpin := Fd.ARY_HOT_D2_CPIN.of d2 == 1
    length := Fd.ARY_HOT_D2_LENGTH.of d2 }

/-- The entry that D0 to D2 of a bank describe. -/
def State.hotFrom (s : State) (o : Origin) : HotEntry :=
  hotOf (s.reg (bankKey o Reg.ARY_HOT_D0)) (s.reg (bankKey o Reg.ARY_HOT_D1)) (s.reg (bankKey o Reg.ARY_HOT_D2))

/-- Is KEY inside its owner's window: that of R537 for an instance, general DRAM for 0x02 (R326)? -/
def State.keyAllowed (s : State) (e : HotEntry) : Bool :=
  if e.owner = 0x02 then devOf e.key == s.ownDev && decide (e.key % 2 ^ 48 < generalEnd)
  else inRanges (s.windowRanges (e.owner - 0x10)) e.key 1

/-- Does a pattern in place pass its checks (R201, R302)? -/
def State.inPlaceOk (s : State) (e : HotEntry) : Bool :=
  let p := s.place e.key
  onPackage p && onPackage (p + e.length - 1) && !s.readFails p e.length && (s.hotImage e).admitOk e.length

/-- The registration of an entry: the new state and its STATUS (R305, R326). -/
def State.hotRegister (s : State) (e : HotEntry) (i : Nat) : State × Nat :=
  let ownerOk := e.owner = 0x02 ∨ (0x10 ≤ e.owner ∧ e.owner ≤ 0x4F)
  if (s.hotFind e.key e.owner).isSome ∨ (s.hotEntry i).state ≠ 0 ∨ e.kind = 3 ∨ !decide ownerOk then (s, 1)
  else if !s.keyAllowed e then (s, 5)
  else if e.kind = 0 then if s.inPlaceOk e then (s.setHot i { e with state := 3 }, 0) else (s, 1)
  else
    let tooBig : Bool := match s.hotQuota e.owner with
      | some q => decide (q < granulesOf e.length)
      | none => false
    if tooBig ∨ s.sched.hotSize = 0 then (s, 3) else (s.setHot i { e with state := 1 }, 0)

/-- HOT_REGISTER: checks and registers an entry from D0 to D2. -/
def execHotRegister (o : Origin) (idx : Nat) (s : State) : Host.Outcome State Fault Refusal :=
  s.whenUp (fun s => s.command o (hotSel o) idx (fun s => s.hotRegister (s.hotFrom o) (idx % hotCount)))

/-- HOT_UNREGISTER: frees an entry that no job in flight names (R306, R307, R326). -/
def execHotUnregister (o : Origin) (idx : Nat) (s : State) : Host.Outcome State Fault Refusal :=
  s.whenUp (fun s => s.command o (hotSel o) idx (fun s =>
    let i := idx % hotCount
    if (s.hotEntry i).state = 0 then (s, 1)
    else if s.hotInUse i then (s, 2)
    else ((((s.unpin i).alwDrop (.loader i)).setHot i {}).hotRetry, 0)))

/-- HOT_SET_FLAGS: sets PIN and CPIN from D2; clearing CPIN unpins the entry's lines (R307, R326). -/
def execHotSetFlags (o : Origin) (idx : Nat) (s : State) : Host.Outcome State Fault Refusal :=
  s.whenUp (fun s => s.command o (hotSel o) idx (fun s =>
    let i := idx % hotCount
    let e := s.hotEntry i
    let d := s.hotFrom o
    if e.state = 0 then (s, 1)
    else
      let s1 := s.setHot i { e with pin := d.pin, cpin := d.cpin }
      ((if d.cpin then s1 else s1.unpin i).hotRetry, 0)))

/-- HOT_EVICT: evicts an evictable copy (R306, R326). -/
def execHotEvict (o : Origin) (idx : Nat) (s : State) : Host.Outcome State Fault Refusal :=
  s.whenUp (fun s => s.command o (hotSel o) idx (fun s =>
    let i := idx % hotCount
    if (s.hotEntry i).state = 0 then (s, 1)
    else if s.evictable i then ((s.hotDrop i).hotRetry, 0)
    else (s, 2)))

/-- Writes an image into an entry's granules. -/
def State.writeImage (s : State) (e : HotEntry) (bs : List Byte) : State :=
  ((List.range e.granules.length).foldl (fun a k =>
    a.store (a.sched.hotBase + granule * e.granules.getD k 0) ((bs.drop (granule * k)).take granule)) s)

/-- The jobs that wait for an entry's load. -/
def State.loadWaiters (s : State) (i : Nat) : List Job := s.jobs.filter (fun j => j.kind == 1 && j.entry == i)

/-- A load fails: the jobs that wait for it complete with REFUSED, reason 3 (R308). -/
def State.loadFailed (s : State) (i : Nat) : State :=
  let s1 := (s.alwDrop (.loader i)).hotDrop i
  let s2 := (s1.bump Reg.ARY_HOT_FAIL_CNT noUnit).raise 5 0x0428 i
  (s2.loadWaiters i).foldl (fun a j => a.endJob j.ring j.seq codeRefused (refusedDetail (3, 0))) s2

/-- A load ends: the entry is resident and its jobs are checked (R304, R265). -/
def State.loaded (s : State) (i : Nat) (bs : List Byte) : State :=
  let e := s.hotEntry i
  let ws := s.loadWaiters i
  let s1 := (ws.filter (fun j => j.stage == .ready)).foldl (fun a j => a.raiseFair (ringVi j.ring) (a.ringCls j.ring)) s
  let s2 := ((s1.alwDrop (.loader i)).writeImage e bs).setHot i { e with state := 3, loads := (e.loads + 1) % 2 ^ 64 }
  ws.foldl (fun a j => match a.job? j.ring j.seq with
    | some k => a.admitResident k
    | none => a) s2

/-- May the loader read its source: for kind 1 a range of memory that R98 lets a job reach? -/
def State.sourceOk (s : State) (e : HotEntry) : Bool := e.kind != 1 || s.spanOk e.source e.length true

/-- HOT_LOAD_DONE: the load of an entry that holds its grant ends, with the bytes of its image or a read error (R304, R308).
The end of a load that was abandoned is a stale act (R481). -/
def execHotLoadDone (entry : Nat) (bytes : Option (List Byte)) (s : State) : Host.Outcome State Fault Refusal :=
  s.whenUp (fun s =>
    let e := s.hotEntry entry
    if e.state = 2 ∧ !e.waitRoom ∧ s.holdsGrant (.loader entry) then
      (match bytes with
        | none => s.loadFailed entry
        | some bs =>
          let im : Image := fun off n => (bs.drop off).take n
          if bs.length = e.length ∧ s.sourceOk e ∧ im.admitOk e.length then s.loaded entry bs else s.loadFailed entry).conclude
    else if e.state = 2 then s
    else s.bump Reg.SPARE_STALE_CNT noUnit)

/-! ### Moves of the save pool and the hot-set region (R324) -/

/-- A write of BASE and SIZE of a pool that takes effect waits for the pool to be empty (R324). -/
def State.writePool (s : State) (o : Origin) (k : Nat) (value : Word) : State :=
  s.writeBy o k value (fun a b => if mayWrite o [.selvage, .hypervisor] ∧ !a.locked 5 then b.setFld k ⟨63, 63⟩ 1 else b)

/-- SAVE_POOL_MOVE: no slot holds a saved state, and the pending move takes effect. -/
def execSavePoolMove (s : State) : Host.Outcome State Fault Refusal :=
  s.whenUp (fun s =>
    if s.bit Reg.ARY_SAVE_CFG Fd.ARY_SAVE_CFG_MOVE_PENDING && s.jobs.all (fun j => j.saves.isEmpty) then
      { s with sched := { s.sched with
          saveBase := s.fld Reg.ARY_SAVE_CFG Fd.ARY_SAVE_CFG_BASE * 2 ^ 26
          saveSize := min 64 (max 3 (s.fld Reg.ARY_SAVE_CFG Fd.ARY_SAVE_CFG_SIZE)) } }.setFld Reg.ARY_SAVE_CFG
        Fd.ARY_SAVE_CFG_MOVE_PENDING 0
    else s)

/-- Is the hot-set region empty: no load runs, one that waits for room aside, and no job that names a copy is between admission and its record? -/
def State.hotIdle (s : State) : Bool :=
  s.hot.all (fun x => x.2.state != 2 || x.2.waitRoom) && s.jobs.all (fun j => j.kind != 1 || (s.hotEntry j.entry).kind == 0)

/-- The region moves: every copy is not resident, and those with PIN set are reloaded at once. -/
def State.moveHot (s : State) : State :=
  let copies := s.hot.filter (fun x => x.2.kind != 0 && x.2.state == 3)
  let s1 := copies.foldl (fun a x => a.hotDrop x.1) s
  let s2 := { s1 with sched := { s1.sched with
    hotBase := s1.fld Reg.ARY_HOT_CFG Fd.ARY_HOT_CFG_BASE * 2 ^ 26
    hotSize := min 1016 (s1.fld Reg.ARY_HOT_CFG Fd.ARY_HOT_CFG_SIZE) } }.setFld Reg.ARY_HOT_CFG Fd.ARY_HOT_CFG_MOVE_PENDING 0
  ((copies.filter (fun x => x.2.pin)).foldl (fun a x => a.startLoad x.1) s2).hotRetry

/-- HOT_REGION_MOVE: the region is empty and its pending move takes effect. -/
def execHotRegionMove (s : State) : Host.Outcome State Fault Refusal :=
  s.whenUp (fun s => if s.bit Reg.ARY_HOT_CFG Fd.ARY_HOT_CFG_MOVE_PENDING && s.hotIdle then s.moveHot else s)

end Sys2Proof.Machine
end

