-- ==== Sys2Proof/Machine/Assist.lean ====
section
/-! DEFINITION. The detection assist of a panel: SCAN, SORT, SUPPRESS, EMIT (R238 to R250). -/

namespace Sys2Proof.Machine

/-! ### The parameter block (R239, R240) -/

/-- Bytes [i, i + n) of a parameter block. -/
def pbField (pb : List Byte) (i n : Nat) : Nat := ofLe ((pb.drop i).take n)

def pbMode (pb : List Byte) : Nat := pbField pb 0 1
def pbAware (pb : List Byte) : Bool := pbField pb 1 1 % 2 == 1
def pbRegion (pb : List Byte) : Bool := pbField pb 1 1 / 2 % 2 == 1
def pbClasses (pb : List Byte) : Nat := pbField pb 2 2
def pbAnchors (pb : List Byte) : Nat := pbField pb 4 1
def pbIou (pb : List Byte) : Nat := min 256 (pbField pb 6 2)
def pbGridW (pb : List Byte) : Nat := pbField pb 8 2
def pbGridH (pb : List Byte) : Nat := pbField pb 10 2
def pbMaxOut (pb : List Byte) : Nat := pbField pb 28 2
def pbPerClass (pb : List Byte) : Nat := pbField pb 30 1
def pbList (pb : List Byte) : Nat := pbField pb 60 4
def pbCand (pb : List Byte) : Nat := pbField pb 56 4

/-- An FP32 field as a value. -/
def pbNum (pb : List Byte) (i : Nat) : Num := ofFp32 (pbField pb i 4)

/-- The FORMAT code of the head tensors. -/
def pbFmt (pb : List Byte) : Nat := 7 + pbField pb 5 1

/-- Does a block pass R240: reserved bits, ranges, areas inside the scratchpad? -/
def pbOk (pb : List Byte) : Bool :=
  let in' := fun (x lo hi : Nat) => decide (lo ≤ x) && decide (x ≤ hi)
  decide (pbMode pb ≤ 1) && decide (pbField pb 1 1 < 4) && in' (pbClasses pb) 1 1024 && in' (pbAnchors pb) 1 16 &&
  (pbMode pb == 0 || pbAnchors pb == 1) && decide (pbField pb 5 1 ≤ 2) && in' (pbGridW pb) 1 1024 && in' (pbGridH pb) 1 1024 &&
  in' (pbMaxOut pb) 1 1024 && decide (pbField pb 31 1 ≤ 64) && decide (pbField pb 32 2 ≤ 15) && decide (pbField pb 34 2 ≤ 255) &&
  pbCand pb % 64 == 0 && decide (pbCand pb + 65536 ≤ spSize) && pbList pb % 64 == 0 && decide (pbList pb + 64 + 32 * pbMaxOut pb ≤ spSize)

/-! ### Issue -/

/-- Counts the steps of an ASSIST: 16 of set-up and its work, in the span count (R202, R238, R246). -/
def State.assistSteps (s : State) (n work : Nat) : State := s.modCore n (fun c => { c with span := c.span + 16 + work })

/-- Issues an ASSIST of a compute pattern: one step without effect in a checker copy (R250); a bad parameter block faults the job with
cause 8, a double-bit error with cause 5 (R191); otherwise its effect, with its work in steps. -/
def State.assistOp (s : State) (n pbOff : Nat) (err : Option SpErr) (extra : List Byte → Bool) (f : State → Job → List Byte → State) : State :=
  s.issueIn n false (fun s j =>
    if j.isCk n then s.modCore n (fun c => { c with span := c.span + 1 })
    else s.accesses n j err (fun s =>
      let pb := (s.core n).spBytes pbOff 64
      if pbOff + 64 ≤ spSize ∧ pbOk pb ∧ extra pb then f s j pb else s.fault j n 8))

/-! ### The candidate area (R239, R242, R245) -/

/-- What an assist finds in an area that other writes have met, or that a restore has not brought back: free candidates. -/
def freeAssist (g : Nat) : Assist :=
  { cands := (List.range (Config.freeCell g 0 % 4097)).map (fun i =>
      let f := fun k => Config.freeCell g (16 * (i + 1) + k)
      { score := f 0 % 2 ^ 32, index := f 1, cls := f 2 % 1024, loc := f 3 % 2 ^ 32, x0 := f 4 % 2 ^ 32, y0 := f 5 % 2 ^ 32, x1 := f 6 % 2 ^ 32
        y1 := f 7 % 2 ^ 32, clipped := f 8 % 2 == 1, fate := f 9 % 3 })
    above := Config.freeCell g 1 % 2 ^ 32, capped := Config.freeCell g 2 % 2 ^ 32, degen := Config.freeCell g 3 % 2 ^ 32
    rounds := Config.freeCell g 4 % 2 ^ 16 }

/-- The candidate state in the area that a parameter block names. -/
def Core.area (c : Core) (pb : List Byte) (g : Nat) : Assist := (Sparse.get (fun _ => none) (pbCand pb) c.assist).getD (freeAssist g)

/-- Writes the candidate area: its bytes, whose layout the manual leaves open, become free bytes. -/
def State.putArea (s : State) (n : Nat) (pb : List Byte) (a : Assist) : State :=
  { s with free := s.free + 1 }.modCore n (fun c =>
    let d := c.write (pbCand pb) ((List.range 65536).map (fun i => BitVec.ofNat 8 (Config.freeCell s.free i)))
    { d with assist := Sparse.put (fun _ => none) (pbCand pb) (some a) d.assist })

/-! ### SCAN (R241 to R243) -/

/-- Where a SCAN reads: score, box and anchor offsets, and the run of cells of the head that it covers. -/
structure ScanArgs where
  score  : Nat
  box    : Nat
  anch   : Nat
  first  : Nat
  cells  : Nat
  deriving DecidableEq, Repr

/-- Pixel pitches of the two head tensors. -/
def scorePitch (pb : List Byte) : Nat := pixelPitch (pbFmt pb) (formatBits (pbFmt pb)) (pbAnchors pb * pbClasses pb)
def boxPitch (pb : List Byte) : Nat := pixelPitch (pbFmt pb) (formatBits (pbFmt pb)) (pbAnchors pb * 4)

/-- Offset of cell `first + k` of the head from cell `first`, where a SCAN's part begins: rows are rounded up to 64 B (R219). -/
def headOff (pb : List Byte) (pitch first k : Nat) : Nat :=
  let w := max 1 (pbGridW pb)
  ((first + k) / w - first / w) * (ceilDiv (w * pitch) 64 * 64) + (first + k) % w * pitch - first % w * pitch

/-- Do the parts of the head tensors and the anchor table lie in the scratchpad, and the cells in the grid? -/
def scanOk (a : ScanArgs) (pb : List Byte) : Bool :=
  let fits := fun (base pitch : Nat) => a.cells == 0 || decide (base + headOff pb pitch a.first (a.cells - 1) + pitch ≤ spSize)
  fits a.score (scorePitch pb) && fits a.box (boxPitch pb) &&
  (pbMode pb == 1 || decide (a.anch + 8 * pbAnchors pb ≤ spSize)) && decide (a.first + a.cells ≤ pbGridW pb * pbGridH pb)

/-- An element of a head tensor as a value: channel `ch` of the k-th cell of a part. -/
def Core.headNum (c : Core) (pb : List Byte) (base pitch first k ch : Nat) : Num :=
  elemValue (pbFmt pb) (c.spElem (formatBits (pbFmt pb)) (base + headOff pb pitch first k) ch)

/-- A candidate before its decode: FP32 score, index, class, location. -/
def rawCand (score : Num) (loc cls classes : Nat) : Cand :=
  { score := toFp32 score, index := loc * classes + cls, cls := cls, loc := loc, x0 := 0, y0 := 0, x1 := 0, y1 := 0, clipped := false }

/-- Does score a beat score b? -/
def above (a b : Num) : Bool := b.le a && !a.le b

/-- The candidates of one location (R241). -/
def Core.locCands (c : Core) (pb : List Byte) (a : ScanArgs) (cell k : Nat) : List Cand :=
  let cl := pbClasses pb
  let loc := (a.first + cell) * pbAnchors pb + k
  let score := fun j => c.headNum pb a.score (scorePitch pb) a.first cell (k * cl + j)
  let ok := fun j => (pbNum pb 16).le (score j)
  if pbAware pb then ((List.range cl).filter ok).map (fun j => rawCand (score j) loc j cl)
  else
    let best := (List.range cl).foldl (fun (b : Option Nat) j =>
      if score j = .nan then b
      else match b with
        | none => some j
        | some i => if above (score j) (score i) then some j else some i) none
    match best with
    | some j => if ok j then [rawCand (score j) loc j cl] else []
    | none => []

/-- Does candidate a stand before b: higher score, or the lower index (R242, R244)? -/
def candBefore (a b : Cand) : Bool :=
  let x := ofFp32 a.score
  let y := ofFp32 b.score
  above x y || (!above y x && decide (a.index < b.index))

/-- Inserts a candidate into a list in that order. -/
def insertCand (a : Cand) : List Cand → List Cand
  | [] => [a]
  | b :: l => if candBefore a b then a :: b :: l else b :: insertCand a l

/-- The candidates in that order. -/
def sortCands (l : List Cand) : List Cand := l.foldl (fun acc a => insertCand a acc) []

/-- The FP32 code of a coordinate within the error that decoding adds: r_op = 6 × 2^-24, a_op = 2^-126 (R243), at a free place there. -/
def nearCoord (free : Nat) (x : Num) : Nat :=
  match x with
  | .fin a m e =>
    if (f32 x).isFin then
      codeNear free ((Num.fin false (6 * m) (e - 24)).add (.fin false 1 (-126))) a m e
    else toFp32 x
  | x => toFp32 x

/-- e^x as R243 uses it; beyond ± 400 that of ± 400, which no finite coordinate tells apart. -/
def expBox : Num → Num
  | .nan => .nan
  | .inf a => if a then Num.zero else .inf false
  | .fin a m e => expNum (if (Num.fin false m e).le (.fin false 400 0) then .fin a m e else .fin a 400 0)

/-- Clips a coordinate to [0, top]; the mark says that it moved. -/
def clipCoord (top : Num) (c : Nat) : Nat × Bool :=
  let x := ofFp32 c
  if lessThan x Num.zero then (0, true) else if lessThan top x then (toFp32 top, true) else (c, false)

/-- What a candidate's box is decoded from: its four box elements, and the sizes of its anchor. -/
def Core.boxIns (c : Core) (pb : List Byte) (a : ScanArgs) (loc : Nat) : List Num :=
  let k := loc % pbAnchors pb
  let at' := loc / pbAnchors pb - a.first
  (List.range 4).map (fun i => c.headNum pb a.box (boxPitch pb) a.first at' (4 * k + i)) ++
    (if pbMode pb = 1 then [] else [ofFp32 (ofLe (c.spBytes (a.anch + 8 * k) 4)), ofFp32 (ofLe (c.spBytes (a.anch + 8 * k + 4) 4))])

/-- The exact edges of a candidate's box before the clip. -/
def edgesOf (pb : List Byte) (loc : Nat) (ins : List Num) : List Num :=
  let cell := loc / pbAnchors pb
  let st := pbNum pb 12
  let half := Num.fin false 1 (-1)
  let cx := (Num.ofInt (2 * (cell % pbGridW pb) + 1) (-1)).mul st
  let cy := (Num.ofInt (2 * (cell / pbGridW pb) + 1) (-1)).mul st
  let t := fun i => ins.getD i Num.zero
  if pbMode pb = 1 then
    [cx.add ((t 0).mul st).neg, cy.add ((t 1).mul st).neg, cx.add ((t 2).mul st), cy.add ((t 3).mul st)]
  else
    let x := cx.add (((t 0).mul (pbNum pb 20)).mul (t 4))
    let y := cy.add (((t 1).mul (pbNum pb 20)).mul (t 5))
    let w := ((t 4).mul (expBox ((t 2).mul (pbNum pb 24)))).mul half
    let h := ((t 5).mul (expBox ((t 3).mul (pbNum pb 24)))).mul half
    [x.add w.neg, y.add h.neg, x.add w, y.add h]

/-- Decodes and clips a candidate; the first mark says that its box is degenerate, the second that an edge came out infinite or NaN
from finite inputs (R144, R243). -/
def Core.decodeCand (c : Core) (pb : List Byte) (a : ScanArgs) (free : Nat) (k : Cand) : Cand × Bool × Bool :=
  let st := pbNum pb 12
  let w := (Num.ofInt (pbGridW pb) 0).mul st
  let h := (Num.ofInt (pbGridH pb) 0).mul st
  let ins := c.boxIns pb a k.loc
  let e := (edgesOf pb k.loc ins).mapIdx (fun i x => nearCoord (Config.freeCell free (4 * k.index + i)) x)
  let x0 := clipCoord w (e.getD 0 0)
  let y0 := clipCoord h (e.getD 1 0)
  let x1 := clipCoord w (e.getD 2 0)
  let y1 := clipCoord h (e.getD 3 0)
  ({ k with x0 := x0.1, y0 := y0.1, x1 := x1.1, y1 := y1.1, clipped := x0.2 || y0.2 || x1.2 || y1.2 },
    (ofFp32 x1.1).le (ofFp32 x0.1) || (ofFp32 y1.1).le (ofFp32 y0.1),
    (ins ++ [st, pbNum pb 20, pbNum pb 24]).all Num.isFin && e.any (fun x => !(ofFp32 x).isFin))

/-- A SCAN: candidates of its cells join the selection, which keeps the best 4,096, and those kept are decoded; degenerate boxes are
discarded and counted (R242, R243). A SCAN from cell 0 begins a selection (log 75). -/
def State.scan (s : State) (n : Nat) (j : Job) (a : ScanArgs) (pb : List Byte) : State :=
  let c := s.core n
  let s1 := { s with free := s.free + 2 }
  let new := (List.range a.cells).flatMap (fun x => (List.range (pbAnchors pb)).flatMap (fun k => c.locCands pb a x k))
  let old : Assist := if a.first = 0 then {} else c.area pb s.free
  let all := sortCands (old.cands ++ new)
  let best := all.take 4096
  let dec := (best.filter new.contains).map (c.decodeCand pb a (s.free + 1))
  let kept := best.filter (fun k => !new.contains k) ++ (dec.filter (fun d => !d.2.1)).map (·.1)
  let r : Assist := { old with
    cands := sortCands kept, above := old.above + new.length, capped := old.capped + (all.length - best.length)
    degen := old.degen + (dec.filter (fun d => d.2.1)).length }
  let work := ceilDiv (a.cells * (scorePitch pb + boxPitch pb)) 256 + ceilDiv best.length 8
  ((s1.putArea n pb r).assistSteps n work).void j n (dec.any (fun d => d.2.2))

/-- SCAN: selects candidates from head tensors and decodes their boxes. -/
def execScan (run : CoreAt) (pb score box anch first cells : Nat) (s : State) : Host.Outcome State Fault Refusal :=
  s.whenUp (fun s => s.assistOp run.core pb run.err (scanOk ⟨score, box, anch, first, cells⟩)
    (fun s j b => s.scan run.core j ⟨score, box, anch, first, cells⟩ b))

/-! ### SORT (R244) -/

/-- ⌈log2 n⌉. -/
def log2Up (n : Nat) : Nat := if n ≤ 1 then 0 else Nat.log2 (n - 1) + 1

/-- The candidates stand in order. -/
def State.sortAssist (s : State) (n : Nat) (pb : List Byte) : State :=
  let a := (s.core n).area pb s.free
  ({ s with free := s.free + 1 }.putArea n pb { a with cands := sortCands a.cands }).assistSteps n
    (ceilDiv a.cands.length 16 * log2Up a.cands.length)

/-- SORT: orders the decoded candidates by descending score. -/
def execSort (run : CoreAt) (pb : Nat) (s : State) : Host.Outcome State Fault Refusal :=
  s.whenUp (fun s => s.assistOp run.core pb run.err (fun _ => true) (fun s _ b => s.sortAssist run.core b))

/-! ### SUPPRESS (R245) -/

/-- The overlap of two boxes, and the area of one, in FP32. -/
def boxArea (a : Cand) : Num :=
  f32 ((f32 ((ofFp32 a.x1).add (ofFp32 a.x0).neg)).mul (f32 ((ofFp32 a.y1).add (ofFp32 a.y0).neg)))
def lessOf (a b : Num) : Num := if a.le b then a else b
def moreOf (a b : Num) : Num := if a.le b then b else a
def boxInter (a b : Cand) : Num :=
  let w := f32 ((lessOf (ofFp32 a.x1) (ofFp32 b.x1)).add (moreOf (ofFp32 a.x0) (ofFp32 b.x0)).neg)
  let h := f32 ((lessOf (ofFp32 a.y1) (ofFp32 b.y1)).add (moreOf (ofFp32 a.y0) (ofFp32 b.y0)).neg)
  if lessThan Num.zero w && lessThan Num.zero h then f32 (w.mul h) else Num.zero

/-- Does a kept candidate suppress a later one? -/
def suppresses (pb : List Byte) (a b : Cand) : Bool :=
  let i := boxInter a b
  let u := f32 ((f32 ((boxArea a).add (boxArea b))).add i.neg)
  decide (pbIou pb < 256) && (!pbAware pb || a.cls == b.cls) &&
    above (f32 (i.mul (.fin false 256 0))) (f32 ((Num.ofInt (pbIou pb) 0).mul u))

/-- Handles the candidate at a position of the sorted order. -/
def suppressAt (pb : List Byte) (l : List Cand) (i : Nat) : List Cand :=
  match l[i]? with
  | none => l
  | some a =>
    let kept := l.filter (fun k => k.fate == 1)
    if a.fate ≠ 0 ∨ pbMaxOut pb ≤ kept.length then l
    else if pbPerClass pb ≠ 0 ∧ pbPerClass pb ≤ (kept.filter (fun k => k.cls == a.cls)).length then l.set i { a with fate := 2 }
    else l.mapIdx (fun k b => if k = i then { b with fate := 1 } else if i < k ∧ b.fate = 0 ∧ suppresses pb a b then { b with fate := 2 } else b)

/-- One round: the 64 candidates from position 64 × r. -/
def suppressRound (pb : List Byte) (l : List Cand) (r : Nat) : List Cand :=
  (List.range 64).foldl (fun acc k => suppressAt pb acc (64 * r + k)) l

/-- Does the area of a box of finite edges come out infinite (R144)? -/
def areaVoid (k : Cand) : Bool :=
  [k.x0, k.y0, k.x1, k.y1].all (fun c => (ofFp32 c).isFin) && !(boxArea k).isFin

/-- The rounds that a SUPPRESS names. -/
def State.suppress (s : State) (n : Nat) (j : Job) (first rounds : Nat) (pb : List Byte) : State :=
  let a := (s.core n).area pb s.free
  let rs := ((List.range rounds).map (fun i => first + i)).filter (fun r => decide (64 * r < a.cands.length))
  let r : Assist := { a with cands := rs.foldl (suppressRound pb) a.cands, rounds := a.rounds + rs.length }
  (({ s with free := s.free + 1 }.putArea n pb r).assistSteps n ((rs.map (fun r => a.cands.length - 64 * r)).sum)).void j n
    (!rs.isEmpty && a.cands.any areaVoid)

/-- SUPPRESS: runs rounds of greedy overlap suppression. -/
def execSuppress (run : CoreAt) (pb first rounds : Nat) (s : State) : Host.Outcome State Fault Refusal :=
  s.whenUp (fun s => s.assistOp run.core pb run.err (fun _ => true) (fun s j b => s.suppress run.core j first rounds b))

/-! ### EMIT (R247 to R249) -/

/-- A coordinate rounded down or up to an even integer, inside a span that any frame fits in; a NaN is a free value. -/
def evenDown (free : Nat) : Num → Int
  | .nan => 2 * (free % 32768 : Nat)
  | .inf a => if a then -65536 else 131072
  | .fin a m e => let i := sgn a (shl m e) / (shl 1 (-e) : Nat); max (-65536) (min 131072 (i / 2 * 2))
def evenUp (free : Nat) (x : Num) : Int := -(evenDown free x.neg)

/-- The region of a box: x, y, w, h in source pixels and whether the frame clipped it, if it is sent (R248; log 75). -/
def regionOf (pb : List Byte) (free : Nat) (k : Cand) : Option (Nat × Nat × Nat × Nat × Bool) :=
  let m := Num.fin false (pbField pb 34 2) (-8)
  let axis := fun (c0 c1 scale off frame fr : Nat) =>
    let lo := ofFp32 c0
    let hi := ofFp32 c1
    let d := m.mul (hi.add lo.neg)
    let p := ((lo.add d.neg).mul (ofFp32 scale)).add (ofFp32 off)
    let q := ((hi.add d).mul (ofFp32 scale)).add (ofFp32 off)
    let a := evenDown (Config.freeCell free (2 * fr)) (lessOf p q)
    let b := evenUp (Config.freeCell free (2 * fr + 1)) (moreOf p q)
    let a' := (min (frame : Int) (max 0 a)).toNat
    let b' := (min (frame : Int) (max 0 b)).toNat
    (a', b' - a', decide ((a' : Int) ≠ a) || decide ((b' : Int) ≠ b))
  let x := axis k.x0 k.x1 (pbField pb 36 4) (pbField pb 44 4) (pbField pb 52 2) (2 * k.index)
  let y := axis k.y0 k.y1 (pbField pb 40 4) (pbField pb 48 4) (pbField pb 54 2) (2 * k.index + 1)
  if x.2.1 < 2 ∨ y.2.1 < 2 then none else some (x.1, y.1, x.2.1, y.2.1, x.2.2 || y.2.2)

/-- The frame counter of the seal of a job's first input; with no seal there it is a free value. -/
def State.frameCounter (s : State) (j : Job) (free : Nat) : Nat :=
  match j.tens.find? (fun t => t.role == 0) with
  | some t => if t.isSealed then bits (s.peek (t.sealAddr + 8) 8) 31 16 else Config.freeCell free 0 % 65536
  | none => Config.freeCell free 0 % 65536

/-- A region record of 16 B. -/
def regionBytes (r : Nat × Nat × Nat × Nat × Bool) (k : Cand) (rank frame : Nat) : List Byte :=
  leBytes 2 r.1 ++ leBytes 2 r.2.1 ++ leBytes 2 r.2.2.1 ++ leBytes 2 r.2.2.2.1 ++ leBytes 2 k.cls ++ leBytes 1 rank ++
    leBytes 1 r.2.2.2.2.toNat ++ leBytes 2 frame ++ leBytes 2 0

/-- A record of 32 B of the detection list. -/
def detBytes (pb : List Byte) (k : Cand) (sent : Bool) : List Byte :=
  leBytes 4 k.x0 ++ leBytes 4 k.y0 ++ leBytes 4 k.x1 ++ leBytes 4 k.y1 ++ leBytes 4 k.score ++ leBytes 2 k.cls ++
    leBytes 1 (k.loc % pbAnchors pb) ++ leBytes 1 (k.clipped.toNat + 2 * sent.toNat) ++ leBytes 4 k.loc ++ leBytes 4 0

/-- EMIT writes the detection list and puts the region records into the job's outputs. -/
def State.emitList (s : State) (n : Nat) (j : Job) (pb : List Byte) : State :=
  let a := (s.core n).area pb (s.free + 2)
  let s2 := { s with free := s.free + 3 }
  let kept := a.cands.filter (fun k => k.fate == 1)
  let want := if pbRegion pb then min (pbField pb 31 1) kept.length else 0
  let rs := kept.mapIdx (fun i k => if i < want then (regionOf pb s.free k).map (fun r => (i, k, r)) else none)
  let sent := rs.filterMap id
  let head := leBytes 4 kept.length ++ leBytes 4 a.above ++ leBytes 4 a.capped ++
    leBytes 4 a.degen ++ leBytes 2 a.rounds ++ leBytes 2 sent.length ++ leBytes 44 0
  let list := head ++ (kept.mapIdx (fun i k => detBytes pb k ((rs.getD i none).isSome))).flatten
  let fc := s.frameCounter j (s.free + 1)
  let outs : List RegionOut := sent.map (fun x => ⟨pbField pb 32 2, regionBytes x.2.2 x.2.1 x.1 fc⟩)
  ((s2.modCore n (fun c => c.write (pbList pb) list)).modJob j.ring j.seq (fun k => { k with regions := k.regions ++ outs })).assistSteps n
    (ceilDiv kept.length 2 + sent.length)

/-- EMIT: writes the detection list and region records for the channel's feedback slot. -/
def execEmit (run : CoreAt) (pb : Nat) (s : State) : Host.Outcome State Fault Refusal :=
  s.whenUp (fun s => s.assistOp run.core pb run.err (fun _ => true) (fun s j b => s.emitList run.core j b))

end Sys2Proof.Machine
end

