-- ==== Sys2Proof/Machine/Journal.lean ====
section
/-! DEFINITION. The journal of substitutions and operations in xSPI NOR (R476 to R479). -/

namespace Sys2Proof.Machine

/-- Journal kinds of R477. -/
def jRow : Nat := 1
def jSpRow : Nat := 2
def jCore : Nat := 3
def jChannel : Nat := 4
def jLane : Nat := 5
def jSave : Nat := 6
def jSwitch : Nat := 7
def jRemoval : Nat := 8
def jCheckpoint : Nat := 9

/-- Journal phases of R477. -/
def jBegin : Nat := 1
def jFlip : Nat := 2
def jDone : Nat := 3
def jRolledBack : Nat := 4
def jCompleted : Nat := 5

/-- SIZE_64K in force: 4 to 64 (R488). -/
def State.journalUnits (s : State) : Nat := min 64 (max 4 (s.fld Reg.SPARE_JRNL Fd.SPARE_JRNL_SIZE_64K))

/-- Records that one half of the journal holds (R478). -/
def State.halfRecords (s : State) : Nat := s.journalUnits * 512

/-- The BEGIN records of operations still open (R478, R479). -/
def Journal.openOps (j : Journal) : List JRec :=
  j.recs.filter (fun r => r.phase == jBegin &&
    !j.recs.any (fun q => q.kind == r.kind && q.target == r.target && decide (r.seq < q.seq) &&
      (q.phase == jDone || q.phase == jRolledBack || q.phase == jCompleted)))

/-- Records that a checkpoint takes: itself, the table, the open BEGIN records (R478). -/
def Journal.checkpointSize (j : Journal) : Nat := 1 + ceilDiv j.subs.length 8 + j.openOps.length

/-- FILL shows the records of the half in use (R488). -/
def State.refreshFill (s : State) : State :=
  s.setFld Reg.SPARE_JRNL Fd.SPARE_JRNL_FILL (s.journal.recs.length + s.journal.tables)

/-- The half is full: a checkpoint record, with the table and the open operations, starts the other half (R478). -/
def State.checkpoint (s : State) : State :=
  let j := s.journal
  let (ph, s1) := s.takeFree
  let c : JRec := { kind := jCheckpoint, phase := ph % 256, seq := j.seq, time := s.now, target := 0, spare := 0 }
  { s1 with journal := { j with recs := c :: j.openOps, tables := ceilDiv j.subs.length 8, seq := j.seq + 1 } }

/-- Writes one record. -/
def State.jWrite (s : State) (kind phase target spare arg : Nat) : State :=
  let s1 := if s.halfRecords ≤ s.journal.recs.length + s.journal.tables then s.checkpoint else s
  let j := s1.journal
  let r : JRec := { kind := kind, phase := phase, seq := j.seq, time := s.now, target := target, spare := spare, arg := arg }
  { s1 with journal := { j with recs := j.recs ++ [r], seq := j.seq + 1 } }.refreshFill

/-- STATUS JRNL_FAIL of SPARE_CMD, as the audit entry of a journaled operation carries it (R487, R526). -/
def jFailed : Nat := 6

/-- The audit entry of a journaled operation (R525, R526). -/
def State.jAudit (s : State) (result target spare : Nat) : State := s.auditLog .selvage .journaled result target target spare

/-- A BEGIN record is written, if it verifies within two attempts (`ok`) and its checkpoint would fit; otherwise the operation
stops before it takes effect, counted, with the event JRNL_FAIL (R476, R478). It is audited either way (R525). -/
def State.jBeginOp (s : State) (kind target spare arg : Nat) (ok : Bool) : State × Bool :=
  if ok ∧ s.journal.checkpointSize + 1 ≤ s.halfRecords then ((s.jAudit 0 target spare).jWrite kind jBegin target spare arg, true)
  else (((s.jAudit jFailed target spare).bump Reg.SPARE_JRNL_FAIL_CNT noUnit).raise 13 0x0038 noUnit, false)

/-- A substitution completes: its DONE record, its place in the table, its count (R473 to R475, R490). -/
def State.jSubstituted (s : State) (kind target spare : Nat) : State :=
  let j : Journal := { s.journal with subs := s.journal.subs ++ [⟨kind, target, spare⟩] }
  let s1 := { s with journal := j }
  (s1.jWrite kind jDone target spare 0).bump Reg.SPARE_DARN_CNT noUnit

end Sys2Proof.Machine
end

