-- ==== Sys2Proof/Machine/MemStack.lean ====
section
/-! DEFINITION. The memory stack: the interleave, the beat code, spare rows, refresh tiers, scrubbing, error records
(R95 to R126, R475). -/

namespace Sys2Proof.Machine

/-! ### The interleave (R101, R102) -/

/-- The DRAM address of an offset in a logical channel: the interleave read backwards. -/
def dramAddr (n l : Nat) : Nat := l / 512 * 2 ^ 18 + xor64 (xor64 n (l / 512 % 512)) (l / 2 ^ 18) * 512 + l % 512

/-- The offset of a bank, row and beat. -/
def localOf (bank row beat : Nat) : Nat := row * 2 ^ 15 + bank * 2 ^ 11 + beat * 2 ^ 6

/-- The logical channel that a physical channel serves, if it serves one. -/
def State.logicalChan (s : State) (phys : Nat) : Option Nat := (List.range 512).find? (fun n => s.physChan n == phys)

/-- Bank and logical row of an offset. -/
def localBank (l : Nat) : Nat := bits l 14 11
def localRow (l : Nat) : Nat := bits l 26 15

/-- The row of an address, by physical channel. -/
def State.rowOf (s : State) (a : Nat) : RowId := ⟨s.physChan (dramChan a), localBank (dramLocal a), localRow (dramLocal a)⟩

/-! ### Error records (R121, R126) -/

/-- Kinds of R126. -/
def memCorrected : Nat := 0
def memUncorrectable : Nat := 1
def memRowLasting : Nat := 2
def memRowReplaced : Nat := 3
def memSparesOut : Nat := 4

/-- Spare rows taken in a bank, and those left. -/
def State.rowsTaken (s : State) (r : RowId) : Nat := Sparse.get (fun _ => 0) (16 * r.chan + r.bank) s.memst.sparesOut
def State.rowsLeft (s : State) (r : RowId) : Nat := 32 - s.rowsTaken r

/-- Queues an error record; one that finds 256 queued is lost and counted. -/
def State.memError (s : State) (kind symbols origin addr : Nat) (r : RowId) : State :=
  if s.memst.errq.length < 256 then
    let e : MemErr := ⟨2 ^ 63 + kind * 2 ^ 60 + symbols * 2 ^ 56 + origin * 2 ^ 48 + addr % 2 ^ 48, s.now,
      r.chan * 2 ^ 22 + r.bank * 2 ^ 18 + r.row * 2 ^ 6 + s.rowsLeft r⟩
    { s with memst := { s.memst with errq := s.memst.errq ++ [e] } }
  else s.bump Reg.MEM_ERRQ_DROP_CNT noUnit

/-- A record whose ADDR, ORIGIN or SYMBOLS the manual does not state: free values (log 73). SYMBOLS of a record about a row or about spares;
of a row that has been replaced also ADDR and ORIGIN, as no beat was read. -/
def State.memNote (s : State) (kind : Nat) (read : Option (Nat × Nat)) (r : RowId) : State :=
  let (v, s1) := s.takeFree
  match read with
  | some (origin, addr) => s1.memError kind (v % 16) origin addr r
  | none => s1.memError kind (v % 16) (v / 16 % 256) (v / 4096 % 2 ^ 48) r

/-! ### Channels awaiting darning (R111, R470, R474, R487) -/

/-- The spare channels of a die. -/
def spareChans (die : Nat) : List Nat := (List.range 8).map (fun i => 264 * die + 256 + i)

/-- Physical channels in service or being filled by a copy. -/
def State.chansUsed (s : State) : List Nat := (List.range 512).map s.physChan ++ s.darn.copies.map (·.spare)

/-- The lowest-numbered unused spare channel of a die that has not failed. -/
def State.freeChan (s : State) (die : Nat) : Option Nat :=
  let used := s.chansUsed
  (spareChans die).find? (fun c => !used.contains c && !s.darn.badChans.contains c)

/-- The darning of a physical channel is decided: it waits for its copy (R474); with no spare left it stays in service and
MEM_SPARE_OUT is raised (R111). -/
def State.requestChannel (s : State) (phys origin addr : Nat) (r : RowId) : State :=
  if s.darn.chanWait.contains phys || s.darn.copies.any (fun c => c.old == phys) then s
  else if (s.freeChan (phys / 264)).isNone then (s.memNote memSparesOut (some (origin, addr)) r).raise 4 0x0100 phys
  else { s with darn := { s.darn with chanWait := s.darn.chanWait ++ [phys] } }

/-! ### Spare rows (R109 to R111, R475) -/

/-- A row as the journal names it: physical channel, bank and row in one number. -/
def rowName (chan bank row : Nat) : Nat := (chan * 16 + bank) * 8192 + row

/-- A row is lasting: recorded, and replaced where ROW_SPARE_EN lets it and a spare row is left; with none left its channel is
darned (R111). `jrnl` says whether the BEGIN record verified (R476). -/
def State.rowLasting (s : State) (r : RowId) (origin addr : Nat) (jrnl : Bool) : State :=
  let s1 := s.memNote memRowLasting (some (origin, addr)) r
  if !s.bit Reg.MEM_CTRL Fd.MEM_CTRL_ROW_SPARE_EN || s.memst.replacing.any (fun x => x.1 == r) then s1
  else if s.rowsLeft r = 0 then
    if s.bit Reg.SPARE_CTRL Fd.SPARE_CTRL_AUTO_CHAN then s1.requestChannel r.chan origin addr r else s1
  else
    let k := s.rowsTaken r
    let (s2, ok) := s1.jBeginOp jRow (rowName r.chan r.bank r.row) (rowName r.chan r.bank (4096 + k)) 0 jrnl
    if ok then
      { s2 with memst := { s2.memst with
          replacing := s2.memst.replacing ++ [(r, k)]
          sparesOut := Sparse.put (fun _ => 0) (16 * r.chan + r.bank) (k + 1) s2.memst.sparesOut } }
    else s2

/-- The row window in ns and its threshold (R109, R123). -/
def State.rowWin (s : State) : Nat := windowHours (s.fld Reg.MEM_ROW_WIN Fd.MEM_ROW_WIN_ROW_WIN_H) * hourNs
def State.rowThr (s : State) : Nat := max 1 (s.fld Reg.MEM_ROW_WIN Fd.MEM_ROW_WIN_ROW_THR)

/-- Is a tracked row this one? -/
def RowTrack.isRow (t : RowTrack) (r : RowId) : Bool := t.chan == r.chan && t.bank == r.bank && t.row == r.row

/-- A row leaves the table. -/
def State.untrack (s : State) (r : RowId) : State :=
  { s with memst := { s.memst with tracked := s.memst.tracked.filter (fun t => !t.isRow r) } }

/-- The tracked row whose first error is oldest. -/
def oldestTrack : List RowTrack → Option RowTrack
  | [] => none
  | t :: ts => match oldestTrack ts with
    | none => some t
    | some u => if u.first < t.first then some u else some t

/-- Corrected symbols of a row enter its window; a full table gives up the row with the oldest first error (R110). The second
result says whether the row is now lasting. -/
def State.trackRow (s : State) (r : RowId) (symbols : Nat) : State × Bool :=
  let old := match s.memst.tracked.find? (fun t => t.isRow r) with
    | some t => t.errs.filter (fun e => decide (s.now - e.1 ≤ s.rowWin))
    | none => []
  let errs := old ++ [(s.now, symbols)]
  let s1 := s.untrack r
  if s.rowThr ≤ (errs.map (·.2)).sum then (s1, true)
  else
    let s2 := if s1.memst.tracked.length < 1024 then s1
      else match oldestTrack s1.memst.tracked with
        | none => s1
        | some t => (s1.untrack ⟨t.chan, t.bank, t.row⟩).bump Reg.MEM_TRACK_DROP_CNT noUnit
    let first := match errs.head? with
      | some e => e.1
      | none => s.now
    let t : RowTrack := ⟨r.chan, r.bank, r.row, first, errs⟩
    ({ s2 with memst := { s2.memst with tracked := s2.memst.tracked ++ [t] } }, false)

/-! ### Beats (R97, R98, R103 to R106) -/

/-- May an origin read this DRAM address (R97)? The scrubber reads every beat. -/
def State.mayReadDram (s : State) (o : Origin) (a : Nat) : Bool :=
  decide (a < dramEnd) &&
  (o == .device || !s.enclaved a 64 &&
    (if reservedBase ≤ a then o == .selvage || o == .safety
     else o != .selvage && !(decide (s.memst.stageBase ≤ a) && decide (a < s.memst.stageBase + s.memst.stageSize * 2 ^ 26))))

/-- A corrected beat: counted, recorded, its row tracked, reported (R103, R109, R121). -/
def State.correctedBeat (s : State) (o : Origin) (r : RowId) (a errs : Nat) (jrnl : Bool) : State :=
  let s1 := (s.bump Reg.MEM_CE_CNT noUnit).memError memCorrected errs o.code a r
  let (s2, lasting) := s1.trackRow r errs
  let s3 := s2.reportAs 6 lasting
  if lasting then s3.rowLasting r o.code a jrnl else s3

/-- The answer to an origin whose load meets poison: a precise access fault of a core or pair, poison to any other (R106). -/
def poisonFor (o : Origin) : Resp := if takesFaults o then .accessFault else .poison

/-- An uncorrectable beat: counted, recorded, its row lasting at once (R105, R109, R121). -/
def State.badBeat (s : State) (o : Origin) (r : RowId) (a : Nat) (jrnl : Bool) : State :=
  let s1 := (s.bump Reg.MEM_UE_CNT noUnit).raise 4 0x0024 noUnit
  let s2 := ((s1.memError memUncorrectable 15 o.code a r).report 5 0).reportAs 6 true
  ((s2.untrack r).rowLasting r o.code a jrnl).answer (poisonFor o)

/-- The 64 free bytes that a miscorrection delivers (R103). -/
def State.freeBeat (s : State) : Nat → State × List Byte
  | 0 => (s, [])
  | n + 1 =>
    let (v, s1) := s.takeFree
    let (s2, l) := State.freeBeat s1 n
    (s2, BitVec.ofNat 8 v :: l)

/-- The beat of an address is read and decoded (R103 to R106); a stopped rim refuses the read (R31). An uncorrectable beat is written
back as poisoned (R105). With six or more symbol errors a beat is found uncorrectable or miscorrected, and the device does not tell which:
a free value decides, and what a miscorrection delivers and counts is free; the scrubber, which is the device itself, writes it back
(R108). -/
def State.readBeat (s : State) (o : Origin) (addr errs : Nat) (jrnl : Bool) : State :=
  let a := addr / 64 * 64
  let r := s.rowOf a
  if !s.mayReadDram o a then s.refuseTo o
  else if !s.rimOn r.chan then (s.rimRefuse r.chan).answer (refusal o)
  else if s.isPoisoned a 64 then s.answer (poisonFor o)
  else if errs = 0 then s.answer (.bytes (s.readBytes a 64))
  else if errs ≤ 3 then (s.correctedBeat o r a errs jrnl).answer (.bytes (s.readBytes a 64))
  else if errs ≤ 5 then (s.setPoison a 1).badBeat o r a jrnl
  else
    let (v, s1) := s.takeFree
    if v % 2 = 0 then (s1.setPoison a 1).badBeat o r a jrnl
    else
      let (s2, bs) := s1.freeBeat 64
      ((if o = .device then s2.writeBytes a bs else s2).correctedBeat o r a (1 + v / 2 % 3) jrnl).answer (.bytes bs)

/-- The scrubber reads a beat of a physical channel that serves no logical one (R108): a spare holds no address and no data of the
machine's, so ADDR of its record is a free value and nothing is delivered (log 73). -/
def State.readSpare (s : State) (r : RowId) (errs : Nat) (jrnl : Bool) : State :=
  let (v, s1) := s.takeFree
  let a := v / 2 % 2 ^ 48
  if !s.rimOn r.chan then s.rimRefuse r.chan
  else if errs = 0 then s
  else if errs ≤ 3 then s1.correctedBeat .device r a errs jrnl
  else if errs ≤ 5 ∨ v % 2 = 0 then s1.badBeat .device r a jrnl
  else s1.correctedBeat .device r a (1 + v / 2 ^ 49 % 3) jrnl

/-- The scrubber reads a beat by its physical place, while it runs (R108, R122). -/
def State.scrubBeat (s : State) (chan bank row beat errs : Nat) (jrnl : Bool) : State :=
  if !s.bit Reg.MEM_CTRL Fd.MEM_CTRL_SCRUB_EN then s
  else match s.logicalChan chan with
    | some n => s.readBeat .device (dramAddr n (localOf bank row beat)) errs jrnl
    | none => s.readSpare ⟨chan, bank, row⟩ errs jrnl

/-- BEAT_READ: an origin reads the beat of an address, or the scrubber one of a physical channel; the decoder meets `errs` symbol
errors. -/
def execBeatRead (o : Origin) (at_ : BeatAt) (errs : Nat) (jrnl : Bool) (s : State) : Host.Outcome State Fault Refusal :=
  s.whenUp (fun s =>
    match at_ with
    | .addr a => s.readBeat o a errs jrnl
    | .phys c b r k => s.scrubBeat c b r k errs jrnl)

/-- ROW_WINDOW_EXPIRE: a tracked row's window has passed without reaching the threshold (R110). -/
def execRowWindowExpire (chan bank row : Nat) (s : State) : Host.Outcome State Fault Refusal :=
  s.whenUp (fun s =>
    if s.memst.tracked.any (fun t => t.isRow ⟨chan, bank, row⟩ && t.errs.all (fun e => decide (s.rowWin < s.now - e.1))) then
      s.untrack ⟨chan, bank, row⟩
    else s)

/-- A row that has been copied is remapped, and DONE is journaled (R475). -/
def State.rowReplaced (s : State) (r : RowId) (k : Nat) : State :=
  let s1 := { s with memst := { s.memst with
    replacing := s.memst.replacing.filter (fun x => x.1 != r), rowMap := (r, k) :: s.memst.rowMap.filter (fun x => x.1 != r) } }
  (s1.jSubstituted jRow (rowName r.chan r.bank r.row) (rowName r.chan r.bank (4096 + k))).memNote memRowReplaced none r

/-- ROW_REPLACE_DONE: the row copy ends, the row is remapped and DONE is journaled (R475). -/
def execRowReplaceDone (chan bank row : Nat) (s : State) : Host.Outcome State Fault Refusal :=
  s.whenUp (fun s =>
    match s.memst.replacing.find? (fun x => x.1 == ⟨chan, bank, row⟩) with
    | none => s
    | some (r, k) => s.rowReplaced r k)

/-! ### Refresh and scrubbing (R107, R108) -/

/-- The tier of a temperature. -/
def tierOf (t : Int) : Nat := if t ≤ 85 then 0 else if t ≤ 95 then 1 else if t ≤ 105 then 2 else 3

/-- The upper boundary of a tier. -/
def tierEdge : Nat → Int
  | 0 => 85
  | 1 => 95
  | _ => 105

/-- The tier after the hottest sensor reads `temp`: hotter at once, colder only 2 °C below each boundary (R107). -/
def nextTier (old : Nat) (temp : Int) : Nat :=
  if old ≤ tierOf temp then tierOf temp
  else ([0, 1, 2, 3].find? (fun k => decide (old ≤ k) || decide (temp ≤ tierEdge k - 2))).getD old

/-- REFRESH_TIER_CHANGE: the hottest sensor of a channel group reads `temp` in whole °C (R107, R125). -/
def execRefreshTierChange (g : Nat) (temp : Int) (s : State) : Host.Outcome State Fault Refusal :=
  s.whenUp (fun s =>
    if g < 8 then
      let tj := if temp < -128 then -128 else if 127 < temp then 127 else temp
      (s.setFld (Reg.MEM_TEMP g) Fd.MEM_TEMP_TJ (BitVec.ofInt 8 tj).toNat).setFld (Reg.MEM_TEMP g) Fd.MEM_TEMP_TIER
        (nextTier (s.fld (Reg.MEM_TEMP g) Fd.MEM_TEMP_TIER) temp)
    else s)

/-- The scrub period in ns: SCRUB_H hours, 0 as 1 and above 168 as 168 (R108, R123). -/
def State.scrubNs (s : State) : Nat := windowHours (s.fld Reg.MEM_SCRUB_CFG Fd.MEM_SCRUB_CFG_SCRUB_H) * hourNs

/-- The next scrub pass starts, and its period with it. -/
def State.nextScrub (s : State) : State :=
  { s with memst := { s.memst with scrubPass := s.memst.scrubPass + 1, passRuns := false, scrubFrom := s.now } }

/-- SCRUB_PERIOD_END: the scrub period of SCRUB_H ends; with its pass finished the next one starts. A pass that has not finished runs on
and is counted as late, and the next one starts at once when it has finished: the command then comes again (R108, log 74). -/
def execScrubPeriodEnd (finished : Bool) (s : State) : Host.Outcome State Fault Refusal :=
  s.whenUp (fun s =>
    if !s.bit Reg.MEM_CTRL Fd.MEM_CTRL_SCRUB_EN then s
    else if s.memst.passRuns then if finished then s.nextScrub else s
    else if s.now < s.memst.scrubFrom + s.scrubNs then s
    else if finished then s.nextScrub
    else ({ s with memst := { s.memst with passRuns := true } }).bump Reg.MEM_SCRUB_LATE_CNT noUnit)

/-! ### Reading error records (R121) -/

/-- MEM_ERR_POP: a read of MEM_ERR_W0 pops the head record into MEM_ERR_W0 to MEM_ERR_W2; VALID is 0 on an empty queue. -/
def State.popMemErr (s : State) : State :=
  let (e, l) : MemErr × List MemErr := match s.memst.errq with
    | [] => (⟨0, 0, 0⟩, [])
    | e :: l => (e, l)
  let s1 := { s with memst := { s.memst with errq := l } }
  ((s1.setReg Reg.MEM_ERR_W0 (BitVec.ofNat 64 e.w0)).setReg Reg.MEM_ERR_W1 (BitVec.ofNat 64 e.w1)).setReg Reg.MEM_ERR_W2
    (BitVec.ofNat 64 e.w2)

/-- May an origin read set-up registers with loads: those of R637? -/
def setupReader : Origin → Bool
  | .selvage => true
  | .hypervisor => true
  | .safety => true
  | _ => false

/-- MEM_ERR_POP: an origin reads MEM_ERR_W0. -/
def execMemErrPop (o : Origin) (s : State) : Host.Outcome State Fault Refusal :=
  s.whenUp (fun s =>
    if setupReader o then
      let s1 := s.popMemErr
      s1.answer (.value (s1.reg Reg.MEM_ERR_W0).toNat)
    else s.refuseTo o)

end Sys2Proof.Machine
end

