-- ==== Sys2Proof/Machine/Darn.lean ====
section
/-! DEFINITION. Darning: the substitution of cores, channels and scratchpad rows, and the commands of SPARE_CMD
(R470 to R475, R487, R489). -/

namespace Sys2Proof.Machine

/-! ### Cores (R472, R473, R181) -/

/-- A job leaves the array at once: its pending outputs are discarded and it is re-queued (R472, R318). -/
def State.pullJob (s : State) (j : Job) : State :=
  if j.stage.flushed then
    let s1 := s.haltJob j
    match s1.job? j.ring j.seq with
    | some k => s1.requeue k
    | none => s1
  else if j.stage = .placed then s.unplace j
  else s

/-- A core holds no golden run and is due for none. -/
def State.clearTest (s : State) (n : Nat) : State :=
  let s1 := if (s.core n).test.isSome then (s.stopTest n).modCore n (fun c => { c with test := none }) else s
  { s1 with watch := { s1.watch with
      due := s1.watch.due.erase n
      opened := (s1.watch.opened.map (fun x => { x with cores := x.cores.erase n })).filter (fun x => !x.cores.isEmpty) } }

/-- A core is taken out of placement: what runs on it stops at once (R472), advance placements that name it are dropped (R299). -/
def State.evacuate (s : State) (n : Nat) : State :=
  let s1 := match s.jobOf n with
    | some j => s.pullJob j
    | none => s
  let s2 := (s1.clearTest n).modCore n (fun c => { c with withdrawn := true, scrubs := false })
  s2.checkReservations

/-- A logical core stays out of service, with the event ARY_SPARE_OUT (R181); a spare that served it serves it no more and is out of
service itself (R216). -/
def State.coreOut (s : State) (n : Nat) : State :=
  let k := s.physOf n - 128
  let s0 := if 128 ≤ s.physOf n then (s.setBit Reg.ARY_SPARE_STATE k false).setBit Reg.ARY_SPARE_STATE (8 + k) true else s
  (s0.setMode n 3).raise 5 0x0300 n

/-- The spare of a logical core's panel pair. -/
def spareOf (n : Nat) : Nat := n / 16

/-- Can the spare take a logical core: not darned in, not failed (R181, R470)? -/
def State.spareFree (s : State) (n : Nat) : Bool :=
  !s.regBit Reg.ARY_SPARE_STATE (spareOf n) && !s.regBit Reg.ARY_SPARE_STATE (8 + spareOf n) &&
  !s.darn.cores.any (fun d => d.spare == spareOf n)

/-- The darning of an evacuated core begins: BEGIN is journaled and the spare powered, or the core stays out of service
(R471, R473, R476). The second result is the STATUS code of R487. -/
def State.beginCore (s : State) (n : Nat) (jrnl : Bool) : State × Nat :=
  if !s.spareFree n then (s.coreOut n, 2)
  else
    let (s1, ok) := s.jBeginOp jCore n (spareOf n) 0 jrnl
    if ok then
      let s2 := s1.ask (s1.domainReq (175 + spareOf n))
      ({ s2 with darn := { s2.darn with cores := s2.darn.cores ++ [⟨n, spareOf n⟩] } }, 0)
    else (s1.coreOut n, 6)

/-- Does a darning of a core run? -/
def State.coreDarning (s : State) (n : Nat) : Bool := s.darn.cores.any (fun d => d.logical == n)

/-- A core darning is decided without request: with AUTO_CORE 0 the core only leaves service (R470, R487). -/
def State.darnCore (s : State) (n : Nat) (jrnl : Bool) : State :=
  if s.coreDarning n || s.coreMode n == 3 then s
  else
    let s1 := s.evacuate n
    if s1.bit Reg.SPARE_CTRL Fd.SPARE_CTRL_AUTO_CORE then (s1.beginCore n jrnl).1 else s1.coreOut n

/-- The old core's domain goes off and the spare serves the logical core, in compute mode with empty state (R473). -/
def State.coreSwap (s : State) (n k : Nat) : State :=
  let old := s.coreDomain n
  let s1 := ((s.setFld (Reg.ARY_CORE n) Fd.ARY_CORE_PHYS (128 + k)).setBit Reg.ARY_SPARE_STATE k true).setMode n 0
  let s2 := ((s1.setFld (Reg.ARY_CORE n) Fd.ARY_CORE_TENANT 0).setCore n {}).setReg (Reg.SAFE_COVER (128 + k)) (BitVec.ofNat 64 s.now)
  (s2.jSubstituted jCore n k).domainDown old

/-- The spare has run both golden patterns (R473). -/
def State.coreDarned (s : State) (n k : Nat) (pass : Bool) : State :=
  let s1 := { s with darn := { s.darn with cores := s.darn.cores.filter (fun d => d.logical != n) } }.alwDrop (.spare k)
  if pass then s1.coreSwap n k
  else (s1.setBit Reg.ARY_SPARE_STATE (8 + k) true).coreOut n

/-- CORE_DARN_DONE: the golden runs of the spare, which has power and holds the charge of a golden run (R83, R440), end; they pass, or the spare is marked FAILED (R473). -/
def execCoreDarnDone (core : Nat) (pass : Bool) (s : State) : Host.Outcome State Fault Refusal :=
  s.whenUp (fun s =>
    match s.darn.cores.find? (fun d => d.logical == core) with
    | none => s
    | some d => if s.domainOn (175 + d.spare) && s.holdsGrant (.spare d.spare) then (s.coreDarned core d.spare pass).conclude else s)

/-! ### Channels (R474) -/


/-- COPY_DIE and CHAN_DIE of SPARE_USED (R489). -/
def copyFld (die : Nat) : Fld := if die = 0 then Fd.SPARE_USED_COPY_DIE0 else Fd.SPARE_USED_COPY_DIE1
def chanFld (die : Nat) : Fld := if die = 0 then Fd.SPARE_USED_CHAN_DIE0 else Fd.SPARE_USED_CHAN_DIE1

/-- Does a live copy run on a die? -/
def State.dieBusy (s : State) (die : Nat) : Bool := s.darn.copies.any (fun c => c.old / 264 == die)

/-- A channel leaves the queue of those that wait for a copy. -/
def State.unwaitChan (s : State) (phys : Nat) : State :=
  { s with darn := { s.darn with chanWait := s.darn.chanWait.filter (fun c => c != phys) } }

/-- The darning of a channel begins: BEGIN, COPYING and a live copy; without a journal entry the channel stays as for a missing
spare (R474, R476). The second result is the STATUS code of R487. -/
def State.beginChan (s : State) (phys n sp : Nat) (jrnl : Bool) : State × Nat :=
  let (s1, ok) := (s.unwaitChan phys).jBeginOp jChannel phys sp 0 jrnl
  if ok then
    let s2 := (s1.setFld (Reg.MEM_CHMAP n) Fd.MEM_CHMAP_COPYING 1).setFld Reg.SPARE_USED (copyFld (phys / 264)) 1
    ({ s2 with darn := { s2.darn with copies := s2.darn.copies ++ [⟨n, phys, sp⟩] } }, 0)
  else (s1.raise 4 0x0100 phys, 6)

/-- CHANNEL_DARN: a channel that waits for its copy gets it, once its die has no other copy (R474). -/
def execChannelDarn (phys : Nat) (jrnl : Bool) (s : State) : Host.Outcome State Fault Refusal :=
  s.whenUp (fun s =>
    if s.darn.chanWait.contains phys && !s.dieBusy (phys / 264) then
      match s.logicalChan phys, s.freeChan (phys / 264) with
      | some n, some sp => (s.beginChan phys n sp jrnl).1
      | some _, none => (s.unwaitChan phys).raise 4 0x0100 phys
      | none, _ => s.unwaitChan phys
    else s)

/-- The copy ends: PHYS and COPYING change in one step, the DONE record follows (R474, R489). -/
def State.chanCopied (s : State) (c : ChanCopy) : State :=
  let die := c.old / 264
  let s1 := (s.setFld (Reg.MEM_CHMAP c.logical) Fd.MEM_CHMAP_PHYS c.spare).setFld (Reg.MEM_CHMAP c.logical) Fd.MEM_CHMAP_COPYING 0
  let s2 := (s1.setFld Reg.SPARE_USED (copyFld die) 0).setFld Reg.SPARE_USED (chanFld die) (s1.fld Reg.SPARE_USED (chanFld die) + 1)
  { s2 with darn := { s2.darn with
      copies := s2.darn.copies.filter (fun d => d.old != c.old)
      badChans := c.old :: s2.darn.badChans } }.jSubstituted jChannel c.old c.spare

/-- CHANNEL_COPY_DONE: the live copy of a channel ends. -/
def execChannelCopyDone (phys : Nat) (s : State) : Host.Outcome State Fault Refusal :=
  s.whenUp (fun s =>
    match s.darn.copies.find? (fun c => c.old == phys) with
    | none => s
    | some c => s.chanCopied c)

/-! ### Scratchpad rows (R191, R475) -/

/-- A scratchpad row as the journal names it: physical core, bank and row (R478). -/
def spRowName (r : SpRow) : Nat := (r.phys * 64 + r.bank) * 512 + r.row

/-- The bytes of a bank: offset[11:6] names it (R188). -/
def inBank (bank a : Nat) : Bool := a / 64 % 64 == bank

/-- A bank is cleared, and the residency tag with it (R475). -/
def Core.clearBank (c : Core) (bank : Nat) : Core :=
  let bytes := match c.fillSp with
    | none => c.sp.filter (fun x => !inBank bank x.1)
    | some _ => ((List.range (2 ^ 20)).filter (inBank bank)).foldl (fun m a => Sparse.put c.spBlank a (0 : Byte) m) c.sp
  { c with sp := bytes, resid := 0, resident := false, blockTag := c.blockTag.filter (fun x => !inBank bank x.1) }

/-- A lasting row leaves the list of those that wait. -/
def State.unwaitRow (s : State) (r : SpRow) : State :=
  { s with darn := { s.darn with spWait := s.darn.spWait.filter (fun x => x != r) } }

/-- The logical core that a physical core serves. -/
def State.logicalCore (s : State) (phys : Nat) : Option Nat := (List.range 128).find? (fun n => s.physOf n == phys)

/-- A lasting row is replaced by a spare row of its bank; with the four gone the core is darned (R191, R475). -/
def State.replaceSpRow (s : State) (n : Nat) (r : SpRow) (jrnl : Bool) : State :=
  let used := Sparse.get (fun _ => 0) (64 * r.phys + r.bank) s.darn.spUsed
  if 4 ≤ used then (s.unwaitRow r).darnCore n jrnl
  else
    let (s1, ok) := s.jBeginOp jSpRow (spRowName r) (spRowName { r with row := 256 + used }) 0 jrnl
    if ok then
      let s2 := (s1.unwaitRow r).modCore n (fun c => c.clearBank r.bank)
      { s2 with darn := { s2.darn with spUsed := Sparse.put (fun _ => 0) (64 * r.phys + r.bank) (used + 1) s2.darn.spUsed } }.jSubstituted
        jSpRow (spRowName r) (spRowName { r with row := 256 + used })
    else s1

/-- SP_ROW_REPLACE: a lasting scratchpad row is replaced while its core holds no job. -/
def execSpRowReplace (phys bank row : Nat) (jrnl : Bool) (s : State) : Host.Outcome State Fault Refusal :=
  s.whenUp (fun s =>
    match s.logicalCore phys with
    | none => s
    | some n =>
      if s.darn.spWait.contains ⟨phys, bank, row⟩ && (s.core n).job.isNone && (s.core n).test.isNone then
        (s.replaceSpRow n ⟨phys, bank, row⟩ jrnl).conclude
      else s)

/-! ### SPARE_CMD (R487) -/

/-- SPARE_CMD as a command register. -/
def spareCmd : CmdReg :=
  ⟨Reg.SPARE_CMD, Fd.SPARE_CMD_TARGET, Fd.SPARE_CMD_STATUS, [.selvage, .hypervisor], some 5, .register, some 1⟩

/-- DARN_CORE by command. -/
def State.cmdCore (s : State) (n : Nat) (jrnl : Bool) : State × Nat :=
  if 127 < n then (s, 7)
  else if s.coreDarning n then (s, 3)
  else if !s.spareFree n then (s, 2)
  else
    let r := (s.evacuate n).beginCore n jrnl
    (r.1.conclude, r.2)

/-- DARN_CORE: requests the darning of a logical core. -/
def execDarnCore (o : Origin) (target : Nat) (jrnl : Bool) (s : State) : Host.Outcome State Fault Refusal :=
  s.whenUp (fun s => s.command o spareCmd target (fun s => s.cmdCore (target % 1024) jrnl))

/-- DARN_CHANNEL by command; an unused spare is kept from use. -/
def State.cmdChan (s : State) (phys : Nat) (jrnl : Bool) : State × Nat :=
  if 527 < phys then (s, 7)
  else if s.darn.copies.any (fun c => c.old == phys) then (s, 3)
  else
    match s.logicalChan phys with
    | none => ({ s with darn := { s.darn with badChans := if s.darn.badChans.contains phys then s.darn.badChans else phys :: s.darn.badChans } }, 0)
    | some n =>
      match s.freeChan (phys / 264) with
      | none => (s, 2)
      | some sp =>
        if s.dieBusy (phys / 264) then
          ({ s with darn := { s.darn with chanWait := if s.darn.chanWait.contains phys then s.darn.chanWait else s.darn.chanWait ++ [phys] } }, 1)
        else s.beginChan phys n sp jrnl

/-- DARN_CHANNEL: requests the darning of a physical channel. -/
def execDarnChannel (o : Origin) (target : Nat) (jrnl : Bool) (s : State) : Host.Outcome State Fault Refusal :=
  s.whenUp (fun s => s.command o spareCmd target (fun s => s.cmdChan (target % 1024) jrnl))

end Sys2Proof.Machine
end

