-- ==== Sys2Proof/Machine/Conversion.lean ====
section
/-! DEFINITION. The conversion stages of the intake: unpacking of lines, crop, decimation, colour, normalisation, output format,
layout, stated error (R332, R333, R339 to R344, R356). -/

namespace Sys2Proof.Machine

/-! ### Source pictures (R332, R333, R340; the packing of lines is the source standard's, log 20) -/

/-- A source picture: IN_FMT, its size, and its component planes as received. -/
structure Pict where
  fmt    : Nat
  w      : Nat
  h      : Nat
  planes : List (List (List Nat))
  deriving DecidableEq, Repr

/-- The families of IN_FMT (R367). -/
def is420 (f : Nat) : Bool := f == 3 || f == 4
def is422 (f : Nat) : Bool := f == 5 || f == 6
def isYuv (f : Nat) : Bool := is420 f || is422 f
def isPcm (f : Nat) : Bool := f == 0x10 || f == 0x11 || f == 0x12

/-- Bits of a source component (R367). -/
def sourceBits : Nat → Nat
  | 0x01 => 10
  | 0x02 => 12
  | 0x04 => 10
  | 0x06 => 10
  | 0x10 => 16
  | 0x11 => 24
  | 0x12 => 32
  | _ => 8

/-- Cuts a list into groups of n. -/
def groups {α : Type} (n : Nat) : Nat → List α → List (List α)
  | 0, _ => []
  | k + 1, l => if l.isEmpty then [] else l.take n :: groups n k (l.drop n)

/-- A line of 10-bit components: four in five bytes, the low bits last. -/
def line10 (bs : List Byte) : Option (List Nat) :=
  if bs.length % 5 ≠ 0 then none
  else some ((groups 5 bs.length bs).flatMap (fun g =>
    let low := (g.getD 4 0).toNat
    (List.range 4).map (fun i => (g.getD i 0).toNat * 4 + low / 4 ^ i % 4)))

/-- A line of 12-bit components: two in three bytes, the low bits last. -/
def line12 (bs : List Byte) : Option (List Nat) :=
  if bs.length % 3 ≠ 0 then none
  else some ((groups 3 bs.length bs).flatMap (fun g =>
    let low := (g.getD 2 0).toNat
    [(g.getD 0 0).toNat * 16 + low % 16, (g.getD 1 0).toNat * 16 + low / 16]))

/-- A line's components in the order in which they were sent. -/
def lineComps (f : Nat) (bs : List Byte) : Option (List Nat) :=
  match sourceBits f with
  | 10 => line10 bs
  | 12 => line12 bs
  | 16 => if bs.length % 2 = 0 then some (bytesElems 16 (bs.length / 2) bs) else none
  | 24 => if bs.length % 3 = 0 then some (bytesElems 24 (bs.length / 3) bs) else none
  | 32 => if bs.length % 4 = 0 then some (bytesElems 32 (bs.length / 4) bs) else none
  | _ => some (bs.map (·.toNat))

/-- Every k-th element from i. -/
def everyNth (k i : Nat) (l : List Nat) : List Nat := (List.range ((l.length + k - 1 - i) / k)).map (fun j => l.getD (i + k * j) 0)

/-- The planes of a frame from its lines' components: luma and chroma for YUV, in which an even row of 4:2:0 carries both, R, G and B
from pixels sent as B, G, R, else one plane. -/
def planesOf (f : Nat) (rows : List (List Nat)) : List (List (List Nat)) :=
  if is422 f then [rows.map (everyNth 2 1), rows.map (everyNth 4 0), rows.map (everyNth 4 2)]
  else if is420 f then
    let odd := (rows.mapIdx (fun i r => (i, r))).filter (fun x => x.1 % 2 == 1)
    [rows.mapIdx (fun i r => if i % 2 = 0 then r else everyNth 2 1 r), odd.map (fun x => everyNth 4 0 x.2), odd.map (fun x => everyNth 4 2 x.2)]
  else if f = 7 then [rows.map (everyNth 3 2), rows.map (everyNth 3 1), rows.map (everyNth 3 0)]
  else [rows]

/-- The source picture of a frame's lines, none if its lines do not agree (R340). -/
def pictOf (f : Nat) (lines : List (List Byte)) : Option Pict :=
  match lines.mapM (lineComps f) with
  | none => none
  | some rows =>
    let p := planesOf f rows
    let w := ((p.headD []).headD []).length
    if (p.headD []).all (fun r => r.length == w) && (!isYuv f || w % 2 == 0) && (!is420 f || rows.length % 2 == 0) then some ⟨f, w, rows.length, p⟩
    else none

/-- One component at a pixel; chroma is brought to the luma grid by replication (R340). A pixel outside the frame is free. -/
def Pict.raw (p : Pict) (free c y x : Nat) : Nat :=
  let cy := if c = 0 ∨ !is420 p.fmt then y else y / 2
  let cx := if c = 0 ∨ !isYuv p.fmt then x else x / 2
  match (p.planes.getD c []).getD cy [] |>.drop cx |>.head? with
  | some v => v
  | none => Config.freeCell free (4 * (y * 65536 + x) + c) % 2 ^ sourceBits p.fmt

/-- The value of a component: signed for PCM (R333). -/
def Pict.value (p : Pict) (free c y x : Nat) : Num :=
  let r := p.raw free c y x
  if isPcm p.fmt then Num.ofInt (signedOf (sourceBits p.fmt) r) 0 else .fin false r 0

/-- The mean of a d × d box at an output pixel of a window (R340). -/
def Pict.box (p : Pict) (free c x0 y0 d y x : Nat) : Num :=
  let cells := (List.range (d * d)).map (fun i => p.value free c (y0 + y * d + i / d) (x0 + x * d + i % d))
  (treeSum cells).mul (.fin false 1 (-(Nat.log2 (d * d) : Int)))

/-! ### Exact fractions -/

/-- A fraction with a positive denominator. -/
structure Frac where
  num : Int
  den : Nat
  deriving DecidableEq, Repr

def Frac.add (a b : Frac) : Frac := ⟨a.num * b.den + b.num * a.den, a.den * b.den⟩
def Frac.mul (a b : Frac) : Frac := ⟨a.num * b.num, a.den * b.den⟩
def Frac.abs (a : Frac) : Frac := ⟨a.num.natAbs, a.den⟩
def Frac.le (a b : Frac) : Bool := decide (a.num * b.den ≤ b.num * a.den)
def Frac.max (a b : Frac) : Frac := if a.le b then b else a
def Frac.ofNat (n : Nat) : Frac := ⟨n, 1⟩

/-- A finite value as a fraction; 0 for the others. -/
def Frac.ofNum : Num → Frac
  | .fin a m e => ⟨sgn a (shl m e), 2 ^ (-e).toNat⟩
  | _ => ⟨0, 1⟩

/-- A value that every rounding of 60 bits or fewer treats as the fraction: 64 more bits and a sticky bit. -/
def Frac.toNum (a : Frac) : Num :=
  let k := 300 + Nat.log2 a.den
  let q := a.num.natAbs * 2 ^ k / a.den
  let rest := decide (a.num.natAbs * 2 ^ k % a.den ≠ 0)
  .fin (decide (a.num < 0)) (2 * q + rest.toNat) (-(k + 1 : Nat))

/-! ### Colour and normalisation (R341, R342) -/

/-- The rows of R341 in millionths: the factors of U′ and V′ for R, G and B. -/
def matrixRow : Nat → Nat → Int × Int
  | 1, 0 => (0, 1402000)
  | 1, 1 => (-344136, -714136)
  | 1, _ => (1772000, 0)
  | 2, 0 => (0, 1574800)
  | 2, 1 => (-187324, -468124)
  | 2, _ => (1855600, 0)
  | _, 0 => (0, 1474600)
  | _, 1 => (-164553, -571353)
  | _, _ => (1881400, 0)

/-- Offset and divisor of luma and of chroma at a bit depth (R341). -/
def lumaScale (b : Nat) (full : Bool) : Nat × Nat := if full then (0, 2 ^ b - 1) else (16 * 2 ^ (b - 8), 219 * 2 ^ (b - 8))
def chromaScale (b : Nat) (full : Bool) : Nat × Nat := if full then (2 ^ (b - 1), 2 ^ b - 1) else (128 * 2 ^ (b - 8), 224 * 2 ^ (b - 8))

/-- A component normalised by offset and divisor. -/
def normComp (s : Nat × Nat) (x : Num) : Frac := (Frac.add (Frac.ofNum x) ⟨-(s.1 : Int), 1⟩).mul ⟨1, s.2⟩

/-- Output channel c of the colour matrix (R341). -/
def matrixOut (m c b : Nat) (full : Bool) (y u v : Num) : Frac :=
  let r := matrixRow m c
  ((normComp (lumaScale b full) y).add ((normComp (chromaScale b full) u).mul ⟨r.1, 1000000⟩)).add
    ((normComp (chromaScale b full) v).mul ⟨r.2, 1000000⟩)

/-- A FP32 value within k × 2^-24 of an exact one, or 2^-126: which one is open (R344, R381). -/
def nearWithin (k free : Nat) (y : Frac) : Num :=
  match y.toNum with
  | .fin a m e =>
    if (f32 (.fin a m e)).isFin then ofFp32 (codeNear free ((Num.fin false (k * m) (e - 24)).add (.fin false 1 (-126))) a m e)
    else f32 (.fin a m e)
  | x => x

/-- The FP32 codes as integers in the order of their values: the least not below a value (up), or the greatest not above it. -/
def rankCode (up : Bool) (x : Num) : Int :=
  match x with
  | .fin a m e => if a then -(codeBound (!up) m e : Int) else (codeBound up m e : Int)
  | _ => 0

/-- A FP32 value within a tolerance of an exact finite one: which one is open. A subnormal is zero (R136). -/
def nearAbs (free : Nat) (tol y : Num) : Num :=
  let lo := max (-(fp32.top : Int)) (rankCode true (y.add tol.neg))
  let hi := min (fp32.top : Int) (rankCode false (y.add tol))
  let c := lo + ((free % (max 1 (hi + 1 - lo)).toNat : Nat) : Int)
  if c.natAbs < 2 ^ 23 then Num.zero else ofFp32 ((decide (c < 0)).toNat * 2 ^ 31 + c.natAbs)

/-- The error of colour conversion with normalisation (R344). -/
def nearFrac (free : Nat) (y : Frac) : Num := nearWithin 4 free y

/-- The settings of a conversion: IN_FMT, OUT_FMT, MATRIX, FULL_RANGE, PLANAR, output channels, OUT_SCALE, and MEAN and SCALE of each
output channel. -/
structure ConvSet where
  inFmt  : Nat
  outFmt : Nat
  matrix : Nat
  full   : Bool
  planar : Bool
  outCh  : Nat
  scale  : Nat
  norm   : List (Nat × Nat)
  deriving DecidableEq, Repr

/-- Does the colour matrix apply? -/
def ConvSet.colour (v : ConvSet) : Bool := v.matrix != 0 && isYuv v.inFmt

/-- Source components before normalisation. -/
def ConvSet.comps (v : ConvSet) : Nat := if isYuv v.inFmt || v.inFmt == 7 then 3 else 1

def ConvSet.mean (v : ConvSet) (c : Nat) : Num := ofFp32 (v.norm.getD c (0, 0)).1
def ConvSet.gain (v : ConvSet) (c : Nat) : Num := ofFp32 (v.norm.getD c (0, 0)).2

/-- The normalised value of output channel c at an output pixel (R339 to R342). A channel that the source does not have is free. -/
def ConvSet.out (v : ConvSet) (p : Pict) (free x0 y0 d y x c : Nat) : Num :=
  let cell := 8 * (y * 65536 + x) + c
  if v.comps ≤ c then ofFp32 (Config.freeCell (free + 1) cell % 2 ^ 32)
  else if v.colour then
    let e := matrixOut v.matrix c (sourceBits v.inFmt) v.full (p.box free 0 x0 y0 d y x) (p.box free 1 x0 y0 d y x) (p.box free 2 x0 y0 d y x)
    if (v.mean c).isFin ∧ (v.gain c).isFin then
      nearFrac (Config.freeCell (free + 1) cell) ((e.add (Frac.ofNum (v.mean c).neg)).mul (Frac.ofNum (v.gain c)))
    else f32 ((f32 (e.toNum.add (v.mean c).neg)).mul (v.gain c))
  else f32 ((f32 ((p.box free c x0 y0 d y x).add (v.mean c).neg)).mul (v.gain c))

/-- The quotient of a value and the tensor scale, to be rounded once (R131, R342). -/
def quotient (x s : Num) : Num :=
  match x, s with
  | .fin a m e, .fin b n f =>
    if n = 0 then (if m = 0 then .nan else .inf (a != b))
    else
      let q := Frac.toNum ⟨m, n⟩
      match q with
      | .fin _ k g => .fin (a != b) k (g + e - f)
      | y => y
  | .fin a _ _, .inf _ => .fin a 0 0
  | .inf a, .fin b _ _ => .inf (a != b)
  | _, _ => .nan

/-- One pixel in the output format: element codes, the scale byte of an MX block, the saturation mark (R342). -/
def ConvSet.pixel (v : ConvSet) (xs : List Num) : List Nat × Nat × Bool :=
  if isMx v.outFmt then
    let r := mxQuantise v.outFmt (xs ++ List.replicate (32 - xs.length) Num.zero)
    (r.2.1, r.1, r.2.2)
  else
    let cs := xs.map (fun x => elemCode v.outFmt (if v.outFmt = 2 then quotient x (ofFp32 v.scale) else x))
    (cs.map (·.1), 0, cs.any (·.2))

/-! ### Layout (R219, R335, R343, R345) -/

/-- A converted sample: its rows as stored, each without its row padding, the scale bytes, the saturation mark. -/
structure Laid where
  rows : List (List Byte)
  scales : List Byte := []
  sat  : Bool := false
  deriving DecidableEq, Repr

/-- Bytes padded with zeros to a length. -/
def padTo (n : Nat) (bs : List Byte) : List Byte := bs ++ List.replicate (n - bs.length) 0

/-- The bytes of a sample's element storage: each row starts on 64 B. -/
def Laid.size (l : Laid) : Nat := (l.rows.map (fun r => ceilDiv r.length 64 * 64)).sum

/-- The payload of a seal (R345). -/
def Laid.payload (l : Laid) : List Byte := l.rows.flatten ++ l.scales

/-- Converts an output window of w × h pixels from (x0, y0) at decimation d to the output format (R339, R342, R343). -/
def ConvSet.convert (v : ConvSet) (p : Pict) (free x0 y0 d w h : Nat) : Laid :=
  let px := (List.range h).map (fun y => (List.range w).map (fun x =>
    v.pixel ((List.range v.outCh).map (fun c => v.out p free x0 y0 d y x c))))
  let bits := formatBits v.outFmt
  let pitch := pixelPitch v.outFmt bits v.outCh
  let rows : List (List Byte) :=
    if v.planar then (List.range v.outCh).flatMap (fun c => px.map (fun r => elemBytes bits (r.map (fun q => q.1.getD c 0))))
    else px.map (fun r => r.flatMap (fun q => padTo pitch (elemBytes bits q.1)))
  { rows := rows
    scales := if isMx v.outFmt then px.flatMap (fun r => r.map (fun q => BitVec.ofNat 8 q.2.1)) else []
    sat := px.any (fun r => r.any (fun q => q.2.2)) }

/-- The element width of a pass-through sample: 8 or 16 bits, 24 or 32 for PCM (R343; log 21). -/
def passBits (f : Nat) : Nat := if f = 0x11 then 24 else if f = 0x12 then 32 else if sourceBits f = 8 then 8 else 16

/-- A cropped plane of a source picture. -/
def Pict.plane (p : Pict) (free c x0 y0 w h : Nat) : List (List Byte) :=
  let sy := if c = 0 ∨ !is420 p.fmt then 1 else 2
  let sx := if c = 0 ∨ !isYuv p.fmt then 1 else 2
  (List.range (h / sy)).map (fun y => elemBytes (passBits p.fmt) ((List.range (w / sx)).map (fun x => p.raw free c (y0 + y * sy) (x0 + x * sx))))

/-- Pass-through: the source samples as planar YUV or packed RGB; PLANAR splits RGB too (R343). A reduced crop has no stated content. -/
def ConvSet.passThrough (v : ConvSet) (p : Pict) (free x0 y0 d w h : Nat) : Laid :=
  if d ≠ 1 then
    { rows := (List.range h).map (fun y => (List.range (w * v.comps)).map (fun x => BitVec.ofNat 8 (Config.freeCell free (y * 65536 + x)))) }
  else if p.fmt = 7 ∧ !v.planar then
    { rows := (List.range h).map (fun y => (List.range w).flatMap (fun x => (List.range 3).map (fun c => BitVec.ofNat 8 (p.raw free c (y0 + y) (x0 + x))))) }
  else { rows := (List.range v.comps).flatMap (fun c => p.plane free c x0 y0 w h) }

/-- A window of a source picture as the channel's output. -/
def ConvSet.run (v : ConvSet) (p : Pict) (free x0 y0 d w h : Nat) : Laid :=
  if v.outFmt = 0 then v.passThrough p free x0 y0 d w h else v.convert p free x0 y0 d w h

/-- The element storage and scale bytes of one sample of h × w output pixels, known before any data. -/
def ConvSet.sampleBytes (v : ConvSet) (w h : Nat) : Nat :=
  if v.outFmt = 0 then
    let line := fun (n : Nat) => ceilDiv (n * passBits v.inFmt / 8) 64 * 64
    if v.inFmt = 7 ∧ !v.planar then h * (ceilDiv (3 * w) 64 * 64)
    else if is420 v.inFmt then h * line w + 2 * (h / 2) * line (w / 2)
    else if is422 v.inFmt then h * line w + 2 * h * line (w / 2)
    else v.comps * h * line w
  else
    let bits := formatBits v.outFmt
    if v.planar then v.outCh * h * (ceilDiv (ceilDiv (w * bits) 8) 64 * 64)
    else h * (ceilDiv (w * pixelPitch v.outFmt bits v.outCh) 64 * 64)

def ConvSet.scaleBytes (v : ConvSet) (w h : Nat) : Nat := if isMx v.outFmt then h * w else 0

/-- The bytes of a tensor of n samples: element array, and for MX formats the scale array on the next 64 B (R130; log 22). -/
def ConvSet.tensorBytes (v : ConvSet) (n w h : Nat) : Nat := n * v.sampleBytes w h + n * v.scaleBytes w h

/-! ### Stated error (R344, R146, R149, R150) -/

/-- Own error of the conversion to an output format on values of magnitude M: r_op and a_op (R146). -/
def convError (fmt scale : Nat) (m : Frac) : Frac × Frac :=
  match fmt with
  | 2 => (⟨0, 1⟩, (Frac.ofNum (ofFp32 scale)).abs.mul ⟨1, 2⟩)
  | 5 => (⟨1, 2 ^ 4⟩, m.mul ⟨1, 2 ^ 17⟩)
  | 6 => (⟨1, 2 ^ 3⟩, m.mul ⟨1, 2 ^ 31⟩)
  | 7 => (⟨1, 2 ^ 11⟩, ⟨1, 2 ^ 25⟩)
  | _ => (⟨1, 2 ^ 8⟩, ⟨1, 2 ^ 126⟩)

/-- The largest magnitude that a range [lo, hi] reaches after (x − mean) × gain. -/
def rangeTop (lo hi mean gain : Frac) : Frac :=
  let f := fun (x : Frac) => ((x.add ⟨-mean.num, mean.den⟩).mul gain).abs
  (f lo).max (f hi)

/-- For output channel c: the largest magnitude of the normalised value, and the error that decimation by d brings to it. -/
def ConvSet.channelBound (v : ConvSet) (d c : Nat) : Frac × Frac :=
  let b := sourceBits v.inFmt
  let top : Frac := ⟨(2 ^ b - 1 : Nat), 1⟩
  let mean := Frac.ofNum (v.mean c)
  let gain := Frac.ofNum (v.gain c)
  let rDec : Frac := if d = 1 then ⟨0, 1⟩ else ⟨(1 + Nat.log2 (d * d) : Nat), 2 ^ 24⟩
  if v.colour then
    let r := matrixRow v.matrix c
    let l := lumaScale b v.full
    let k := chromaScale b v.full
    let y : Frac × Frac := (normComp l (.fin false 0 0), normComp l (.fin false (2 ^ b - 1) 0))
    let u := (normComp k (.fin false 0 0)).abs.max (normComp k (.fin false (2 ^ b - 1) 0)).abs
    let w : Frac := u.mul ⟨(r.1.natAbs + r.2.natAbs : Nat), 1000000⟩
    let g : Frac := (Frac.add ⟨1, l.2⟩ ⟨(r.1.natAbs + r.2.natAbs : Nat), 1000000 * k.2⟩).mul gain.abs
    (rangeTop (y.1.add ⟨-w.num, w.den⟩) (y.2.add w) mean gain, (g.mul (rDec.mul top)))
  else
    let lo : Frac := if isPcm v.inFmt then ⟨-(2 ^ (b - 1) : Nat), 1⟩ else ⟨0, 1⟩
    let hi : Frac := if isPcm v.inFmt then ⟨(2 ^ (b - 1) : Nat), 1⟩ else top
    (rangeTop lo hi mean gain, gain.abs.mul (rDec.mul hi))

/-- ABS and REL of one output channel (R150): decimation, then colour and normalisation, then the conversion. -/
def ConvSet.channelTol (v : ConvSet) (d c : Nat) : Frac × Frac :=
  let b := v.channelBound d c
  let one : Frac := ⟨1, 1⟩
  let rN : Frac := ⟨4, 2 ^ 24⟩
  let aN := ((one.add rN).mul b.2).add ⟨1, 2 ^ 126⟩
  let e := aN.add (rN.mul b.1)
  let o := convError v.outFmt v.scale b.1
  (((one.add o.1).mul e).add o.2, o.1)

/-- The tolerance word of a sample tensor, ABS and REL rounded up; pass-through carries 0 (R142, R344). -/
def ConvSet.tol (v : ConvSet) (d : Nat) (sat : Bool) : Nat :=
  if v.outFmt = 0 then 0
  else
    let ts := (List.range v.outCh).map (fun c => v.channelTol d c)
    let a := ts.foldl (fun x t => x.max t.1) ⟨0, 1⟩
    let r := ts.foldl (fun x t => x.max t.2) ⟨0, 1⟩
    let code := fun (f : Frac) => toFp32 (roundUp f.num.natAbs f.den 0) % 2 ^ 31
    sat.toNat * 2 ^ 63 + code a * 2 ^ 32 + code r

end Sys2Proof.Machine
end

