-- ==== Sys2Proof/Machine/Intake.lean ====
section
/-! DEFINITION. The intake: sequence numbers, late samples, regions, delivery, and the commands of CSI-2 and TDM sources (R331 to
R371). -/

namespace Sys2Proof.Machine

/-! ### Channels -/

def channelCount : Nat := 16

def State.chan (s : State) (n : Nat) : Chan := Sparse.get (fun _ => {}) n s.chans
def State.setChan (s : State) (n : Nat) (c : Chan) : State := { s with chans := Sparse.put (fun _ => {}) n c s.chans }
def State.modChan (s : State) (n : Nat) (f : Chan → Chan) : State := s.setChan n (f (s.chan n))

/-- A field of CH_SRC. -/
def State.chSrc (s : State) (n : Nat) (f : Fld) : Nat := s.fld (Reg.CH_SRC n) f

/-- Does a channel run: EN is 1 and its charge is granted (R363)? -/
def State.chanOn (s : State) (n : Nat) : Bool := s.bit (Reg.CH_SRC n) Fd.CH_SRC_EN && s.holdsGrant (.channel n)

/-- The running channels with a source kind and unit. -/
def State.chansOf (s : State) (kind unit : Nat) : List Nat :=
  (List.range channelCount).filter (fun n => s.chanOn n && s.chSrc n Fd.CH_SRC_KIND == kind && s.chSrc n Fd.CH_SRC_UNIT == unit)

/-- BATCH and NBUF of a channel (R335, R366, R369). -/
def State.chBatch (s : State) (n : Nat) : Nat := s.chSrc n Fd.CH_SRC_BATCH + 1
def State.chNbuf (s : State) (n : Nat) : Nat := s.fld (Reg.CH_BUF0 n) Fd.CH_BUF0_NBUF + 1

/-- Is a channel unordered (R352)? -/
def State.unordered (s : State) (n : Nat) : Bool := s.bit (Reg.CH_SRC n) Fd.CH_SRC_UNORD

/-- Is a channel linked to its trigger pin: a CSI-2 or TDM source with TRIG_EN (R348)? -/
def State.triggered (s : State) (n : Nat) : Bool := s.bit (Reg.CH_SRC n) Fd.CH_SRC_TRIG_EN && decide (s.chSrc n Fd.CH_SRC_KIND ≤ 1)

/-- The conversion settings of a channel (R367, R370). -/
def State.convSet (s : State) (n : Nat) : ConvSet :=
  let f := fun (x : Fld) => s.fld (Reg.CH_FMT n) x
  { inFmt := f Fd.CH_FMT_IN_FMT
    outFmt := f Fd.CH_FMT_OUT_FMT
    matrix := f Fd.CH_FMT_MATRIX
    full := f Fd.CH_FMT_FULL_RANGE == 1
    planar := f Fd.CH_FMT_PLANAR == 1
    outCh := f Fd.CH_FMT_OUT_CH + 1
    scale := f Fd.CH_FMT_OUT_SCALE
    norm := (List.range 8).map (fun k => (s.fld (Reg.CH_NORM n k) Fd.CH_NORM_MEAN, s.fld (Reg.CH_NORM n k) Fd.CH_NORM_SCALE)) }

/-- The decimation of a channel; pass-through has none (R343, R367). -/
def State.chDecim (s : State) (n : Nat) : Nat :=
  if (s.convSet n).outFmt = 0 then 1 else 2 ^ min 2 (s.fld (Reg.CH_FMT n) Fd.CH_FMT_DECIM)

/-- The window of a source frame of w × h pixels that a channel takes: origin and size in source pixels, none where it does not fit
(R340). For TDM the whole block is taken. -/
def State.cropWindow (s : State) (n w h : Nat) : Option (Nat × Nat × Nat × Nat) :=
  let f := fun (x : Fld) => s.fld (Reg.CH_CROP n) x
  let d := s.chDecim n
  let cw := f Fd.CH_CROP_W
  if s.chSrc n Fd.CH_SRC_KIND = 1 then some (0, 0, w / d * d, h / d * d)
  else if cw = 0 then (if w % d = 0 ∧ h % d = 0 ∧ 0 < w ∧ 0 < h then some (0, 0, w, h) else none)
  else
    let x := f Fd.CH_CROP_X0
    let y := f Fd.CH_CROP_Y0
    let ch := f Fd.CH_CROP_H
    if x + cw ≤ w ∧ y + ch ≤ h ∧ x % 2 = 0 ∧ y % 2 = 0 ∧ cw % 2 = 0 ∧ ch % 2 = 0 ∧ cw % d = 0 ∧ ch % d = 0 ∧ 0 < ch then some (x, y, cw, ch)
    else none

/-- Bytes of a buffer slot. -/
def State.slotSize (s : State) (n : Nat) : Nat := s.fld (Reg.CH_BUF1 n) Fd.CH_BUF1_SLOT_4K * 4096

/-! ### Sequence numbers and slots (R335, R338, R348) -/

/-- Is the slot of sequence number q free (R338)? -/
def State.slotFree (s : State) (n q : Nat) : Bool :=
  !s.bit (Reg.CH_KNOT n) Fd.CH_KNOT_REL_EN ||
    decide (q / s.chBatch n + 1 ≤ s.knot (s.fld (Reg.CH_KNOT n) Fd.CH_KNOT_REL_KNOT) + s.chNbuf n)

/-- Assigns the next sequence number, if its slot is free. -/
def State.assignQ (s : State) (n : Nat) (firing : Option Nat) : State × Option Nat :=
  let c := s.chan n
  if s.slotFree n c.nextQ then
    let m : Sample := { q := c.nextQ, sid := c.nextQ % 2 ^ 32, firing := firing, lastData := s.now }
    (s.setChan n { c with nextQ := c.nextQ + 1, samples := c.samples ++ [m] }, some c.nextQ)
  else (s, none)

/-- An open sample. -/
def Chan.open? (c : Chan) (q : Nat) : Option Sample := c.samples.find? (fun m => m.q == q && m.done.isNone)

/-- Changes an open sample. -/
def Chan.modSample (c : Chan) (q : Nat) (f : Sample → Sample) : Chan :=
  { c with samples := updWhere (fun m => m.q == q) f c.samples }

/-- A tack firing on an FSYNC pin reaches the channels linked to it (R348). -/
def State.trigger (s : State) (pin : Nat) : State :=
  ((List.range channelCount).filter (fun n => s.chanOn n && s.triggered n && s.chSrc n Fd.CH_SRC_TRIG_PIN == pin)).foldl
    (fun a n =>
      let (a1, q) := a.assignQ n (some a.now)
      a1.modChan n (fun c => { c with firings := c.firings ++ [⟨a.now, q⟩] })) s

/-- PERIOD_US and the late budget, in ns (R350, R368). -/
def State.periodNs (s : State) (n : Nat) : Nat := 1000 * s.fld (Reg.CH_TIMING n) Fd.CH_TIMING_PERIOD_US
def State.lateNs (s : State) (n : Nat) : Nat :=
  let l := s.fld (Reg.CH_TIMING n) Fd.CH_TIMING_LATE_US
  if l = 0 then 2 * s.periodNs n else 1000 * l

/-! ### Regions (R354, R355) -/

/-- The region set for a sample that starts with a TIME: a pending set with a record before it comes into force, otherwise the set in
force is held for REGION_HOLD frames. -/
def State.takeRegions (s : State) (n time : Nat) : State × List (List Byte) × Bool :=
  let p := s.regionSet n
  let new := p.filter (fun r => r.1 < time)
  let c := s.chan n
  if new.isEmpty then
    let k := c.heldFor + 1
    (s.setChan n { c with heldFor := k }, if s.fld (Reg.CH_TIMING n) Fd.CH_TIMING_REGION_HOLD < k then [] else c.force, true)
  else
    let s1 := { s with regions := Sparse.put (fun _ => []) n (p.filter (fun r => !decide (r.1 < time))) s.regions }
    (s1.setChan n { c with heldFor := 0, force := new.map (·.2) }, new.map (·.2), false)

/-- The sample with number q starts: TIME, the region set in force, the camera's frame number (R346, R347, R354). -/
def State.beginSample (s : State) (n q time fc : Nat) (gap : Bool) : State :=
  let (s1, r, held) := s.takeRegions n time
  s1.modChan n (fun c =>
    let c1 := c.modSample q (fun m => { m with started := true, time := time, lastData := s.now, regions := r, held := held, camFc := fc, gap := gap })
    { c1 with cur := some q, ghost := false })

/-- A start on a live channel: the oldest open firing of a trigger-linked channel, a new number on any other; a start that matches no
firing is unexpected, one with no free slot is discarded whole (R338, R348, R350). -/
def State.liveStart (s : State) (n fc : Nat) (gap : Bool) : State :=
  let s0 := s.modChan n (fun c => { c with cur := none, ghost := false })
  if s0.triggered n then
    let c := s0.chan n
    match c.firings.filter (fun f => s.now < f.time + s.periodNs n) with
    | [] => (s0.setChan n { c with firings := [] }).bump (Reg.CH_UNEXPECTED n) n
    | f :: rest =>
      let s1 := s0.setChan n { c with firings := rest }
      match f.q with
      | none => s1.bump (Reg.CH_OVERRUN n) n
      | some q => if (c.open? q).isSome then s1.beginSample n q s.now fc gap else s1.bump (Reg.CH_LATE_DROP n) n
  else
    let (s1, q) := s0.assignQ n none
    match q with
    | none => s1.bump (Reg.CH_OVERRUN n) n
    | some q => s1.beginSample n q s.now fc gap

/-! ### Delivery (R335 to R337, R345, R351, R353, R357) -/

/-- Addresses of a slot's data and control block (R335). -/
def State.slotData (s : State) (n k : Nat) : Nat := s.fld (Reg.CH_BUF0 n) Fd.CH_BUF0_DATA_BASE * 64 + k * s.slotSize n
def State.slotCtl (s : State) (n k : Nat) : Nat := s.fld (Reg.CH_BUF1 n) Fd.CH_BUF1_CTL_BASE * 8192 + 8192 * k

/-- The DECIM code of a factor (R345). -/
def decimCode (d : Nat) : Nat := if d = 1 then 0 else if d = 2 then 1 else 2

/-- A seal (R345): CRC, STATUS and FLAGS, payload length, crop origin, decimation. -/
def sealOf (n : Nat) (m : Sample) (crc status flags size rx ry d : Nat) : List Byte :=
  leBytes 8 m.time ++ leBytes 8 (crc * 2 ^ 32 + m.q % 65536 * 65536 + status * 256 + flags) ++
    leBytes 8 (m.sid % 2 ^ 32 * 2 ^ 32 + size % 2 ^ 32) ++
    leBytes 8 (rx % 65536 * 2 ^ 48 + ry % 65536 * 2 ^ 32 + m.camFc % 65536 * 65536 + n * 4096 + decimCode d * 1024)

/-- FLAGS of a frame's seal: bit 2, a gap in the camera's frame numbers. -/
def gapFlag (m : Sample) : Nat := 4 * m.gap.toNat

/-- A sample tensor's descriptor (R262, R336). -/
def State.sampleDesc (s : State) (v : ConvSet) (addr count w h pitch aux sealAddr tol : Nat) : List Byte :=
  let g := fun (a : Nat) => s.ownDev * 2 ^ 48 + a
  leBytes 8 (g addr) ++ leBytes 8 (count * 2 ^ 48 + h % 65536 * 2 ^ 32 + w % 65536 * 65536 + v.outCh) ++
    leBytes 8 (v.outFmt * 2 ^ 56 + 2 ^ 51 + pitch / 64) ++ leBytes 8 (if isMx v.outFmt then g aux else 0) ++
    leBytes 8 (if v.outFmt = 2 then v.scale else 0) ++ leBytes 8 0 ++ leBytes 8 (g sealAddr) ++ leBytes 8 tol

/-- Writes a sample's rows, each on 64 B, and its scales. -/
def State.storeRows (s : State) : Nat → List (List Byte) → State
  | _, [] => s
  | a, r :: l => State.storeRows (s.store a r) (a + ceilDiv r.length 64 * 64) l

/-- The rows of a void sample: unspecified contents (R351). -/
def freeRows (free size : Nat) : List (List Byte) :=
  (List.range (size / 64)).map (fun i => (List.range 64).map (fun j => BitVec.ofNat 8 (Config.freeCell free (64 * i + j))))

/-- The source picture of a completed sample. -/
def State.samplePict (s : State) (n : Nat) (m : Sample) : Option Pict := pictOf (s.convSet n).inFmt m.lines

/-- Rows and columns of a channel's output frame, from the size of its latest source frame, or the crop that is set. -/
def State.outDims (s : State) (n : Nat) : Nat × Nat :=
  let f := fun (x : Fld) => s.fld (Reg.CH_CROP n) x
  let d := s.chDecim n
  if s.chSrc n Fd.CH_SRC_KIND = 1 then
    (max 1 (f Fd.CH_CROP_H) / d, ((List.range 16).filter (fun i => s.chSrc n Fd.CH_SRC_SLOTS / 2 ^ i % 2 == 1)).length / d)
  else if f Fd.CH_CROP_W = 0 then ((s.chan n).dims.1 / d, (s.chan n).dims.2 / d)
  else (f Fd.CH_CROP_H / d, f Fd.CH_CROP_W / d)

/-- One frame of a slot: data at position i of the batch, then its seal. The answer says whether a conversion saturated. -/
def State.putFrame (s : State) (n k i : Nat) (m : Sample) : State × Bool :=
  let v := s.convSet n
  let (h, w) := s.outDims n
  let size := v.sampleBytes w h
  let sc := v.scaleBytes w h
  let data := s.slotData n k + i * size
  let scAt := s.slotData n k + s.chBatch n * size + i * sc
  let d := s.chDecim n
  let (f, s1) := s.takeFree
  let (_, s2) := s1.takeFree
  let sealAt := s.slotCtl n k + 0x200 + 32 * i
  match m.status, s.samplePict n m with
  | 0, some p =>
    match s.cropWindow n p.w p.h with
    | some (x, y, cw, ch) =>
      let l := v.run p s.free x y d (cw / d) (ch / d)
      let s3 := (s2.storeRows data l.rows).store scAt l.scales
      (s3.store sealAt (sealOf n m (crc32c l.payload) 0 (gapFlag m) l.payload.length 0 0 d), l.sat)
    | none => (s2, false)
  | st, _ =>
    let s3 := (s2.storeRows data (freeRows s.free size)).bump (Reg.CH_VOID n) n
    (s3.store sealAt (sealOf n m 0 st (gapFlag m) (f % 2 ^ 32) 0 0 d), false)

/-- A field of a region record (R248). -/
def recField (r : List Byte) (i : Nat) : Nat := ofLe ((r.drop i).take 2)

/-- The crop output that takes a region record: the first enabled one that claims its class (R356). -/
def State.roiOf (s : State) (n : Nat) (r : List Byte) : Option Nat :=
  (List.range 4).find? (fun k => s.bit (Reg.CH_ROI_A n k) Fd.CH_ROI_A_EN && decide (recField r 8 < 32) &&
    s.fld (Reg.CH_ROI_A n k) Fd.CH_ROI_A_CLASS_MASK / 2 ^ recField r 8 % 2 == 1)

/-- Records in rank order, ties in order of arrival. -/
def insertRank (r : List Byte) : List (List Byte) → List (List Byte)
  | [] => [r]
  | x :: l => if (r.getD 10 0).toNat < (x.getD 10 0).toNat then r :: x :: l else x :: insertRank r l

/-- A crop window's origin on one axis: centred, down to an even coordinate, then inside the frame (R356). -/
def cropOrigin (x w win frame : Nat) : Nat :=
  let o : Int := 2 * (((2 * x + w : Nat) - (win : Int)) / 4)
  (max 0 (min o ((frame : Int) - win))).toNat

/-- The decimation of a crop: the smallest factor whose window covers the region, and whether none does (R356). -/
def cropDecim (ww wh w h : Nat) : Nat × Bool :=
  match [1, 2, 4].find? (fun d => decide (w ≤ ww * d) && decide (h ≤ wh * d)) with
  | some d => (d, false)
  | none => (4, true)

/-- Crop slot j of output k, with its record if it has one: data, then its seal (R356, R357). -/
def State.putCrop (s : State) (n k roi j first : Nat) (m : Sample) (rec : Option (List Byte)) : State × Bool :=
  let v := s.convSet n
  let ww := s.fld (Reg.CH_ROI_A n roi) Fd.CH_ROI_A_WIN_W
  let wh := s.fld (Reg.CH_ROI_A n roi) Fd.CH_ROI_A_WIN_H
  let slots := s.fld (Reg.CH_ROI_A n roi) Fd.CH_ROI_A_SLOTS
  let size := v.sampleBytes ww wh
  let base := s.slotData n k + s.fld (Reg.CH_ROI_B n roi) Fd.CH_ROI_B_OFF * 64
  let scAt := base + slots * size + j * v.scaleBytes ww wh
  let sealAt := s.slotCtl n k + 0xA00 + 32 * (first + j)
  let (f, s1) := s.takeFree
  let (_, s2) := s1.takeFree
  match m.status, rec, s.samplePict n m with
  | 0, some r, some p =>
    let (d, cut) := cropDecim ww wh (recField r 4) (recField r 6)
    let x := cropOrigin (recField r 0) (recField r 4) (ww * d) p.w
    let y := cropOrigin (recField r 2) (recField r 6) (wh * d) p.h
    let l := v.run p s.free x y d ww wh
    let s3 := (s2.storeRows (base + j * size) l.rows).store scAt l.scales
    let flags := 1 + 2 * cut.toNat + gapFlag m + 8 * m.held.toNat
    (s3.store sealAt (sealOf n m (crc32c l.payload) 0 flags l.payload.length x y d), l.sat)
  | st, _, _ =>
    let s3 := (s2.storeRows (base + j * size) (freeRows s.free size)).bump (Reg.CH_VOID n) n
    (s3.store sealAt (sealOf n { m with time := m.anchor } 0 (if st = 0 then 7 else st) (1 + gapFlag m) (f % 2 ^ 32) 0 0 1), false)

/-- Crop slots before an output's own. -/
def State.cropsBefore (s : State) (n roi : Nat) : Nat :=
  ((List.range roi).map (fun k => if s.bit (Reg.CH_ROI_A n k) Fd.CH_ROI_A_EN then s.fld (Reg.CH_ROI_A n k) Fd.CH_ROI_A_SLOTS else 0)).sum

/-- A crop output of a slot: its slots in rank order, then its descriptor. -/
def State.putRoi (s : State) (n k roi : Nat) (m : Sample) : State :=
  if s.bit (Reg.CH_ROI_A n roi) Fd.CH_ROI_A_EN then
    let recs := (m.regions.filter (fun r => s.roiOf n r == some roi)).foldl (fun l r => insertRank r l) []
    let slots := s.fld (Reg.CH_ROI_A n roi) Fd.CH_ROI_A_SLOTS
    let first := s.cropsBefore n roi
    let (s1, sat) := (List.range slots).foldl (fun (a, b) j => let r := a.putCrop n k roi j first m recs[j]?; (r.1, b || r.2)) (s, false)
    let v := s.convSet n
    let ww := s.fld (Reg.CH_ROI_A n roi) Fd.CH_ROI_A_WIN_W
    let wh := s.fld (Reg.CH_ROI_A n roi) Fd.CH_ROI_A_WIN_H
    let base := s.slotData n k + s.fld (Reg.CH_ROI_B n roi) Fd.CH_ROI_B_OFF * 64
    let size := v.sampleBytes ww wh
    s1.store (s.slotCtl n k + 0x40 + 0x40 * roi)
      (s.sampleDesc v base slots ww wh size (base + slots * size) (s.slotCtl n k + 0xA00 + 32 * first) (v.tol 4 sat))
  else s

/-- Delivers one slot: data and seals of its samples and crops, the descriptors, then the sample knot (R337). -/
def State.deliverSlot (s : State) (n place : Nat) (ms : List Sample) : State :=
  let k := place / s.chBatch n % s.chNbuf n
  let (s1, sat, _) := ms.foldl (fun (a, b, i) m => let r := a.putFrame n k i m; (r.1, b || r.2, i + 1)) (s, false, 0)
  let s2 := ms.foldl (fun a m => (List.range 4).foldl (fun b roi => b.putRoi n k roi m) a) s1
  let v := s.convSet n
  let (h, w) := s.outDims n
  let size := v.sampleBytes w h
  let data := s.slotData n k
  let s3 := s2.store (s.slotCtl n k)
    (s.sampleDesc v data (s.chBatch n) w h size (data + s.chBatch n * size) (s.slotCtl n k + 0x200) (v.tol (s.chDecim n) sat))
  let knot := s.fld (Reg.CH_KNOT n) Fd.CH_KNOT_SAMPLE_KNOT
  let s4 := s3.addReg (Reg.CH_DELIVERED n) ms.length
  if s.unordered n then s4.knotAdd knot ms.length else s4.knotSet knot (place + s.chBatch n)

/-- Delivers every slot that is ready: on a strict channel the next in order, on an unordered one BATCH completed samples (R349,
R352). -/
def State.deliverReady : Nat → State → Nat → State
  | 0, s, _ => s
  | fuel + 1, s, n =>
    let c := s.chan n
    let b := s.chBatch n
    let ms := if s.unordered n then c.ready.take b
      else (List.range b).filterMap (fun i => c.samples.find? (fun m => m.q == c.place + i && m.done.isSome))
    if ms.length < b then s
    else
      let c1 : Chan := { c with
        place := c.place + b
        ready := if s.unordered n then c.ready.drop b else c.ready
        samples := if s.unordered n then c.samples else c.samples.filter (fun m => !decide (m.q < c.place + b)) }
      State.deliverReady fuel ((s.setChan n c1).deliverSlot n c.place ms) n

/-- The anchor of a sample's late budget (R350, R352). -/
def State.anchor (s : State) (n : Nat) (m : Sample) : Nat :=
  match m.firing with
  | some t => t
  | none =>
    if s.unordered n then m.lastData
    else
      match ((s.chan n).samples.filter (fun x => decide (m.q < x.q))).filterMap (fun x => if x.status = 0 then x.done else none) with
      | [] => m.lastData
      | t :: l => l.foldl min t

/-- A sample is complete or voided: it takes its place, and what can be delivered is; TIME of a void one is its anchor (R337, R349,
R351). -/
def State.settleSample (s : State) (n q status : Nat) (f : Sample → Sample) : State :=
  let g := fun (m : Sample) =>
    { f m with done := some s.now, status := status, anchor := s.anchor n m, time := if status = 0 then (f m).time else s.anchor n m }
  let s1 := s.modChan n (fun c =>
    if s.unordered n then
      { c with samples := c.samples.filter (fun m => m.q != q), ready := c.ready ++ (c.samples.filter (fun m => m.q == q)).map g }
    else c.modSample q g)
  State.deliverReady (s1.chan n).nextQ s1 n

/-- Has a source frame another size than the channel's frames? DESIGN CHOICE (log 80): no register holds the configured size of a source
frame, whole or cropped, and that of the first good frame since the enable stands for it (R340). -/
def State.sizeDiffers (s : State) (n : Nat) (p : Pict) : Bool := (s.chan n).dims != (0, 0) && (s.chan n).dims != (p.h, p.w)

/-- STATUS of a sample whose data is all there: the error noted while it came, or SHORT where its size is not the configured one
(R340, R351). -/
def State.finalStatus (s : State) (n : Nat) (m : Sample) : Nat :=
  if m.status ≠ 0 then m.status
  else
    match s.samplePict n m with
    | none => 9
    | some p =>
      if s.sizeDiffers n p then 9
      else match s.cropWindow n p.w p.h with
      | none => 9
      | some (_, _, w, h) =>
        let d := s.chDecim n
        if (s.convSet n).tensorBytes (s.chBatch n) (w / d) (h / d) ≤ s.slotSize n then 0 else 9

/-- The end of a sample's data. -/
def State.complete (s : State) (n q : Nat) : State :=
  match (s.chan n).open? q with
  | none => s
  | some m =>
    let st := s.finalStatus n m
    let s1 := match st, s.samplePict n m with
      | 0, some p => s.modChan n (fun c => { c with dims := (p.h, p.w) })
      | _, _ => s
    s1.settleSample n q st id

/-- Data of a voided sample arrives: discarded, counted once (R350). -/
def State.lateData (s : State) (n : Nat) : State :=
  if (s.chan n).ghost then s else (s.modChan n (fun c => { c with ghost := true })).bump (Reg.CH_LATE_DROP n) n

/-- What a channel does with data of the sample being received: `f` if the sample is open, a late drop if it has been voided. -/
def State.onCurrent (s : State) (n : Nat) (f : State → Nat → State) : State :=
  match (s.chan n).cur with
  | none => s
  | some q => if ((s.chan n).open? q).isSome then f s q else s.lateData n

/-! ### Source queues (R358) -/

/-- A queue of 32 B entries: its area, its entries, the generation its doorbell must carry. -/
structure QueueArea where
  base : Nat
  size : Nat
  gen  : Nat
  deriving DecidableEq, Repr

/-- The source queue of a channel; its doorbell carries the channel's GEN. -/
def State.sourceArea (s : State) (n : Nat) : QueueArea :=
  ⟨s.fld (Reg.CH_QUEUE n) Fd.CH_QUEUE_QBASE * 64, sizeOfCode (s.fld (Reg.CH_QUEUE n) Fd.CH_QUEUE_SIZE_CODE), s.chSrc n Fd.CH_SRC_GEN⟩

/-! ### CSI-2 (R332, R347, R348) -/

/-- The data type of an input format (log 20). -/
def dataType : Nat → Nat
  | 0x01 => 0x2B
  | 0x02 => 0x2C
  | 0x03 => 0x18
  | 0x04 => 0x19
  | 0x05 => 0x1E
  | 0x06 => 0x1F
  | _ => 0x24

/-- The data types that a receiver supports (R332). -/
def typeSupported (dt : Nat) : Bool := [0x2B, 0x2C, 0x18, 0x19, 0x1E, 0x1F, 0x24].contains dt

/-- The channels of a receiver and virtual channel. -/
def State.csiChans (s : State) (rx vc : Nat) : List Nat := (s.chansOf 0 rx).filter (fun n => s.chSrc n Fd.CH_SRC_VC == vc)

/-- A single-bit header error is corrected and counted (R332): hdr is 0 for none, 1 for one bit, 2 for any other error. -/
def State.headerError (s : State) (n hdr : Nat) : State := if hdr = 1 then s.bump (Reg.CH_HDR_CORR n) n else s

/-- The frame being received becomes void with reason LINK when it ends. -/
def State.linkError (s : State) (n hdr : Nat) (crcOk : Bool) : State :=
  match (s.chan n).cur with
  | some q => if 2 ≤ hdr ∨ !crcOk then s.modChan n (fun c => c.modSample q (fun m => { m with status := 3 })) else s
  | none => s

/-- The receiver's check of the frame number (R347). -/
def State.checkFc (s : State) (n fc : Nat) : State × Bool :=
  let last := (s.chan n).lastFc
  let gap := fc != 0 && last != 0 && fc != last % 0xFFFF + 1
  let s1 := if fc = 0 then s else s.modChan n (fun c => { c with lastFc := fc })
  (if gap then s1.bump (Reg.CH_CAM_GAP n) n else s1, gap)

/-- FRAME_START: a Frame Start short packet crosses the receiver (R346 to R348, R354). -/
def execFrameStart (rx vc fc hdr : Nat) (s : State) : Host.Outcome State Fault Refusal :=
  s.whenUp (fun s => (s.csiChans rx vc).foldl (fun a n =>
    let (a1, gap) := (a.headerError n hdr).checkFc n fc
    (a1.liveStart n fc gap).linkError n hdr true) s)

/-- LONG_PACKET: a long packet of line data; only the selected data type of a supported kind is taken (R332). -/
def execLongPacket (rx vc dt hdr : Nat) (crcOk : Bool) (bytes : List Byte) (s : State) : Host.Outcome State Fault Refusal :=
  s.whenUp (fun s =>
    if typeSupported dt then
      ((s.csiChans rx vc).filter (fun n => s.chSrc n Fd.CH_SRC_DT == dt)).foldl (fun a n =>
        (a.headerError n hdr).onCurrent n (fun b q =>
          (b.modChan n (fun c => c.modSample q (fun m => { m with lastData := s.now, lines := m.lines ++ [bytes] }))).linkError n hdr crcOk)) s
    else s)

/-- FRAME_END: the frame's data is complete; the sample is sealed and delivered in its turn (R337, R349). -/
def execFrameEnd (rx vc hdr : Nat) (s : State) : Host.Outcome State Fault Refusal :=
  s.whenUp (fun s => ((s.csiChans rx vc).foldl (fun a n =>
    ((a.headerError n hdr).onCurrent n (fun b q => (b.linkError n hdr true).complete n q)).modChan n (fun c => { c with cur := none, ghost := false })) s).conclude)

/-! ### TDM (R333, R346) -/

/-- The selected slots of a TDM frame, 32 bits each, left-justified: as a line of the channel's input format. -/
def State.tdmLine (s : State) (n : Nat) (slots : List Nat) : List Byte :=
  let b := sourceBits (s.convSet n).inFmt
  ((List.range 16).filter (fun i => s.chSrc n Fd.CH_SRC_SLOTS / 2 ^ i % 2 == 1)).flatMap (fun i => leBytes (b / 8) (slots.getD i 0 % 2 ^ 32 / 2 ^ (32 - b)))

/-- Frames in a block of a TDM channel (R331, R368). -/
def State.tdmBlock (s : State) (n : Nat) : Nat := max 1 (s.fld (Reg.CH_CROP n) Fd.CH_CROP_H)

/-- One TDM frame on one channel: the first of a block starts a sample, the last completes it, the frames of a discarded block are
skipped. -/
def State.tdmFrame (s : State) (n : Nat) (slots : List Nat) : State :=
  let c := s.chan n
  if 0 < c.skip then s.setChan n { c with skip := c.skip - 1 }
  else
    let s1 := if c.cur.isSome then s else s.liveStart n 0 false
    match (s1.chan n).cur with
    | none => s1.modChan n (fun c => { c with skip := s.tdmBlock n - 1 })
    | some q =>
      match (s1.chan n).open? q with
      | none => (s1.lateData n).modChan n (fun c => { c with cur := none, ghost := false, skip := s.tdmBlock n - 1 })
      | some m =>
        let s2 := s1.modChan n (fun c => c.modSample q (fun m => { m with lastData := s.now, lines := m.lines ++ [s.tdmLine n slots] }))
        if s.tdmBlock n ≤ m.lines.length + 1 then (s2.complete n q).modChan n (fun c => { c with cur := none }) else s2

/-- A queue's status word is written (R255). -/
def State.queueStatus (s : State) (a : QueueArea) (r : Ring) : State := s.store (a.base + 8) (leBytes 4 r.head ++ leBytes 4 r.retired)

/-- An entry is done: RETIRED moves past the entries that are. -/
def Ring.entryDone (r : Ring) (seq : Nat) : Ring :=
  let w := r.written ++ [seq]
  let (ret, rest) := retire w.length r.retired w
  { r with retired := ret, written := rest, polling := true }

/-- A port transmits the next frame of its playback queue; without data it sends zero samples, and the underflow counts as a slip once
until data returns (R30, R333). DESIGN CHOICE (log 81): the playback queue of a port is the source queue of its first running channel,
whose receive side uses none; a port that has had no data yet is in no underflow. -/
def State.tdmSend (s : State) (port : Nat) : State :=
  match s.chansOf 1 port with
  | [] => s
  | n :: _ =>
    let c := s.chan n
    match c.play with
    | [] => ((if c.dry then s else s.countSlip (568 + port)).modChan n (fun c => { c with dry := true })).emit (.tdmFrame port (List.replicate 16 0))
    | (seq, fs) :: rest =>
      let s1 := s.emit (.tdmFrame port (fs.headD (List.replicate 16 0)))
      if fs.length ≤ 1 then
        let q := c.queue.entryDone seq
        (s1.setChan n { c with dry := false, play := rest, queue := q }).queueStatus (s.sourceArea n) q
      else s1.setChan n { c with dry := false, play := (seq, fs.tail) :: rest }

/-- TDM_FRAME: a TDM frame of slots is received at a port, which transmits one (R333). -/
def execTdmFrame (port : Nat) (slots : List Nat) (s : State) : Host.Outcome State Fault Refusal :=
  s.whenUp (fun s => ((s.chansOf 1 port).foldl (fun a n => a.tdmFrame n slots) (s.tdmSend port)).conclude)

/-! ### Voids (R30, R350, R351) -/

/-- A rim slip on a receiver (kind 0) or a TDM port (kind 1): the rest of the sample is dropped, and it is void with OVERFLOW (R30). -/
def State.intakeSlip (s : State) (kind unit : Nat) : State :=
  ((s.chansOf kind unit).foldl (fun a n =>
    let got := match (a.chan n).cur with
      | some q => (((a.chan n).open? q).map (fun m => m.lines.length)).getD 0
      | none => 0
    let a1 := a.onCurrent n (fun b q => b.settleSample n q 4 id)
    if (a.chan n).cur.isSome then
      a1.modChan n (fun c => { c with cur := none, ghost := false, skip := if kind = 1 then a.tdmBlock n - got else 0 })
    else a1) s).conclude

/-- LATE_BUDGET_EXPIRE: an open sample's budget has run out: it is delivered as a void slot, MISSING if it never started, else LATE
(R350, R351). -/
def execLateBudgetExpire (ch q : Nat) (s : State) : Host.Outcome State Fault Refusal :=
  s.whenUp (fun s =>
    match (s.chan ch).open? q with
    | none => s
    | some m =>
      if s.chanOn ch ∧ s.anchor ch m + s.lateNs ch ≤ s.now then (s.settleSample ch q (if m.started then 2 else 1) id).conclude
      else s)

/-! ### Enable, disable, UNORD (R335, R352, R363, R364) -/

/-- Number of unordered channels. -/
def State.unordCount (s : State) : Nat := ((List.range channelCount).filter s.unordered).length

/-- Is the frame tensor's size known before any frame: a crop is set, or the source is TDM? -/
def State.sizeKnown (s : State) (n : Nat) : Bool := s.chSrc n Fd.CH_SRC_KIND == 1 || s.fld (Reg.CH_CROP n) Fd.CH_CROP_W != 0

/-- May a channel be enabled as it is set up (R335, R367, R370)? A frame whose size is not known yet takes at least one pixel (log 80). -/
def State.chanValid (s : State) (n : Nat) : Bool :=
  let v := s.convSet n
  let (h, w) := if s.sizeKnown n then s.outDims n else (1, 1)
  let rois := (List.range 4).filter (fun k => s.bit (Reg.CH_ROI_A n k) Fd.CH_ROI_A_EN)
  [0, 2, 5, 6, 7, 8].contains v.outFmt && decide (s.fld (Reg.CH_FMT n) Fd.CH_FMT_DECIM ≤ 2) &&
  decide (s.cropsBefore n 4 ≤ 64) && decide (v.tensorBytes (s.chBatch n) w h ≤ s.slotSize n) &&
  rois.all (fun k => decide (s.fld (Reg.CH_ROI_B n k) Fd.CH_ROI_B_OFF * 64 + v.tensorBytes (s.fld (Reg.CH_ROI_A n k) Fd.CH_ROI_A_SLOTS)
    (s.fld (Reg.CH_ROI_A n k) Fd.CH_ROI_A_WIN_W) (s.fld (Reg.CH_ROI_A n k) Fd.CH_ROI_A_WIN_H) ≤ s.slotSize n))

/-- The charge of a channel, with its source queue reader for replay (R363). -/
def State.chanReq (s : State) (n : Nat) : AlwReq :=
  let r := s.chSrc n Fd.CH_SRC_KIND == 3
  { s.unitReq (.channel n) .lc none (s.chSrc n Fd.CH_SRC_GEN) with coreMa := if r then 400 else 350, dramMa := if r then 40 else 20 }

/-- EN has gone to 1: the set-up is checked; GEN advances, q restarts at 0, the charge is requested (R363, R364). -/
def State.enableChan (s : State) (n : Nat) : State :=
  if s.chanValid n then
    let s1 := s.setFld (Reg.CH_SRC n) Fd.CH_SRC_GEN (s.chSrc n Fd.CH_SRC_GEN + 1)
    ((s1.modChan n (fun c => { owner := c.owner })).ask (s1.chanReq n)).conclude
  else (s.setFld (Reg.CH_SRC n) Fd.CH_SRC_EN 0).setFld (Reg.CH_SRC n) Fd.CH_SRC_CFG_ERR 1

/-- EN has gone to 0: samples not yet delivered are discarded and counted, the charge is given up (R363, R364). -/
def State.disableChan (s : State) (n : Nat) : State :=
  let c := s.chan n
  let s1 := State.bumpN (c.samples.length + c.ready.length) s (Reg.CH_OVERRUN n) n
  ((s1.setChan n { owner := c.owner }).alwDrop (.channel n)).conclude

/-- May an origin give UNORD a value: within the limit of R352, and only its owner may clear it (R364)? -/
def State.unordAllowed (s : State) (o : Origin) (n want : Nat) : Bool :=
  if want = 1 then decide (s.unordCount < 4) else (s.chan n).owner == o.code

/-- A write of CH_SRC: the channel is enabled or disabled, UNORD changes owner, a refused UNORD sets CFG_ERR (R352, R364, R366). -/
def State.writeChan (s : State) (o : Origin) (n : Nat) (value : Word) : State :=
  let want := Fd.CH_SRC_UNORD.of value
  let bad := setupOrigin o && mayWrite o [.hypervisor, .safety] && !s.bit (Reg.CH_SRC n) Fd.CH_SRC_EN && s.auditOpen o &&
    want != s.chSrc n Fd.CH_SRC_UNORD && !s.unordAllowed o n want
  let v := if bad then Fd.CH_SRC_UNORD.put value (s.chSrc n Fd.CH_SRC_UNORD) else value
  s.writeBy o (Reg.CH_SRC n) v (fun s t =>
    let t0 := if bad then t.setFld (Reg.CH_SRC n) Fd.CH_SRC_CFG_ERR 1 else t
    let t1 := if t0.unordered n = s.unordered n then t0
      else (t0.modChan n (fun c => { c with owner := if t0.unordered n then o.code else 0 })).setFld Reg.INTK_CTRL Fd.INTK_CTRL_UNORD_COUNT t0.unordCount
    match s.bit (Reg.CH_SRC n) Fd.CH_SRC_EN, t1.bit (Reg.CH_SRC n) Fd.CH_SRC_EN with
    | false, true => t1.enableChan n
    | true, false => t1.disableChan n
    | _, _ => t1)

/-- CHANNEL_ENABLE: a write of CH_SRC with EN 1 (R364). -/
def execChannelEnable (o : Origin) (n : Nat) (value : Word) (s : State) : Host.Outcome State Fault Refusal :=
  s.whenUp (fun s => if n < channelCount then s.writeChan o n (Fd.CH_SRC_EN.put value 1) else s)

/-- CHANNEL_DISABLE: a write of CH_SRC with EN 0 (R364). -/
def execChannelDisable (o : Origin) (n : Nat) (value : Word) (s : State) : Host.Outcome State Fault Refusal :=
  s.whenUp (fun s => if n < channelCount then s.writeChan o n (Fd.CH_SRC_EN.put value 0) else s)

/-- UNORD_WRITE: a write of CH_SRC that gives UNORD a value and leaves every other field (R352, R364). -/
def execUnordWrite (o : Origin) (n : Nat) (on : Bool) (s : State) : Host.Outcome State Fault Refusal :=
  s.whenUp (fun s =>
    if n < channelCount then
      s.writeChan o n (Fd.CH_SRC_CFG_ERR.put (Fd.CH_SRC_UNORD.put (s.reg (Reg.CH_SRC n)) on.toNat) 0)
    else s)

end Sys2Proof.Machine
end

