-- ==== Sys2Proof/Machine/Rings.lean ====
section
/-! DEFINITION. The commands of chapter 10: descriptors, waits, job leases, rings, knots (R251 to R290). -/

namespace Sys2Proof.Machine

/-! ### Fetched descriptors (R260, R265) -/

/-- Takes the oldest fetched descriptor of a ring if its KIND satisfies a test. -/
def State.takeFetched (s : State) (n : Nat) (p : Nat → Bool) : Option (Nat × List Nat × State) :=
  match (s.ring n).fetched with
  | [] => none
  | (seq, d) :: l => if p (descKind d) then some (seq, d, s.setRing n { s.ring n with fetched := l }) else none

/-- JOB_DESCRIPTOR: the oldest fetched descriptor of a ring is a job's, or has a reserved KIND (R265). `far` is what reads of
host memory for its admission returned. -/
def execJobDescriptor (ring : Nat) (far : List FarRead) (s : State) : Host.Outcome State Fault Refusal :=
  s.whenUp (fun s => match s.takeFetched ring (fun k => k != 0 && k != 2) with
    | none => s
    | some (seq, d, t) => ((t.learn (0x10 + ringVi ring) far).admitJob ring seq d).conclude)

/-- KNOT_DESCRIPTOR: the oldest fetched descriptor is a KNOT descriptor (R260). -/
def execKnotDescriptor (ring : Nat) (s : State) : Host.Outcome State Fault Refusal :=
  s.whenUp (fun s => match s.takeFetched ring (fun k => k == 0) with
    | none => s
    | some (seq, d, t) => (t.admitKnot ring seq d).conclude)

/-- CANCEL_DESCRIPTOR: the oldest fetched descriptor is a CANCEL descriptor (R276). -/
def execCancelDescriptor (ring : Nat) (s : State) : Host.Outcome State Fault Refusal :=
  s.whenUp (fun s => match s.takeFetched ring (fun k => k == 2) with
    | none => s
    | some (seq, d, t) => (t.admitCancel ring seq d).conclude)

/-! ### Waits and job leases (R266, R267, R480) -/

/-- Is a lease of a job, named with a generation, an old one: not the job's own, or of a generation that its ring has left (R267)? -/
def State.oldLease (s : State) (j : Job) (gen : Nat) : Bool := gen != j.gen || gen != s.fld (Reg.RING_CFG j.ring) Fd.RING_CFG_GEN

/-- KNOT_WAIT_TIMEOUT: a descriptor's knot wait reaches its limit. A condition met in the same tick satisfies the wait
(R266); an act that names an old generation is counted (R290, R480). -/
def execKnotWaitTimeout (ring seq gen : Nat) (s : State) : Host.Outcome State Fault Refusal :=
  s.whenUp (fun s =>
    match s.job? ring seq with
    | none => s.bump Reg.KNOT_TMO_CNT noUnit
    | some j =>
      if s.oldLease j gen then s.bump Reg.KNOT_TMO_CNT noUnit
      else if j.stage ≠ .waiting ∨ s.now < j.waitEnd ∨ !s.leasesRun (ringVi ring) then s
      else if s.waitMet j.desc then s.conclude
      else ((s.bump Reg.KNOT_TMO_CNT noUnit).endJob ring seq codeTimeout 1).conclude)

/-- JOB_LEASE_EXPIRE: a job lease expires; the job completes with TIMEOUT and its grants are reclaimed (R267, R80), unless its fault
has been taken (R273). An act that names an old generation is counted (R481). -/
def execJobLeaseExpire (ring seq gen : Nat) (s : State) : Host.Outcome State Fault Refusal :=
  s.whenUp (fun s =>
    match s.job? ring seq with
    | none => s.bump Reg.RING_SEQ_BAD_CNT noUnit
    | some j =>
      if s.oldLease j gen then s.bump Reg.RING_SEQ_BAD_CNT noUnit
      else if j.stage = .faulted ∨ !j.entered ∨ s.now < j.leaseEnd ∨ !s.leasesRun (ringVi ring) then s
      else (match j.withdrawn with
        | some why => s.endJob ring seq codeCancelled (cancelDetail why)
        | none => s.endJob ring seq codeTimeout 2).conclude)

/-! ### Ring set-up (R286, R287) -/

/-- EN goes to 1: GEN advances, the doorbell word gives HEAD and RETIRED unless it reads as poison, the status word is
written (R287); the first enable of an empty instance makes it LIVE (R540). -/
def State.ringEnabled (s : State) (n : Nat) : State :=
  let s0 := if s.viState (ringVi n) = 0 then s.setFld (Reg.VI_STATE (ringVi n)) Fd.VI_STATE_STATE 1 else s
  let s1 := s0.setFld (Reg.RING_CFG n) Fd.RING_CFG_GEN (s.fld (Reg.RING_CFG n) Fd.RING_CFG_GEN + 1)
  let a := s1.ringDb n
  let r := s1.ring n
  (if s1.readFails a 8 then (s1.noteRead a 8).setRing n { r with fetched := [], polling := true, polledAt := s.now, lastTail := r.head, retry := false }
  else
    let tail := ofLe (s1.peekBytes a 4)
    s1.setRing n { head := tail, retired := tail, lastTail := tail, polledAt := s.now }).writeStatus n

/-- EN goes to 0: the descriptors that have not been launched are cancelled with reason 2 (R287). -/
def State.ringDisabled (s : State) (n : Nat) : State :=
  (s.withdraw (2, 0) (fun j => j.ring == n && j.unlaunched)).withdrawFetched (2, 0) n

/-- CANCEL: every uncommitted descriptor is withdrawn with reason 2 and GEN advances (R287). -/
def State.ringCancelled (s : State) (n : Nat) : State :=
  let s1 := (s.withdraw (2, 0) (fun j => j.ring == n)).withdrawFetched (2, 0) n
  s1.setFld (Reg.RING_CFG n) Fd.RING_CFG_GEN (s1.fld (Reg.RING_CFG n) Fd.RING_CFG_GEN + 1)

/-- What follows a write of RING_CFG_n, given the state before it. -/
def State.ringCfgAfter (o : Origin) (n : Nat) (value : Word) (s t : State) : State :=
  let was := s.bit (Reg.RING_CFG n) Fd.RING_CFG_EN
  let is := t.bit (Reg.RING_CFG n) Fd.RING_CFG_EN
  let s1 := if !was && is then t.ringEnabled n else if was && !is then t.ringDisabled n else t
  (if Fd.RING_CFG_CANCEL.of value = 1 ∧ mayWrite o [.selvage, .hypervisor] then s1.ringCancelled n else s1).conclude

/-- A write of RING_CFG_n. -/
def State.writeRingCfg (s : State) (o : Origin) (n : Nat) (value : Word) : State :=
  if n < ringCount then s.writeBy o (Reg.RING_CFG n) value (State.ringCfgAfter o n value) else s.refuseTo o

/-- RING_ENABLE: a write of RING_CFG_n with EN 1 (R287); `far` is what the read of a doorbell in host memory returned. -/
def execRingEnable (o : Origin) (n : Nat) (value : Word) (far : List FarRead) (s : State) : Host.Outcome State Fault Refusal :=
  s.whenUp (fun s => (s.learn (0x10 + ringVi n) far).writeRingCfg o n (Fd.RING_CFG_EN.put value 1))

/-- RING_DISABLE: a write of RING_CFG_n with EN 0 (R287). -/
def execRingDisable (o : Origin) (n : Nat) (value : Word) (s : State) : Host.Outcome State Fault Refusal :=
  s.whenUp (fun s => s.writeRingCfg o n (Fd.RING_CFG_EN.put value 0))

/-- RING_CANCEL: a write of RING_CFG_n with CANCEL 1 (R287). -/
def execRingCancel (o : Origin) (n : Nat) (value : Word) (s : State) : Host.Outcome State Fault Refusal :=
  s.whenUp (fun s => s.writeRingCfg o n (Fd.RING_CFG_CANCEL.put value 1))

/-! ### Knots (R277, R278, R288) -/

/-- The KNOT_SEL command register in an origin's bank. -/
def knotSel (o : Origin) : CmdReg :=
  ⟨bankKey o Reg.KNOT_SEL, Fd.KNOT_SEL_INDEX, Fd.KNOT_SEL_STATUS, [.selvage, .hypervisor, .safety], some 2, .register, none⟩

/-- A KNOT_SEL command: a safety pair's command on a knot inside an instance's range answers DENIED (R278, R288). -/
def State.knotCommand (s : State) (o : Origin) (k : Nat) (act : State → State) : State :=
  s.command o (knotSel o) k (fun s => if o = .safety ∧ (s.knotOwner (k % knotCount)).isSome then (s, 1) else (act s, 0))

/-- KNOT_SEL_READ: reads a knot into KNOT_DATA. -/
def execKnotSelRead (o : Origin) (k : Nat) (s : State) : Host.Outcome State Fault Refusal :=
  s.whenUp (fun s => s.knotCommand o k (fun s => s.setReg (bankKey o Reg.KNOT_DATA) (BitVec.ofNat 64 (s.knot (k % knotCount)))))

/-- KNOT_SEL_SET: sets a knot from KNOT_DATA. -/
def execKnotSelSet (o : Origin) (k : Nat) (s : State) : Host.Outcome State Fault Refusal :=
  s.whenUp (fun s => s.knotCommand o k (fun s => (s.knotSet (k % knotCount) (s.reg (bankKey o Reg.KNOT_DATA)).toNat).conclude))

/-- KNOT_SEL_ADD: adds KNOT_DATA to a knot, saturating. -/
def execKnotSelAdd (o : Origin) (k : Nat) (s : State) : Host.Outcome State Fault Refusal :=
  s.whenUp (fun s => s.knotCommand o k (fun s => (s.knotAdd (k % knotCount) (s.reg (bankKey o Reg.KNOT_DATA)).toNat).conclude))

/-- May instance v take the range that a word gives: no overlap with another instance's, nothing beyond the last knot (R278)? -/
def State.rangeOk (s : State) (v base count : Nat) : Bool :=
  decide (base + count ≤ knotCount) &&
  (List.range 64).all (fun u => u == v || (let r := s.knotRange u
    decide (count = 0) || decide (r.2 = 0) || decide (base + count ≤ r.1) || decide (r.1 + r.2 ≤ base)))

/-- What follows an accepted range write: knots newly included become 0, waits on knots that left the range are cancelled with
reason 3 (R278). -/
def State.rangeChanged (v : Nat) (s t : State) : State :=
  let r := t.knotRange v
  let fresh := ((List.range r.2).map (fun i => r.1 + i)).filter (fun k => !s.ownsKnot v k && t.knot k != 0)
  let t1 := fresh.foldl (fun a k => a.knotSet k 0) t
  (t1.withdraw (3, 0) (fun j => ringVi j.ring == v && j.stage == .waiting && !t1.ownsKnot v (descWaitKnot j.desc))).conclude

/-- KNOT_RANGE_WRITE: a write of KNOT_RANGE_v takes effect or is refused whole (R278). -/
def State.writeKnotRange (s : State) (o : Origin) (v : Nat) (value : Word) : State :=
  let k := Reg.KNOT_RANGE v
  if 64 ≤ v ∨ !setupOrigin o then s.refuseTo o
  else if mayWrite o [.selvage, .hypervisor] && !s.rangeOk v (Fd.KNOT_RANGE_BASE.of value) (Fd.KNOT_RANGE_COUNT.of value) && s.auditOpen o then
    (s.setFld Reg.KNOT_CTRL Fd.KNOT_CTRL_RANGE_REFUSED 1).auditRefusal o k resRange
  else s.writeReg o k value (State.rangeChanged v)

/-- KNOT_RANGE_WRITE: a write of KNOT_RANGE_v (R278). -/
def execKnotRangeWrite (o : Origin) (v : Nat) (value : Word) (s : State) : Host.Outcome State Fault Refusal :=
  s.whenUp (fun s => s.writeKnotRange o v value)

end Sys2Proof.Machine
end

