-- ==== Sys2Proof/Machine/Media.lean ====
section
/-! DEFINITION. Source queues, the media decoder and encoder, doorbells (R258, R259, R285, R358 to R362, R654 to R656). -/

namespace Sys2Proof.Machine

/-! ### Source queues (R358, R359) -/

/-- The encoder's output queue (R655). -/
def State.outputArea (s : State) : QueueArea :=
  ⟨s.fld Reg.MEDIA_ENC1 Fd.MEDIA_ENC1_QBASE * 64, sizeOfCode (s.fld Reg.MEDIA_ENC1 Fd.MEDIA_ENC1_SIZE_CODE), s.fld Reg.MEDIA_ENC1 Fd.MEDIA_ENC1_GEN⟩

/-- The address of the entry with a sequence number. -/
def QueueArea.entry (a : QueueArea) (seq : Nat) : Nat := a.base + 64 + 32 * (seq % a.size)

/-- The queue after its doorbell is read: a stale generation, a reserved bit, a TAIL behind HEAD or poison leaves it (R254). -/
def State.readDoorbell (s : State) (a : QueueArea) (r : Ring) : Ring :=
  let w := ofLe (s.peekBytes a.base 8)
  let tail := bits w 31 0
  if s.readFails a.base 8 ∨ bits w 63 48 ≠ 0 ∨ bits w 47 32 ≠ a.gen ∨ seqBefore tail r.head then r
  else { r with lastTail := tail }

/-- Is there an entry to take? -/
def Ring.waiting (r : Ring) : Bool := seqBefore r.head r.lastTail

/-- Reads an entry (R359). -/
def State.sourceEntry (s : State) (a : QueueArea) (seq : Nat) : SrcEntry :=
  let ws := s.wordsAt (a.entry seq) 4
  { addr := wordBits ws 0 63 0
    time := wordBits ws 1 63 0
    size := wordBits ws 2 63 32
    sid := wordBits ws 2 31 0
    rap := wordBits ws 3 49 49 == 1
    eos := wordBits ws 3 48 48 == 1
    seq := seq
    bad := wordBits ws 3 31 0 != seq || wordBits ws 3 63 50 != 0 || wordBits ws 3 47 32 != 0 }

/-! ### Replay (R348, R358, R359) -/

/-- Bytes of a line of w pixels or samples of an input format; row y matters for 4:2:0 (log 20). -/
def lineBytes (f w y : Nat) : Nat :=
  let b := sourceBits f
  let n := if is422 f ∨ (is420 f ∧ y % 2 = 1) then 2 * w else if f = 7 then 3 * w else w
  n * b / 8

/-- Cuts a replayed frame into lines. -/
def cutLines (f w : Nat) : Nat → Nat → List Byte → List (List Byte)
  | 0, _, _ => []
  | k + 1, y, bs => bs.take (lineBytes f w y) :: cutLines f w k (y + 1) (bs.drop (lineBytes f w y))

/-- The lines of a replayed frame: the crop that is set ends the frame; with W = 0 H gives the lines; a length that does not match
gives no lines (R340, R359; log 23). -/
def State.replayLines (s : State) (n : Nat) (bs : List Byte) : List (List Byte) :=
  let g := fun (x : Fld) => s.fld (Reg.CH_CROP n) x
  let f := (s.convSet n).inFmt
  let whole := g Fd.CH_CROP_W == 0
  let h := if whole then g Fd.CH_CROP_H else g Fd.CH_CROP_Y0 + g Fd.CH_CROP_H
  let unit := ((List.range h).map (fun y => lineBytes f 8 y)).sum
  let w := if whole then (if unit = 0 then 0 else 8 * bs.length / unit) else g Fd.CH_CROP_X0 + g Fd.CH_CROP_W
  if ((List.range h).map (fun y => lineBytes f w y)).sum = bs.length ∧ 0 < w ∧ 0 < h then cutLines f w h 0 bs else []

/-- STATUS of an entry's data as the intake or the decoder reads it: SOURCE for an invalid entry or a refused read, POISON (R106, R351,
R359). -/
def State.entryStatus (s : State) (e : SrcEntry) : Nat :=
  if e.bad || !s.reachable e.addr e.size then 8 else if s.readFails (s.place e.addr) e.size then 5 else 0

/-- A replayed sample takes its number, TIME and SAMPLE_ID and is complete at once (R346, R348, R351, R359). -/
def State.replaySample (s : State) (n : Nat) (e : SrcEntry) : State :=
  let (s1, q) := s.assignQ n none
  match q with
  | none => s1
  | some q =>
    let p := s.place e.addr
    let st := s.entryStatus e
    let lines := if st = 0 then s.replayLines n (s.peekBytes p e.size) else []
    let s2 := ((s1.noteRead p e.size).beginSample n q e.time 0 false).modChan n (fun c =>
      let d := c.modSample q (fun m => { m with sid := e.sid, status := st, lines := lines })
      { d with cur := none })
    s2.complete n q

/-- The decoder session that feeds a channel, if it is open (R331, R654). -/
def State.sessionOf (s : State) (n : Nat) : Option Nat :=
  let k := s.chSrc n Fd.CH_SRC_UNIT
  if k < 2 ∧ s.bit (Reg.MEDIA_DEC k) Fd.MEDIA_DEC_EN ∧ s.fld (Reg.MEDIA_DEC k) Fd.MEDIA_DEC_CHANNEL = n ∧ s.holdsGrant .decoder then some k else none

/-- A void sample with a reason, complete at once (R351, R359). -/
def State.voidSample (s : State) (n status time sid : Nat) : State :=
  let (s1, q) := s.assignQ n none
  match q with
  | none => s1.bump (Reg.CH_OVERRUN n) n
  | some q => (s1.beginSample n q time 0 false).settleSample n q status (fun m => { m with sid := sid })

/-- Entries at the front that end a stream and carry no picture are done, once those before them are (R359). -/
def passEos : List SrcEntry → Ring → List SrcEntry × Ring
  | [], r => ([], r)
  | e :: l, r => if e.eos && e.size == 0 then passEos l (r.entryDone e.seq) else (e :: l, r)

/-- A decoder session takes an entry; each random-access point begins an epoch (R361). -/
def State.takeEntry (s : State) (n : Nat) (q : Ring) (e : SrcEntry) : State :=
  let c := s.chan n
  let k := c.epoch + e.rap.toNat
  let p := passEos (c.entries ++ [{ e with epoch := k }]) q
  (s.setChan n { c with queue := p.2, entries := p.1, epoch := k }).queueStatus (s.sourceArea n) p.2

/-- The frames that playback data hold: the selected slots of each in turn, left-justified, in the channel's input format (R333). -/
def State.playFrames (s : State) (n : Nat) (bs : List Byte) : List (List Nat) :=
  let b := sourceBits (s.convSet n).inFmt
  let sel := (List.range 16).filter (fun i => s.chSrc n Fd.CH_SRC_SLOTS / 2 ^ i % 2 == 1)
  (groups (max 1 (sel.length * b / 8)) bs.length bs).map (fun g =>
    (List.range 16).map (fun i => match sel.idxOf? i with
      | some k => ofLe ((g.drop (k * b / 8)).take (b / 8)) * 2 ^ (32 - b)
      | none => 0))

/-- A playback entry of a TDM port is taken; one that is invalid or cannot be read is passed over (R333, R359). -/
def State.takePlayback (s : State) (n : Nat) (q : Ring) (e : SrcEntry) : State :=
  let fs := if s.entryStatus e = 0 then s.playFrames n (s.peekBytes (s.place e.addr) e.size) else []
  let s1 := if e.bad then s else s.noteRead (s.place e.addr) e.size
  let q1 := if fs.isEmpty then q.entryDone e.seq else q
  (s1.modChan n (fun c => { c with queue := q1, play := if fs.isEmpty then c.play else c.play ++ [(e.seq, fs)] })).queueStatus (s.sourceArea n) q1

/-- SOURCE_ENTRY_FETCH: the next entry of a channel's source queue is fetched: a replay sample, an entry for the decoder session, or
frames for a TDM port to transmit; a replay channel waits for a free slot (R333, R338, R359, R360). `far` is what reads of memory outside
the device returned. -/
def execSourceEntryFetch (ch : Nat) (far : List FarRead) (s : State) : Host.Outcome State Fault Refusal :=
  s.whenUp (fun s =>
    let c := s.chan ch
    let kind := s.chSrc ch Fd.CH_SRC_KIND
    let go := s.chanOn ch && c.queue.waiting &&
      ((kind == 3 && s.slotFree ch c.nextQ) || (kind == 2 && (s.sessionOf ch).isSome) || kind == 1)
    if go then
      let s1 := s.learn 0 far
      let a := s1.sourceArea ch
      let e := s1.sourceEntry a c.queue.head
      let q : Ring := { c.queue with head := (c.queue.head + 1) % 2 ^ 32 }
      if s1.readFails (a.entry c.queue.head) 32 then
        let q1 := q.entryDone e.seq
        let s2 := ((s1.noteRead (a.entry c.queue.head) 32).modChan ch (fun c => { c with queue := q1 })).queueStatus a q1
        (if kind = 1 then s2 else s2.voidSample ch 5 s.now 0).conclude
      else if kind = 1 then s1.takePlayback ch q e
      else if kind = 3 ∨ e.bad then
        let q1 := q.entryDone e.seq
        let s2 := (s1.modChan ch (fun c => { c with queue := q1 })).queueStatus a q1
        (if kind = 3 then s2.replaySample ch e else s2.voidSample ch 8 e.time e.sid).conclude
      else s1.takeEntry ch q e
    else s)

/-! ### The decoder (R360, R361, R654) -/

/-- Assigns numbers up to q, so that pictures that come earlier in presentation order keep their places. -/
def State.assignUpTo : Nat → State → Nat → Nat → State
  | 0, s, _, _ => s
  | k + 1, s, n, q =>
    if q < (s.chan n).nextQ then s
    else
      let (s1, r) := s.assignQ n none
      match r with
      | none => s1
      | some x => State.assignUpTo k (s1.modChan n (fun c => c.modSample x (fun m => { m with started := true }))) n q

/-- STATUS of a picture: that of its entry's data, else DECODE where it cannot be decoded or references a void picture of its epoch
(R351, R361). -/
def State.pictureStatus (s : State) (n : Nat) (e : SrcEntry) (refs : List Nat) (pic : Option (List (List Byte))) : Nat :=
  if s.entryStatus e ≠ 0 then s.entryStatus e
  else if pic.isNone || refs.any (fun r => (s.chan n).broken.contains (e.epoch, r)) then 6 else 0

/-- May a session complete the picture of an entry: it carries one, and the flush at the end of a stream lets none past it (R359)? -/
def Chan.mayDecode (c : Chan) (idx : Nat) (e : SrcEntry) : Bool := !(e.eos && e.size == 0) && (c.entries.take idx).all (fun x => !x.eos)

/-- An entry of a session is done with a STATUS; a void picture breaks those that reference it up to the next random-access point
(R361). -/
def State.entryOut (s : State) (n idx : Nat) (e : SrcEntry) (st : Nat) : State :=
  let c := s.chan n
  let p := passEos (c.entries.eraseIdx idx) (c.queue.entryDone e.seq)
  (s.setChan n { c with entries := p.1, queue := p.2, broken := if st = 0 then c.broken else (e.epoch, e.seq) :: c.broken }).queueStatus
    (s.sourceArea n) p.2

/-- PICTURE_DECODED: a session completes the picture that entry `idx` of those it has taken carried, with number q in presentation
order, decoded with references to the pictures of the entries `dec.refs`: as lines in the channel's input format, or none where it cannot be
decoded (R360, R361). -/
def execPictureDecoded (session idx q : Nat) (dec : Decoded) (s : State) : Host.Outcome State Fault Refusal :=
  s.whenUp (fun s =>
    let ch := s.fld (Reg.MEDIA_DEC session) Fd.MEDIA_DEC_CHANNEL
    if s.chanOn ch ∧ s.chSrc ch Fd.CH_SRC_KIND = 2 ∧ s.sessionOf ch = some session then
      match (s.chan ch).entries[idx]? with
      | none => s
      | some e =>
        let st := s.pictureStatus ch e dec.refs dec.pic
        let s0 := if st = 6 then s.bump (Reg.MEDIA_DEC_ERR session) noUnit else s
        let s1 := if e.bad then s0 else s0.noteRead (s.place e.addr) e.size
        let s3 := (s1.entryOut ch idx e st).assignUpTo 65536 ch q
        if !(s.chan ch).mayDecode idx e then s
        else if (s3.chan ch).nextQ ≤ q then (s3.bump (Reg.CH_OVERRUN ch) ch).conclude
        else
          match (s3.chan ch).open? q with
          | none => (s3.bump (Reg.CH_LATE_DROP ch) ch).conclude
          | some _ =>
            let s4 := (s3.beginSample ch q e.time 0 false).modChan ch (fun c =>
              let d := c.modSample q (fun m => { m with sid := e.sid, status := st, lines := if st = 0 then dec.pic.getD [] else [] })
              { d with cur := none })
            (s4.complete ch q).conclude
    else s)

/-- Is a media session open: a decoder session or the encoder? -/
def State.mediaOpen (s : State) : Bool :=
  s.bit (Reg.MEDIA_DEC 0) Fd.MEDIA_DEC_EN || s.bit (Reg.MEDIA_DEC 1) Fd.MEDIA_DEC_EN || s.bit Reg.MEDIA_ENC0 Fd.MEDIA_ENC0_EN

/-- The media engine's charge follows its sessions (R363). -/
def State.mediaCharge (s : State) : State :=
  if s.mediaOpen then s.obtain (s.unitReq .decoder .lc none 0) else s.alwDrop .decoder

/-- Pixels a second of a session as it is set up (R654). -/
def State.pixelRate (s : State) (k : Nat) : Nat :=
  let g := fun (x : Fld) => s.fld (Reg.MEDIA_DEC k) x
  g Fd.MEDIA_DEC_MAX_W * g Fd.MEDIA_DEC_MAX_H * max 1 (g Fd.MEDIA_DEC_MAX_FPS)

/-- May a session be opened (R654)? -/
def State.decoderValid (s : State) (k : Nat) : Bool :=
  let g := fun (x : Fld) => s.fld (Reg.MEDIA_DEC k) x
  let other := if s.bit (Reg.MEDIA_DEC (1 - k)) Fd.MEDIA_DEC_EN then s.pixelRate (1 - k) else 0
  decide (g Fd.MEDIA_DEC_MAX_W * g Fd.MEDIA_DEC_MAX_H ≤ 3840 * 2160) && decide (s.pixelRate k + other ≤ 2 * 3840 * 2160 * 60) &&
  g Fd.MEDIA_DEC_CODEC != 3

/-- A write of MEDIA_DEC_s: a session opens, is refused, or closes (R654). -/
def State.writeDecoder (s : State) (o : Origin) (k : Nat) (value : Word) : State :=
  s.writeBy o (Reg.MEDIA_DEC k) value (fun s t =>
    match s.bit (Reg.MEDIA_DEC k) Fd.MEDIA_DEC_EN, t.bit (Reg.MEDIA_DEC k) Fd.MEDIA_DEC_EN with
    | false, true =>
      if t.decoderValid k then t.mediaCharge.conclude
      else (t.setFld (Reg.MEDIA_DEC k) Fd.MEDIA_DEC_EN 0).setFld (Reg.MEDIA_DEC k) Fd.MEDIA_DEC_CFG_ERR 1
    | true, false => (t.modChan (t.fld (Reg.MEDIA_DEC k) Fd.MEDIA_DEC_CHANNEL) (fun c => { c with entries := [] })).mediaCharge.conclude
    | _, _ => t)

/-- DECODER_ENABLE: a write of MEDIA_DEC_s (R654). -/
def execDecoderEnable (o : Origin) (session : Nat) (value : Word) (s : State) : Host.Outcome State Fault Refusal :=
  s.whenUp (fun s => if session < 2 then s.writeDecoder o session value else s)

/-! ### The encoder (R362, R655) -/

def State.encFld (s : State) (f : Fld) : Nat := s.fld Reg.MEDIA_ENC0 f

/-- The channel that the encoder reads. -/
def State.encChan (s : State) : Nat := s.encFld Fd.MEDIA_ENC0_CHANNEL

/-- May the encoder be opened: a pass-through YUV 4:2:0 channel of at most 3840 × 2160 (R655)? -/
def State.encoderValid (s : State) : Bool :=
  let n := s.encChan
  let v := s.convSet n
  let d := s.outDims n
  v.outFmt == 0 && is420 v.inFmt && decide (d.2 ≤ 3840) && decide (d.1 ≤ 2160)

/-- A write of MEDIA_ENC0: the encoder opens with a new queue generation, is refused, or closes (R655). -/
def State.writeEncoder (s : State) (o : Origin) (value : Word) : State :=
  s.writeBy o Reg.MEDIA_ENC0 value (fun s t =>
    match s.bit Reg.MEDIA_ENC0 Fd.MEDIA_ENC0_EN, t.bit Reg.MEDIA_ENC0 Fd.MEDIA_ENC0_EN with
    | false, true =>
      if t.encoderValid then
        let n := t.encChan
        let t1 := t.setFld Reg.MEDIA_ENC1 Fd.MEDIA_ENC1_GEN (t.fld Reg.MEDIA_ENC1 Fd.MEDIA_ENC1_GEN + 1)
        ({ t1 with encoder := { next := (t.chan n).place } }).mediaCharge.conclude
      else (t.setFld Reg.MEDIA_ENC0 Fd.MEDIA_ENC0_EN 0).setFld Reg.MEDIA_ENC0 Fd.MEDIA_ENC0_CFG_ERR 1
    | true, false => ({ t with encoder := {} }).mediaCharge.conclude
    | _, _ => t)

/-- ENCODER_ENABLE: a write of MEDIA_ENC0 (R655). -/
def execEncoderEnable (o : Origin) (value : Word) (s : State) : Host.Outcome State Fault Refusal :=
  s.whenUp (fun s => s.writeEncoder o value)

/-- The encoder is done with a sample: the slot of the last of a batch is released where REL is set (R655). -/
def State.encRelease (s : State) : State :=
  let n := s.encChan
  let s1 := { s with encoder := { s.encoder with next := s.encoder.next + 1, active := false } }
  if s.encFld Fd.MEDIA_ENC0_REL = 1 ∧ s1.encoder.next % s.chBatch n = 0 then s1.knotAdd (s.fld (Reg.CH_KNOT n) Fd.CH_KNOT_REL_KNOT) 1 else s1

/-- ENCODE_START: the sample knot announces the next sample; its picture is encoded, or skipped where no output entry is
submitted, and the next is then an IDR picture (R655). -/
def execEncodeStart (s : State) : Host.Outcome State Fault Refusal :=
  s.whenUp (fun s =>
    let n := s.encChan
    let e := s.encoder
    let gop := max 1 (s.encFld Fd.MEDIA_ENC0_GOP)
    if s.bit Reg.MEDIA_ENC0 Fd.MEDIA_ENC0_EN ∧ s.holdsGrant .decoder ∧ !e.active ∧ e.next < s.knot (s.fld (Reg.CH_KNOT n) Fd.CH_KNOT_SAMPLE_KNOT) then
      if e.queue.waiting then
        let idr := e.forceIdr || decide (gop ≤ e.count)
        { s with encoder := { e with active := true, idr := idr, forceIdr := false, count := if idr then 1 else e.count + 1 } }
      else
        let s1 := ({ s with encoder := { e with forceIdr := true } }).bump Reg.MEDIA_ENC_SKIP noUnit
        s1.encRelease.conclude
    else s)

/-- A finished access unit: its bytes to the entry's buffer, the entry's completion words, the queue past it (R655). -/
def State.unitOut (s : State) (bytes : List Byte) : State :=
  let e := s.encoder
  let n := s.encChan
  let a := s.outputArea
  let seq := e.queue.head
  let entry := s.sourceEntry a seq
  let at' := a.entry seq
  let b := s.chBatch n
  let seal' := s.slotCtl n (e.next / b % s.chNbuf n) + 0x200 + 32 * (e.next % b)
  let time := ofLe (s.peekBytes seal' 8)
  let sid := bits (ofLe (s.peekBytes (seal' + 16) 8)) 63 32
  let out := bytes.take entry.size
  let s1 := s.store (s.place entry.addr) out
  let s2 := s1.store (at' + 8) (leBytes 8 time ++ leBytes 8 (out.length * 2 ^ 32 + sid) ++
    leBytes 8 (e.idr.toNat * 2 ^ 49 + seq))
  let q : Ring := { e.queue with head := (seq + 1) % 2 ^ 32 }
  let q1 := q.entryDone seq
  ({ s2 with encoder := { e with queue := q1 } }).queueStatus a q1

/-- ACCESS_UNIT_DONE: the encoder writes the access unit and its entry and adds 1 to its knot (R362, R655). -/
def execAccessUnitDone (bytes : List Byte) (s : State) : Host.Outcome State Fault Refusal :=
  s.whenUp (fun s =>
    if s.bit Reg.MEDIA_ENC0 Fd.MEDIA_ENC0_EN ∧ s.encoder.active then
      ((s.unitOut bytes).encRelease.knotAdd (s.fld Reg.MEDIA_ENC2 Fd.MEDIA_ENC2_KNOT) 1).conclude
    else s)

/-! ### Doorbells (R254, R257 to R259, R285, R358) -/

/-- The doorbell word of a unit, whether it is enabled and whether it is polled. -/
def State.doorbell (s : State) (u : PollUnit) : Nat × Bool × Bool :=
  match u with
  | .ring n => (s.ringDb n, s.bit (Reg.RING_CFG n) Fd.RING_CFG_EN, s.bit (Reg.RING_CFG n) Fd.RING_CFG_POLLED)
  | .source c => ((s.sourceArea c).base, s.bit (Reg.CH_SRC c) Fd.CH_SRC_EN && s.chSrc c Fd.CH_SRC_KIND != 0, s.bit (Reg.CH_QUEUE c) Fd.CH_QUEUE_POLLED)
  | .output => (s.outputArea.base, s.bit Reg.MEDIA_ENC0 Fd.MEDIA_ENC0_EN, false)

/-- The polling state and the queue of a unit. -/
def State.unitRing (s : State) (u : PollUnit) : Ring :=
  match u with
  | .ring n => s.ring n
  | .source c => (s.chan c).queue
  | .output => s.encoder.queue

def State.setUnitRing (s : State) (u : PollUnit) (r : Ring) : State :=
  match u with
  | .ring n => s.setRing n r
  | .source c => s.modChan c (fun x => { x with queue := r })
  | .output => { s with encoder := { s.encoder with queue := r } }

/-- Reads a unit's doorbell. -/
def State.readUnit (s : State) (u : PollUnit) : State :=
  match u with
  | .ring n => s.pickUp n
  | .source c => s.modChan c (fun x => { x with queue := s.readDoorbell (s.sourceArea c) x.queue })
  | .output => { s with encoder := { s.encoder with queue := s.readDoorbell s.outputArea s.encoder.queue } }

/-- DOORBELL_WRITE: an on-device host's store to a doorbell word becomes visible; a watched doorbell is read (R258). -/
def execDoorbellWrite (u : PollUnit) (value : Word) (s : State) : Host.Outcome State Fault Refusal :=
  s.whenUp (fun s =>
    let (a, en, polled) := s.doorbell u
    let s1 := s.store a (leBytes 8 value.toNat)
    if en ∧ !polled then s1.readUnit u else s1)

/-- POLL_US of a unit in ns: 0 acts as 1, above 1,000 as 1,000 (R259, R287, R369). -/
def State.pollNs (s : State) (u : PollUnit) : Nat :=
  1000 * min 1000 (max 1 (match u with
    | .ring n => s.fld (Reg.RING_CFG n) Fd.RING_CFG_POLL_US
    | .source c => s.fld (Reg.CH_QUEUE c) Fd.CH_QUEUE_POLL_US
    | .output => 1))

/-- Does a unit's poll interval end now? -/
def State.pollDue (s : State) (u : PollUnit) : Bool := decide ((s.unitRing u).polledAt + s.pollNs u ≤ s.now)

/-- The poll interval of a unit ends. -/
def State.pollTick (s : State) (u : PollUnit) : State := s.setUnitRing u { s.unitRing u with polledAt := s.now }

/-- A poll: the doorbell is read; polling stops when TAIL is unchanged and everything fetched is done (R259), and goes on when the read
gives poison (R567). -/
def State.poll (s : State) (u : PollUnit) (far : List FarRead) : State :=
  let old := (s.unitRing u).lastTail
  let who := match u with
    | .ring n => 0x10 + ringVi n
    | _ => 0
  let s1 := (s.learn who far).readUnit u
  let r := s1.unitRing u
  if !s1.readFails (s1.doorbell u).1 8 ∧ r.lastTail = old ∧ r.head = r.retired then s1.setUnitRing u { r with polling := false } else s1

/-- DOORBELL_POLL: the poll interval of a polled ring or source queue ends; an idle one reads nothing (R259). -/
def execDoorbellPoll (u : PollUnit) (far : List FarRead) (s : State) : Host.Outcome State Fault Refusal :=
  s.whenUp (fun s =>
    let (_, en, polled) := s.doorbell u
    if !en ∨ !polled ∨ !s.pollDue u then s
    else if (s.unitRing u).polling then (s.pollTick u).poll u far
    else s.pollTick u)

/-- May an origin write RING_WAKE for a ring: the hypervisor any, the USB4 host of an instance, through its virtual function, its own; the
physical function has no view of RING_WAKE (R285, R562). -/
def mayWake (o : Origin) (n : Nat) : Bool :=
  match o with
  | .hypervisor => true
  | .vi v => ringVi n == v
  | _ => false

/-- RING_WAKE: polling of a polled ring resumes at once; nothing is audited (R259, R285). -/
def State.ringWake (s : State) (o : Origin) (n : Nat) (far : List FarRead) : State :=
  if mayWake o n ∧ n < ringCount ∧ s.bit (Reg.RING_CFG n) Fd.RING_CFG_EN ∧ s.bit (Reg.RING_CFG n) Fd.RING_CFG_POLLED then
    (s.setRing n { s.ring n with polling := true, polledAt := s.now }).poll (.ring n) far
  else s

/-- RING_WAKE: a write of RING_WAKE. -/
def execRingWake (o : Origin) (n : Nat) (far : List FarRead) (s : State) : Host.Outcome State Fault Refusal :=
  s.whenUp (fun s => s.ringWake o n far)

end Sys2Proof.Machine
end

