-- ==== Sys2Proof/Machine/Frames.lean ====
section
/-! DEFINITION. Frame queues of the CAN controllers and of switch port 6 (R586 to R588, R605). -/

namespace Sys2Proof.Machine

/-! ### The queues -/

/-- Is a queue one of the device's? -/
def fqValid : FrameQ → Bool
  | .can n k => decide (n < 16) && decide (k < 6)
  | .tsn k => decide (k < 16)

/-- Is a queue a transmit queue? -/
def fqTx : FrameQ → Bool
  | .can _ k => decide (k < 4)
  | .tsn k => decide (k < 8)

/-- The register of a queue, that of its knot, its power domain, the key of its state. -/
def fqReg : FrameQ → Nat
  | .can n k => Reg.GWY_CAN_Q n k
  | .tsn k => Reg.TSN_Q k
def fqKnot : FrameQ → Nat
  | .can n k => Reg.GWY_CAN_QKNOT n k
  | .tsn k => Reg.TSN_QKNOT k
def fqDomain : FrameQ → Nat
  | .can n _ => 219 + n / 4
  | .tsn _ => 218
def fqKey : FrameQ → Nat
  | .can n k => 6 * n + k
  | .tsn k => 96 + k

/-- The device's queues. -/
def fqAll : List FrameQ :=
  (List.range 16).flatMap (fun n => (List.range 6).map (fun k => FrameQ.can n k)) ++ (List.range 16).map FrameQ.tsn

/-- A queue beside its register: HEAD, RETIRED, entries taken as sequence number and words with the instant of taking last. -/
def State.fq (s : State) (q : FrameQ) : Ring := Sparse.get (fun _ => {}) (fqKey q) s.nets.queues
def State.setFq (s : State) (q : FrameQ) (r : Ring) : State :=
  { s with nets := { s.nets with queues := Sparse.put (fun _ => {}) (fqKey q) r s.nets.queues } }

/-- A queue's area (R586): the doorbell carries GEN. -/
def State.fqArea (s : State) (q : FrameQ) : QueueArea :=
  ⟨s.fld (fqReg q) Fd.GWY_CAN_Q_QBASE * 64, sizeOfCode (s.fld (fqReg q) Fd.GWY_CAN_Q_SIZE_CODE), s.fld (fqReg q) Fd.GWY_CAN_Q_GEN⟩

/-- Is a queue enabled, with its unit powered? -/
def State.fqOn (s : State) (q : FrameQ) : Bool := fqValid q && s.bit (fqReg q) Fd.GWY_CAN_Q_EN && s.domainOn (fqDomain q)

/-! ### Entries (R586, R587) -/

/-- ADDR, SIZE and LENGTH of an entry. -/
def entryAddr (ws : List Nat) : Nat := wordBits ws 0 47 0
def entrySize (ws : List Nat) : Nat := wordBits ws 1 63 48
def entryLen (ws : List Nat) : Nat := wordBits ws 1 47 32

/-- The CAN frame that a transmit entry describes, with its data. -/
def State.entryFrame (s : State) (ws : List Nat) : CanFrame :=
  { fmt := wordBits ws 3 31 30, ide := wordBits ws 3 29 29 == 1, id := wordBits ws 3 28 0
    rtr := wordBits ws 2 2 2 == 1, brs := wordBits ws 2 0 0 == 1, esi := wordBits ws 2 1 1 == 1, sec := wordBits ws 2 3 3 == 1
    sdt := wordBits ws 2 15 8, vcid := wordBits ws 2 23 16, af := wordBits ws 3 63 32
    data := s.readBytes (entryAddr ws) (entryLen ws) }

/-- Has a controller enabled a frame's format, and does the frame keep within it (R581)? -/
def State.canFormat (s : State) (n : Nat) (f : CanFrame) (len : Nat) : Bool :=
  (match f.fmt with
  | 0 => decide (len ≤ 8)
  | 1 => s.bit (Reg.GWY_CAN_CFG n) Fd.GWY_CAN_CFG_FD_EN && decide (len ≤ 64)
  | 2 => s.bit (Reg.GWY_CAN_CFG n) Fd.GWY_CAN_CFG_XL_EN && !f.ide && decide (1 ≤ len) && decide (len ≤ 2048)
  | _ => false) && (f.ide || decide (f.id < 2048))

/-- Does an entry complete with BAD: a reserved bit set, SIZE or SEQ wrong, and in a transmit queue LENGTH above SIZE, a format that
is not enabled, or a buffer that reads as poison (R587)? -/
def State.fqBad (s : State) (q : FrameQ) (seq : Nat) (ws : List Nat) : Bool :=
  wordBits ws 0 63 48 != 0 || wordBits ws 1 31 0 != seq || entrySize ws == 0 || decide (16384 < entrySize ws) || !s.dmaOk (entryAddr ws) (entrySize ws) ||
  (fqTx q && (decide (entrySize ws < entryLen ws) || s.readFails (entryAddr ws) (entryLen ws) || (match q with
    | .can n _ => wordBits ws 2 7 4 != 0 || !s.canFormat n (s.entryFrame ws) (entryLen ws)
    | .tsn _ => wordBits ws 2 7 1 != 0 || wordBits ws 3 31 0 != 0)))

/-- Writes the device-written words of an entry and its status word: the entry is done (R587 steps 1 and 2). -/
def State.fqDone (s : State) (q : FrameQ) (seq w1 w2 w3 : Nat) : State :=
  let a := s.fqArea q
  let r := s.fq q
  let s1 := s.store (a.entry seq + 8) (leBytes 8 w1 ++ leBytes 8 w2 ++ leBytes 8 w3)
  let r1 := { r with fetched := r.fetched.filter (fun e => e.1 != seq) }.entryDone seq
  (s1.setFq q r1).queueStatus a r1

/-- Step 3: the queue's knot takes the number of entries completed. -/
def State.fqSignal (s : State) (q : FrameQ) (n : Nat) : State := (s.knotAdd (s.fld (fqKnot q) Fd.GWY_CAN_QKNOT_QKNOT) n).conclude

/-- W2 of a completed entry: TIME and STATUS over what software set. -/
def doneW2 (ws : List Nat) (time status : Nat) : Nat := time % 2 ^ 32 * 2 ^ 32 + status * 2 ^ 24 + wordBits ws 2 23 0

/-- A transmit entry completes with a status. -/
def State.fqSent (s : State) (q : FrameQ) (seq : Nat) (ws : List Nat) (time status : Nat) : State :=
  (s.fqDone q seq (ws.getD 1 0) (doneW2 ws time status) (ws.getD 3 0)).fqSignal q 1

/-- Entries at the front of a queue that are not good complete with BAD, in order. -/
def State.fqSettle : Nat → State → FrameQ → State
  | 0, s, _ => s
  | n + 1, s, q =>
    match (s.fq q).fetched with
    | [] => s
    | (seq, ws) :: _ =>
      if s.fqBad q seq ws then
        let s1 := s.noteRead (entryAddr ws) (entrySize ws)
        State.fqSettle n (s1.fqSent q seq ws s.now 4) q
      else s

/-- The entries that a doorbell announces are taken, with the instant; one that reads as poison stops the queue. -/
def State.fqTake : Nat → State → FrameQ → State
  | 0, s, _ => s
  | n + 1, s, q =>
    let r := s.fq q
    let a := s.fqArea q
    if r.waiting && decide ((r.head + 2 ^ 32 - r.retired) % 2 ^ 32 < a.size) && !s.readFails (a.entry r.head) 32 then
      let r1 := { r with fetched := r.fetched ++ [(r.head, s.wordsAt (a.entry r.head) 4 ++ [s.now])], head := (r.head + 1) % 2 ^ 32 }
      State.fqTake n ((s.setFq q r1).queueStatus a r1) q
    else s

/-- The doorbell of a queue is observed. -/
def State.fqObserve (s : State) (q : FrameQ) : State :=
  let a := s.fqArea q
  let s1 := s.setFq q (s.readDoorbell a (s.fq q))
  State.fqSettle a.size (State.fqTake a.size s1 q) q

/-- QUEUE_DOORBELL: software's store to a queue's doorbell is observed (R587). -/
def execQueueDoorbell (q : FrameQ) (value : Word) (s : State) : Host.Outcome State Fault Refusal :=
  s.whenUp (fun s =>
    if fqValid q then
      let s1 := s.store (s.fqArea q).base (leBytes 8 value.toNat)
      if s1.fqOn q then s1.fqObserve q else s1
    else s)

/-- A frame arrives at a receive queue: the oldest submitted entry takes it, cut to its SIZE; with none it is discarded and
counted (R587, R588). Words W2 [23:0] and W3 come from the frame. -/
def State.fqReceive (s : State) (q : FrameQ) (bs : List Byte) (time low w3 : Nat) : State :=
  match (s.fq q).fetched with
  | [] =>
    match q with
    | .can n _ => s.bump (Reg.GWY_RX_NOBUF n) n
    | .tsn _ => s.bump (Reg.TSN_RX_NOBUF 6) 6
  | (seq, ws) :: _ =>
    let size := entrySize ws
    let status := if size < bs.length then 2 else 0
    let s1 := s.store (entryAddr ws) (bs.take size)
    let w1 := size * 2 ^ 48 + bs.length % 2 ^ 16 * 2 ^ 32 + seq
    let s2 := (s1.fqDone q seq w1 (time % 2 ^ 32 * 2 ^ 32 + status * 2 ^ 24 + low) w3).fqSignal q 1
    State.fqSettle (s2.fqArea q).size s2 q

/-! ### Enable, disable, removal of the owner (R587, R605) -/

/-- Every pending entry completes with FLUSHED, in order; the knot takes their number. -/
def State.fqFlush (s : State) (q : FrameQ) : State :=
  let l := (s.fq q).fetched
  let s1 := l.foldl (fun a e => a.fqDone q e.1 (e.2.getD 1 0) (doneW2 e.2 a.now 3) (e.2.getD 3 0)) s
  if l.isEmpty then s1 else s1.fqSignal q l.length

/-- A write of a queue's register: EN to 1 advances GEN and starts an empty queue, EN to 0 flushes. -/
def State.writeFq (s : State) (o : Origin) (q : FrameQ) (value : Word) : State :=
  let k := fqReg q
  if fqValid q then
    s.writeBy o k value (fun a b =>
      if !a.bit k Fd.GWY_CAN_Q_EN && b.bit k Fd.GWY_CAN_Q_EN then
        let b1 := (b.setFld k Fd.GWY_CAN_Q_GEN (b.fld k Fd.GWY_CAN_Q_GEN + 1)).setFq q {}
        b1.queueStatus (b1.fqArea q) {}
      else if a.bit k Fd.GWY_CAN_Q_EN && !b.bit k Fd.GWY_CAN_Q_EN then b.fqFlush q
      else b)
  else s.refuseTo o

/-- QUEUE_ENABLE: a write of a queue's register with EN 1. -/
def execQueueEnable (o : Origin) (q : FrameQ) (value : Word) (s : State) : Host.Outcome State Fault Refusal :=
  s.whenUp (fun s => s.writeFq o q (Fd.GWY_CAN_Q_EN.put value 1))

/-- QUEUE_DISABLE: a write of a queue's register with EN 0. -/
def execQueueDisable (o : Origin) (q : FrameQ) (value : Word) (s : State) : Host.Outcome State Fault Refusal :=
  s.whenUp (fun s => s.writeFq o q (Fd.GWY_CAN_Q_EN.put value 0))

/-- The queues of an owner that is removed are flushed. -/
def State.flushOwned (s : State) (t : Nat) : State :=
  (fqAll.filter (fun q => s.bit (fqReg q) Fd.GWY_CAN_Q_EN && s.fld (fqReg q) Fd.GWY_CAN_Q_OWNER == t)).foldl State.fqFlush s

end Sys2Proof.Machine
end

