-- ==== Sys2Proof/Machine/Reset.lean ====
section
/-! DEFINITION. Entry into reset: what is lost, what outlasts it (R36, R642, R670, R671, R673). -/

namespace Sys2Proof.Machine

/-- The device enters reset: every register at its reset value, DRAM and all engines empty, outputs in their states in reset
(R671, R673). The levels of the input pins, a latched trip, xSPI NOR and RPMB outlast it (R477, R494, R499, R661). -/
def State.enterReset (s : State) : State :=
  { State.reset with
    free := s.free
    out := s.out
    sys := { resetN := s.sys.resetN, pwrok := s.sys.pwrok, coreLow := s.sys.coreLow, dramLow := s.sys.dramLow, tripped := s.sys.tripped }
    trust := { store := s.trust.store }
    journal := s.journal
    epochs := s.epochs
    pending := s.pending }

/-- Has every cause of reset that a pin or a sensor holds been released (R671)? -/
def Sys.released (y : Sys) : Bool := y.pwrok && !y.coreLow && !y.dramLow && !y.tripped

/-! ### Pins and supplies (R661, R670 to R672) -/

/-- RESET_N_LOW: RESET_N goes low. -/
def execResetNLow (s : State) : Host.Outcome State Fault Refusal :=
  .next { s with sys := { s.sys with resetN := false } }.enterReset

/-- PWROK_FALL: PWROK goes low; a latched trip ends with it (R661, R672). -/
def execPwrokFall (s : State) : Host.Outcome State Fault Refusal :=
  .next { s with sys := { s.sys with pwrok := false, tripped := false } }.enterReset

/-- PWROK_RISE: every rail is in its operating range and PWROK goes high; reset goes on until RESET_N rises (R670). -/
def execPwrokRise (s : State) : Host.Outcome State Fault Refusal :=
  .next { s with sys := { s.sys with pwrok := true, coreLow := false, dramLow := false } }

/-- SUPPLY_UNDERVOLT: VDD_DRAM or else VDD_CORE falls below its reset threshold (R671). -/
def execSupplyUndervolt (dram : Bool) (s : State) : Host.Outcome State Fault Refusal :=
  .next { s with sys := { s.sys with dramLow := s.sys.dramLow || dram, coreLow := s.sys.coreLow || !dram } }.enterReset

/-- THERMAL_TRIP: a sensor passes its trip temperature while PWROK is high; THERM_TRIP_N goes low and reset is held until PWROK
falls (R661). -/
def execThermalTrip (s : State) : Host.Outcome State Fault Refusal :=
  .next (if s.sys.pwrok then { s with sys := { s.sys with tripped := true } }.enterReset else s)

end Sys2Proof.Machine
end

