-- ==== Sys2Proof/Machine/Safe.lean ====
section
/-! DEFINITION. The safety mechanisms: the comparator's verdict, lockstep pairs, rotating self-test, coverage, the error pins
(R436 to R468). -/

namespace Sys2Proof.Machine

/-! ### The comparator (R436 to R439) -/

/-- The elements of a tensor in the order (n, h, w, c). -/
def tensorElems (t : Tensor) : List (Nat × Nat × Nat × Nat) :=
  (List.range t.n).flatMap (fun n => (List.range t.h).flatMap (fun y => (List.range t.w).flatMap (fun x =>
    (List.range t.c).map (fun c => (n, y, x, c)))))

/-- The place of an element's first byte. -/
def State.elemPlace (s : State) (t : Tensor) (e : Nat × Nat × Nat × Nat) : Nat :=
  s.place t.addr + t.pixel e.1 e.2.1 e.2.2.1 + t.bits * e.2.2.2 / 8

/-- The element of the checker's output that an element of the main output is compared with (R433). -/
def Tensor.ckElem (t : Tensor) (tr : Nat) (e : Nat × Nat × Nat × Nat) : Nat × Nat × Nat × Nat :=
  (e.1, e.2.1, t.fromX tr e.2.2.1, t.toC tr e.2.2.2)

/-- Is an element elided by the zero map that a copy wrote? -/
def State.elemElided (s : State) (j : Job) (ck : Bool) (t : Tensor) (e : Nat × Nat × Nat × Nat) : Bool :=
  t.elided (s.overlay j ck) (s.place t.zmapAddr) e.1 e.2.1 e.2.2.1 e.2.2.2

/-- Did a copy write an element: its own bytes, or the zero-map bit that elides it? -/
def State.elemWritten (s : State) (j : Job) (ck : Bool) (t : Tensor) (e : Nat × Nat × Nat × Nat) : Bool :=
  let has := fun a => (Sparse.get (fun _ => none) a (j.pending ck)).isSome
  if s.elemElided j ck t e then has (s.place t.zmapAddr + t.blockNo e.1 e.2.1 e.2.2.1 e.2.2.2 / 8) else has (s.elemPlace t e)

/-- The value of an element of a copy's output: element × scale for integer and MX formats (R436, R146); `at?` is the element's
own place, `c` the channel whose scale of an AUX array applies. -/
def State.elemNum (s : State) (j : Job) (ck : Bool) (t : Tensor) (e : Nat × Nat × Nat × Nat) (c : Nat) : Num :=
  let rd := s.overlay j ck
  let v := elemValue t.fmt (t.code rd (s.place t.addr) (s.place t.zmapAddr) e.1 e.2.1 e.2.2.1 e.2.2.2)
  if isMx t.fmt then v.mul (scaleValue (t.scaleAt rd (s.place t.aux) (s.place t.zmapAddr) e.1 e.2.1 e.2.2.1 e.2.2.2))
  else if t.fmt ≤ 2 ∨ 9 < t.fmt then
    v.mul (ofFp32 (if t.aux = 0 then t.scale else ofLe ((List.range 4).map (fun i => s.peekByte (s.place t.aux + 4 * c + i)))))
  else v

/-- Does an element pass (R436, R437)? The checker's value is halved under SCALE. -/
def State.elemPasses (s : State) (j : Job) (t : Tensor) (e : Nat × Nat × Nat × Nat) : Bool :=
  let tr := j.pat.transform
  let yc := s.elemNum j true t (t.ckElem tr e) e.2.2.2
  let back := if t.doubles tr then yc.mul (.fin false 1 (-1)) else yc
  elementPasses (s.elemNum j false t e e.2.2.2) back (tolAbs t.tol) (tolRel t.tol) (tr / 4 % 2 == 1)

/-- The first element at which a compared output fails; none if it passes. A failure of the whole output counts from its first
element (R437, R439). -/
def State.outputFails (s : State) (j : Job) (t : Tensor) : Option (Nat × Nat × Nat × Nat) :=
  let es := tensorElems t
  let tr := j.pat.transform
  let main := es.filter (fun e => s.elemWritten j false t e)
  let ck := es.filter (fun e => s.elemWritten j true t (t.ckElem tr e))
  let void := (!main.isEmpty && (j.voided || j.inVoid)) || (!ck.isEmpty && (j.voidedCk || j.inVoid))
  if void || Num.le (.fin false 1 0) (ofFp32 (tolRel t.tol)) || main.length != ck.length ||
      es.any (fun e => s.elemElided j false t e != s.elemElided j true t (t.ckElem tr e)) then some (es.headD (0, 0, 0, 0))
  else main.find? (fun e => !s.elemPasses j t e)

/-- The first failing compared output in binding order, with its first failing element. -/
def State.compareFails (s : State) (j : Job) : Option (Nat × Nat × Nat × Nat × Nat) :=
  (List.range j.tens.length).findSome? (fun b =>
    let t := j.tensor b
    if t.role = 2 then (s.outputFails j t).map (fun e => (b, e)) else none)

/-- The logical core that wrote a line of a copy; for a line that the copy did not write, the core that wrote its first line
(R439). -/
def Job.writer (j : Job) (ck : Bool) (a : Nat) : Option Nat :=
  let m := if ck then j.lineOwnerCk else j.lineOwner
  let k := Sparse.get (fun _ => 0) (a / 64) m
  if k = 0 then m.head?.map (fun x => x.2 - 1) else some (k - 1)

/-- A core declared lasting by CMP_MISMATCH: withdrawn, with its golden run due at once; a second declaration within WIN darns it
without a test (R439). -/
def State.lastingCore (s : State) (n : Nat) (jrnl : Bool) : State :=
  let win := (s.srcWindow 0).2
  let again : Bool := match (s.core n).retested with
    | some t => win == 0 || decide (s.now - t ≤ win)
    | none => false
  if again then s.darnCore n jrnl
  else
    let s1 := s.modCore n (fun c => { c with withdrawn := true, retested := some s.now })
    { s1 with watch := { s1.watch with due := if s1.watch.due.contains n then s1.watch.due else s1.watch.due ++ [n] } }.checkReservations

/-- One event of CMP_MISMATCH for a core. -/
def State.chargeCore (s : State) (c : Option Nat) (jrnl : Bool) : State :=
  match c with
  | none => s
  | some n =>
    let (s1, lasting) := s.reportLasting 0 n
    if lasting then s1.lastingCore n jrnl else s1

/-- A failed comparison: recorded, and charged to the two cores that wrote the first failing element (R439, R466). -/
def State.mismatch (s : State) (j : Job) (b : Nat) (e : Nat × Nat × Nat × Nat) (jrnl : Bool) : State :=
  let t := j.tensor b
  let m := j.writer false (s.elemPlace t e)
  let c := j.writer true (s.elemPlace t (t.ckElem j.pat.transform e))
  let w := j.ring * 2 ^ 54 + m.getD 0 * 2 ^ 47 + c.getD 0 * 2 ^ 40 + b * 2 ^ 32 + j.seq
  let s1 := (s.setReg Reg.SAFE_CMP_REC0 (BitVec.ofNat 64 s.now)).setReg Reg.SAFE_CMP_REC1 (BitVec.ofNat 64 w)
  (s1.chargeCore m jrnl).chargeCore c jrnl

/-- A comparator gives its verdict: late ones are counted, its grant ends, the job commits once it has all verdicts
(R437, R438). -/
def State.compared (s : State) (t : CmpTask) (k : Nat) (j : Job) (jrnl : Bool) : State :=
  let s1 := { s with checkers := { s.checkers with cmps := s.checkers.cmps.filter (fun u => u != t) } }.alwDrop (.comparator k)
  let s2 := if t.since + 1000000 < s.now then s1.bump Reg.SAFE_CMP_LATE_CNT noUnit else s1
  match s.compareFails j with
  | none => (s2.modJob j.ring j.seq (fun i => { i with compared := true })).conclude
  | some (b, e) => ((s2.modJob j.ring j.seq (fun i => { i with compared := true, verdict := some b })).mismatch j b e jrnl).conclude

/-- COMPARE_DONE: a comparator that holds its grant gives its verdict; `jrnl` says whether the journal record of a darning that
follows verifies. -/
def execCompareDone (comparator : Nat) (jrnl : Bool) (s : State) : Host.Outcome State Fault Refusal :=
  s.whenUp (fun s =>
    match s.checkers.cmps.find? (fun t => t.unit == some comparator && t.granted) with
    | none => s
    | some t =>
      match s.job? t.ring t.seq with
      | none => s
      | some j => s.compared t comparator j jrnl)

/-! ### Safety pairs (R441, R442, R523) -/

def State.pair (s : State) (p : Nat) : Pair := Sparse.get (fun _ => {}) p s.watch.pairs
def State.setPair (s : State) (p : Nat) (x : Pair) : State :=
  { s with watch := { s.watch with pairs := Sparse.put (fun _ => {}) p x s.watch.pairs } }

/-- A divergence halts the pair and is reported (R442). -/
def State.diverge (s : State) (p : Nat) : State := (s.setPair p { s.pair p with halted := true }).report 1 p

/-- LOCKSTEP_DIVERGENCE: the checker of a running pair finds a divergence. -/
def execLockstepDivergence (pair : Nat) (s : State) : Host.Outcome State Fault Refusal :=
  s.whenUp (fun s => if pair < 2 ∧ (s.pair pair).runs ∧ !(s.pair pair).halted then s.diverge pair else s)

/-- PAIR_RESTART: Selvage has reset a halted pair and restarts it from its verified image; its secure leases ended with the
reset, its root lease starts anew (R442, R483, R523). -/
def execPairRestart (pair : Nat) (s : State) : Host.Outcome State Fault Refusal :=
  s.whenUp (fun s =>
    if pair < 2 ∧ (s.pair pair).runs ∧ (s.pair pair).halted then
      let s1 := s.setPair pair { runs := true }
      { s1 with
        watch := { s1.watch with
          secLeases := s1.watch.secLeases.filter (fun x => x.2 != .pair pair)
          roots := Sparse.put (fun _ => 0) (25 + pair) (s1.now + 500000) s1.watch.roots }
        darn := { s1.darn with expired := s1.darn.expired.erase (25 + pair) } }
    else s)

/-! ### Rotating self-test (R451 to R455) -/

/-- A slot of the table. -/
def State.stSlot (s : State) (k : Nat) : StSlot := Sparse.get (fun _ => {}) k s.watch.slots
def State.setStSlot (s : State) (k : Nat) (x : StSlot) : State :=
  { s with watch := { s.watch with slots := Sparse.put (fun _ => {}) k x s.watch.slots } }

/-- Best-effort work on a core is preempted at test rank, if the save pool has room (R311, R312). -/
def State.preemptBe (s : State) (n : Nat) : State :=
  match s.jobOf n with
  | none => s
  | some j => if s.ringCls j.ring = .be ∧ (j.stage = .running ∨ j.stage = .placed) then (s.preemptOne j .test).1 else s

/-- The logical cores in service that a slot covers. -/
def State.slotCores (s : State) (x : StSlot) : List Nat :=
  (panelCores x.panel).filter (fun n => x.mask / 2 ^ (n % 8) % 2 == 1 && s.inService n)

/-- A SELFTEST tack opens its slot: the cores are requested at test class and best-effort work on them is preempted (R452). -/
def State.openSlot (s : State) (k : Nat) : State :=
  let x := s.stSlot k
  let cs := s.slotCores x
  if x.en && !cs.isEmpty && !s.watch.opened.any (fun o => o.slot == k) then
    (cs.foldl State.preemptBe { s with watch := { s.watch with opened := s.watch.opened ++ [⟨k, cs, false⟩] } }).startTests
  else s

/-- Is a latency-critical or test job on one of a slot's cores (R452)? -/
def State.coresHeld (s : State) (cs : List Nat) : Bool :=
  cs.any (fun n => match s.jobOf n with
    | some j => s.ringCls j.ring != .be
    | none => false)

/-- The clash check: a latency-critical occurrence within SPAN_NS whose held descriptors are placed on the slot's cores (R452). -/
def State.clashes (s : State) (x : StSlot) (cs : List Nat) : Bool :=
  s.tacks.any (fun t => t.2.enable && !t.2.spent && t.2.action == 1 && s.ringCls t.2.target == .lc && decide (t.2.instant / 65536 ≤ s.now + x.span) &&
    s.jobs.any (fun j => j.stage == .held && j.ring == t.2.target && (match j.resv with
      | some r => (r.cores ++ r.ckCores).any cs.contains
      | none => false)))

/-- A slot that is not started releases its cores and is counted (R452). -/
def State.deferSlot (s : State) (o : StOpen) : State :=
  let mine := o.cores.filter (fun n => (s.core n).test == some o.slot)
  let s1 := mine.foldl (fun a n => (a.alwDrop (.core n)).modCore n (fun c => { c with test := none })) s
  ({ s1 with watch := { s1.watch with opened := s1.watch.opened.filter (fun x => x.slot != o.slot) } }.bump Reg.SAFE_DEFER_CNT noUnit).conclude

/-- A comparator is taken out of use (R450, R453). -/
def State.dropComparator (s : State) (k : Nat) : State :=
  { s with checkers := { s.checkers with badCmp := if s.checkers.badCmp.contains k then s.checkers.badCmp else k :: s.checkers.badCmp } }

/-- A started slot passes one failing pair through the next comparator; one that misses it is reported and taken out of use
(R453). The report names it as unit 136 + its number. -/
def State.rotate (s : State) (missed : Bool) : State :=
  let k := s.checkers.rotation
  let s1 := { s with checkers := { s.checkers with rotation := (k + 1) % 8 } }
  if missed ∧ !s.checkers.badCmp.contains k then (s1.dropComparator k).report 9 (136 + k) else s1

/-- SELFTEST_START: an open slot with a core that a latency-critical or test job holds is not started; once its cores are free and
granted it starts, or is deferred by the clash check (R452). -/
def execSelftestStart (slot : Nat) (missed : Bool) (s : State) : Host.Outcome State Fault Refusal :=
  s.whenUp (fun s =>
    match s.watch.opened.find? (fun o => o.slot == slot && !o.started) with
    | none => s
    | some o =>
      if s.coresHeld o.cores then s.deferSlot o
      else if o.cores.all (fun n => (s.core n).test == some slot && s.holdsGrant (.core n)) then
        if s.clashes (s.stSlot slot) o.cores then s.deferSlot o
        else { s with watch := { s.watch with opened := updWhere (fun x => x.slot == slot) (fun x => { x with started := true }) s.watch.opened } }.rotate missed
      else s)

/-- Does a golden run proceed on a core: it holds its grant, and its slot, if it has one, has started? -/
def State.goldenRuns (s : State) (n : Nat) : Bool :=
  s.holdsGrant (.core n) && (match (s.core n).test with
    | none => false
    | some k => k == noSlot || s.watch.opened.any (fun o => o.slot == k && o.started))

/-- The core of an ended golden run is released, its time counted (R455, R296); a slot ends with its last core. -/
def State.endGolden (s : State) (n : Nat) : State :=
  let slot := (s.core n).test.getD noSlot
  let s1 := s.clearTest n
  if slot ≠ noSlot ∧ !s1.watch.opened.any (fun o => o.slot == slot) then s1.setStSlot slot { s1.stSlot slot with last := s.now } else s1

/-- A golden run passes: coverage is recorded and the core returns to service (R439, R454, R455). -/
def State.goldenPass (s : State) (n : Nat) : State :=
  ((s.endGolden n).modCore n (fun c => { c with withdrawn := false })).setReg (Reg.SAFE_COVER (s.physOf n)) (BitVec.ofNat 64 s.now)

/-- GOLDEN_RUN_DONE: a golden run ends; it passes, or its core is reported and darned (R455). -/
def execGoldenRunDone (core : Nat) (pass jrnl : Bool) (s : State) : Host.Outcome State Fault Refusal :=
  s.whenUp (fun s =>
    if s.goldenRuns core then
      (if pass then s.goldenPass core else ((s.endGolden core).report 9 core).darnCore core jrnl).conclude
    else s)

/-! ### Coverage (R454, R464) -/

/-- COVER_MS and the effective WITHDRAW_MS in ns. -/
def State.coverNs (s : State) : Nat := 1000000 * max 1 (s.fld Reg.SAFE_ST_CFG Fd.SAFE_ST_CFG_COVER_MS)
def State.withdrawNs (s : State) : Nat :=
  let c := max 1 (s.fld Reg.SAFE_ST_CFG Fd.SAFE_ST_CFG_COVER_MS)
  1000000 * min (s.fld Reg.SAFE_ST_CFG Fd.SAFE_ST_CFG_WITHDRAW_MS) (c - 1)

/-- The device time of the last pass of the physical core that serves a logical core. -/
def State.lastPass (s : State) (n : Nat) : Nat := (s.reg (Reg.SAFE_COVER (s.physOf n))).toNat

/-- A core reaches its withdrawal instant (R454). -/
def State.withdrawCore (s : State) (n : Nat) : State :=
  let s1 := (s.modCore n (fun c => { c with withdrawn := true })).bump Reg.SAFE_WITHDRAW_CNT noUnit
  ({ s1 with watch := { s1.watch with due := s1.watch.due ++ [n] } }.checkReservations.preemptBe n).conclude

/-- A core that misses its deadline is reported once for that deadline (R454). -/
def State.coverMiss (s : State) (n : Nat) : State :=
  let m := (n, s.lastPass n)
  if s.lastPass n + s.coverNs ≤ s.now ∧ !s.watch.missed.contains m then
    { s with watch := { s.watch with missed := m :: s.watch.missed.filter (fun x => x.1 != n) } }.report 13 n
  else s

/-- COVER_DEADLINE: a core in service reaches its coverage deadline less WITHDRAW_MS and is withdrawn for a golden run, or reaches
the deadline itself uncovered (R454). A core whose panel's shared logic is off does not count (R84). -/
def execCoverDeadline (core : Nat) (s : State) : Host.Outcome State Fault Refusal :=
  s.whenUp (fun s =>
    if core < 128 ∧ s.coreMode core ≠ 3 ∧ s.domainOn (31 + core / 8) ∧ !s.coreDarning core ∧
        s.lastPass core + s.coverNs ≤ s.now + s.withdrawNs then
      let s1 := if s.watch.due.contains core || (s.core core).test.isSome then s else s.withdrawCore core
      s1.coverMiss core
    else s)

/-! ### The error pins and SW_ERR (R461, R464, R465) -/

/-- PIN_MIN_EXPIRE: the least assertion time has run out; the pins follow the demand (R461). -/
def execPinMinExpire (s : State) : Host.Outcome State Fault Refusal :=
  s.whenUp (fun s => if s.safe.minEnd ≤ s.now then s.drivePins else s)

/-- A write of SAFE_PIN: FORCE going to 1 asserts the pins (R461). -/
def State.writeSafePin (s : State) (o : Origin) (value : Word) : State :=
  s.writeBy o Reg.SAFE_PIN value (fun a b =>
    if !a.bit Reg.SAFE_PIN Fd.SAFE_PIN_FORCE && b.bit Reg.SAFE_PIN Fd.SAFE_PIN_FORCE then b.assertPins.drivePins else b.drivePins)

/-- SAFE_FORCE: an origin writes FORCE, the rest of SAFE_PIN as it stands. -/
def execSafeForce (o : Origin) (on : Bool) (s : State) : Host.Outcome State Fault Refusal :=
  s.whenUp (fun s => s.writeSafePin o (Fd.SAFE_PIN_FORCE.put (s.reg Reg.SAFE_PIN) on.toNat))

/-- A write of SAFE_PENDING clears bits, and the pins follow (R461, R465). -/
def State.writePending (s : State) (o : Origin) (value : Word) : State := s.writeBy o Reg.SAFE_PENDING value (fun _ b => b.drivePins)

/-- A write of SAFE_SW_ERR by a safety pair reports source 15 with its code (R456, R465). -/
def State.writeSwErr (s : State) (o : Origin) (value : Word) : State :=
  s.writeBy o Reg.SAFE_SW_ERR value (fun _ b =>
    if o = .safety then
      let code := value.toNat % 2 ^ 32
      { b with safe := { b.safe with swCode := code } }.report 15 0
    else b)

/-- SW_ERR: an origin writes a code to SAFE_SW_ERR. -/
def execSwErr (o : Origin) (code : Word) (s : State) : Host.Outcome State Fault Refusal := s.whenUp (fun s => s.writeSwErr o code)

/-! ### The self-test table (R467) -/

/-- SAFE_ST_SEL in an origin's bank. -/
def stSel (o : Origin) : CmdReg :=
  ⟨bankKey o Reg.SAFE_ST_SEL, Fd.SAFE_ST_SEL_INDEX, Fd.SAFE_ST_SEL_STATUS, [.selvage, .safety], some 2, .register, none⟩

/-- The two words of a slot. -/
def stWords (x : StSlot) : List Nat := [x.en.toNat * 2 ^ 63 + x.panel * 2 ^ 59 + x.mask * 2 ^ 51 + x.span, x.last]

/-- ST_READ: copies a slot into D0 and D1 of the origin's bank. -/
def execStRead (o : Origin) (idx : Nat) (s : State) : Host.Outcome State Fault Refusal :=
  s.whenUp (fun s => s.command o (stSel o) idx (fun s => (s.putWords (bankKey o Reg.SAFE_ST_D0) (stWords (s.stSlot (idx % 256))), 0)))

/-- The least SPAN_NS: the WC run of R451. -/
def goldenWc : Nat := 157630

/-- Stores a slot from D0, if its run length is long enough; the eight bits of MASK name no core outside the panel. -/
def State.stWrite (s : State) (o : Origin) (k : Nat) : State × Nat :=
  let d0 := bankKey o Reg.SAFE_ST_D0
  let span := s.fld d0 Fd.SAFE_ST_D0_SPAN_NS
  if span < goldenWc then (s, 1)
  else
    (s.setStSlot k { s.stSlot k with en := s.bit d0 Fd.SAFE_ST_D0_EN, panel := s.fld d0 Fd.SAFE_ST_D0_PANEL, mask := s.fld d0 Fd.SAFE_ST_D0_MASK,
                                     span := span }, 0)

/-- ST_WRITE: checks and stores a slot from D0. -/
def execStWrite (o : Origin) (idx : Nat) (s : State) : Host.Outcome State Fault Refusal :=
  s.whenUp (fun s => s.command o (stSel o) idx (fun s => s.stWrite o (idx % 256)))

end Sys2Proof.Machine
end

