-- ==== Sys2Proof/Machine/Display.lean ====
section
/-! DEFINITION. The four display pipes: frames, planes and present records, the safety plane, early view (R404 to R429). -/

namespace Sys2Proof.Machine

def State.pipe (s : State) (p : Nat) : Pipe := Sparse.get (fun _ => {}) p s.display.pipes
def State.setPipe (s : State) (p : Nat) (x : Pipe) : State :=
  { s with display := { s.display with pipes := Sparse.put (fun _ => {}) p x s.display.pipes } }
def State.modPipe (s : State) (p : Nat) (f : Pipe → Pipe) : State := s.setPipe p (f (s.pipe p))
def Pipe.plane (x : Pipe) (k : Nat) : Plane := Sparse.get (fun _ => {}) k x.planes

def State.pipeCfg (s : State) (p : Nat) (f : Fld) : Nat := s.fld (Reg.PIPE_CFG p) f
def State.tim0 (s : State) (p : Nat) (f : Fld) : Nat := s.fld (Reg.PIPE_TIM0 p) f
def State.planeCfg (s : State) (p k : Nat) (f : Fld) : Nat := s.fld (Reg.PLANE_CFG p k) f
def State.setStatus (s : State) (p : Nat) (f : Fld) (v : Nat) : State := s.setFld (Reg.PIPE_STATUS p) f v

/-- Has a pipe scanned out: its link is trained and its charge granted (R404, R423)? -/
def State.pipeOn (s : State) (p : Nat) : Bool :=
  s.bit (Reg.PIPE_CFG p) Fd.PIPE_CFG_EN && (s.pipe p).trained && s.holdsGrant (.pipe p)

/-- FRAME_NO of the current frame. -/
def State.frameNo (s : State) (p : Nat) : Nat := s.fld (Reg.PIPE_STATUS p) Fd.PIPE_STATUS_FRAME_NO

/-- Have so many lines passed since the frame started, in device time (R405)? -/
def State.linesPassed (s : State) (p lines : Nat) : Bool :=
  let clk := s.fld (Reg.PIPE_TIM1 p) Fd.PIPE_TIM1_PCLK_KHZ
  decide ((s.pipe p).startAt * clk + lines * s.tim0 p Fd.PIPE_TIM0_HTOTAL * 1000000 ≤ s.now * clk)

/-! ### Pixels (R407, R418) -/

/-- Red, green, blue and alpha. -/
structure Colour where
  r : Nat
  g : Nat
  b : Nat
  a : Nat
  deriving DecidableEq, Repr

/-- n / d of full scale in units of 1 / top, to nearest. -/
def scaleTo (top n d : Nat) : Nat := (2 * top * n + d) / (2 * max 1 d)

/-- A component in [0, 1] as 12-bit fixed point. -/
def fixFrac (f : Frac) : Nat := if f.num ≤ 0 then 0 else if f.den ≤ f.num.toNat then 4095 else scaleTo 4095 f.num.toNat f.den

/-- An FP16 component clamped to 0 to 1 (R407); a NaN is free. -/
def fixHalf (free c : Nat) : Nat :=
  match fp16.decode c with
  | .nan => Config.freeNat free % 4096
  | .inf a => if a then 0 else 4095
  | x => fixFrac (Frac.ofNum x)

/-- The product of two 12-bit fractions, to nearest. -/
def fixMul (a b : Nat) : Nat := scaleTo a b 4095

/-- The address range that a pixel of a buffer is read from. -/
def Shown.pixelAt (b : Shown) (i j : Nat) : List (Nat × Nat) :=
  match b.fmt with
  | 3 => [(b.addr + j * b.pitch + 8 * i, 8)]
  | 4 => [(b.addr + j * b.pitch + 3 * i, 3)]
  | 5 => [(b.addr + j * b.pitch + i, 1), (b.u + j / 2 * b.cpitch + i / 2, 1), (b.v + j / 2 * b.cpitch + i / 2, 1)]
  | 6 => [(b.addr + j * b.pitch + 2 * i, 2), (b.u + j / 2 * b.cpitch + i / 2 * 2, 2), (b.v + j / 2 * b.cpitch + i / 2 * 2, 2)]
  | _ => [(b.addr + j * b.pitch + 4 * i, 4)]

/-- A buffer's pixel (i, j) as 12-bit components, by its FORMAT and the plane's matrix and range (R341, R407). -/
def State.bufferPixel (s : State) (b : Shown) (matrix : Nat) (full : Bool) (i j : Nat) : Colour :=
  let v := fun (k : Nat) => match (b.pixelAt i j)[k]? with
    | some (a, n) => ofLe (s.readBytes a n)
    | none => 0
  let w := v 0
  let c8 := fun (x : Nat) => scaleTo 4095 (x % 256) 255
  match b.fmt with
  | 1 => ⟨c8 (w / 65536), c8 (w / 256), c8 w, c8 (w / 2 ^ 24)⟩
  | 2 => ⟨scaleTo 4095 (bits w 29 20) 1023, scaleTo 4095 (bits w 19 10) 1023, scaleTo 4095 (bits w 9 0) 1023, scaleTo 4095 (bits w 31 30) 3⟩
  | 3 => ⟨fixHalf s.free (bits w 15 0), fixHalf s.free (bits w 31 16), fixHalf s.free (bits w 47 32), fixHalf s.free (bits w 63 48)⟩
  | 4 => ⟨c8 w, c8 (w / 256), c8 (w / 65536), 4095⟩
  | f =>
    let d := if f = 6 then 10 else 8
    let num := fun (k : Nat) => Num.fin false (v k % 2 ^ d) 0
    let m := fun (c : Nat) =>
      if matrix = 0 then fixFrac ⟨(v c % 2 ^ d : Nat), 2 ^ d - 1⟩ else fixFrac (matrixOut matrix c d full (num 0) (num 1) (num 2))
    ⟨m 0, m 1, m 2, 4095⟩

/-- What a plane puts at an active pixel: nothing, a poisoned pixel, or a premultiplied colour under its global ALPHA (R106, R407). -/
inductive PlanePix where
  | none
  | poisoned
  | colour (c : Colour)
  deriving DecidableEq, Repr

def State.planePixel (s : State) (p k x y : Nat) : PlanePix :=
  let f := fun (fd : Fld) => s.planeCfg p k fd
  match ((s.pipe p).plane k).cur with
  | Option.none => .none
  | some b =>
    if f Fd.PLANE_CFG_EN = 1 ∧ b.x ≤ x ∧ x < b.x + b.w ∧ b.y ≤ y ∧ y < b.y + b.h then
      if (b.pixelAt (x - b.x) (y - b.y)).any (fun r => s.readFails r.1 r.2) then .poisoned
      else
        let c := s.bufferPixel b (f Fd.PLANE_CFG_MATRIX) (f Fd.PLANE_CFG_FULL_RANGE == 1) (x - b.x) (y - b.y)
        let ga := scaleTo 4095 (f Fd.PLANE_CFG_ALPHA) 255
        let pre := fun (v : Nat) => fixMul (if f Fd.PLANE_CFG_PREMULT = 1 then v else fixMul v c.a) ga
        .colour ⟨pre c.r, pre c.g, pre c.b, fixMul c.a ga⟩
    else .none

/-- out = src + (1 − α) × dst. -/
def blendOver (src dst : Colour) : Colour :=
  let f := fun (a b : Nat) => min 4095 (a + fixMul (4095 - src.a) b)
  ⟨f src.r dst.r, f src.g dst.g, f src.b dst.b, 4095⟩

/-- The background colour of a pipe. -/
def State.background (s : State) (p : Nat) : Colour :=
  let bg := s.pipeCfg p Fd.PIPE_CFG_BG
  ⟨scaleTo 4095 (bits bg 29 20) 1023, scaleTo 4095 (bits bg 19 10) 1023, scaleTo 4095 (bits bg 9 0) 1023, 4095⟩

/-- A 12-bit component at the output depth, in a field of 10 bits (R407, R419). -/
def outComp (ten : Bool) (v : Nat) : Nat := if ten then scaleTo 1023 v 4095 else scaleTo 255 v 4095 * 4

/-- The planes of an active pixel blended; the mark says that a plane's data was poisoned. -/
def State.blend (s : State) (p x y : Nat) : Nat × Bool :=
  let ps := (List.range 8).map (fun k => s.planePixel p k x y)
  let bad := ps.contains .poisoned
  let bg := s.background p
  let c := if bad then bg else ps.foldl (fun d q => match q with
    | .colour src => blendOver src d
    | _ => d) bg
  let ten := s.bit (Reg.PIPE_CFG p) Fd.PIPE_CFG_BPC10
  (outComp ten c.r * 2 ^ 20 + outComp ten c.g * 2 ^ 10 + outComp ten c.b, bad)

/-- A telltale entry's fields (R416). -/
structure Telltale where
  x      : Nat
  y      : Nat
  w      : Nat
  h      : Nat
  on     : Nat
  off    : Nat
  box    : Nat
  crcOn  : Nat
  crcOff : Nat
  deriving DecidableEq, Repr

def telltaleOf (bs : List Byte) : Telltale :=
  let f := fun (i n : Nat) => ofLe ((bs.drop i).take n)
  ⟨f 0 2, f 2 2, f 4 2, f 6 2, f 8 6, f 14 6, f 20 4, f 24 4, f 28 4⟩

/-- An output pixel of a telltale's rectangle (R418); what a bitmap word that cannot be read gives is open (R106). -/
def State.telltalePixel (s : State) (p : Nat) (t : Telltale) (lit : Bool) (i j : Nat) : Nat :=
  let a := if lit then t.on else t.off
  let at' := a + (j * t.w + i) * 4
  let w := if a = 0 ∧ !lit then 0 else if s.safeFails at' 4 then Config.freeCell s.free at' % 2 ^ 32 else s.readLe at' 4
  let alpha := bits w 31 24
  let c := fun (hi lo : Nat) =>
    let c8 := (bits w hi lo * alpha + bits t.box hi lo * (255 - alpha) + 127) / 255
    if s.bit (Reg.PIPE_CFG p) Fd.PIPE_CFG_BPC10 then (c8 * 1023 + 127) / 255 else c8 * 4
  c 23 16 * 2 ^ 20 + c 15 8 * 2 ^ 10 + c 7 0

/-- Is telltale i lit in the current frame? -/
def State.lit (s : State) (p i : Nat) : Bool := s.fld (Reg.SP_MISMATCH p) Fd.SP_MISMATCH_LATCHED / 2 ^ i % 2 == 1

/-- Does a pixel lie on the rest of a line that a slip has left to the background (R30)? -/
def State.slipped (s : State) (p x y : Nat) : Bool := (s.pipe p).slips.any (fun c => c.1 == y && decide (c.2 ≤ x))

/-- A pixel of the background. -/
def State.backPixel (s : State) (p : Nat) : Nat :=
  let bg := s.background p
  let ten := s.bit (Reg.PIPE_CFG p) Fd.PIPE_CFG_BPC10
  outComp ten bg.r * 2 ^ 20 + outComp ten bg.g * 2 ^ 10 + outComp ten bg.b

/-- The planes of an active pixel below the safety plane, or the background where a slip has left the line. -/
def State.planesPixel (s : State) (p x y : Nat) : Nat × Bool := if s.slipped p x y then (s.backPixel p, false) else s.blend p x y

/-- An active pixel as it leaves the pipe: the safety plane above the blended planes (R415), which no slip alters (R30). -/
def State.outPixel (s : State) (p x y : Nat) : Nat × Bool :=
  let ts := ((s.pipe p).table.map telltaleOf).mapIdx (fun i t => (i, t))
  match ts.find? (fun q => decide (q.2.x ≤ x) && decide (x < q.2.x + q.2.w) && decide (q.2.y ≤ y) && decide (y < q.2.y + q.2.h)) with
  | some (i, t) => if s.bit (Reg.SP_CFG p) Fd.SP_CFG_EN then (s.telltalePixel p t (s.lit p i) (x - t.x) (y - t.y), false) else s.planesPixel p x y
  | none => s.planesPixel p x y

/-- What a pipe reads of its planes' buffers for one frame. -/
def State.scanReads (s : State) (p : Nat) : List (Nat × Nat) :=
  (List.range (s.tim0 p Fd.PIPE_TIM0_VACTIVE)).flatMap (fun y => (List.range (s.tim0 p Fd.PIPE_TIM0_HACTIVE)).flatMap (fun x =>
    (List.range 8).flatMap (fun k => match ((s.pipe p).plane k).cur with
      | some b => if s.planeCfg p k Fd.PLANE_CFG_EN = 1 ∧ b.x ≤ x ∧ x < b.x + b.w ∧ b.y ≤ y ∧ y < b.y + b.h then b.pixelAt (x - b.x) (y - b.y) else []
      | none => [])))

/-- The frame that a pipe has scanned out; poisoned pixels show the background and count as a slip (R106, R406). -/
def State.scanned (s : State) (p : Nat) : State :=
  let rows := (List.range (s.tim0 p Fd.PIPE_TIM0_VACTIVE)).map (fun y =>
    (List.range (s.tim0 p Fd.PIPE_TIM0_HACTIVE)).map (fun x => s.outPixel p x y))
  let s1 := ((s.noteReads (s.scanReads p)).emit (.picture p (s.frameNo p) (rows.map (fun r => r.map (·.1))))).modPipe p (fun x => { x with slips := [] })
  if rows.any (fun r => r.any (·.2)) then s1.bump (Reg.PIPE_SLIP p) p else s1

/-- A slip of the display crossing in mid-line: it is counted, and the rest of that line shows the background. Where the scan stood the
command does not say: line and column are free values (R30, log 65). -/
def State.lineSlip (s : State) (p : Nat) : State :=
  let y := Config.freeNat s.free % max 1 (s.tim0 p Fd.PIPE_TIM0_VACTIVE)
  let x := Config.freeNat (s.free + 1) % max 1 (s.tim0 p Fd.PIPE_TIM0_HACTIVE)
  ({ s with free := s.free + 2 }.modPipe p (fun q => { q with slips := (y, x) :: q.slips })).bump (Reg.PIPE_SLIP p) p

/-! ### Present records (R408 to R412) -/

/-- Bytes a pixel of a packed format, or of the luma plane of a planar one (R407). -/
def pixelBytes : Nat → Nat
  | 1 => 4
  | 2 => 4
  | 3 => 8
  | 4 => 3
  | 5 => 1
  | _ => 2

/-- The buffer that a record names. -/
def shownOf (ws : List Nat) : Shown :=
  { x := wordBits ws 2 63 48, y := wordBits ws 2 47 32, w := wordBits ws 2 31 16, h := wordBits ws 2 15 0, fmt := wordBits ws 3 31 24,
    addr := wordBits ws 1 63 0, pitch := wordBits ws 3 63 32, u := wordBits ws 4 63 0, v := wordBits ws 5 63 0, cpitch := wordBits ws 6 63 32 }

/-- Is a record void (R411)? -/
def recordVoid (ws : List Nat) : Bool :=
  let b := shownOf ws
  wordBits ws 3 23 0 != 0 || wordBits ws 6 31 0 != 0 || wordBits ws 7 63 0 != 0 || decide (b.fmt = 0) || decide (6 < b.fmt) ||
  b.w == 0 || b.h == 0 || decide (b.pitch < b.w * pixelBytes b.fmt) || decide (dramEnd ≤ b.addr) ||
  (decide (5 ≤ b.fmt) && (decide (dramEnd ≤ b.u) || decide (dramEnd ≤ b.v)))

/-- The number below k, congruent to v modulo m, nearest to k. -/
def numberBelow (k v m : Nat) : Option Nat :=
  let d := (k - 1 + m - v % m) % m
  if k = 0 ∨ k - 1 < d then none else some (k - 1 - d)

/-- A record that may be shown: its number, its words, whether its read was poisoned. -/
structure Present where
  num  : Nat
  ws   : List Nat
  bad  : Bool
  deriving DecidableEq, Repr

/-- The eligible records of a plane at the latch of frame f (R409). -/
def State.eligible (s : State) (p k f : Nat) : List Present :=
  let n := slots'
  let base := s.fld (Reg.PLANE_Q p k) Fd.PLANE_Q_PBASE * 64
  let kn := s.knot (s.planeCfg p k Fd.PLANE_CFG_PRESENT_KNOT)
  let next := ((s.pipe p).plane k).next
  (List.range n).filterMap (fun i =>
    let a := base + 64 * i
    let ws := s.wordsAt a 8
    if s.readFails a 64 then
      match numberBelow kn i n with
      | some m => if next ≤ m then some ⟨m, ws, true⟩ else none
      | none => none
    else
      match numberBelow kn (wordBits ws 0 31 0) (2 ^ 32) with
      | some m => if m % n = i ∧ next ≤ m ∧ !seqBefore f (wordBits ws 0 63 32) then some ⟨m, ws, false⟩ else none
      | none => none)
where
  /-- NPRES (R427). -/
  slots' : Nat := max 1 (s.fld (Reg.PLANE_Q p k) Fd.PLANE_Q_NPRES_M1) + 1

/-- The newest slot of early view's channel, as a buffer: planar YUV 4:2:0 of 8 or 10 bits, else packed RGB (R343, R407, R420, R505). -/
def State.earlyShown (s : State) (e : EarlyView) : Option Shown :=
  let n := e.channel
  let k := s.knot (s.fld (Reg.CH_KNOT n) Fd.CH_KNOT_SAMPLE_KNOT)
  let d := s.outDims n
  if k = 0 then none
  else
    let a := s.slotData n ((k - 1) / s.chBatch n % s.chNbuf n)
    let up := fun (x : Nat) => ceilDiv x 64 * 64
    let yuv := is420 (s.convSet n).inFmt
    let ten := (s.convSet n).inFmt == 4
    let w := d.2
    let h := d.1
    let pitch := if ten then up (2 * w) else if yuv then up w else up (3 * w)
    let cpitch := if ten then up w else up (w / 2)
    let u := a + h * pitch
    some ⟨e.x, e.y, w, h, if ten then 6 else if yuv then 5 else 4, a, pitch, if yuv then u else 0, if yuv then u + h / 2 * cpitch else 0,
      if yuv then cpitch else 0⟩

/-- Replaces a plane of a pipe. -/
def State.setPlane (s : State) (p k : Nat) (pl : Plane) : State :=
  s.modPipe p (fun x => { x with planes := Sparse.put (fun _ => {}) k pl x.planes })

/-- The record of the highest number. -/
def newest (es : List Present) : Option Present :=
  es.foldl (fun (b : Option Present) e => match b with
    | none => some e
    | some x => if x.num < e.num then some e else some x) none

/-- The highest eligible record is accepted, the others are passed over (R409 to R412). -/
def State.latchRecord (s : State) (p f k : Nat) : State :=
  let es := s.eligible p k f
  let miss := fun (a : State) (hit : Bool) => if s.planeCfg p k Fd.PLANE_CFG_MISS_EN = 1 ∧ !hit then a.bump (Reg.PLANE_MISS p k) p else a
  match newest es with
  | none => miss s false
  | some r =>
    let pl := (s.pipe p).plane k
    let void := r.bad || recordVoid r.ws
    let s1 := s.setPlane p k { next := r.num + 1, cur := if void then pl.cur else some (shownOf r.ws) }
    let s2 := State.bumpN (es.length - 1) s1 (Reg.PLANE_SKIP p k) p
    let s3 := if void then s2.bump (Reg.PLANE_VOID p k) p else s2
    let s4 := miss s3 (!r.bad && wordBits r.ws 0 63 32 == f)
    s4.knotSet (s.planeCfg p k Fd.PLANE_CFG_RETIRE_KNOT) r.num

/-- Early view, where it uses a plane (R420). -/
def State.earlyOn (s : State) (p k : Nat) : Option EarlyView :=
  match s.display.early with
  | some e => if e.pipe = p ∧ e.plane = k then some e else none
  | none => none

/-- A plane at the latch of frame f: early view's takes the newest slot of its channel (R420), any other its records. -/
def State.latchPlane (s : State) (p f k : Nat) : State :=
  if s.planeCfg p k Fd.PLANE_CFG_EN = 0 then s
  else
    match s.earlyOn p k with
    | some e =>
      match s.earlyShown e with
      | some b => s.setPlane p k { (s.pipe p).plane k with cur := some b }
      | none => s
    | none => s.latchRecord p f k

/-! ### The safety plane (R415 to R419) -/

/-- Error sources of R456 for the safety plane. -/
def srcSpCrc : Nat := 3
def srcSpState : Nat := 4

/-- The entries of the table that SP_TABLE names. -/
def State.ttEntries (s : State) (p : Nat) : List (List Byte) :=
  (List.range (min 32 (s.fld (Reg.SP_TABLE p) Fd.SP_TABLE_COUNT))).map (fun i =>
    s.readBytes (s.fld (Reg.SP_TABLE p) Fd.SP_TABLE_TT_BASE * 32 + 32 * i) 32)

/-- Do two rectangles overlap? -/
def Telltale.meets (a b : Telltale) : Bool :=
  decide (a.x < b.x + b.w) && decide (b.x < a.x + a.w) && decide (a.y < b.y + b.h) && decide (b.y < a.y + a.h)

/-- Do no two rectangles of a list overlap? -/
def apart : List Telltale → Bool
  | [] => true
  | a :: l => l.all (fun b => !a.meets b) && apart l

/-- Does a table pass R416? -/
def State.tableOk (s : State) (p : Nat) (ts : List Telltale) : Bool :=
  apart ts && ts.all (fun t => decide (t.x + t.w ≤ s.tim0 p Fd.PIPE_TIM0_HACTIVE) && decide (t.y + t.h ≤ s.tim0 p Fd.PIPE_TIM0_VACTIVE) &&
    inReserved t.on (4 * t.w * t.h) && (t.off == 0 || inReserved t.off (4 * t.w * t.h)) && decide (t.box < 2 ^ 24))

/-- The safety plane takes the table that SP_TABLE names, or refuses it and keeps its own (R416). -/
def State.takeTable (s : State) (p : Nat) : State :=
  let es := s.ttEntries p
  let base := s.fld (Reg.SP_TABLE p) Fd.SP_TABLE_TT_BASE * 32
  let s1 := (s.noteSafe base (32 * es.length)).modPipe p (fun x => { x with staged := false })
  if s.tableOk p (es.map telltaleOf) && !s.safeFails base (32 * es.length) then s1.modPipe p (fun x => { x with table := es })
  else s1.setFld (Reg.SP_CFG p) Fd.SP_CFG_CFG_ERR 1

/-- The safety plane at a latch: a written table, then the state record, or FAIL_MASK where it fails (R416, R417). -/
def State.latchSafety (s : State) (p : Nat) : State :=
  if s.bit (Reg.SP_CFG p) Fd.SP_CFG_EN then
    let s1 := (if (s.pipe p).staged then s.takeTable p else s).noteSafe (s.fld (Reg.SP_STATE p) Fd.SP_STATE_STATE_ADDR * 16) 16
    let a := s.fld (Reg.SP_STATE p) Fd.SP_STATE_STATE_ADDR * 16
    let time := s.readLe a 8
    let on := s.readLe (a + 8) 4
    let age := s.fld (Reg.SP_CFG p) Fd.SP_CFG_MAX_AGE_MS
    let bad := s.readLe (a + 12) 4 + on != 2 ^ 32 - 1 || (age != 0 && decide (time + age * 1000000 < s.now)) || s.safeFails a 16
    let s2 := s1.setFld (Reg.SP_MISMATCH p) Fd.SP_MISMATCH_LATCHED (if bad then s.fld (Reg.SP_CFG p) Fd.SP_CFG_FAIL_MASK else on)
    if bad then (s2.bump (Reg.PIPE_SP_STATE p) p).report srcSpState p else s2
  else s

/-! ### Frames (R406) -/

/-- The latch of a frame: every plane, then the safety plane. -/
def State.latch (s : State) (p : Nat) : State :=
  ((List.range 8).foldl (fun a k => a.latchPlane p (s.frameNo p) k) s).latchSafety p

/-- A frame starts: FRAME_NO counts from 0 at the first frame after enable (R406). -/
def State.startFrame (s : State) (p : Nat) : State :=
  let n := if (s.pipe p).started then s.frameNo p + 1 else 0
  let s1 := ((s.setStatus p Fd.PIPE_STATUS_FRAME_NO n).setStatus p Fd.PIPE_STATUS_RUNNING 1).setStatus p Fd.PIPE_STATUS_HOLDING 0
  (s1.modPipe p (fun x => { x with started := true, startAt := s.now, held := false })).latch p

/-- A FRAME firing: it starts a frame in the hold, is held while a frame runs, is dropped while another is held (R406). -/
def State.frameFire (s : State) (p : Nat) : State :=
  if s.pipeOn p then
    let x := s.pipe p
    if !x.started ∨ s.bit (Reg.PIPE_STATUS p) Fd.PIPE_STATUS_HOLDING then (s.modPipe p (fun x => { x with freeRun := false })).startFrame p
    else if x.held then s.bump (Reg.PIPE_EARLY p) p
    else (s.modPipe p (fun x => { x with held := true })).bump (Reg.PIPE_EARLY p) p
  else s

/-- HELD_FRAME_START: line VTOTAL ends with a held firing (R406). -/
def execHeldFrameStart (p : Nat) (s : State) : Host.Outcome State Fault Refusal :=
  s.whenUp (fun s =>
    if s.pipeOn p ∧ (s.pipe p).held ∧ s.linesPassed p (s.tim0 p Fd.PIPE_TIM0_VTOTAL) then
      (((s.scanned p).modPipe p (fun x => { x with freeRun := false })).startFrame p).conclude
    else s)

/-- VTOTAL_LINE_END: line VTOTAL ends with no firing held; the pipe holds in vertical blanking (R406). -/
def execVtotalLineEnd (p : Nat) (s : State) : Host.Outcome State Fault Refusal :=
  s.whenUp (fun s =>
    if s.pipeOn p ∧ (s.pipe p).started ∧ !(s.pipe p).held ∧ !s.bit (Reg.PIPE_STATUS p) Fd.PIPE_STATUS_HOLDING ∧
        s.linesPassed p (s.tim0 p Fd.PIPE_TIM0_VTOTAL) then
      (s.scanned p).setStatus p Fd.PIPE_STATUS_HOLDING 1
    else s)

/-- FREE_RUN: no firing by line VTOTAL + HOLD_MAX: the pipe starts the frame itself; DSP_FREE_RUN marks the first of a run, and none
in early view (R406, R420). A trained pipe without a first frame starts one so as well. -/
def execFreeRun (p : Nat) (s : State) : Host.Outcome State Fault Refusal :=
  s.whenUp (fun s =>
    let x := s.pipe p
    let lines := s.tim0 p Fd.PIPE_TIM0_VTOTAL + max 1 (s.pipeCfg p Fd.PIPE_CFG_HOLD_MAX)
    if s.pipeOn p ∧ (!x.started ∨ (s.bit (Reg.PIPE_STATUS p) Fd.PIPE_STATUS_HOLDING ∧ s.linesPassed p lines)) then
      let s1 := s.bump (Reg.PIPE_FREE_RUN p) p
      let s2 := if x.freeRun ∨ s.display.early.any (fun e => e.pipe == p) then s1 else s1.raise 11 (Reg.PIPE_FREE_RUN p % 65536) p
      ((s2.modPipe p (fun x => { x with freeRun := true })).startFrame p).conclude
    else s)

/-! ### Enable and disable (R404, R415, R423) -/

/-- Mbit/s a lane of a RATE code (R425). -/
def linkRate (r : Nat) : Nat := [1620, 2700, 5400, 8100, 2160, 2430, 3240, 4320].getD r 8100

/-- May a pipe be enabled as it is set up (R404)? -/
def State.pipeValid (s : State) (p : Nat) : Bool :=
  let clk := s.fld (Reg.PIPE_TIM1 p) Fd.PIPE_TIM1_PCLK_KHZ
  let bpp := if s.bit (Reg.PIPE_CFG p) Fd.PIPE_CFG_BPC10 then 30 else 24
  let lanes := 2 ^ min 2 (s.pipeCfg p Fd.PIPE_CFG_LANES)
  let vs := s.fld (Reg.PIPE_TIM1 p) Fd.PIPE_TIM1_VSTART
  decide (clk ≤ 594000) && decide (clk * bpp * 10 ≤ 8 * linkRate (s.pipeCfg p Fd.PIPE_CFG_RATE) * 1000 * lanes) && decide (4 ≤ vs) &&
  decide (vs + s.tim0 p Fd.PIPE_TIM0_VACTIVE ≤ s.tim0 p Fd.PIPE_TIM0_VTOTAL)

/-- EN has gone to 1: the set-up is checked, training starts, the charge is requested. -/
def State.enablePipe (s : State) (p : Nat) : State :=
  if s.pipeValid p then
    let s1 := (s.setPipe p { training := true, table := (s.pipe p).table, staged := (s.pipe p).staged }).setStatus p Fd.PIPE_STATUS_LINK_FAIL 0
    (s1.obtain (s1.unitReq (.pipe p) .lc none 0)).conclude
  else (s.setFld (Reg.PIPE_CFG p) Fd.PIPE_CFG_EN 0).setStatus p Fd.PIPE_STATUS_CFG_ERR 1

/-- EN has gone to 0: scanout stops, the charge is given up. -/
def State.disablePipe (s : State) (p : Nat) : State :=
  let s1 := (s.setStatus p Fd.PIPE_STATUS_RUNNING 0).setStatus p Fd.PIPE_STATUS_HOLDING 0
  ((s1.setPipe p { table := (s.pipe p).table, staged := (s.pipe p).staged }).alwDrop (.pipe p)).conclude

/-- A write of PIPE_CFG; while the safety plane is on, only Selvage and the safety pairs may write 0 to EN (R415). -/
def State.writePipe (s : State) (o : Origin) (p : Nat) (value : Word) : State :=
  let keep := s.bit (Reg.SP_CFG p) Fd.SP_CFG_EN && s.bit (Reg.PIPE_CFG p) Fd.PIPE_CFG_EN && o != .selvage && o != .safety
  s.writeBy o (Reg.PIPE_CFG p) (if keep then Fd.PIPE_CFG_EN.put value 1 else value) (fun s t =>
    match s.bit (Reg.PIPE_CFG p) Fd.PIPE_CFG_EN, t.bit (Reg.PIPE_CFG p) Fd.PIPE_CFG_EN with
    | false, true => t.enablePipe p
    | true, false => t.disablePipe p
    | _, _ => t)

/-- PIPE_ENABLE: a write of PIPE_CFG with EN 1 (R404). -/
def execPipeEnable (o : Origin) (p : Nat) (value : Word) (s : State) : Host.Outcome State Fault Refusal :=
  s.whenUp (fun s => if p < 4 then s.writePipe o p (Fd.PIPE_CFG_EN.put value 1) else s)

/-- PIPE_DISABLE: a write of PIPE_CFG with EN 0 (R415). -/
def execPipeDisable (o : Origin) (p : Nat) (value : Word) (s : State) : Host.Outcome State Fault Refusal :=
  s.whenUp (fun s => if p < 4 then s.writePipe o p (Fd.PIPE_CFG_EN.put value 0) else s)

/-- LINK_TRAINING_DONE: training ends, for which the pipe holds its charge (R10, R423); a failure sets LINK_FAIL and starts no scanout
(R404). -/
def execLinkTrainingDone (p : Nat) (ok : Bool) (s : State) : Host.Outcome State Fault Refusal :=
  s.whenUp (fun s =>
    if s.bit (Reg.PIPE_CFG p) Fd.PIPE_CFG_EN ∧ (s.pipe p).training ∧ s.holdsGrant (.pipe p) then
      let s1 := s.modPipe p (fun x => { x with training := false, trained := ok })
      if ok then s1 else (s1.setStatus p Fd.PIPE_STATUS_LINK_FAIL 1).raise 11 (Reg.PIPE_STATUS p % 65536) p
    else s)

/-! ### Telltales (R416, R419) -/

/-- A write of SP_CFG: the table is taken when EN goes to 1; for a pipe whose CRC checker failed injection EN stays 0 with CFG_ERR
(R416, R450). -/
def State.writeSpCfg (s : State) (o : Origin) (p : Nat) (value : Word) : State :=
  s.writeBy o (Reg.SP_CFG p) value (fun s t =>
    if s.watch.badSp.contains p ∧ t.bit (Reg.SP_CFG p) Fd.SP_CFG_EN then
      (t.setFld (Reg.SP_CFG p) Fd.SP_CFG_EN 0).setFld (Reg.SP_CFG p) Fd.SP_CFG_CFG_ERR 1
    else if !s.bit (Reg.SP_CFG p) Fd.SP_CFG_EN ∧ t.bit (Reg.SP_CFG p) Fd.SP_CFG_EN then t.takeTable p else t)

/-- SP_ENABLE: a write of SP_CFG with EN 1 (R416). -/
def execSpEnable (o : Origin) (p : Nat) (value : Word) (s : State) : Host.Outcome State Fault Refusal :=
  s.whenUp (fun s => if p < 4 then s.writeSpCfg o p (Fd.SP_CFG_EN.put value 1) else s)

/-- A write of SP_TABLE stages a table for the next latch. -/
def State.writeSpTable (s : State) (o : Origin) (p : Nat) (value : Word) : State :=
  s.writeBy o (Reg.SP_TABLE p) value (fun _ t =>
    if mayWrite o [.selvage, .safety] ∧ t.bit (Reg.SP_CFG p) Fd.SP_CFG_EN then t.modPipe p (fun x => { x with staged := true }) else t)

/-- SP_TABLE_WRITE: a write of SP_TABLE (R416). -/
def execSpTableWrite (o : Origin) (p : Nat) (value : Word) (s : State) : Host.Outcome State Fault Refusal :=
  s.whenUp (fun s => if p < 4 then s.writeSpTable o p value else s)

/-- TELLTALE_CRC: a telltale's last line ends; its output pixels are checked against the expected CRC of the latched state (R419). -/
def execTelltaleCrc (p i : Nat) (s : State) : Host.Outcome State Fault Refusal :=
  s.whenUp (fun s =>
    match ((s.pipe p).table.map telltaleOf)[i]? with
    | none => s
    | some t =>
      if s.pipeOn p ∧ (s.pipe p).started ∧ s.bit (Reg.SP_CFG p) Fd.SP_CFG_EN then
        let lit := s.lit p i
        let px := (List.range (t.w * t.h)).flatMap (fun k => leBytes 4 (s.telltalePixel p t lit (k % t.w) (k / t.w)))
        let a := if lit then t.on else t.off
        let bad := crc32c px != (if lit then t.crcOn else t.crcOff) || ((lit || t.off != 0) && s.safeFails a (4 * t.w * t.h))
        if bad then
          (((if lit || t.off != 0 then s.noteSafe a (4 * t.w * t.h) else s).setFld (Reg.SP_MISMATCH p) ⟨i, i⟩ 1).bump (Reg.PIPE_SP_CRC p) p).report srcSpCrc p
        else s
      else s)

/-! ### Early view (R420 to R422) -/

/-- A write of DSP_EARLY: END passes channel, pipe and plane to the hypervisor as they are, their charges no longer standing. -/
def State.writeEarly (s : State) (o : Origin) (value : Word) : State :=
  s.writeBy o Reg.DSP_EARLY value (fun _ t =>
    match t.display.early with
    | none => t
    | some e =>
      if mayWrite o [.selvage, .hypervisor] ∧ Fd.DSP_EARLY_END.of value = 1 then
        let free := fun (g : Grant) => if g.req.holder = .channel e.channel ∨ g.req.holder = .pipe e.pipe then { g with standing := false } else g
        let t1 := t.setFld Reg.DSP_EARLY Fd.DSP_EARLY_ACTIVE 0
        { t1 with display := { t1.display with early := none }, alw := { t1.alw with grants := t1.alw.grants.map free } }
      else t)

/-- EARLY_VIEW_END: a write of DSP_EARLY with END 1 (R422). -/
def execEarlyViewEnd (o : Origin) (s : State) : Host.Outcome State Fault Refusal :=
  s.whenUp (fun s => s.writeEarly o 1)

end Sys2Proof.Machine
end

