-- ==== Sys2Proof/Machine/Fusion.lean ====
section
/-! DEFINITION. The fusion unit: grid passes, their stated error, track tables (R372 to R396). -/

namespace Sys2Proof.Machine

def State.grid (s : State) (g : Nat) : Grid := Sparse.get (fun _ => {}) g s.fusion.grids
def State.setGrid (s : State) (g : Nat) (x : Grid) : State :=
  { s with fusion := { s.fusion with grids := Sparse.put (fun _ => {}) g x s.fusion.grids } }

def State.gridFld (s : State) (g : Nat) (f : Fld) : Nat := s.fld (Reg.FUSE_GRID_CFG g) f
def State.trkFld (s : State) (g : Nat) (f : Fld) : Nat := s.fld (Reg.FUSE_TRK_W0 g) f

/-- Does a grid run: EN is 1 and the unit's charge is granted (R392)? -/
def State.gridOn (s : State) (g : Nat) : Bool := s.bit (Reg.FUSE_GRID_CFG g) Fd.FUSE_GRID_CFG_EN && s.holdsGrant .fusion

/-- A number of slots from its field: 0 acts as 1 (R393 to R395). -/
def slotsOf (m1 : Nat) : Nat := max 1 m1 + 1

/-! ### Feeds (R373, R374, R378, R394) -/

/-- A feed's settings. -/
structure Feed where
  idx    : Nat
  slots  : Nat
  period : Nat
  limit  : Nat
  chOff  : Nat
  chans  : Nat
  base   : Nat
  bound  : Nat
  table  : Nat
  rows   : Nat
  cols   : Nat
  count  : Nat
  entMax : Nat
  wgain  : Nat
  deriving DecidableEq, Repr

/-- LIMIT_Q: 0 acts as 16, above 32 as 32 (R378). -/
def limitQ (q : Nat) : Nat := if q = 0 then 16 else min 32 q

def State.feed (s : State) (g i : Nat) : Feed :=
  { idx := i
    slots := slotsOf (s.fld (Reg.FUSE_FEED_W0 g i) Fd.FUSE_FEED_W0_NF_M1)
    period := s.fld (Reg.FUSE_FEED_W0 g i) Fd.FUSE_FEED_W0_PERIOD_US
    limit := limitQ (s.fld (Reg.FUSE_FEED_W0 g i) Fd.FUSE_FEED_W0_LIMIT_Q)
    chOff := 32 * s.fld (Reg.FUSE_FEED_W0 g i) Fd.FUSE_FEED_W0_CH_OFF32
    chans := 32 * (s.fld (Reg.FUSE_FEED_W0 g i) Fd.FUSE_FEED_W0_CF32 + 1)
    base := s.fld (Reg.FUSE_FEED_W1 g i) Fd.FUSE_FEED_W1_FBASE * 128
    bound := s.fld (Reg.FUSE_FEED_W2 g i) Fd.FUSE_FEED_W2_M
    table := s.fld (Reg.FUSE_FEED_W3 g i) Fd.FUSE_FEED_W3_PTAB * 8
    rows := s.fld (Reg.FUSE_FEED_W4 g i) Fd.FUSE_FEED_W4_FH
    cols := s.fld (Reg.FUSE_FEED_W4 g i) Fd.FUSE_FEED_W4_FW
    count := s.fld (Reg.FUSE_FEED_W4 g i) Fd.FUSE_FEED_W4_ENTRIES
    entMax := s.fld (Reg.FUSE_FEED_W1 g i) Fd.FUSE_FEED_W1_ENT_MAX
    wgain := s.fld (Reg.FUSE_FEED_W2 g i) Fd.FUSE_FEED_W2_WGAIN }

/-- The enabled feeds of a grid. -/
def State.feeds (s : State) (g : Nat) : List Feed :=
  ((List.range 16).filter (fun i => s.bit (Reg.FUSE_FEED_W0 g i) Fd.FUSE_FEED_W0_EN)).map (fun i => s.feed g i)

/-- What stands in a feed slot now. R106 has no row for the fusion unit: DESIGN CHOICE (log 72), a slot that reads as poison, or whose
read is refused, holds no sample. -/
def State.feedSlot (s : State) (f : Feed) (k : Nat) : FeedSlot :=
  ⟨s.peekBytes (f.base + 128 * k + 0x40) 32, s.peekBytes (f.base + 128 * k) 64, s.readFails (f.base + 128 * k) 96⟩

/-- TIME, STATUS and CHANNEL of a stamp (R345). -/
def FeedSlot.time (x : FeedSlot) : Nat := ofLe (x.stamp.take 8)
def FeedSlot.status (x : FeedSlot) : Nat := ((x.stamp.drop 9).headD 0).toNat
def FeedSlot.channel (x : FeedSlot) : Nat := bits (ofLe (x.stamp.drop 24)) 15 12

/-- The feature tensor of a slot. -/
def FeedSlot.tensor (x : FeedSlot) : Tensor := parseTensor 0 0 ((List.range 8).map (fun i => ofLe ((x.desc.drop (8 * i)).take 8)))

/-- Does a slot hold a valid sample (R374)? -/
def Feed.valid (f : Feed) (x : FeedSlot) : Bool :=
  let t := x.tensor
  !x.lost && x.status == 0 && x.channel == f.idx && t.n == 1 && t.h == f.rows && t.w == f.cols && t.c == f.chans

/-- Inserts a sample by TIME. -/
def insertTime (x : FeedSlot) : List FeedSlot → List FeedSlot
  | [] => [x]
  | y :: l => if x.time < y.time then x :: y :: l else y :: insertTime x l

/-- The valid samples of a feed, by TIME. -/
def Feed.samples (f : Feed) (xs : List FeedSlot) : List FeedSlot := (xs.filter f.valid).foldl (fun l x => insertTime x l) []

/-! ### Alignment (R377 to R379) -/

/-- How a feed is aligned: samples with their factors, whether the manual leaves their combination open, whether it is stale, early or
torn, TIME of its newest sample. -/
structure Aligned where
  terms  : List (FeedSlot × Frac)
  undet  : Bool := false
  stale  : Bool
  early  : Bool := false
  torn   : Bool := false
  newest : Option Nat := none
  deriving DecidableEq, Repr

/-- The latest consecutive pair that brackets an instant. -/
def bracket (tg : Nat) : List FeedSlot → Option (FeedSlot × FeedSlot)
  | a :: b :: l =>
    match bracket tg (b :: l) with
    | some p => some p
    | none => if a.time ≤ tg ∧ tg ≤ b.time then some (a, b) else none
  | _ => none

/-- The limit L in sixteenths of a nanosecond (R378). -/
def Feed.limit16 (f : Feed) : Nat := f.period * 1000 * f.limit

/-- The case of R377 that applies to a feed's valid samples in order of TIME. Two samples of one TIME at the grid instant bracket it with
an α of 0 / 0: the value is open (log 72). -/
def Feed.align (f : Feed) (tg : Nat) (xs : List FeedSlot) : Aligned :=
  match xs.reverse with
  | [] => { terms := [], stale := true }
  | n :: older =>
    let late := decide (f.limit16 < 16 * (tg - n.time))
    let a : Aligned :=
      match bracket tg xs with
      | some (p, q) =>
        let d := q.time - p.time
        if d = 0 then { terms := [(p, ⟨1, 1⟩), (q, ⟨1, 1⟩)], undet := true, stale := false }
        else { terms := [(p, ⟨(q.time - tg : Nat), d⟩), (q, ⟨(tg - p.time : Nat), d⟩)], stale := false }
      | none =>
        if n.time ≤ tg then
          match older with
          | [] => { terms := [(n, ⟨1, 1⟩)], stale := late }
          | p :: _ =>
            let d := n.time - p.time
            if d < 1000 then { terms := [(n, ⟨1, 1⟩)], stale := late }
            else
              let e := min (16 * (tg - n.time)) f.limit16
              let beta : Frac := if e ≤ f.limit * d then ⟨e, 16 * d⟩ else ⟨f.limit, 16⟩
              { terms := [(n, beta.add ⟨1, 1⟩), (p, ⟨-beta.num, beta.den⟩)], stale := late }
        else { terms := [((xs.headD n), ⟨1, 1⟩)], stale := false, early := true }
    { a with newest := some n.time }

/-- A byte as the fusion unit reads it: one that reads as poison, or whose read is refused, is open (log 72). -/
def State.fuseByte (s : State) : Reader := fun p => if s.readFails p 1 then BitVec.ofNat 8 (Config.freeCell s.free p) else s.peekByte p

/-- The value of a stored feature element with its scale (R131, R169, R175). -/
def State.feature (s : State) (t : Tensor) (src c : Nat) : Num :=
  let rd : Reader := s.fuseByte
  let y := src / max 1 t.w
  let x := src % max 1 t.w
  let zm := s.place t.zmapAddr
  let v := elemValue t.fmt (t.code rd (s.place t.addr) zm 0 y x c)
  if isMx t.fmt then v.mul (scaleValue (t.scaleAt rd (s.place t.aux) zm 0 y x c))
  else if t.fmt = 1 ∨ t.fmt = 2 then v.mul (ofFp32 (if t.aux = 0 then t.scale else ofLe ((List.range 4).map (fun i => rd (s.place t.aux + 4 * c + i)))))
  else v

/-- One aligned element: one sample's value, or the line through two in FP32, within three roundings of its terms (R381, log 72); which of
the results is open, and the same operands give the same one, so that a frozen feed keeps its value (R379). A product that overflows, an
infinity and a NaN propagate (R135, R377). -/
def State.alignedElem (s : State) (a : Aligned) (src c : Nat) : Num :=
  let vs : List (Num × Frac) := a.terms.map (fun t => (s.feature t.1.tensor src c, t.2))
  let seed := Config.openOf (vs.flatMap (fun v => [toFp32 v.1, v.2.num.toNat, (-v.2.num).toNat, v.2.den]))
  let ps := vs.map (fun v => f32 (v.1.mul v.2.toNum))
  match vs with
  | [(v, _)] => f32 v
  | _ =>
    if a.undet then ofFp32 (seed % 2 ^ 32)
    else if vs.all (fun v => v.1.isFin) ∧ ps.all Num.isFin then
      let exact := vs.foldl (fun (acc : Frac) v => acc.add ((Frac.ofNum v.1).mul v.2)) ⟨0, 1⟩
      let size := vs.foldl (fun (acc : Frac) v => acc.add ((Frac.ofNum v.1).mul v.2).abs) ⟨0, 1⟩
      f32 (nearAbs seed ((size.mul ⟨3, 2 ^ 24⟩).add ⟨1, 2 ^ 126⟩).toNum exact.toNum)
    else ps.foldl (fun x y => f32 (x.add y)) Num.zero

/-! ### Projection (R380) -/

/-- A projection table entry. -/
structure PEntry where
  cell   : Nat
  src    : Nat
  weight : Num
  rsv    : Nat
  deriving DecidableEq, Repr

def State.pEntry (s : State) (a : Nat) : PEntry :=
  let w := ofLe ((List.range 8).map (fun i => s.fuseByte (a + i)))
  ⟨bits w 63 48, bits w 47 24, fp16.decode (bits w 15 0), bits w 23 16⟩

/-- A feed's table. -/
def State.pTable (s : State) (f : Feed) : List PEntry := (List.range f.count).map (fun i => s.pEntry (f.table + 8 * i))

/-- Is a table in order? -/
def cellsRise : List PEntry → Bool
  | a :: b :: l => decide (a.cell ≤ b.cell) && cellsRise (b :: l)
  | _ => true

/-- The cells of a table. -/
def cellsOf (l : List PEntry) : List Nat := (l.map (·.cell)).eraseDups

/-- Entries of one cell. -/
def ofCell (l : List PEntry) (c : Nat) : List PEntry := l.filter (fun e => e.cell == c)

/-- ENT_MAX of a table. -/
def entMaxOf (l : List PEntry) : Nat := (cellsOf l).foldl (fun m c => max m (ofCell l c).length) 0

/-- WGAIN of a table, exact. -/
def wgainOf (l : List PEntry) : Num :=
  (cellsOf l).foldl (fun m c =>
    let t := (ofCell l c).foldl (fun a e => a.add e.weight.abs) Num.zero
    if m.le t then t else m) Num.zero

/-- Does a table pass the checks of R380? -/
def tableValid (f : Feed) (l : List PEntry) : Bool :=
  cellsRise l && l.all (fun e => e.rsv == 0 && decide (e.src < f.rows * f.cols)) && decide (entMaxOf l ≤ 64)

/-! ### Grid tensors (R372, R382, R393) -/

/-- GRID_C, FORMAT, slots of a grid. -/
def State.gridChans (s : State) (g : Nat) : Nat := 32 * (s.gridFld g Fd.FUSE_GRID_CFG_GRID_C32 + 1)
def State.gridFmt (s : State) (g : Nat) : Nat :=
  match s.gridFld g Fd.FUSE_GRID_CFG_OUT_FMT with
  | 0 => 7
  | 1 => 8
  | _ => 5
def State.gridSlots (s : State) (g : Nat) : Nat := slotsOf (s.gridFld g Fd.FUSE_GRID_CFG_NSLOT_M1)

/-- Rows and columns of a grid's tensor. -/
def gridDims (g : Nat) : Nat × Nat := if g = 0 then (1024, 64) else (256, 256)

/-- Width and height of the grid plane of the tracks. -/
def gridPlane (g : Nat) : Nat := if g = 0 then 64 else 256

/-- Is the slot of pass p free (R382)? -/
def State.gridSlotFree (s : State) (g p : Nat) : Bool :=
  !s.bit (Reg.FUSE_GRID_CFG g) Fd.FUSE_GRID_CFG_REL_EN ||
    decide (p + 1 ≤ s.knot (s.fld (Reg.FUSE_GRID_CTL g) Fd.FUSE_GRID_CTL_REL_KNOT) + s.gridSlots g)

/-- The sum of one grid element over the feeds' entries for its cell: products and partial sums in FP32, in an open order (R380). -/
def State.gridElem (s : State) (fs : List (Feed × Aligned × List PEntry)) (free cell c : Nat) : Num :=
  let terms := fs.flatMap (fun x =>
    if x.1.chOff ≤ c ∧ c < x.1.chOff + x.1.chans then
      (ofCell x.2.2 cell).map (fun e =>
        f32 (e.weight.mul (s.alignedElem x.2.1 e.src (c - x.1.chOff))))
    else [])
  (permute terms.length (Config.freeCell free (cell * 512 + c)) terms).foldl (fun a x => f32 (a.add x)) Num.zero

/-- One pixel of the grid in its format: element bytes, scale bytes, the saturation mark. -/
def gridPixel (fmt : Nat) (xs : List Num) : List Byte × List Byte × Bool :=
  if isMx fmt then
    let bs := (groups 32 xs.length xs).map (fun b => mxQuantise fmt b)
    (elemBytes 8 (bs.flatMap (fun b => b.2.1)), bs.map (fun b => BitVec.ofNat 8 b.1), bs.any (fun b => b.2.2))
  else
    let cs := xs.map (fun x => elemCode fmt x)
    (elemBytes 16 (cs.map (·.1)), [], cs.any (·.2))

/-! ### Stated error (R381) -/

/-- γ_n of R147. -/
def gammaOf (n : Nat) : Frac := ⟨n, 2 ^ 24 - n⟩

/-- One feed's parts of TOL: WGAIN × (a1 + r1 × M1), WGAIN × M1. -/
def feedError (f : Feed) (tols : List Nat) : Frac × Frac :=
  let m := (Frac.ofNum (ofFp32 f.bound)).abs
  let w := (Frac.ofNum (ofFp32 f.wgain)).abs
  let gain : Frac := ⟨(16 + 2 * f.limit : Nat), 16⟩
  let top : (Nat → Nat) → Frac := fun g => tols.foldl (fun (x : Frac) t => x.max (Frac.ofNum (ofFp32 (g t)))) ⟨0, 1⟩
  let e := (top tolAbs).add ((top tolRel).mul m)
  let r1 : Frac := ⟨3, 2 ^ 24⟩
  let a1 := (((Frac.mk 1 1).add r1).mul (gain.mul e)).add ⟨1, 2 ^ 126⟩
  let m1 := gain.mul m
  (w.mul (a1.add (r1.mul m1)), w.mul m1)

/-- The tolerance word of a pass over its feeds, each with the TOL words of the samples it used. -/
def gridTol (fmt : Nat) (fs : List (Feed × List Nat)) (voided : Bool) : Nat :=
  let ps := fs.map (fun x => feedError x.1 x.2)
  let n := (fs.map (fun x => x.1.entMax)).foldl max 0 * fs.length + 1
  let mg : Frac := ps.foldl (fun (a : Frac) p => a.add p.2) ⟨0, 1⟩
  let ap : Frac := (ps.foldl (fun (a : Frac) p => a.add p.1) ⟨0, 1⟩).add ((gammaOf n).mul mg)
  let o := convError fmt 0 mg
  let a := (((Frac.mk 1 1).add o.1).mul ap).add o.2
  let code := fun (f : Frac) => toFp32 (roundUp f.num.natAbs f.den 0) % 2 ^ 31
  let open' := fs.any (fun x => x.2.any (fun t => decide (unbounded ≤ tolAbs t) || decide (unbounded ≤ tolRel t)))
  voided.toNat * 2 ^ 63 + (if open' then unbounded else code a) * 2 ^ 32 + code o.1

/-! ### Tracks (R386 to R390) -/

/-- FP32 sum, difference, product and quotient, each rounded once. -/
def fAdd (a b : Nat) : Nat := toFp32 ((ofFp32 a).add (ofFp32 b))
def fSub (a b : Nat) : Nat := toFp32 ((ofFp32 a).add (ofFp32 b).neg)
def fMul (a b : Nat) : Nat := toFp32 ((ofFp32 a).mul (ofFp32 b))
def fDiv (a b : Nat) : Nat := toFp32 (quotient (ofFp32 a) (ofFp32 b))

/-- A fraction as FP32. -/
def fOf (n : Int) (d : Nat) : Nat := toFp32 (Frac.toNum ⟨n, d⟩)

/-- A detection of a list (R247): its centre, score and class. -/
structure Detection where
  x     : Nat
  y     : Nat
  score : Nat
  cls   : Nat
  deriving DecidableEq, Repr

def detectionOf (bs : List Byte) : Detection :=
  let f := fun (i : Nat) => ofLe ((bs.drop i).take 4)
  let half := fOf 1 2
  ⟨fMul (fAdd (f 0) (f 8)) half, fMul (fAdd (f 4) (f 12)) half, f 16, f 20 % 65536⟩

/-- A track table while a step works on it: entries, those that have taken a detection, whether a detection found no entry. -/
structure TrackWork where
  table : Sparse Track
  taken : List Nat := []
  full  : Nat := 0
  deriving DecidableEq, Repr

def TrackWork.get (w : TrackWork) (i : Nat) : Track := Sparse.get (fun _ => {}) i w.table
def TrackWork.put (w : TrackWork) (i : Nat) (t : Track) : TrackWork := { w with table := Sparse.put (fun _ => {}) i t w.table }

/-- The size of a track table. -/
def trackCount : Nat := 1024

/-- Distance of a detection from a predicted entry (R387). -/
def distance (d : Detection) (t : Track) : Num :=
  let a := (ofFp32 (fSub d.x t.x)).abs
  let b := (ofFp32 (fSub d.y t.y)).abs
  if a.le b then b else a

/-- Is candidate entry (i, t) better for a detection than (j, u): nearer, then the more settled state, then the lower index? -/
def nearer (d : Detection) (a b : Nat × Track) : Bool :=
  let x := distance d a.2
  let y := distance d b.2
  lessThan x y || (!lessThan y x && (decide (b.2.state < a.2.state) || (a.2.state == b.2.state && decide (a.1 < b.1))))

/-- One detection is associated, opens a candidate or is dropped (R387); `gate` in 1/256 cell, gains in 1/256. -/
def TrackWork.take (w : TrackWork) (tg gate alpha beta : Nat) (aware : Bool) (d : Detection) : TrackWork :=
  let near := fun (t : Track) => (distance d t).le (.fin false gate (-8))
  let cands := w.table.filter (fun e => e.2.state != 0 && !w.taken.contains e.1 && (!aware || e.2.cls == d.cls) && near e.2)
  let best := cands.foldl (fun (b : Option (Nat × Track)) e => match b with
    | none => some e
    | some x => if nearer d e x then some e else some x) none
  match best with
  | some (i, t) =>
    let dt := fOf ((tg : Int) - t.last) 1000000000
    let dx := fSub d.x t.x
    let dy := fSub d.y t.y
    { w.put i { t with x := fAdd t.x (fMul (fOf alpha 256) dx), y := fAdd t.y (fMul (fOf alpha 256) dy),
                       vx := fAdd t.vx (fDiv (fMul (fOf beta 256) dx) dt), vy := fAdd t.vy (fDiv (fMul (fOf beta 256) dy) dt),
                       score := d.score, cls := d.cls } with taken := i :: w.taken }
  | none =>
    match (List.range trackCount).find? (fun i => (w.get i).state == 0) with
    | some i => { w.put i { state := 1, x := d.x, y := d.y, score := d.score, cls := d.cls, last := tg } with taken := i :: w.taken }
    | none => { w with full := w.full + 1 }

/-- Prediction of an entry at the grid instant (R387). -/
def Track.predict (t : Track) (tg : Nat) : Track :=
  let dt := fOf ((tg : Int) - t.last) 1000000000
  { t with x := fAdd t.x (fMul t.vx dt), y := fAdd t.y (fMul t.vy dt) }

/-- History, miss run and age after an instant (R388); a candidate opened in this instant starts them. -/
def Track.record (t : Track) (hit opened : Bool) (tg : Nat) : Track :=
  { t with hist := (2 * t.hist + hit.toNat) % 256, miss := if hit then 0 else t.miss + 1, age := if opened then 0 else t.age + 1, last := tg }

/-- Hits among the last n instants. -/
def Track.hits (t : Track) (n : Nat) : Nat := ((List.range n).filter (fun i => t.hist / 2 ^ i % 2 == 1)).length

/-- The settings of R388: births, confirmations, deletion, the side of the grid plane. -/
structure TrackRule where
  bornHits : Nat
  bornWin  : Nat
  confHits : Nat
  confWin  : Nat
  delMiss  : Nat
  side     : Nat
  deriving DecidableEq, Repr

def State.trackRule (s : State) (g : Nat) : TrackRule :=
  let win := fun (w : Nat) => max 1 (min 8 w)
  let bw := win (s.trkFld g Fd.FUSE_TRK_W0_BORN_WIN)
  let cw := win (s.trkFld g Fd.FUSE_TRK_W0_CONF_WIN)
  ⟨min bw (s.trkFld g Fd.FUSE_TRK_W0_BORN_HITS), bw, min cw (s.trkFld g Fd.FUSE_TRK_W0_CONF_HITS), cw,
    max 1 (s.trkFld g Fd.FUSE_TRK_W0_DEL_MISS), gridPlane g⟩

/-- Is a position outside the grid plane? -/
def TrackRule.outside (r : TrackRule) (t : Track) : Bool :=
  let ok := fun (c : Nat) => Num.zero.le (ofFp32 c) && (ofFp32 c).le (.fin false r.side 0)
  !(ok t.x && ok t.y)

/-- What the evaluation of R388 makes of an entry: the new entry, whether it is born, whether it is deleted. -/
def TrackRule.eval (r : TrackRule) (t : Track) : Track × Bool × Bool :=
  let conf := fun (u : Track) => if r.confHits ≤ u.hits r.confWin then { u with state := 3 } else u
  match t.state with
  | 0 => (t, false, false)
  | 1 =>
    if r.outside t then ({}, false, false)
    else if r.bornHits ≤ t.hits r.bornWin then (conf { t with state := 2 }, true, false)
    else if r.bornWin ≤ t.age then ({}, false, false)
    else (t, false, false)
  | 2 => if r.delMiss ≤ t.miss ∨ r.outside t then ({}, false, true) else (conf t, false, false)
  | _ => if r.delMiss ≤ t.miss ∨ r.outside t then ({}, false, true) else (t, false, false)

/-- The next identifier from n on that no live track holds (R389). -/
def freeIdent (live : List Nat) : Nat → Nat → Nat
  | 0, n => n
  | k + 1, n => if live.contains n then freeIdent live k ((n + 1) % 65536) else n

/-- The track list of a pass (R390). -/
def trackList (tg num deleted stale : Nat) (unobserved full : Bool) (ts : List Track) : List Byte :=
  leBytes 8 tg ++ leBytes 4 num ++ leBytes 2 ts.length ++ leBytes 2 (unobserved.toNat + 2 * full.toNat) ++ leBytes 4 deleted ++
    leBytes 2 stale ++ leBytes 42 0 ++
    ts.flatMap (fun t => leBytes 4 t.x ++ leBytes 4 t.y ++ leBytes 4 t.vx ++ leBytes 4 t.vy ++ leBytes 4 t.score ++
      leBytes 2 t.ident ++ leBytes 2 t.cls ++ leBytes 1 (t.state - 1) ++ leBytes 1 t.hist ++ leBytes 1 (min 255 t.miss) ++ leBytes 1 0 ++
      leBytes 4 t.born)

/-- A track step with the detections of an instant, none of it observed if there is no list (R386 to R390). -/
def State.trackStep (s : State) (g num tg stale : Nat) (dets : Option (List Detection)) : State :=
  let gr := s.grid g
  let start : TrackWork := ⟨gr.tracks.map (fun e => (e.1, e.2.predict tg)), [], 0⟩
  let old := (gr.tracks.filter (fun e => e.2.state != 0)).map (·.1)
  let w := (dets.getD []).foldl (fun a d => a.take tg (s.trkFld g Fd.FUSE_TRK_W0_GATE) (s.trkFld g Fd.FUSE_TRK_W0_ALPHA)
    (s.trkFld g Fd.FUSE_TRK_W0_BETA) (s.trkFld g Fd.FUSE_TRK_W0_CLASS_AWARE == 1) d) start
  let w1 := w.table.foldl (fun a e => a.put e.1 (e.2.record (w.taken.contains e.1) (!old.contains e.1) tg)) w
  let r := s.trackRule g
  let (w2, births, deleted) := w1.table.foldl (fun (x : TrackWork × List Nat × Nat) e =>
    let (t, b, d) := r.eval e.2
    (x.1.put e.1 t, if b then x.2.1 ++ [e.1] else x.2.1, x.2.2 + d.toNat)) (w1, [], 0)
  let (w3, s1) := births.foldl (fun (x : TrackWork × State) i =>
    let live := (x.1.table.filter (fun e => decide (2 ≤ e.2.state) && (e.1 != i) && !((births.dropWhile (· != i)).contains e.1))).map (fun e => e.2.ident)
    let k := freeIdent live 65536 (x.2.fld (Reg.FUSE_TRK_W3 g) Fd.FUSE_TRK_W3_NEXT_ID)
    let t := x.1.get i
    (x.1.put i { t with ident := k, born := num % 2 ^ 32 },
      (x.2.setFld (Reg.FUSE_TRK_W3 g) Fd.FUSE_TRK_W3_NEXT_ID (k + 1)).addReg (Reg.FUSE_TRK_W4 g) 1)) (w2, s)
  let live := w3.table.filter (fun e => e.2.state != 0)
  let s2 := s1.setFld (Reg.FUSE_TRK_W3 g) Fd.FUSE_TRK_W3_LIVE live.length
  let s3 := State.bumpN w3.full s2 (Reg.FUSE_FULL_DROP g) g
  let bytes := trackList tg num deleted stale dets.isNone (w3.full != 0) ((live.filter (fun e => decide (2 ≤ e.2.state))).map (·.2))
  s3.setGrid g { gr with await := none, tracks := w3.table, lists := gr.lists ++ [(num, bytes)] }

/-- An instant without a list: counted, and stepped unobserved (R386). -/
def State.unobserved (s : State) (g num tg stale : Nat) : State :=
  if s.trkFld g Fd.FUSE_TRK_W0_EN = 1 then (s.bump (Reg.FUSE_NO_LIST g) g).trackStep g num tg stale none else s

/-! ### Passes (R376, R382) -/

/-- The awaited list of a grid is given up. -/
def State.giveUpList (s : State) (g : Nat) : State :=
  match (s.grid g).await with
  | some a => s.unobserved g a.num a.tg a.stale
  | none => s

/-- Waiting passes start in firing order while none runs; one whose slot is not free does not run (R376, R382). -/
def State.nextPass : Nat → State → State
  | 0, s => s
  | k + 1, s =>
    match s.fusion.running, s.fusion.queue with
    | none, p :: rest =>
      let s1 := ({ s with fusion := { s.fusion with queue := rest } }).giveUpList p.grid
      let gr := s1.grid p.grid
      let num := gr.next
      let s2 := s1.setGrid p.grid { gr with next := num + 1 }
      if s2.gridSlotFree p.grid num then
        let slots := (List.range 16).map (fun i => if s.bit (Reg.FUSE_FEED_W0 p.grid i) Fd.FUSE_FEED_W0_EN then
          (List.range (s.feed p.grid i).slots).map (fun k => s.feedSlot (s.feed p.grid i) k) else [])
        { s2 with fusion := { s2.fusion with running := some { p with num := num, slots := slots } } }
      else State.nextPass k ((s2.bump (Reg.FUSE_PASS_DROP p.grid) p.grid).unobserved p.grid num p.tg 0)
    | _, _ => s

/-- A GRID tack occurrence with its programmed instant: a queued pass of the grid gives up its place (R376). -/
def State.gridFire (s : State) (g tg : Nat) : State :=
  if s.gridOn g ∧ g < 2 then
    let p : Pass := { grid := g, tg := tg }
    if s.fusion.queue.any (fun q => q.grid == g) then
      ({ s with fusion := { s.fusion with queue := updWhere (fun q => q.grid == g) (fun _ => p) s.fusion.queue } }).bump (Reg.FUSE_PASS_DROP g) g
    else ({ s with fusion := { s.fusion with queue := s.fusion.queue ++ [p] } }).nextPass 3
  else s

/-- One feed of a pass: samples selected from the snapshot; if a used slot has changed since, they are selected afresh once, and a
second torn read makes the feed absent (R375). A slot has changed when its stamp has. -/
def State.feedAlign (s : State) (p : Pass) (f : Feed) (torn : Bool) : Aligned :=
  let snap := p.slots.getD f.idx []
  let now := (List.range f.slots).map (fun k => s.feedSlot f k)
  let first := f.align p.tg (f.samples snap)
  let changed := first.terms.any (fun t => (List.range f.slots).any (fun k => snap[k]? == some t.1 && (now[k]?.map (·.stamp)) != some t.1.stamp))
  if !changed then first
  else if torn then { terms := [], stale := true, torn := true, newest := first.newest }
  else f.align p.tg (f.samples now)

/-- AGE of a feed in the grid record (R383). The rule gives no value where the newest sample comes after the grid instant and the feed is
not early: it is open (log 72). -/
def ageOf (free tg : Nat) (a : Aligned) : Nat :=
  if a.terms.isEmpty then 0xFFFFFFFF
  else
    match a.newest with
    | some t => if a.early then 0 else if tg < t then Config.freeNat free % 2 ^ 32 else min 0xFFFFFFFF ((tg - t) / 1000)
    | none => 0xFFFFFFFF

/-- The grid record (R383). -/
def State.gridRecord (s : State) (p : Pass) (stale : Nat) (voided torn early : Bool) (ages : List Nat) : List Byte :=
  leBytes 8 p.tg ++
  leBytes 8 ((if stale = 0 then codeDone else codeDoneStale) * 2 ^ 56 + (voided.toNat + 2 * torn.toNat + 4 * early.toNat) * 2 ^ 48 + stale * 2 ^ 32 + p.num % 2 ^ 32) ++
  leBytes 8 s.now ++ leBytes 8 0 ++ ages.flatMap (leBytes 4) ++ leBytes 32 0

/-- The memory that a pass reads: the slots of its feeds, their tables, the features of the samples it uses. -/
def State.passReads (s : State) (fs : List (Feed × Aligned × List PEntry)) : List (Nat × Nat) :=
  fs.flatMap (fun x => (List.range x.1.slots).map (fun k => (x.1.base + 128 * k, 96)) ++ [(x.1.table, 8 * x.1.count)] ++
    x.2.1.terms.map (fun t => (s.place t.1.tensor.addr, tensorBytes t.1.tensor)))

/-- What a pass p of grid g leaves in memory and knots when it ends: the tensor, its control region, the counts of its faults, the grid
knot, and what the tracker then awaits; torn reads of a snapshot are of the feeds in `torn` (R368 to R378). -/
def State.passEnd (s : State) (g : Nat) (p : Pass) (torn : List Nat) : State :=
  let fs := (s.feeds g).map (fun f => (f, s.feedAlign p f (torn.contains f.idx), s.pTable f))
  let s2 := ({ s with free := s.free + 18 }).noteReads (s.passReads fs)
  let fmt := s.gridFmt g
  let chans := s.gridChans g
  let elems := (List.range 65536).map (fun cell => (List.range chans).map (fun c => s.gridElem fs (s.free + 1) cell c))
  let px := elems.map (gridPixel fmt)
  let used := fs.map (fun x => (x.1, x.2.1.terms.map (fun t => t.1.tensor.tol)))
  let voided := px.any (fun q => q.2.2) || used.any (fun x => x.2.any tolVoid) || elems.any (fun e => e.any (fun x => !x.isFin))
  let stale := (fs.map (fun x => if x.2.1.stale then 2 ^ x.1.idx else 0)).sum
  let (h, w) := gridDims g
  let pitch := pixelPitch fmt (formatBits fmt) chans
  let row := ceilDiv (w * pitch) 64 * 64
  let slot := p.num % s.gridSlots g
  let data := s.fld (Reg.FUSE_GRID_DATA g) Fd.FUSE_GRID_DATA_GBASE * 64 + slot * s.fld (Reg.FUSE_GRID_DATA g) Fd.FUSE_GRID_DATA_GSLOT_4K * 4096
  let ctl := s.fld (Reg.FUSE_GRID_CTL g) Fd.FUSE_GRID_CTL_GCTL * 256 + 256 * slot
  let s3 := (px.mapIdx (fun i q => (i, q))).foldl (fun a x => a.store (data + x.1 / w * row + x.1 % w * pitch) x.2.1) s2
  let s4 := s3.store (data + h * row) (px.flatMap (fun q => q.2.1))
  let ages := (List.range 16).map (fun i => match fs.find? (fun x => x.1.idx == i) with
    | some x => ageOf (s.free + 2 + i) p.tg x.2.1
    | none => 0xFFFFFFFF)
  let isTorn := fs.any (fun x => x.2.1.torn)
  let early := fs.filter (fun x => x.2.1.early)
  let s5 := s4.store (ctl + 0x40) (s.gridRecord p stale voided isTorn (!early.isEmpty) ages)
  let dev := s.ownDev * 2 ^ 48
  let s6 := s5.store ctl (leBytes 8 (dev + data) ++ leBytes 8 (2 ^ 48 + h * 2 ^ 32 + w * 65536 + chans) ++
    leBytes 8 (fmt * 2 ^ 56 + h * row / 64) ++ leBytes 8 (if isMx fmt then dev + data + h * row else 0) ++ leBytes 24 0 ++
    leBytes 8 (gridTol fmt used voided))
  let s7 := early.foldl (fun a _ => a.bump (Reg.FUSE_EARLY g) g) s6
  let s8 := (fs.filter (fun x => x.2.1.torn)).foldl (fun a _ => a.bump (Reg.FUSE_TORN g) g) s7
  let s9 := if stale = 0 then s8 else s8.bump (Reg.FUSE_STALE_PASS g) g
  let s10 := s9.knotSet (s.gridFld g Fd.FUSE_GRID_CFG_GRID_KNOT) (p.num + 1)
  let gr := s10.grid g
  let s11 := if s.trkFld g Fd.FUSE_TRK_W0_EN = 1 then
      s10.setGrid g { gr with await := some ⟨p.num, p.tg, stale, s10.knot (s.fld (Reg.FUSE_TRK_W3 g) Fd.FUSE_TRK_W3_LIST_KNOT)⟩ }
    else s10
  s11

/-- GRID_PASS_DONE: the running pass of a grid ends: data, record, descriptor, then GRID_KNOT (R375 to R383). `torn` names the feeds
whose second read was torn as well. -/
def execGridPassDone (g : Nat) (torn : List Nat) (s : State) : Host.Outcome State Fault Refusal :=
  s.whenUp (fun s =>
    match s.fusion.running with
    | none => s
    | some p =>
      if p.grid = g ∧ s.gridOn g then
        let t := s.passEnd g p torn
        (State.nextPass 3 { t with fusion := { t.fusion with running := none } }).conclude
      else s)

/-! ### Track commands -/

/-- The list slot of a pass (R386). -/
def State.listSlot (s : State) (g num : Nat) : Nat :=
  s.fld (Reg.FUSE_TRK_W1 g) Fd.FUSE_TRK_W1_LBASE * 4096 + num % slotsOf (s.fld (Reg.FUSE_TRK_W1 g) Fd.FUSE_TRK_W1_NL_M1) * 36864

/-- The detections of a list slot. -/
def State.detections (s : State) (a : Nat) : List Detection :=
  (List.range (min 1148 (ofLe (s.peekBytes (a + 64) 4)))).map (fun i => detectionOf (s.peekBytes (a + 128 + 32 * i) 32))

/-- TRACK_STEP: LIST_KNOT has changed; the slot is read, and a list of the awaited pass is accepted and stepped (R386 to R389); a slot that
cannot be read whole is not accepted (log 72). -/
def execTrackStep (g : Nat) (s : State) : Host.Outcome State Fault Refusal :=
  s.whenUp (fun s =>
    match (s.grid g).await with
    | none => s
    | some a =>
      let k := s.knot (s.fld (Reg.FUSE_TRK_W3 g) Fd.FUSE_TRK_W3_LIST_KNOT)
      if s.gridOn g ∧ k ≠ a.knot then
        let at' := s.listSlot g a.num
        if !s.readFails at' 36864 ∧ ofLe (s.peekBytes at' 8) = a.tg ∧ ofLe (s.peekBytes (at' + 8) 4) = a.num % 2 ^ 32 then
          s.trackStep g a.num a.tg a.stale (some (s.detections at'))
        else s.setGrid g { s.grid g with await := some { a with knot := k } }
      else s)

/-- TRACK_STEP_DONE: the oldest track list is written, then OUT_KNOT is set (R390). -/
def execTrackStepDone (g : Nat) (s : State) : Host.Outcome State Fault Refusal :=
  s.whenUp (fun s =>
    match (s.grid g).lists with
    | [] => s
    | (num, bs) :: rest =>
      if s.gridOn g then
        let at' := s.fld (Reg.FUSE_TRK_W2 g) Fd.FUSE_TRK_W2_TBASE * 4096 + num % slotsOf (s.fld (Reg.FUSE_TRK_W2 g) Fd.FUSE_TRK_W2_NT_M1) * 36864
        (((s.setGrid g { s.grid g with lists := rest }).store at' bs).knotSet (s.fld (Reg.FUSE_TRK_W3 g) Fd.FUSE_TRK_W3_OUT_KNOT) (num + 1)).conclude
      else s)

/-! ### Enable and disable (R380, R391, R392) -/

/-- May a grid be enabled as it is set up? A table that cannot be read is refused (log 72). -/
def State.gridValid (s : State) (g : Nat) : Bool :=
  decide (s.gridFld g Fd.FUSE_GRID_CFG_OUT_FMT ≤ 2) &&
  (s.feeds g).all (fun f => decide (f.chOff + f.chans ≤ s.gridChans g) && !s.readFails f.table (8 * f.count) && tableValid f (s.pTable f))

/-- EN has gone to 1. -/
def State.enableGrid (s : State) (g : Nat) : State :=
  if s.gridValid g then
    let s1 := (s.feeds g).foldl (fun a f =>
      let t := s.pTable f
      (a.setFld (Reg.FUSE_FEED_W1 g f.idx) Fd.FUSE_FEED_W1_ENT_MAX (entMaxOf t)).setFld (Reg.FUSE_FEED_W2 g f.idx) Fd.FUSE_FEED_W2_WGAIN (toFp32 (wgainOf t))) s
    let s2 := s1.setFld (Reg.FUSE_GRID_CFG g) Fd.FUSE_GRID_CFG_GEN (s.gridFld g Fd.FUSE_GRID_CFG_GEN + 1)
    let s3 := (s2.setGrid g {}).setFld (Reg.FUSE_TRK_W3 g) Fd.FUSE_TRK_W3_LIVE 0
    (s3.obtain (s3.unitReq .fusion .lc none 0)).conclude
  else (s.setFld (Reg.FUSE_GRID_CFG g) Fd.FUSE_GRID_CFG_EN 0).setFld (Reg.FUSE_GRID_CFG g) Fd.FUSE_GRID_CFG_CFG_ERR 1

/-- EN has gone to 0: the grid's pass and track steps are abandoned; with both grids off the charge is given up. -/
def State.disableGrid (s : State) (g : Nat) : State :=
  let gr := s.grid g
  let f := s.fusion
  let run := match f.running with
    | some p => if p.grid = g then none else some p
    | none => none
  let s1 := ({ s with fusion := { f with running := run, queue := f.queue.filter (fun p => p.grid != g) } }).setGrid g { gr with await := none, lists := [] }
  let s2 := s1.nextPass 3
  if s2.bit (Reg.FUSE_GRID_CFG 0) Fd.FUSE_GRID_CFG_EN ∨ s2.bit (Reg.FUSE_GRID_CFG 1) Fd.FUSE_GRID_CFG_EN then s2 else (s2.alwDrop .fusion).conclude

/-- A write of FUSE_GRID_CFG. -/
def State.writeGrid (s : State) (o : Origin) (g : Nat) (value : Word) : State :=
  s.writeBy o (Reg.FUSE_GRID_CFG g) value (fun s t =>
    match s.bit (Reg.FUSE_GRID_CFG g) Fd.FUSE_GRID_CFG_EN, t.bit (Reg.FUSE_GRID_CFG g) Fd.FUSE_GRID_CFG_EN with
    | false, true => t.enableGrid g
    | true, false => t.disableGrid g
    | _, _ => t)

/-- GRID_ENABLE: a write of FUSE_GRID_CFG with EN 1 (R391). -/
def execGridEnable (o : Origin) (g : Nat) (value : Word) (s : State) : Host.Outcome State Fault Refusal :=
  s.whenUp (fun s => if g < 2 then s.writeGrid o g (Fd.FUSE_GRID_CFG_EN.put value 1) else s)

/-- GRID_DISABLE: a write of FUSE_GRID_CFG with EN 0 (R391). -/
def execGridDisable (o : Origin) (g : Nat) (value : Word) (s : State) : Host.Outcome State Fault Refusal :=
  s.whenUp (fun s => if g < 2 then s.writeGrid o g (Fd.FUSE_GRID_CFG_EN.put value 0) else s)

end Sys2Proof.Machine
end

