-- ==== Sys2Proof/Machine/Views.lean ====
section
/-! DEFINITION. What set-up registers read as: the fields that show the state of an engine are formed at the read (R25, R57, R87,
R88, R556, R576). -/

namespace Sys2Proof.Machine

/-- Jobs of an instance that run or are preempted (R556). -/
def State.viRunning (s : State) (v : Nat) : Nat :=
  (s.jobs.filter (fun j => ringVi j.ring == v && (j.stage.onCores || !j.saves.isEmpty))).length

/-- VI_STATE_v. -/
def State.viView (s : State) (v : Nat) : Word :=
  Fd.VI_STATE_IN_FLIGHT.put (Fd.VI_STATE_RUNNING.put (s.reg (Reg.VI_STATE v)) (min 0xFF (s.viRunning v))) (min 1024 (s.inFlight v))

/-- ALW_HELD. -/
def State.alwHeldView (s : State) : Word :=
  Fd.ALW_HELD_DRAM_MA.put (Fd.ALW_HELD_CORE_MA.put 0 s.heldCore) s.heldDram

/-- ALW_STATUS: CLAMP is held, the other bits follow from the queues and the holdings. -/
def State.alwStatusView (s : State) : Word :=
  let waits := fun (c : Cls) => (s.alw.waiting.any (fun r => r.cls == c)).toNat
  let w1 := Fd.ALW_STATUS_WAIT_LC.put (s.reg Reg.ALW_STATUS) (waits .lc)
  let w2 := Fd.ALW_STATUS_WAIT_TEST.put w1 (waits .test)
  let w3 := Fd.ALW_STATUS_WAIT_BE.put w2 (waits .be)
  Fd.ALW_STATUS_RECLAIM.put (Fd.ALW_STATUS_OVER.put w3 s.alwOver.toNat)
    (s.alw.grants.any (fun g => s.alw.levelOf g != 0)).toNat

/-- The WC reference of a monitor in M steps/s (R24). -/
def rateRef (i : Nat) : Nat := if i < 16 then 951 else if i < 18 then 2028 else if i = 18 then 1248 else if i = 19 then 624 else 1560

/-- The floor of a monitor: FLOOR_PM, above 1000 as 1000 (R26, R27). -/
def State.rateFloor (s : State) (i : Nat) : Nat := min 1000 (s.fld Reg.PWR_RATE_FLOOR Fd.PWR_RATE_FLOOR_FLOOR_PM) * rateRef i / 1000

/-- BELOW: RATE is below the floor as it stands (R25). DESIGN CHOICE (log 64): a monitor that is not VALID reads BELOW 0. -/
def State.rateBelow (s : State) (i : Nat) : Bool :=
  s.bit (Reg.PWR_RATE i) Fd.PWR_RATE_VALID && decide (s.fld (Reg.PWR_RATE i) Fd.PWR_RATE_RATE < s.rateFloor i)

/-- PWR_RATE_i. -/
def State.rateView (s : State) (i : Nat) : Word := Fd.PWR_RATE_BELOW.put (s.reg (Reg.PWR_RATE i)) (s.rateBelow i).toNat

/-- UBR_STATUS. -/
def State.ubrStatusView (s : State) : Word :=
  Fd.UBR_STATUS_HELD.put (s.reg Reg.UBR_STATUS) (min 512 s.bridge.held.length)

/-- The word that a read of a set-up register by its key finds. -/
def State.view (s : State) (k : Nat) : Word :=
  let r := k % RegMap.bankSize
  if r = Reg.TIME_NOW then BitVec.ofNat 64 s.now
  else if r = Reg.ALW_HELD then s.alwHeldView
  else if r = Reg.ALW_STATUS then s.alwStatusView
  else if Reg.PWR_RATE 0 ≤ r ∧ r < Reg.PWR_RATE 24 then s.rateView ((r - Reg.PWR_RATE 0) / 4)
  else if r = Reg.UBR_STATUS then s.ubrStatusView
  else if Reg.VI_STATE 0 ≤ r ∧ r < Reg.VI_STATE 64 ∧ r % 8 = 0 then s.viView ((r - Reg.VI_STATE 0) / 8)
  else s.reg k

end Sys2Proof.Machine
end

