-- ==== Sys2Proof/Machine/Power.lean ====
section
/-! DEFINITION. Power: rate monitors, allowance commands, power domains, rims (R24 to R31, R72 to R94, R651). -/

namespace Sys2Proof.Machine

/-! ### Rate monitors (R24 to R27) -/

/-- Does a monitor read: a panel's not while its shared logic is off (R84)? -/
def State.monitorOn (s : State) (i : Nat) : Bool := decide (16 ≤ i) || s.domainOn (31 + i)

/-- One monitor takes the replica count of its window: RATE in M steps/s, rounded down (R25, R27). DESIGN CHOICE (log 64): a rate beyond
the 14 bits of RATE reads 0x3FFF, and the monitor of a panel that is off keeps RATE and MIN. -/
def State.takeRate (s : State) (i count : Nat) : State :=
  let k := Reg.PWR_RATE i
  if s.monitorOn i then
    let rate := min 0x3FFF (count * 100 / 1024)
    let s1 := (s.setFld k Fd.PWR_RATE_RATE rate).setFld k Fd.PWR_RATE_VALID 1
    s1.setFld k Fd.PWR_RATE_MIN (min rate (s.fld k Fd.PWR_RATE_MIN))
  else s

/-- Does some monitor read BELOW? -/
def State.anyBelow (s : State) : Bool := (List.range 24).any s.rateBelow

/-- RATE_LOW may be raised again once every BELOW bit has returned to 0 (R27). -/
def State.rateRearm (s : State) : State := if s.anyBelow then s else { s with sys := { s.sys with rateRaised := false } }

/-- The end of a window over all monitors: with one below its floor the window is counted, and the first such window raises
RATE_LOW and reports source 12 (R27, R456). -/
def State.rateWindow (s : State) (counts : List Nat) : State :=
  let s1 := (List.range 24).foldl (fun a i => a.takeRate i (counts.getD i 0)) s
  if s1.anyBelow then
    let s2 := s1.bump Reg.PWR_RATE_LOW_CNT noUnit
    if s.sys.rateRaised then s2
    else ({ s2 with sys := { s2.sys with rateRaised := true } }.raise 3 0x0464 noUnit).report 12 0
  else s1.rateRearm

/-- RATE_WINDOW_END: a window of 10,240 ns ends, with the replica counts of the 24 monitors. -/
def execRateWindowEnd (counts : List Nat) (s : State) : Host.Outcome State Fault Refusal := s.whenUp (fun s => s.rateWindow counts)

/-- CLR_MIN sets every MIN to 0x3FFF (R26). -/
def State.clearMins (s : State) : State := (List.range 24).foldl (fun a i => a.setFld (Reg.PWR_RATE i) Fd.PWR_RATE_MIN 0x3FFF) s

/-- A write of PWR_RATE_FLOOR, with CLR_MIN; the BELOW bits follow the new floor (R25, R26). -/
def State.writeRateFloor (s : State) (o : Origin) (value : Word) : State :=
  s.writeBy o Reg.PWR_RATE_FLOOR value (fun _ t =>
    (if mayWrite o [.selvage, .hypervisor] ∧ Fd.PWR_RATE_FLOOR_CLR_MIN.of value = 1 then t.clearMins else t).rateRearm)

/-- CLR_MIN: a write of PWR_RATE_FLOOR with CLR_MIN 1. -/
def execClrMin (o : Origin) (value : Word) (s : State) : Host.Outcome State Fault Refusal :=
  s.whenUp (fun s => s.writeRateFloor o (Fd.PWR_RATE_FLOOR_CLR_MIN.put value 1))

/-! ### The reference (R40) -/

/-- REF_LOSS: the 25 MHz reference stops or leaves tolerance. -/
def execRefLoss (s : State) : Host.Outcome State Fault Refusal :=
  s.whenUp (fun s =>
    if s.bit Reg.TIME_STATUS Fd.TIME_STATUS_REF_LOSS then s
    else
      let s1 := (s.setFld Reg.TIME_STATUS Fd.TIME_STATUS_REF_LOSS 1).setFld Reg.TIME_STATUS Fd.TIME_STATUS_LOCKED 0
      ((s1.setFld Reg.TSN_GPTP_STATUS Fd.TSN_GPTP_STATUS_GM_LOST 1).raise 1 0x000C noUnit).report 11 0)

/-! ### Allowance (R72 to R81) -/

/-- The generation of the lease under which a holder holds its allowance (R80): of its job's ring, of its channel; 0 for a unit whose
resource has none (log 63). -/
def State.leaseGen (s : State) : Holder → Nat
  | .core n => ((s.jobOf n).map (·.gen)).getD 0
  | .sealChecker k => ((s.seals.find? (fun t => t.checker == some k)).bind (fun t => s.job? t.ring t.seq)).elim 0 (·.gen)
  | .comparator k => ((s.checkers.cmps.find? (fun t => t.unit == some k)).bind (fun t => s.job? t.ring t.seq)).elim 0 (·.gen)
  | .channel n => s.chSrc n Fd.CH_SRC_GEN
  | _ => 0

/-- What a core asks for: the charge of its golden run, of its scrub, of its switch from graphics, or of its job's class and level. -/
def State.coreAsks (s : State) (n : Nat) : Option AlwReq :=
  if (s.core n).test.isSome then some (s.goldenReq n)
  else (s.jobOf n).map (fun j =>
    if (s.core n).scrubs then s.scrubReq j n else if s.coreMode n = 2 then s.switchReq j n else s.coreReq j n)

/-- What a unit asks for, at the fixed figures of R66 to R69, R284, R309 and R440; none for a unit with nothing to do and for a domain,
which asks through PWR_DOMAIN_REQ. -/
def State.unitAsks (s : State) : Holder → Option AlwReq
  | .core n => s.coreAsks n
  | .sealChecker k => (s.seals.find? (fun t => t.checker == some k)).map (fun t => s.taskReq (.sealChecker k) t.ring t.seq)
  | .comparator k => (s.checkers.cmps.find? (fun t => t.unit == some k)).map (fun t => s.taskReq (.comparator k) t.ring t.seq)
  | .loader i => if (s.hotEntry i).state = 2 ∧ !(s.hotEntry i).waitRoom then some (s.loaderReq i) else none
  | .copyBack k => if k < 2 ∧ !s.memst.extents.isEmpty then some (s.unitReq (.copyBack k) .be none 0) else none
  | .channel n => if s.bit (Reg.CH_SRC n) Fd.CH_SRC_EN then some (s.chanReq n) else none
  | .spare k => if s.darn.cores.any (fun d => d.spare == k) then some (s.unitReq (.spare k) .test none 0) else none
  | .domain _ => none
  | h => some (s.unitReq h .lc none 0)

/-- A unit asks for its grant under a generation. One that names an old generation has no effect and is counted (R80, R90); with a request
that waits or ramps in, or with a standing charge, there is nothing to ask for; a holder of the same charge renews it, of another one it
falls at once or waits for the difference (R71). -/
def State.unitAsk (s : State) (h : Holder) (gen : Nat) : State :=
  match s.unitAsks h with
  | none => s
  | some r =>
    if gen ≠ s.leaseGen h then s.bump Reg.ALW_STALE_CNT noUnit
    else if s.awaitsGrant h || s.alw.grants.any (fun g => g.req.holder == h && (g.standing || { g.req with made := r.made } == r)) then s
    else s.ask r

/-- ALW_REQUEST: a unit asks for a grant, or renews the one it holds. -/
def execAlwRequest (ask : AlwAsk) (s : State) : Host.Outcome State Fault Refusal :=
  s.whenUp (fun s => s.unitAsk ask.holder ask.gen)

/-- The next waiting request in the service order, once it fits and no charge ramps in, leaves its queue; a charge with nothing on the
core rail is held at once (R72, R78). -/
def State.serveNext (s : State) : State :=
  let s1 := s.alwServe
  match s.alwHead with
  | none => s1
  | some r => if s.mayGrant r && !r.lift && s1.heldAtOnce r then s1.onGrant r.holder else s1

/-- ALW_GRANT: the next waiting request leaves its queue and its charge ramps in. -/
def execAlwGrant (s : State) : Host.Outcome State Fault Refusal := s.whenUp State.serveNext

/-- What a release lets the controller do: choose again for what waits, or with nothing waiting restore (R75, R76). -/
def State.afterRelease (s : State) : State := if s.alw.waiting.isEmpty then s.restorePace else s.reclaimMore

/-- ALW_RELEASE: a holder releases its grant of a generation; an old generation has no effect and is counted (R80). -/
def execAlwRelease (holder : Holder) (gen : Nat) (s : State) : Host.Outcome State Fault Refusal :=
  s.whenUp (fun s =>
    let mine := fun (g : Grant) => !g.standing && g.req.holder == holder && g.req.gen == gen
    if s.alw.grants.any mine then (s.dropGrants mine).afterRelease else s.bump Reg.ALW_STALE_CNT noUnit)

/-- A ramp in has reached its end: its charge is held and its unit goes on (R78). -/
def State.rampEnd (s : State) (x : Ramp) : State :=
  let s1 : State := { s with alw := { s.alw with ramp := none } }
  match x.req with
  | none => s1.afterRelease
  | some r => let s2 := s1.takeHold r; (if r.lift then s2 else s2.onGrant r.holder).afterRelease

/-- ALW_RAMP_DONE: a charge ramp reaches its end, once device time has taken it there at 40 A/µs; with none rising and none falling,
paced holders are restored one level while nothing waits (R76, R78). -/
def execAlwRampDone (s : State) : Host.Outcome State Fault Refusal :=
  s.whenUp (fun s =>
    match s.alw.ramp with
    | some x => if x.ends ≤ s.time.toNat then s.rampEnd x else s
    | none => if s.fallLeft = 0 then s.afterRelease else s)

/-- The limits of a budget field in units of 0.25 A (R65). -/
def budgetRange (dram : Bool) : Nat × Nat := if dram then (32, 256) else (160, 1280)

/-- A write of a budget: clamped into its range, with CLAMP set; holdings above it are paced (R65, R81, R88). -/
def State.writeBudget (s : State) (o : Origin) (dram : Bool) (value : Word) : State :=
  let k := if dram then Reg.ALW_DRAM_BUDGET else Reg.ALW_BUDGET
  let f := if dram then Fd.ALW_DRAM_BUDGET_DRAM_QA else Fd.ALW_BUDGET_CORE_QA
  let want := f.of value
  let v := max (budgetRange dram).1 (min (budgetRange dram).2 want)
  s.writeBy o k (f.put value v) (fun a b =>
    if mayWrite o [.selvage, .hypervisor] ∧ !a.locked 2 then
      let b1 := if v = want then b else b.setFld Reg.ALW_STATUS Fd.ALW_STATUS_CLAMP 1
      if b1.alwOver then b1.paceUnder else b1.afterRelease
    else b)

/-- ALW_BUDGET_WRITE: a write of ALW_BUDGET or ALW_DRAM_BUDGET. -/
def execAlwBudgetWrite (o : Origin) (dram : Bool) (value : Word) (s : State) : Host.Outcome State Fault Refusal :=
  s.whenUp (fun s => s.writeBudget o dram value)

/-! ### Power domains (R82 to R84, R93, R523) -/

/-- PWR_DOMAIN_REQ as a command register. -/
def pwrReq : CmdReg :=
  ⟨Reg.PWR_DOMAIN_REQ, Fd.PWR_DOMAIN_REQ_DOMAIN, Fd.PWR_DOMAIN_REQ_STATUS, [.hypervisor, .safety], some 4, .power, some 5⟩

/-- May an origin request a domain (R82)? -/
def mayRequest (o : Origin) (d : Nat) : Bool :=
  let hv := (decide (15 ≤ d) && decide (d ≤ 46)) || (decide (183 ≤ d) && decide (d ≤ 223))
  let both := (decide (201 ≤ d) && decide (d ≤ 209)) || (decide (218 ≤ d) && decide (d ≤ 222))
  match o with
  | .hypervisor => hv
  | .safety => both
  | _ => false

/-- Does a domain hold a secure lease: one that was taken, or that of an application core with a hart in the secure world or in an
enclave (R523)? -/
def State.secureHeld (s : State) (d : Nat) : Bool :=
  s.watch.secLeases.any (fun x => x.1 == d) ||
  s.trust.harts.any (fun h => 183 + h.1 / 64 == d && (h.2.secure || h.2.enclave != 0))

/-- The units whose grants stand for a domain's activity above retained idle. -/
def domainUnit (d : Nat) : Holder → Bool
  | .appCore n => d == 183 + n
  | .appCluster n => d == 199 + n
  | .channel n => d == 201 + n / 4
  | .fusion => d == 205
  | .pipe n => d == 206 + n
  | .decoder => d == 210
  | .encoder => d == 211
  | .bridge => d == 212
  | .causewayPort n => d == 214 + n
  | .ufs => d == 223
  | _ => false

/-- Does a cache slice hold a pending line (R84)? -/
def State.slicePending (s : State) (k : Nat) : Bool :=
  s.jobs.any (fun j => (s.copyLines j false ++ s.copyLines j true).any (fun l => cacheSlice (64 * l) == k))

/-- Is a panel in use: a core that is not idle, an advance placement, a self-test slot (R84)? -/
def State.panelBusy (s : State) (p : Nat) : Bool :=
  let cs := panelCores p
  cs.any (fun n => (s.core n).job.isSome || (s.core n).test.isSome || (s.core n).scrubs || s.coreMode n == 2) ||
  s.jobs.any (fun j => match j.resv with
    | some r => (r.cores ++ r.ckCores).any cs.contains
    | none => false) ||
  s.watch.opened.any (fun x => x.cores.any cs.contains)

/-- Is a domain busy (R83, R84)? -/
def State.domainBusy (s : State) (d : Nat) : Bool :=
  if 15 ≤ d ∧ d ≤ 30 then s.slicePending (d - 15)
  else if 31 ≤ d ∧ d ≤ 46 then s.panelBusy (d - 31)
  else s.alw.grants.any (fun g => domainUnit d g.req.holder)

/-- An ON request: PENDING until the standing charges are granted and power is applied (R83). -/
def State.requestOn (s : State) (o : Origin) (d : Nat) : State × Nat :=
  if !mayRequest o d then (s, 3)
  else if s.domainOn d then (s, 0)
  else if s.awaitsGrant (.domain d) || s.holdsGrant (.domain d) then (s, 5)
  else (s.ask (s.domainReq d), 5)

/-- PWR_DOMAIN_ON: an ON request to PWR_DOMAIN_REQ. -/
def execPwrDomainOn (o : Origin) (d : Nat) (s : State) : Host.Outcome State Fault Refusal :=
  s.whenUp (fun s => s.command o pwrReq d (fun s => s.requestOn o (d % 256)))

/-- A panel comes back with its cores in compute mode and empty state (R84). -/
def State.freshPanel (s : State) (p : Nat) : State :=
  (panelCores p).foldl (fun a n =>
    if a.coreMode n = 3 then a
    else ((a.setMode n 0).setFld (Reg.ARY_CORE n) Fd.ARY_CORE_TENANT 0).modCore n (fun c => { withdrawn := c.withdrawn, retested := c.retested })) s

/-- Power is applied to a pending domain. -/
def State.powered (s : State) (d : Nat) : State :=
  let s1 := (s.setDomain d true)
  let s2 := { s1 with alw := { s1.alw with grants := updWhere (fun g => g.req.holder == .domain d) (fun g => { g with standing := true }) s1.alw.grants } }
  let s3 := if 31 ≤ d ∧ d ≤ 46 then s2.freshPanel (d - 31) else s2
  if s3.fld Reg.PWR_DOMAIN_REQ Fd.PWR_DOMAIN_REQ_DOMAIN = d ∧ s3.fld Reg.PWR_DOMAIN_REQ Fd.PWR_DOMAIN_REQ_STATUS = 5 then
    s3.setFld Reg.PWR_DOMAIN_REQ Fd.PWR_DOMAIN_REQ_STATUS 0
  else s3

/-- The spare that a domain holds, where it is being darned in: it asks for the charge of its golden runs (R440, R473). -/
def State.spareTests (s : State) (d : Nat) : State :=
  if 175 ≤ d ∧ s.darn.cores.any (fun c => 175 + c.spare == d) then s.obtain (s.unitReq (.spare (d - 175)) .test none 0) else s

/-- PWR_DOMAIN_POWERED: a pending domain whose charges are granted has its power applied. -/
def execPwrDomainPowered (d : Nat) (s : State) : Host.Outcome State Fault Refusal :=
  s.whenUp (fun s => if !s.domainOn d && s.holdsGrant (.domain d) then ((s.powered d).spareTests d).conclude else s)

/-- Power is removed; a cache slice releases its pinned lines first, and the monitor of a panel reads VALID 0 (R84). -/
def State.powerOff (s : State) (d : Nat) : State :=
  let s1 := if 15 ≤ d ∧ d ≤ 30 then
      s.dropLines (fun l => cacheSlice (64 * l.line) == d - 15)
    else if 31 ≤ d ∧ d ≤ 46 then (s.setFld (Reg.PWR_RATE (d - 31)) Fd.PWR_RATE_VALID 0).rateRearm
    else s
  s1.domainDown d

/-- An OFF request (R83, R84). -/
def State.requestOff (s : State) (o : Origin) (d : Nat) : State × Nat :=
  if !mayRequest o d then (s, 3)
  else if s.secureHeld d then (s, 1)
  else if s.domainBusy d then (s, 2)
  else if s.domainOn d then (s.powerOff d, 0)
  else ((s.alwDrop (.domain d)), 0)

/-- PWR_DOMAIN_OFF: an OFF request to PWR_DOMAIN_REQ. -/
def execPwrDomainOff (o : Origin) (d : Nat) (s : State) : Host.Outcome State Fault Refusal :=
  s.whenUp (fun s => s.command o pwrReq d (fun s => s.requestOff o (d % 256)))

/-! ### Rims (R28 to R31, R650, R651) -/

/-- RIM_START: Selvage starts a rim clock domain. -/
def execRimStart (d : Nat) (s : State) : Host.Outcome State Fault Refusal :=
  s.whenUp (fun s => if d < 577 then s.setBit (Reg.PWR_RIM_ON (d / 64)) (d % 64) true else s)

/-- RIM_STOP: Selvage stops a rim clock domain; the next refusal there raises RIM_STOPPED again. -/
def execRimStop (d : Nat) (s : State) : Host.Outcome State Fault Refusal :=
  s.whenUp (fun s =>
    if d < 577 ∧ s.rimOn d then
      { s.setBit (Reg.PWR_RIM_ON (d / 64)) (d % 64) false with sys := { s.sys with rimRaised := s.sys.rimRaised.erase d } }
    else s)

/-- What a slip of a stream crossing ends as, by the rim numbers of R650. A CSI-2 receiver loses the rest of its frame; a display
transmitter shows the background for the rest of its line; an Ethernet MAC drops the frame; a CAN controller loses the message; a TDM port
loses its audio block, and on its transmit side sends zero samples. Credit crossings never lose data. -/
def State.slipEnds (s : State) (d : Nat) : State :=
  if 528 ≤ d ∧ d ≤ 531 then s.intakeSlip 0 (d - 528)
  else if 532 ≤ d ∧ d ≤ 535 then s.lineSlip (d - 532)
  else if 546 ≤ d ∧ d ≤ 551 then s.bump (Reg.TSN_MAC_DROP (d - 546)) (d - 546)
  else if 552 ≤ d ∧ d ≤ 567 then s.bump (Reg.GWY_OVERRUN (d - 552)) (d - 552)
  else if 568 ≤ d ∧ d ≤ 571 then s.intakeSlip 1 (d - 568)
  else s

/-- Does a domain carry a stream, in which data can be lost (R28)? -/
def streamRim (d : Nat) : Bool :=
  (decide (528 ≤ d) && decide (d ≤ 535)) || (decide (546 ≤ d) && decide (d ≤ 571))

/-- RIM_SLIP: the core side of a stream crossing falls behind its rim (R30). -/
def State.rimSlip (s : State) (d : Nat) : State := if streamRim d then (s.countSlip d).slipEnds d else s

/-- RIM_SLIP on a running rim. -/
def execRimSlip (d : Nat) (s : State) : Host.Outcome State Fault Refusal := s.whenUp (fun s => if s.rimOn d then s.rimSlip d else s)

end Sys2Proof.Machine
end

