-- ==== Sys2Proof/Machine/Tack.lean ====
section
/-! DEFINITION. The tack engine, FSYNC outputs and the TIME registers (R43 to R64, R268, R299). -/

namespace Sys2Proof.Machine

/-! ### Entries -/

/-- The programmed instant of an entry in whole nanoseconds (R44). -/
def Tack.due (t : Tack) : Nat := t.instant / 65536

/-- Is the precondition of an entry met against a threshold (R48)? -/
def State.preMet (s : State) (t : Tack) (threshold : Nat) : Bool := !t.preEn || decide (threshold ≤ s.knot t.preKnot)

/-- The wait limit in ns (R50). -/
def Tack.limitNs (t : Tack) : Nat :=
  if t.waitLimit ≠ 0 then 1000 * t.waitLimit else if t.period ≠ 0 then t.period / 65536 else 65535000

/-- An occurrence has ended: PRE_VALUE advances (R48). -/
def Tack.ended (t : Tack) : Tack := { t with preValue := (t.preValue + t.preStep) % 2 ^ 64 }

/-- The schedule moves to the next instant; a one-shot entry has none (R43, R44). -/
def Tack.next (t : Tack) : Tack := if t.period = 0 then { t with spent := true } else { t with instant := t.instant + t.period }

/-- The counters of an entry (R64). -/
inductive TackCnt where
  | late
  | skip
  | timeout
  deriving DecidableEq, Repr

/-- SAT bit and event offset of a counter of an entry: D6 for LATE and SKIP, D7 for TIMEOUT (R64, R646). -/
def TackCnt.bit : TackCnt → Nat
  | .late => 0
  | .skip => 1
  | .timeout => 2
def TackCnt.off : TackCnt → Nat
  | .timeout => 0x0140
  | _ => 0x0138

/-- The value of a counter, and an entry with it replaced. -/
def Tack.cnt (t : Tack) : TackCnt → Nat
  | .late => t.late
  | .skip => t.skip
  | .timeout => t.timeout
def Tack.setCnt (t : Tack) (c : TackCnt) (v : Nat) : Tack :=
  match c with
  | .late => { t with late := v }
  | .skip => { t with skip := v }
  | .timeout => { t with timeout := v }

/-- One count of an entry's saturating counter (R64, R484). -/
def State.tackCount (s : State) (i : Nat) (c : TackCnt) : State :=
  let t := s.tack i
  if t.cnt c = cntMax then s
  else
    let s1 := s.setTack i (t.setCnt c (t.cnt c + 1))
    if t.cnt c + 1 = cntMax then
      (s1.setTack i { (s1.tack i) with sat := or64 t.sat (2 ^ c.bit) }).raise 1 c.off i
    else s1

/-! ### Actions (R45, R55, R56, R268) -/

/-- The oldest held descriptors of a ring, in ring order. -/
def State.heldOf (s : State) (ring : Nat) : List Job :=
  (s.jobs.filter (fun j => j.ring == ring && j.stage == .held)).foldl (fun l j =>
    l.takeWhile (fun k => seqBefore k.seq j.seq) ++ [j] ++ l.dropWhile (fun k => seqBefore k.seq j.seq)) []

/-- One held descriptor is released with a tack time (R266, R268, R269). -/
def State.releaseOne (s : State) (at_ : Nat) (j : Job) : State :=
  s.modJob j.ring j.seq (fun k => s.afterHeld { k with tackTime := some at_ })

/-- RING_SLOT: the oldest held descriptors are released; releases without one are lost and counted (R45, R268). -/
def State.ringSlot (s : State) (ring n at_ : Nat) : State :=
  let l := (s.heldOf ring).take n
  let s1 := l.foldl (fun a j => a.releaseOne at_ j) s
  s1.bumpN (n - l.length) Reg.RING_TACK_MISS_CNT noUnit

/-- The reservations whose job an occurrence of entry i has left held are renewed to its following instant (R299). -/
def State.renewFor (s : State) (i : Nat) : State :=
  let t := s.tack i
  if t.action = 1 ∧ !t.spent then
    { s with jobs := updWhere (fun j => j.stage == .held && (match j.resv with
        | some r => r.entry == i
        | none => false)) (fun j => { j with resv := j.resv.map (fun r => { r with expiry := t.due + 100000 }) }) s.jobs }
  else s

def State.fsyncPin (s : State) (n : Nat) : FsyncPin := Sparse.get (fun _ => {}) n s.fsync
def State.setFsync (s : State) (n : Nat) (p : FsyncPin) : State := { s with fsync := Sparse.put (fun _ => {}) n p s.fsync }

/-- WIDTH × 5 ns; 0 acts as 1 (R61). -/
def State.pulseNs (s : State) (n : Nat) : Nat := 5 * max 1 (s.fld (Reg.TIME_FSYNC_CFG n) Fd.TIME_FSYNC_CFG_WIDTH)

/-- A firing starts a pulse on an enabled pin, or extends the one in progress (R56). -/
def State.pulse (s : State) (n : Nat) : State :=
  if s.bit (Reg.TIME_FSYNC_CFG n) Fd.TIME_FSYNC_CFG_EN then
    let p := s.fsyncPin n
    let s1 := s.setFsync n { p with pulseEnd := some (s.now + s.pulseNs n) }
    if p.pulseEnd.isSome then s1.bumpFld (Reg.TIME_FSYNC_CFG n) Fd.TIME_FSYNC_CFG_OVERLAP else s1
  else s

/-- The rim that an action is aimed at (R55, R650). -/
def actionRim (t : Tack) : Option Nat :=
  match t.action with
  | 2 => some 575
  | 3 => some (532 + t.target)
  | _ => none

/-- The effect of an occurrence's action, at its programmed instant, after FIRES has counted it (R45). -/
def State.act (s : State) (t : Tack) (at_ fires : Nat) : State :=
  match t.action with
  | 1 => s.ringSlot t.target (t.arg + 1) at_
  | 2 => (s.pulse t.target).trigger t.target
  | 3 => s.frameFire t.target
  | 4 => s.gridFire t.target at_
  | 5 => s.openSlot t.target
  | 6 => s.knotSet t.target fires
  | 7 => s.knotAdd t.target (t.arg + 1)
  | _ => s

/-- An occurrence fires: FIRES and the action; one aimed at a stopped rim has no effect beyond the refusal, and is counted in SKIP
(R55) and not in FIRES (log 68). -/
def State.issueTack (s : State) (i at_ : Nat) : State :=
  let t := s.tack i
  let stopped : Option Nat := match actionRim t with
    | some d => if s.rimOn d then none else some d
    | none => none
  match stopped with
  | some d => (s.rimRefuse d).tackCount i .skip
  | none =>
    let fires := (t.fires + 1) % 2 ^ 64
    (s.setTack i { t with fires := fires }).act t at_ fires

/-! ### Occurrences (R46 to R53) -/

/-- Does a waiting occurrence fire late: more than 20 ns after its instant, or written with its instant past (R52, R53)? -/
def TackWait.late (w : TackWait) (now : Nat) : Bool := w.past || decide (w.instant + 20 < now)

/-- A waiting occurrence fires: LATE counts one that is late (R49, R52), also one that finds a stopped rim (log 68). -/
def State.lateFire (s : State) (i : Nat) (w : TackWait) : State :=
  let s1 := (s.setTack i { (s.tack i) with wait := none }).issueTack i w.instant
  let s2 := if w.late s.now then s1.tackCount i .late else s1
  (s2.setTack i (s2.tack i).ended).renewFor i

/-- A waiting occurrence is dropped and counted; the wait limit governs over the next instant (R50). -/
def State.dropWait (s : State) (i : Nat) (c : TackCnt) : State :=
  let s1 := (s.setTack i ({ (s.tack i) with wait := none }).ended).tackCount i c
  let s2 := match c with
    | .timeout => s1.raise 1 0x0100 i
    | _ => s1
  s2.renewFor i

/-- An occurrence is evaluated: it fires, waits or is skipped (R48, R49). Its wait limit counts from its programmed instant; `past` marks
one that was past when written, whose limit counts from the write and whose firing is no crowding (R47, R50, R53). -/
def State.evaluate (s : State) (i : Nat) (past : Bool) : State :=
  let t := s.tack i
  if s.preMet t t.preValue then
    let s1 := s.issueTack i t.due
    let s2 := s1.setTack i (s1.tack i).ended
    if !past && decide (t.due + 20 < s.now) then s2.bump Reg.TIME_TACK_CROWD noUnit else s2
  else if t.skipMode then (s.setTack i t.ended).tackCount i .skip
  else s.setTack i { t with wait := some ⟨if past then s.now else t.due, t.limitNs, t.due, t.preValue, past⟩ }

/-- What becomes of a waiting occurrence at the next one's instant: it fires late if its precondition has become met, else it is
dropped (R50, R51). -/
def State.retireWait (s : State) (i : Nat) : State :=
  let t := s.tack i
  match t.wait with
  | none => s
  | some w =>
    if s.preMet t w.threshold then s.lateFire i w
    else if w.since + w.limit ≤ s.now then s.dropWait i .timeout
    else s.dropWait i .skip

/-- The occurrence that is due (R51); one that starts to wait renews no reservation (R299). -/
def State.fireDue (s : State) (i : Nat) : State :=
  let s1 := (s.retireWait i).evaluate i false
  let s2 := s1.setTack i (s1.tack i).next
  if (s2.tack i).wait.isSome then s2 else s2.renewFor i

/-- Is an entry's next occurrence due? -/
def State.tackDue (s : State) (t : Tack) : Bool := t.enable && !t.spent && decide (t.due ≤ s.now)

/-- May entry i be treated next: up to 8 actions go out in one tick, in ascending entry index (R47)? -/
def State.tackTurn (s : State) (i : Nat) : Bool :=
  s.tackTick.at_ != s.time || s.tackTick.issued == 0 || (decide (s.tackTick.issued < 8) && decide (s.tackTick.last < i))

/-- Is entry i the lowest of those that are due and may be treated next (R47)? -/
def State.tackFirst (s : State) (i : Nat) : Bool :=
  s.tackTurn i && s.tacks.all (fun x => !s.tackDue x.2 || decide (i ≤ x.1) || !s.tackTurn x.1)

/-- The engine has issued an entry's action in this tick. -/
def State.tackDone (s : State) (i : Nat) : State :=
  { s with tackTick := ⟨s.time, (if s.tackTick.at_ = s.time then s.tackTick.issued else 0) + 1, i⟩ }

/-- TACK_FIRE: the instant of an enabled entry's next occurrence is reached, and it is the lowest due (R46, R47). -/
def execTackFire (i : Nat) (s : State) : Host.Outcome State Fault Refusal :=
  s.whenUp (fun s => if i < 4096 ∧ s.tackDue (s.tack i) ∧ s.tackFirst i then ((s.tackDone i).fireDue i).conclude else s)

/-- TACK_LATE_FIRE: a waiting occurrence finds its precondition met (R49), among the actions of its tick (R47). -/
def execTackLateFire (i : Nat) (s : State) : Host.Outcome State Fault Refusal :=
  s.whenUp (fun s =>
    let t := s.tack i
    match t.wait with
    | none => s
    | some w => if t.enable ∧ s.preMet t w.threshold ∧ s.tackTurn i then ((s.tackDone i).lateFire i w).conclude else s)

/-- TACK_TIMEOUT: a waiting occurrence reaches its wait limit with its precondition unmet (R50, R480). -/
def execTackTimeout (i : Nat) (s : State) : Host.Outcome State Fault Refusal :=
  s.whenUp (fun s =>
    let t := s.tack i
    match t.wait with
    | none => s
    | some w => if t.enable ∧ !s.preMet t w.threshold ∧ w.since + w.limit ≤ s.now then (s.dropWait i .timeout).conclude else s)

/-! ### The window (R53, R54, R62 to R64) -/

/-- TIME_TACK_SEL in an origin's bank. -/
def tackSel (o : Origin) : CmdReg :=
  ⟨bankKey o Reg.TIME_TACK_SEL, Fd.TIME_TACK_SEL_INDEX, Fd.TIME_TACK_SEL_STATUS, [.selvage, .hypervisor, .safety], some 5, .register, none⟩

/-- The eight words of an entry (R64). -/
def tackWords (t : Tack) : List Nat :=
  [t.due, t.period, t.preValue,
   t.enable.toNat * 2 ^ 63 + t.prot.toNat * 2 ^ 62 + t.skipMode.toNat * 2 ^ 61 + t.preEn.toNat * 2 ^ 60 + t.action * 2 ^ 56 + t.target * 2 ^ 42 +
     t.arg * 2 ^ 36 + t.preStep * 2 ^ 14 + t.preKnot,
   t.instant % 65536 * 2 ^ 48 + t.waitLimit * 2 ^ 32 + t.owner, t.fires, t.late * 2 ^ 32 + t.skip, t.timeout * 2 ^ 32 + t.sat]

/-- TACK_READ: copies an entry into D0 to D7. -/
def execTackRead (o : Origin) (i : Nat) (s : State) : Host.Outcome State Fault Refusal :=
  s.whenUp (fun s => s.command o (tackSel o) i (fun s => (s.putWords (bankKey o (Reg.TIME_TACK_D0)) (tackWords (s.tack (i % 4096))), 0)))

/-- The entry that D0 to D4 describe, keeping the counters of the old one; PROT is written by Selvage and the safety pairs
only (R54, R64). -/
def State.tackFrom (s : State) (o : Origin) (old : Tack) : Tack :=
  let d := fun k => (s.reg (bankKey o Reg.TIME_TACK_D0 + 8 * k)).toNat
  { instant := d 0 * 65536 + bits (d 4) 63 48, period := d 1, preValue := d 2
    enable := bits (d 3) 63 63 == 1, prot := bits (d 3) 62 62 == 1
    skipMode := bits (d 3) 61 61 == 1, preEn := bits (d 3) 60 60 == 1, action := bits (d 3) 59 56, target := bits (d 3) 55 42
    arg := bits (d 3) 41 36, preStep := bits (d 3) 29 14, preKnot := bits (d 3) 13 0, waitLimit := bits (d 4) 47 32
    owner := o.code, fires := old.fires, late := old.late, skip := old.skip, timeout := old.timeout, sat := old.sat }

/-- The number of targets of an action (R45). -/
def actionTargets : Nat → Nat
  | 1 => 1024
  | 2 => 16
  | 3 => 4
  | 4 => 2
  | 5 => 256
  | 6 => 16384
  | 7 => 16384
  | _ => 0

/-- Does PROT forbid an origin (R54)? -/
def Tack.shut (t : Tack) (o : Origin) : Bool := t.prot && o == .hypervisor

/-- The instants after the present that a past entry passes over: each is skipped (R53). -/
def State.passOver : Nat → State → Nat → State
  | 0, s, _ => s
  | n + 1, s, i =>
    let t := s.tack i
    if t.enable ∧ !t.spent ∧ t.due ≤ s.now then
      let s1 := (s.setTack i t.ended).tackCount i .skip
      State.passOver n (s1.setTack i (s1.tack i).next) i
    else s

/-- How many instants of an entry are not after the present. -/
def Tack.pastCount (t : Tack) (now : Nat) : Nat := if t.period = 0 then 1 else (now * 65536 + 65536 - t.instant) / t.period + 1

/-- An enabled entry whose INSTANT is past when written (R53). -/
def State.writtenPast (s : State) (i : Nat) : State :=
  let t := s.tack i
  if t.enable ∧ t.due ≤ s.now then
    let s1 := s.evaluate i true
    let s2 := s1.setTack i (s1.tack i).next
    s2.passOver (t.pastCount s.now) i
  else s

/-- Drops a waiting occurrence at a write, counted in SKIP; its end advances PRE_VALUE (R48, R53). DEDUCED (log 68): a DISABLE and the
disable of R55 drop it in the same way. -/
def State.dropForWrite (s : State) (i : Nat) : State :=
  if (s.tack i).wait.isSome then (s.setTack i { (s.tack i).ended with wait := none }).tackCount i .skip else s

/-- Reservations of an entry that no longer targets their ring are dropped; held jobs of its ring may now be placed (R299). -/
def State.retarget (s : State) (i : Nat) : State :=
  let t := s.tack i
  let on := t.enable && t.action == 1 && !t.spent
  let s1 := { s with jobs := updWhere (fun j => j.stage == .held && (match j.resv with
      | some r => r.entry == i
      | none => false) && !(on && j.ring == t.target)) (fun j => { j with resv := none }) s.jobs }
  if on then (s1.jobs.filter (fun j => j.stage == .held && j.ring == t.target && j.resv.isNone)).foldl State.advance s1 else s1

/-- WRITE: the checks of R63, then the entry; FIRES restarts when ENABLE goes from 0 to 1 (R64). -/
def State.tackWrite (s : State) (o : Origin) (i : Nat) : State × Nat :=
  let old := s.tack i
  let t := s.tackFrom o old
  if t.enable ∧ (t.action = 0 ∨ 7 < t.action) then (s, 1)
  else if t.enable ∧ actionTargets t.action ≤ t.target then (s, 2)
  else if t.enable ∧ t.period ≠ 0 ∧ t.period < 65536000 then (s, 3)
  else if old.shut o then (s, 4)
  else
    let s1 := s.dropForWrite i
    let t1 := { t with
      prot := if o = .hypervisor then old.prot else t.prot
      fires := if t.enable ∧ !old.enable then 0 else old.fires
      skip := (s1.tack i).skip, sat := (s1.tack i).sat }
    (((s1.setTack i t1).writtenPast i).retarget i |>.conclude, 0)

/-- TACK_WRITE: checks and stores an entry from D0 to D4. -/
def execTackWrite (o : Origin) (i : Nat) (s : State) : Host.Outcome State Fault Refusal :=
  s.whenUp (fun s => s.command o (tackSel o) i (fun s => s.tackWrite o (i % 4096)))

/-- DISABLE: the entry is disabled, subject to PROT (R54). -/
def State.tackDisable (s : State) (o : Origin) (i : Nat) : State × Nat :=
  if (s.tack i).shut o then (s, 4)
  else
    let s1 := s.dropForWrite i
    ((s1.setTack i { (s1.tack i) with enable := false, owner := o.code }).retarget i, 0)

/-- TACK_DISABLE: disables an entry. -/
def execTackDisable (o : Origin) (i : Nat) (s : State) : Host.Outcome State Fault Refusal :=
  s.whenUp (fun s => s.command o (tackSel o) i (fun s => s.tackDisable o (i % 4096)))

/-- TACK_CLEAR: zeroes LATE, SKIP, TIMEOUT and SAT (R64). -/
def execTackClear (o : Origin) (i : Nat) (s : State) : Host.Outcome State Fault Refusal :=
  s.whenUp (fun s => s.command o (tackSel o) i (fun s =>
    (s.setTack (i % 4096) { (s.tack (i % 4096)) with late := 0, skip := 0, timeout := 0, sat := 0 }, 0)))

/-- Entries whose TARGET or PRE_KNOT a removed tenant owned are disabled, with TACK_ORPHAN (R55). DESIGN CHOICE (log 68): only enabled
entries, and by PRE_KNOT only those whose precondition is enabled. -/
def State.orphan (s : State) (ownsRing ownsKnot : Nat → Bool) : State :=
  (s.tacks.filter (fun x => x.2.enable && ((x.2.action == 1 && ownsRing x.2.target) ||
    ((x.2.action == 6 || x.2.action == 7) && ownsKnot x.2.target) || (x.2.preEn && ownsKnot x.2.preKnot)))).foldl (fun a x =>
      let a1 := a.dropForWrite x.1
      ((a1.setTack x.1 { (a1.tack x.1) with enable := false }).raise 1 0x0100 x.1).retarget x.1) s

/-! ### FSYNC pins (R56, R61) -/

/-- FSYNC_PULSE_END: a pulse reaches its end. -/
def execFsyncPulseEnd (n : Nat) (s : State) : Host.Outcome State Fault Refusal :=
  s.whenUp (fun s =>
    match (s.fsyncPin n).pulseEnd with
    | none => s
    | some e => if e ≤ s.now then s.setFsync n { (s.fsyncPin n) with pulseEnd := none } else s)

/-- A write of TIME_FSYNC_CFG_n: OVERLAP is cleared by all ones only; clearing EN or changing POL ends a pulse (R56, R61, R674). -/
def State.writeFsync (s : State) (o : Origin) (n : Nat) (value : Word) : State :=
  let k := Reg.TIME_FSYNC_CFG n
  let v := if Fd.TIME_FSYNC_CFG_OVERLAP.of value = 0x3FFF then value else Fd.TIME_FSYNC_CFG_OVERLAP.put value 0
  s.writeBy o k v (fun a b =>
    let stop := !b.bit k Fd.TIME_FSYNC_CFG_EN || (a.fld k Fd.TIME_FSYNC_CFG_POL != b.fld k Fd.TIME_FSYNC_CFG_POL)
    let p := b.fsyncPin n
    b.setFsync n { configured := p.configured || mayWrite o [.selvage, .hypervisor, .safety], pulseEnd := if stop then none else p.pulseEnd })

/-- FSYNC_CFG_WRITE: a write of TIME_FSYNC_CFG_n. -/
def execFsyncCfgWrite (o : Origin) (n : Nat) (value : Word) (s : State) : Host.Outcome State Fault Refusal :=
  s.whenUp (fun s => if n < 16 then s.writeFsync o n value else s)

/-- The level of an FSYNC pin: active during a pulse, else the inactive level of POL (R56); low until its first configuration
(R674). -/
def State.fsyncLevel (s : State) (n : Nat) : Bool :=
  (s.fsyncPin n).pulseEnd.isSome != s.bit (Reg.TIME_FSYNC_CFG n) Fd.TIME_FSYNC_CFG_POL

/-! ### TIME registers (R57 to R60) -/

/-- A 32-bit read of the low half by an origin: it latches the high half and is answered with the low half (R57). -/
def State.readTimeLo (s : State) (o : Origin) : State :=
  { s with timeLatch := Sparse.put (fun _ => 0) o.code (s.now / 2 ^ 32 % 2 ^ 32) s.timeLatch }.answer (.value (s.now % 2 ^ 32))

/-- A 32-bit read of the high half: the half latched for the origin (R57). -/
def State.readTimeHi (s : State) (o : Origin) : State := s.answer (.value (Sparse.get (fun _ => 0) o.code s.timeLatch))

/-- TIME_NOW_LO_READ: a 32-bit read of the low half latches the high half for the origin (R57). -/
def execTimeNowLoRead (o : Origin) (s : State) : Host.Outcome State Fault Refusal :=
  s.whenUp (fun s => if setupReader o then s.readTimeLo o else s.refuseTo o)

/-- The largest magnitude of ADJ (R58). -/
def adjMax : Int := 1073742

/-- A value of ADJ clamped, and whether it was (R58). -/
def clampAdj (v : Nat) : Nat × Bool :=
  let i := signed32 v
  let c := if i < -adjMax then -adjMax else if adjMax < i then adjMax else i
  ((c % (2 ^ 32 : Nat)).toNat, c != i)

/-- The servo or an origin gives ADJ a value. -/
def State.setAdj (s : State) (v : Nat) : State :=
  let (c, hit) := clampAdj v
  let s1 := s.setFld Reg.TIME_RATE_ADJ Fd.TIME_RATE_ADJ_ADJ c
  if hit then s1.setFld Reg.TIME_STATUS Fd.TIME_STATUS_CLAMPED 1 else s1

/-- A write of TIME_RATE_ADJ: refused with RESULT 0xF2 while SERVO is set, else clamped (R58). -/
def State.writeAdj (s : State) (o : Origin) (value : Word) : State :=
  let k := Reg.TIME_RATE_ADJ
  if s.bit Reg.TIME_CTRL Fd.TIME_CTRL_SERVO && mayWrite o [.selvage, .hypervisor] then s.auditRefusal o k resEnabled
  else
    let v := clampAdj value.toNat
    s.writeBy o k (BitVec.ofNat 64 v.1) (fun _ b =>
      if v.2 && mayWrite o [.selvage, .hypervisor] then b.setFld Reg.TIME_STATUS Fd.TIME_STATUS_CLAMPED 1 else b)

/-- TIME_RATE_ADJ_WRITE: a write of TIME_RATE_ADJ. -/
def execTimeRateAdjWrite (o : Origin) (value : Word) (s : State) : Host.Outcome State Fault Refusal := s.whenUp (fun s => s.writeAdj o value)

end Sys2Proof.Machine
end

