-- ==== Sys2Proof/Machine/Secure.lean ====
section
/-! DEFINITION. Selvage: images and firmware switches, tenants and their removal, attestation, the commands of the audit log
(R494 to R500, R502 to R517, R525 to R533). -/

namespace Sys2Proof.Machine

/-! ### Signed images (R494 to R496) -/

/-- Bytes from an offset of a list. -/
def slice (bs : List Byte) (off n : Nat) : List Byte := (bs.drop off).take n

/-- A little-endian field of a byte list. -/
def leAt (bs : List Byte) (off n : Nat) : Nat := ofLe (slice bs off n)

/-- Are all bytes of a range zero? -/
def zeroAt (bs : List Byte) (off n : Nat) : Bool := (slice bs off n).all (fun b => b == 0)

/-- A byte list cut to a length, zeros beyond its end. -/
def fixBytes (bs : List Byte) (n : Nat) : List Byte := (bs ++ List.replicate n 0).take n

/-- Fields of the header of R495. -/
def imgKind (bs : List Byte) : Nat := leAt bs 4 1
def imgSvn (bs : List Byte) : Nat := leAt bs 8 4
def imgFloor (bs : List Byte) : Nat := leAt bs 12 4
def imgLength (bs : List Byte) : Nat := leAt bs 16 8
def imgLoad (bs : List Byte) : Nat := leAt bs 24 8
def imgEntry (bs : List Byte) : Nat := leAt bs 32 8
def imgSigner (bs : List Byte) : List Byte := slice bs 40 133

/-- Header and body of the image at the start of a byte list. -/
def imgWhole (bs : List Byte) : List Byte := bs.take (512 + imgLength bs)
def imgBody (bs : List Byte) : List Byte := slice bs 512 (imgLength bs)

/-- Header fields in range, for an image of a kind in a slot of a size (R494, R495). -/
def imgHeaderOk (kind size : Nat) (bs : List Byte) : Bool :=
  decide (512 ≤ bs.length) && leAt bs 0 4 == 0x53454C56 && imgKind bs == kind && zeroAt bs 5 1 && leAt bs 6 2 == 1 &&
    decide (512 + imgLength bs ≤ size) && decide (512 + imgLength bs ≤ bs.length) &&
    (if kind ≤ 2 then imgLoad bs == 0 && imgEntry bs == 0 else decide (imgLoad bs + imgLength bs ≤ generalEnd)) &&
    zeroAt bs 173 3 && zeroAt bs 176 200 && zeroAt bs 508 4

/-- The signature over bytes 0 to 375 and the body, under SIGNER (R495). -/
def imgSigned (bs : List Byte) : Bool := Config.sigValid (imgSigner bs) (bs.take 376 ++ imgBody bs) (slice bs 376 132)

/-- A section of a configuration record: TYPE and its bytes, header included. -/
abbrev Section := Nat × List Byte

/-- The sections of a record's body; none where one runs beyond LENGTH (R503, R504). -/
def parseSections : Nat → List Byte → Option (List Section)
  | 0, _ => some []
  | n + 1, bs =>
    let len := leAt bs 2 2
    if bs.length < 4 ∨ len < 4 ∨ bs.length < len then none
    else (parseSections n (bs.drop (ceilDiv len 8 * 8))).map (fun l => (leAt bs 0 1, bs.take len) :: l)

/-- The sections of an image of kind 2. -/
def recSections (bs : List Byte) : Option (List Section) := parseSections (leAt (imgBody bs) 2 2) ((imgBody bs).drop 8)

/-- The one section of a type. -/
def oneSection (l : List Section) (t : Nat) : Option (List Byte) := (l.find? (fun x => x.1 == t)).map (·.2)

/-- The integrator's key of a record: the subject key of its INTEGRATOR_CERT (R496). -/
def recKey (l : List Section) : Option (List Byte) := (oneSection l 1).bind (fun c => Config.certKey (c.drop 4))

/-- Does an image's SIGNER match its kind, given the integrator's key in force (R496)? -/
def signerOk (kind : Nat) (key : Option (List Byte)) (bs : List Byte) : Bool :=
  match kind with
  | 1 => Config.sha512 (imgSigner bs) == Config.imageKeyHash
  | 2 => (recSections bs).bind recKey == some (imgSigner bs)
  | _ => key == some (imgSigner bs)

/-- The FLOOR held for a kind (R499). -/
def State.floor (s : State) (kind : Nat) : Nat := Sparse.get (fun _ => 0) kind s.trust.store.floors

/-- Does an image verify but for its SVN (R496)? -/
def imgGood (kind size : Nat) (key : Option (List Byte)) (bs : List Byte) : Bool :=
  imgHeaderOk kind size bs && imgSigned bs && signerOk kind key bs

/-- The size of a slot of a kind, header included (R494). -/
def State.slotBytes (s : State) (kind slot : Nat) : Nat :=
  match kind with
  | 1 => 2 ^ 21
  | 2 => 2 ^ 18
  | _ =>
    match s.trust.record with
    | none => 0
    | some r => match r.slots.find? (fun x => x.1 == kind && x.2.1 == slot) with
      | none => 0
      | some x => x.2.2.2

/-- The active slot that the boot control word names for a kind, A by default (R494). -/
def State.activeSlot (s : State) (kind : Nat) : Nat := Sparse.get (fun _ => 0) kind s.trust.store.active

/-- Replaces the stores of xSPI NOR and RPMB. -/
def State.modStore (s : State) (f : Store → Store) : State := { s with trust := { s.trust with store := f s.trust.store } }

/-! ### Firmware commands (R500, R530) -/

/-- SEC_FW as a command register. -/
def fwCmd : CmdReg := ⟨Reg.SEC_FW, Fd.SEC_FW_KIND, Fd.SEC_FW_STATUS, [.hypervisor], some 5, .firmware, some 1⟩

/-- Does a range of n bytes lie in general DRAM (R97)? -/
def inGeneral (a n : Nat) : Bool := decide (a + n ≤ generalEnd)

/-- Is a switch of a kind open: BEGIN journaled and not yet resolved (R500)? -/
def State.switchOpen (s : State) (kind : Nat) : Bool := s.journal.openOps.any (fun r => r.kind == jSwitch && r.target / 2 == kind)

/-- Does a STAGE of a kind run? -/
def State.isStaging (s : State) (kind : Nat) : Bool := s.trust.staging.any (fun x => x.1 == kind)

/-- The inactive slot of a kind. -/
def State.otherSlot (s : State) (kind : Nat) : Nat := 1 - s.activeSlot kind

/-- STAGE: the image in general DRAM is verified; its bytes go to the inactive slot, which meanwhile holds no image (R500). -/
def State.stageImage (s : State) (kind : Nat) : State × Nat :=
  let a := s.fld Reg.SEC_FW_ADDR Fd.SEC_FW_ADDR_IMAGE * 4096
  let size := s.slotBytes kind (s.otherSlot kind)
  let head := s.readBytes a 512
  let len := 512 + imgLength head
  if kind = 0 ∨ 5 < kind then (s, 2)
  else if s.switchOpen kind then (s, 7)
  else if s.isStaging kind then (s, 1)
  else if !inGeneral a 512 || s.readFails a 512 then (s.noteRead a 512, 2)
  else if size < len || !inGeneral a len then (s, 2)
  else if s.readFails a len then (s.noteRead a len, 2)
  else
    let bs := s.readBytes a len
    if !imgGood kind size (s.trust.record.map (·.key)) bs then (s, 2)
    else if imgSvn bs < s.floor kind then (s, 3)
    else
      let key := 2 * kind + s.otherSlot kind
      let s1 := s.modStore (fun t => { t with images := Sparse.put (fun _ => []) key [] t.images, invalid := key :: t.invalid.erase key })
      ({ s1 with trust := { s1.trust with staging := s1.trust.staging ++ [(kind, bs)], staged := s1.trust.staged.erase kind } }, 1)

/-- STAGE: the command STAGE for a kind. -/
def execFwStage (o : Origin) (kind : Nat) (s : State) : Host.Outcome State Fault Refusal :=
  s.whenUp (fun s => s.command o fwCmd (kind % 8) (fun s => s.stageImage (kind % 8)))

/-- STATUS of SEC_FW leaves PENDING for a kind. -/
def State.fwStatus (s : State) (kind code : Nat) : State :=
  if s.fld Reg.SEC_FW Fd.SEC_FW_KIND = kind ∧ s.fld Reg.SEC_FW Fd.SEC_FW_STATUS = 1 then s.setFld Reg.SEC_FW Fd.SEC_FW_STATUS code else s

/-- A STAGE ends: the image stands in the inactive slot, or was not read back as written (R500). -/
def State.staged (s : State) (kind : Nat) (bs : List Byte) (ok : Bool) : State :=
  let key := 2 * kind + s.otherSlot kind
  let s1 := { s with trust := { s.trust with staging := s.trust.staging.filter (fun x => x.1 != kind) } }
  if ok then
    let s2 := s1.modStore (fun t => { t with images := Sparse.put (fun _ => []) key bs t.images, invalid := t.invalid.erase key })
    { s2 with trust := { s2.trust with staged := kind :: s2.trust.staged.erase kind } }.fwStatus kind 0
  else s1.fwStatus kind 2

/-- STAGE_DONE: writing, reading back and verifying the staged image of a kind end. -/
def execStageDone (kind : Nat) (ok : Bool) (s : State) : Host.Outcome State Fault Refusal :=
  s.whenUp (fun s =>
    match s.trust.staging.find? (fun x => x.1 == kind) with
    | none => s
    | some x => s.staged kind x.2 ok)

/-- SWITCH: BEGIN is journaled, the boot control word names the new slot, FLIP is written (R500). -/
def State.switchSlot (s : State) (kind : Nat) (jrnl : Bool) : State × Nat :=
  if s.switchOpen kind then (s, 7)
  else if !s.trust.staged.contains kind then (s, 4)
  else
    let new := s.otherSlot kind
    let (s1, ok) := s.jBeginOp jSwitch (2 * kind + new) (2 * kind + s.activeSlot kind) 0 jrnl
    if ok then
      let s2 := s1.modStore (fun t => { t with active := Sparse.put (fun _ => 0) kind new t.active })
      ({ s2 with trust := { s2.trust with staged := s2.trust.staged.erase kind } }.jWrite jSwitch jFlip (2 * kind + new) (2 * kind + s.activeSlot kind) 0, 0)
    else (s1, 6)

/-- SWITCH: the command SWITCH for a kind. -/
def execFwSwitch (o : Origin) (kind : Nat) (jrnl : Bool) (s : State) : Host.Outcome State Fault Refusal :=
  s.whenUp (fun s => s.command o fwCmd (kind % 8) (fun s => s.switchSlot (kind % 8) jrnl))

/-- DISCARD: the staged image of a kind is dropped. -/
def execFwDiscard (o : Origin) (kind : Nat) (s : State) : Host.Outcome State Fault Refusal :=
  s.whenUp (fun s => s.command o fwCmd (kind % 8) (fun s =>
    let k := kind % 8
    if s.trust.staged.contains k || s.isStaging k then
      ({ s with trust := { s.trust with staged := s.trust.staged.erase k, staging := s.trust.staging.filter (fun x => x.1 != k) } }, 0)
    else (s, 4)))

/-! ### Tenants (R502, R511 to R517, R531) -/

/-- SEC_TENANT_SEL in an origin's bank. -/
def tenantSel (o : Origin) : CmdReg :=
  ⟨bankKey o Reg.SEC_TENANT_SEL, Fd.SEC_TENANT_SEL_ORIGIN, Fd.SEC_TENANT_SEL_STATUS, [.hypervisor], some 6, .tenant, some 1⟩

/-- Is an origin identifier a tenant's, or an instance's (R511)? -/
def isInstance (t : Nat) : Bool := decide (0x10 ≤ t) && decide (t ≤ 0x4F)
def isTenant (t : Nat) : Bool := t == 0x02 || isInstance t

def State.tenant (s : State) (t : Nat) : Tenant := Sparse.get (fun _ => {}) t s.trust.tenants
def State.setTenant (s : State) (t : Nat) (x : Tenant) : State := { s with trust := { s.trust with tenants := Sparse.put (fun _ => {}) t x s.trust.tenants } }

/-- Is a tenant live? -/
def State.live (s : State) (t : Nat) : Bool := (s.tenant t).state == 1

/-- Replaces the EPOCH of a slot (R502). -/
def State.setEpoch (s : State) (t e : Nat) : State := { s with epochs := Sparse.put (fun _ => 0) t e s.epochs }

/-- TENANT_READ: EPOCH, CONF and STATE of a slot go to D0 of the origin's bank. -/
def execTenantRead (o : Origin) (t : Nat) (s : State) : Host.Outcome State Fault Refusal :=
  s.whenUp (fun s => s.command o (tenantSel o) (t % 256) (fun s =>
    let k := t % 256
    if isTenant k then
      (s.setReg (bankKey o Reg.SEC_TENANT_D0) (BitVec.ofNat 64 (s.epoch k * 2 ^ 32 + (s.tenant k).conf.toNat * 8 + (s.tenant k).state)), 0)
    else (s, 3)))

/-- CREATE: the data key is derived at the slot's EPOCH; CONF comes from D0 (R502, R511, R512). The entry of a key slot change
follows (R525). -/
def State.createTenant (s : State) (o : Origin) (t : Nat) : State × Nat :=
  if !isInstance t then (s, 3)
  else if (s.tenant t).state = 1 then (s, 5)
  else if (s.tenant t).state = 2 then (s, 2)
  else if s.epoch t = 0xFFFFFFFF then (s, 4)
  else
    ((s.setTenant t { state := 1, conf := s.bit (bankKey o Reg.SEC_TENANT_D0) Fd.SEC_TENANT_D0_CONF }).auditLog .selvage .keySlot 0 t
      (s.tenant t).state 1, 0)

/-- CREATE: the command CREATE. -/
def execTenantCreate (o : Origin) (t : Nat) (s : State) : Host.Outcome State Fault Refusal :=
  s.whenUp (fun s => s.command o (tenantSel o) (t % 256) (fun s => s.createTenant o (t % 256)))

/-- The fetched descriptors of a ring that have not been admitted complete with TENANT_GONE. -/
def State.goneFetched (s : State) (n : Nat) : State :=
  let l := (s.ring n).fetched
  let s1 := s.setRing n { s.ring n with fetched := [] }
  l.foldl (fun a (seq, d) => a.finish { ring := n, seq := seq, desc := d, kind := descKind d } codeGone 0 0) s1

/-- The rings of an instance, and its cores by TENANT. -/
def viRings (v : Nat) : List Nat := (List.range 16).map (fun i => 16 * v + i)
def State.tenantCores (s : State) (t : Nat) : List Nat := (List.range 128).filter (fun n => s.coreTenant n == t)

/-- Everything of an instance between fetch and record completes with TENANT_GONE (R516 step 3). -/
def State.goneJobs (s : State) (v : Nat) : State :=
  let s1 := (viRings v).foldl (fun a n => a.setFld (Reg.RING_CFG n) Fd.RING_CFG_EN 0) s
  let s2 := (s1.jobs.filter (fun j => ringVi j.ring == v)).foldl (fun a j => a.endJob j.ring j.seq codeGone 0) s1
  (viRings v).foldl State.goneFetched s2

/-- The cores of a departing tenant are scrubbed, TENANT reads 0, and its lines leave the array cache (R199, R513, R516 step 4). -/
def State.scrubTenant (s : State) (t : Nat) : State :=
  ((s.tenantCores t).foldl (fun a n => (a.setFld (Reg.ARY_CORE n) Fd.ARY_CORE_TENANT 0).modCore n Core.scrub) s).dropLines (fun l => l.origin == t)

/-- The hot-set entries of an owner are freed. -/
def State.freeHot (s : State) (t : Nat) : State :=
  (s.hot.filter (fun x => x.2.owner == t && x.2.state != 0)).foldl (fun a x => ((a.unpin x.1).alwDrop (.loader x.1)).setHot x.1 {}) s

/-- UFS unit ownerships of a tenant are released (R516, R649). -/
def State.freeUnits (s : State) (t : Nat) : State :=
  (List.range 32).foldl (fun a u => if a.fld (Reg.GEN_UFS_LU u) Fd.GEN_UFS_LU_OWNER = t then a.setFld (Reg.GEN_UFS_LU u) Fd.GEN_UFS_LU_OWNER 0 else a) s

/-- DATA mappings of a tenant are released (R516). -/
def State.freeMaps (s : State) (t : Nat) : State :=
  { s with bridge := { s.bridge with map := s.bridge.map.filter (fun x => !(x.2.data && x.2.owner == t)) } }

/-- The link keys of a tenant leave the cache: those of its next EPOCH are others (R501, R502). -/
def State.dropKeys (s : State) (t : Nat) : State := { s with cwy := { s.cwy with keys := s.cwy.keys.filter (fun k => k.1 != t) } }

/-- Step 5 of R516: rings, knot range, tacks, hot-set entries, mappings, units, frame queues (R605); the
instance is EMPTY. -/
def State.releaseTenant (s : State) (v : Nat) : State :=
  let t := 0x10 + v
  let s1 := (viRings v).foldl (fun a n => a.setFld (Reg.RING_CFG n) Fd.RING_CFG_GEN (a.fld (Reg.RING_CFG n) Fd.RING_CFG_GEN + 1)) s
  let s2 := (s1.orphan (fun n => ringVi n == v) (fun k => s1.ownsKnot v k)).setReg (Reg.KNOT_RANGE v) 0
  (((((s2.freeHot t).freeMaps t).freeUnits t).flushOwned t).dropKeys t).setFld (Reg.VI_STATE v) Fd.VI_STATE_STATE 0

/-- A save or restore of an instance that is removed ends with it. -/
def State.dropImages (s : State) (v : Nat) : State :=
  let s1 := (s.insts.saving.filter (fun x => x.vi == v)).foldl (fun a x => a.jWrite jSave jRolledBack v x.place 0) s
  { s1 with insts := { s1.insts with
      saving := s1.insts.saving.filter (fun x => x.vi != v)
      restoring := s1.insts.restoring.filter (fun x => x.1 != v) } }

/-- A removal begins: BEGIN of kind 8, the key slot is retired, the steps of R516 follow; EPOCH and DONE wait for RPMB. -/
def State.removeTenant (s : State) (t : Nat) (jrnl : Bool) : State × Nat :=
  let v := t - 0x10
  let (s1, ok) := s.jBeginOp jRemoval t 0 0 jrnl
  if ok then
    let x := { s1.tenant t with state := 2 }
    let s2 := (s1.setTenant t x).auditLog .selvage .keySlot 0 t 1 2
    let s3 := { s2 with trust := { s2.trust with removing := s2.trust.removing ++ [t] } }
    (((((s3.goneJobs v).scrubTenant t).dropImages v).releaseTenant v).conclude, 1)
  else (s1, 7)

/-- The checks of REMOVE and FORCE_REMOVE (R511, R515, R543). -/
def State.remove (s : State) (t : Nat) (force jrnl : Bool) : State × Nat :=
  if !isInstance t || !((s.tenant t).state == 1 || (s.tenant t).state == 2) then (s, 3)
  else if (s.tenant t).state = 2 then (s, 2)
  else if force || s.viState (t - 0x10) == 0 || s.viState (t - 0x10) == 3 || s.viState (t - 0x10) == 5 then s.removeTenant t jrnl
  else (s, 2)

/-- REMOVE: removes a quiesced tenant. -/
def execTenantRemove (o : Origin) (t : Nat) (jrnl : Bool) (s : State) : Host.Outcome State Fault Refusal :=
  s.whenUp (fun s => s.command o (tenantSel o) (t % 256) (fun s => s.remove (t % 256) false jrnl))

/-- FORCE_REMOVE: removes a tenant in any state. -/
def execTenantForceRemove (o : Origin) (t : Nat) (jrnl : Bool) (s : State) : Host.Outcome State Fault Refusal :=
  s.whenUp (fun s => s.command o (tenantSel o) (t % 256) (fun s => s.remove (t % 256) true jrnl))

/-- STATUS of SEC_TENANT_SEL leaves PENDING for an origin. -/
def State.tenantStatus (s : State) (t code : Nat) : State :=
  let k := bankKey .hypervisor Reg.SEC_TENANT_SEL
  if s.fld k Fd.SEC_TENANT_SEL_ORIGIN = t ∧ s.fld k Fd.SEC_TENANT_SEL_STATUS = 1 then s.setFld k Fd.SEC_TENANT_SEL_STATUS code else s

/-- REMOVAL_DONE: the new EPOCH stands in RPMB and DONE is journaled; a failed RPMB write leaves the removal open (R499, R502,
R516). -/
def execRemovalDone (t : Nat) (rpmb : Bool) (s : State) : Host.Outcome State Fault Refusal :=
  s.whenUp (fun s =>
    if s.trust.removing.contains t then
      let s1 := { s with trust := { s.trust with removing := s.trust.removing.erase t } }
      if rpmb then
        let e := min 0xFFFFFFFF (s.epoch t + 1)
        ((((s1.setEpoch t e).setTenant t { state := 3 }).jWrite jRemoval jDone t 0 0).auditLog .selvage .tenant 0 t (s.epoch t) e).tenantStatus t 0
      else s1.tenantStatus t 7
    else s)

/-! ### Attestation (R506, R507, R532) -/

/-- SEC_ATTEST in an origin's bank. -/
def attSel (o : Origin) : CmdReg :=
  ⟨bankKey o Reg.SEC_ATTEST, ⟨23, 0⟩, Fd.SEC_ATTEST_STATUS, [.hypervisor, .usb4], none, .register, some 1⟩

/-- May the copy engine of Selvage reach n bytes for an origin's block: general DRAM outside enclaves, or a CONTROL mapping (R493,
R508, R521)? -/
def State.copyOk (s : State) (a n : Nat) : Bool :=
  (inGeneral a n && s.dmaOk a n) ||
  (inHostWindow a && inHostWindow (a + n - 1) && (List.range (granuleOf (a + n - 1) + 1 - granuleOf a)).all (fun i =>
    let x := a + i * 2 ^ 26
    s.windowOpen x && !(s.mapEntry (granuleOf x)).data))

/-- Does a request for a key wrap come from elsewhere than the host of the named tenant (R506)? -/
def wrapDenied (o : Origin) (tenant : Nat) : Bool :=
  match o with
  | .vi v => tenant != 0x10 + v % 64
  | _ => true

/-- REPORT: checks of the request; an accepted one is captured (R506). -/
def State.request (s : State) (o : Origin) (enclave tenant : Nat) (wrap : Bool) : State × Nat :=
  let a := s.fld (bankKey o Reg.SEC_ATT_REQ) Fd.SEC_ATT_REQ_REQ * 64
  let out := s.fld (bankKey o Reg.SEC_ATT_OUT) Fd.SEC_ATT_OUT_OUT * 1024
  let n := if wrap then 165 else 32
  if s.trust.reports.any (fun r => r.origin == o) then (s, 1)
  else if wrap && wrapDenied o tenant then (s, 2)
  else if (tenant != 0 && !s.live tenant) || (enclave != 0 && !(s.trust.enclaves.any (fun e => e.1 == enclave))) ||
      !s.copyOk a n || !s.copyOk out 1024 || s.readFails a n then (if s.copyOk a n then s.noteRead a n else s, 3)
  else
    let r : Report := { origin := o, tenant := tenant, enclave := enclave, nonce := s.peekBytes a 32
                        wrap := if wrap then some (s.peekBytes (a + 32) 133) else none, out := out }
    ({ s with trust := { s.trust with reports := s.trust.reports ++ [r] } }, 1)

/-- A REPORT command on SEC_ATTEST of the origin's bank: its low 24 bits hold ENCLAVE, TENANT and WRAP, a USB4 host's field. -/
def State.attReport (s : State) (o : Origin) (enclave tenant : Nat) (wrap : Bool) : State :=
  let w := wrap && (originWriter o == some .usb4)
  s.command o (attSel o) (enclave % 256 * 65536 + tenant % 256 * 256 + w.toNat) (fun s => s.request o (enclave % 256) (tenant % 256) w)

/-- REPORT: `far` is what a read of the request block in host memory returned. -/
def execAttReport (o : Origin) (enclave tenant : Nat) (wrap : Bool) (far : List FarRead) (s : State) : Host.Outcome State Fault Refusal :=
  s.whenUp (fun s => (s.learn 1 far).attReport o enclave tenant wrap)

/-- The running image of a kind. -/
def State.runningImage (s : State) (kind : Nat) : Running := Sparse.get (fun _ => {}) kind s.trust.running

/-- FLAGS of a report (R507). -/
def State.reportFlags (s : State) : Nat :=
  s.trust.debugged.toNat + 2 * s.display.early.isSome.toNat + 4 * s.safe.injected.toNat + 8 * s.fld Reg.SEC_BOOT Fd.SEC_BOOT_RPMB_OK

/-- TFLAGS of a report. -/
def State.tenantFlags (s : State) (t : Nat) : Nat :=
  (s.tenant t).conf.toNat + 2 * (isInstance t && s.suspended (t - 0x10)).toNat

/-- KEY_WRAP: the tenant's data key, wrapped (R507; log 4). -/
def State.keyWrap (s : State) (r : Report) : List Byte :=
  match r.wrap with
  | none => List.replicate 40 0
  | some pub =>
    fixBytes (Config.sealBytes (Config.deriveKey 3 (ofLe r.nonce) (ofLe pub)) (leBytes 32 (Config.deriveKey 1 r.tenant (s.epoch r.tenant)).toNat)) 40

/-- Bytes 0 to 887 of a report (R507). -/
def State.reportBody (s : State) (r : Report) : List Byte :=
  leBytes 4 0x41545354 ++ leBytes 2 1 ++ leBytes 2 (s.fld Reg.SEC_BOOT Fd.SEC_BOOT_ORDER) ++ leBytes 8 s.now ++
    leBytes 8 (s.fld Reg.SEC_BOOT Fd.SEC_BOOT_BOOT_COUNT) ++ fixBytes r.nonce 32 ++ leBytes 4 s.reportFlags ++ leBytes 4 s.ownDev ++
    [1, 2, 3, 4, 5].flatMap (fun k => beBytes 64 (s.runningImage k).meas) ++ [1, 2, 3, 4, 5].flatMap (fun k => leBytes 4 (s.runningImage k).svn) ++
    leBytes 4 0 ++ leBytes 1 r.tenant ++ leBytes 1 (s.tenantFlags r.tenant) ++ leBytes 1 r.enclave ++ leBytes 1 0 ++
    leBytes 4 (if r.tenant = 0 then 0 else s.epoch r.tenant) ++
    beBytes 64 (Sparse.get (fun _ => ({} : Enclave)) r.enclave s.trust.enclaves).meas ++ s.keyWrap r ++ List.replicate 368 0

/-- A signature with the identity key: r and s, then 4 zero bytes (R495). -/
def signed136 (bs : List Byte) : List Byte := beBytes 132 (Config.sign bs).toNat ++ List.replicate 4 0

/-- REPORT_DONE: the signed report of an origin class is written (R507). -/
def execReportDone (o : Origin) (s : State) : Host.Outcome State Fault Refusal :=
  s.whenUp (fun s =>
    match s.trust.reports.find? (fun r => r.origin == o) with
    | none => s
    | some r =>
      let body := s.reportBody r
      ({ s with trust := { s.trust with reports := s.trust.reports.filter (fun x => x.origin != o) } }.store r.out (body ++ signed136 body)).setFld
        (bankKey o Reg.SEC_ATTEST) Fd.SEC_ATTEST_STATUS 0)

/-! ### Commands of the audit log (R526 to R528, R533) -/

/-- EXPORT: starts a copy where its range is good; while one runs a command has no effect (R528). -/
def State.startExport (s : State) (count : Nat) : State :=
  let dest := s.fld Reg.AUDIT_EXPORT_DEST Fd.AUDIT_EXPORT_DEST_DEST * 64
  let first := (s.reg Reg.AUDIT_EXPORTED).toNat
  if s.trust.exporting.isSome then s
  else if count = 0 ∨ (s.reg Reg.AUDIT_HEAD).toNat - first < count ∨ !inGeneral dest (128 * count + 256) ∨ !s.dmaOk dest (128 * count + 256) then
    s.setFld Reg.AUDIT_EXPORT Fd.AUDIT_EXPORT_STATUS 2
  else { s with trust := { s.trust with exporting := some (first, count, dest) } }.setFld Reg.AUDIT_EXPORT Fd.AUDIT_EXPORT_STATUS 1

/-- EXPORT: the hypervisor writes COUNT and the command; the AUDIT block's writes are not audited (R525). -/
def execAuditExport (o : Origin) (count : Nat) (s : State) : Host.Outcome State Fault Refusal :=
  s.whenUp (fun s =>
    if o = .hypervisor then (s.setFld Reg.AUDIT_EXPORT Fd.AUDIT_EXPORT_COUNT count).startExport (count % 2 ^ 20)
    else if setupOrigin o then s else s.refuseTo o)

/-- The trailer of an export (R528). -/
def State.exportTrailer (s : State) (first count : Nat) : List Byte :=
  let last := first + count - 1
  let b := leBytes 4 0x41554458 ++ leBytes 4 0 ++ leBytes 8 first ++ leBytes 8 last ++
    s.readBytes (reservedBase + 128 * (last % auditSize) + 64) 64 ++ leBytes 8 s.now ++
    leBytes 8 (s.fld Reg.SEC_BOOT Fd.SEC_BOOT_BOOT_COUNT) ++ List.replicate 16 0
  b ++ signed136 b

/-- The entries of an export, from the ring. -/
def State.exportEntries (s : State) (first count : Nat) : List Byte :=
  (List.range count).flatMap (fun i => s.readBytes (reservedBase + 128 * ((first + i) % auditSize)) 128)

/-- EXPORT_DONE: the copy ends with its trailer; AUDIT_EXPORTED advances and a kind 11 entry follows (R528). -/
def execExportDone (s : State) : Host.Outcome State Fault Refusal :=
  s.whenUp (fun s =>
    match s.trust.exporting with
    | none => s
    | some (first, count, dest) =>
      let s1 := { s with trust := { s.trust with exporting := none } }.store dest (s.exportEntries first count ++ s.exportTrailer first count)
      let s2 := s1.setReg Reg.AUDIT_EXPORTED (BitVec.ofNat 64 (first + count))
      (s2.auditLog .selvage .exported 0 dest first (first + count)).setFld Reg.AUDIT_EXPORT Fd.AUDIT_EXPORT_STATUS 0)

/-- Space has returned: the lost entries are recorded first, the crossing of AUDIT_NEAR is armed again (R527). -/
def State.auditSpace (s : State) : State :=
  let s1 := s.auditRefresh
  let s2 := if s1.auditOcc < auditNear then { s1 with audit := { s1.audit with near := false } } else s1
  if s2.audit.lost ≠ 0 ∧ !s2.auditFull then
    { s2 with audit := { s2.audit with lost := 0 } }.auditPut .selvage .lost 0 0 0 0 s2.audit.lost
  else s2

/-- AUDIT_ACK: the hypervisor advances AUDIT_TAIL up to AUDIT_EXPORTED; a higher value sets ACK_ERR (R528). -/
def State.ackAudit (s : State) (o : Origin) (value : Word) : State :=
  if o = .hypervisor then
    if (s.reg Reg.AUDIT_EXPORTED).toNat < value.toNat then s.setFld Reg.AUDIT_STATUS Fd.AUDIT_STATUS_ACK_ERR 1
    else if (s.reg Reg.AUDIT_TAIL).toNat < value.toNat then (s.setReg Reg.AUDIT_TAIL value).auditSpace
    else s
  else if setupOrigin o then s else s.refuseTo o

/-- AUDIT_ACK: a write of AUDIT_ACK. -/
def execAuditAck (o : Origin) (value : Word) (s : State) : Host.Outcome State Fault Refusal := s.whenUp (fun s => s.ackAudit o value)

end Sys2Proof.Machine
end

