-- ==== Sys2Proof/Machine/Usb4.lean ====
section
/-! DEFINITION. The USB4 link and the host bridge: held reads, completions, prefetch, the functions and their BARs, the mapping
window, the error queue (R558 to R580). -/

namespace Sys2Proof.Machine

/-! ### Held reads (R566 to R568, R572) -/

/-- A read that a consumer waits for has been answered: the fill of the job that issued it waits for one read less. -/
def State.readAnswered (s : State) (u : ReadFor) : State :=
  match u with
  | .checker _ => s
  | .fill core tag ring seq gen =>
    match s.job? ring seq with
    | none => s
    | some j =>
      if j.gen = gen ∧ (s.core core).job = some (ring, seq) then
        s.modCore core (fun c => { c with tags := updWhere (fun t => t.tag == tag) (fun t => { t with awaits := t.awaits - 1 }) c.tags })
      else s

/-- The oldest read that waits for a tag takes a free one (R566). -/
def State.grantTag (s : State) : State :=
  match s.bridge.held.find? (fun h => h.tag == 512), s.freeTag with
  | some w, some t => { s with bridge := { s.bridge with held := updWhere (fun h => h == w) (fun h => { h with tag := t, gen := s.tagGen t }) s.bridge.held } }
  | _, _ => s

/-- A held read ends; its tag goes to the oldest read that waits. -/
def State.endRead (s : State) (h : HeldRead) : State :=
  ({ s with bridge := { s.bridge with held := s.bridge.held.erase h } }.readAnswered h.use).grantTag

/-- The tag of a read that ends without its completion is retired under a new generation (R567). -/
def State.retireTag (s : State) (t : Nat) : State :=
  if t < 512 then { s with bridge := { s.bridge with tagGen := Sparse.put (fun _ => 0) t (s.tagGen t + 1) s.bridge.tagGen } } else s

/-- A held read is answered with an error response: poison (R567, R568). -/
def State.failRead (s : State) (h : HeldRead) : State := ((s.setPoison h.addr h.len).retireTag h.tag).endRead h

/-- A held read reaches the end of its lease (R567). -/
def State.expireRead (s : State) (h : HeldRead) : State := (s.readExpired h.fn h.addr h.origin).failRead h

/-! ### Prefetch (R574, R575) -/

/-- The bridge has seen two consecutive page reads of one issuer: a page read follows the last one, or one read covers two pages. -/
def State.consecutive (s : State) (h : HeldRead) : Bool :=
  let ps := pagesOf h.addr h.len
  decide (2 ≤ ps.length) || (s.bridge.lastPage.any (fun x => x.1 == h.origin) && Sparse.get (fun _ => 0) h.origin s.bridge.lastPage == ps.headD 0)

/-- One page read ahead arrives, inside the granule. -/
def State.pageAhead (s : State) (h : HeldRead) (page : Nat) (bs : List Byte) : State :=
  if page / 16384 ≠ granuleOf h.addr || s.bridge.fetched.any (fun p => p.page == page && p.issuer == h.origin) then s
  else
    let s1 := s.farBytes (0x8000000000 + 4096 * page) (fixBytes bs 4096)
    { s1 with bridge := { s1.bridge with fetched := s1.bridge.fetched ++ [⟨page, h.origin, s.now⟩] } }

/-- A read of a DATA granule has completed: with PREFETCH set and two consecutive page reads up to 4 further pages arrive. -/
def State.readAhead (s : State) (h : HeldRead) (ahead : List (List Byte)) : State :=
  let e := s.mapEntry (granuleOf h.addr)
  let last := (pagesOf h.addr h.len).getLastD 0
  if e.data then
    let s1 := if e.pf && s.consecutive h then
        (List.range (min 4 ahead.length)).foldl (fun a i => a.pageAhead h (last + 1 + i) (ahead.getD i [])) s
      else s
    { s1 with bridge := { s1.bridge with lastPage := Sparse.put (fun _ => 0) h.origin (last + 1) s1.bridge.lastPage } }
  else s

/-- A completion for a held read. -/
def State.completeRead (s : State) (h : HeldRead) (d : FarData) (ahead : List (List Byte)) : State :=
  let s1 := s.deliverRead h.fn h.origin h.addr h.len d
  let s2 := match d with
    | .ok _ => s1.readAhead h ahead
    | _ => s1
  s2.endRead h

/-- HOST_COMPLETION: the host completes the read of a tag and generation: bytes, an error, poison or a failing tag; `ahead` holds the
pages that the bridge read ahead. One that names an old generation, or comes when the lease has ended, is discarded and counted (R480,
R567, R572). -/
def execHostCompletion (tag gen : Nat) (data : FarData) (ahead : List (List Byte)) (s : State) : Host.Outcome State Fault Refusal :=
  s.whenUp (fun s =>
    if data = .expired then s
    else match s.bridge.held.find? (fun h => h.tag == tag && h.gen == gen && decide (tag < 512)) with
      | none => s.bump Reg.SPARE_STALE_CNT noUnit
      | some h => if s.now < h.expiry then s.completeRead h data ahead else (s.expireRead h).bump Reg.SPARE_STALE_CNT noUnit)

/-- BRIDGE_READ_EXPIRE: a held read reaches 2 ms; tag 512 stands for a read that still waits for a tag. -/
def execBridgeReadExpire (tag gen : Nat) (s : State) : Host.Outcome State Fault Refusal :=
  s.whenUp (fun s =>
    match s.bridge.held.find? (fun h => h.tag == tag && h.gen == gen && decide (h.expiry ≤ s.now)) with
    | none => s
    | some h => s.expireRead h)

/-- PREFETCH_EXPIRE: a prefetched page has not been read within 100 µs of its arrival. -/
def execPrefetchExpire (page : Nat) (s : State) : Host.Outcome State Fault Refusal :=
  s.whenUp (fun s => s.discardPages (fun p => p.page == page && decide (p.arrived + 100000 ≤ s.now)))

/-! ### The link (R558, R560, R568, R571) -/

/-- A signal of the bridge that is an event and a message of the physical function, vector 0 (R571). -/
def State.bridgeSignal (s : State) (unit : Nat) : State := (s.bridgeEvent unit).msix 0 0

/-- May the router train the link: its domain is on, LINK_EN is set, its rims run? -/
def State.usbReady (s : State) : Bool := s.domainOn 212 && s.bit Reg.UBR_CTRL Fd.UBR_CTRL_LINK_EN && s.usbRims

/-- The link is up in a mode, once the bridge holds its charge (R10, R560); a link that trains before asks for it and trains again
(log 83). -/
def State.usbTrained (s : State) (mode : Nat) : State :=
  let s1 := s.obtain (s.unitReq .bridge .lc none 0)
  if s1.holdsGrant .bridge then
    ((s1.setFld Reg.UBR_STATUS Fd.UBR_STATUS_LINK_UP 1).setFld Reg.UBR_STATUS Fd.UBR_STATUS_MODE mode).bridgeSignal noUnit
  else s1

/-- USB4_LINK_UP: the link trains in a mode of R576; a partner that offers none of the modes gets no link (mode 0). -/
def execUsb4LinkUp (mode : Nat) (s : State) : Host.Outcome State Fault Refusal :=
  s.whenUp (fun s =>
    if s.usbReady && !s.linkUp && decide (1 ≤ mode) && decide (mode ≤ 4) then s.usbTrained mode else s)

/-- Queued posted writes that satisfy a test are dropped: counted, one record with their number, UBR_ERR, with its message while
the link is up (R563, R568, R571, R572). -/
def State.dropPosted (s : State) (t : Posted → Bool) : State :=
  match s.bridge.posted.filter t with
  | [] => s
  | p :: l =>
    let n := l.length + 1
    let s1 := { s with bridge := { s.bridge with posted := s.bridge.posted.filter (fun x => !t x) } }
    let s2 := ((State.bumpN n s1 Reg.UBR_WR_DROP_CNT noUnit).bridgeError 3 p.fn p.addr 0 n).bridgeEvent noUnit
    if s.linkUp then s2.msix 0 0 else s2

/-- The bridge declares the link down (R568): every held read is answered with poison, every posted write is dropped, every function
loses bus mastering. -/
def State.linkLost (s : State) : State :=
  let s1 := (s.setFld Reg.UBR_STATUS Fd.UBR_STATUS_LINK_UP 0).setFld Reg.UBR_STATUS Fd.UBR_STATUS_MODE 0
  let s2 := (s1.bridgeEvent noUnit).dropPosted (fun _ => true)
  let s3 := s2.bridge.held.foldl State.failRead s2
  { s3 with bridge := { s3.bridge with masters := [], lastPage := [] } }.alwDrop .bridge

/-- USB4_LINK_DOWN: the link is lost. -/
def execUsb4LinkDown (s : State) : Host.Outcome State Fault Refusal := s.whenUp (fun s => if s.linkUp then s.linkLost else s)

/-- A function level reset of one function (R563). -/
def State.resetFunction (s : State) (fn : Nat) : State :=
  let s1 := (s.bridge.held.filter (fun h => h.fn == fn)).foldl State.failRead s
  let s2 := s1.dropPosted (fun p => p.fn == fn)
  ({ s2 with bridge := { s2.bridge with msix := s2.bridge.msix.filter (fun x => x.1 / 64 != fn) } }).bridgeEvent fn

/-- FUNCTION_LEVEL_RESET: of a function; of the physical function, or a hot reset of the link, of every function. -/
def execFunctionLevelReset (fn : Nat) (s : State) : Host.Outcome State Fault Refusal :=
  s.whenUp (fun s =>
    if fn = 0 then ((List.range 65).foldl State.resetFunction s).msix 0 0
    else if fn ≤ 64 then (s.resetFunction fn).msix 0 0
    else s)

/-- BUS_MASTERING_ENABLE: the host enables bus mastering on a function. -/
def execBusMasteringEnable (fn : Nat) (s : State) : Host.Outcome State Fault Refusal :=
  s.whenUp (fun s =>
    if s.linkUp ∧ fn ≤ 64 ∧ !s.bridge.masters.contains fn then { s with bridge := { s.bridge with masters := fn :: s.bridge.masters } } else s)

/-! ### MSI-X tables (R562, R571) -/

/-- A vector of a function. -/
def State.vector (s : State) (fn vec : Nat) : MsixVec := Sparse.get (fun _ => {}) (64 * fn + vec) s.bridge.msix

/-- Replaces a vector; one that is unmasked with its pending bit set sends its message. -/
def State.setVector (s : State) (fn vec : Nat) (v : MsixVec) : State :=
  let send := v.waiting && !v.masked
  let s1 := { s with bridge := { s.bridge with msix := Sparse.put (fun _ => {}) (64 * fn + vec) { v with waiting := v.waiting && v.masked } s.bridge.msix } }
  if send then s1.msix fn vec else s1

/-- MSIX_UNMASK: the host unmasks a vector. -/
def execMsixUnmask (fn vec : Nat) (s : State) : Host.Outcome State Fault Refusal :=
  s.whenUp (fun s =>
    if fn ≤ 64 ∧ vec < 64 ∧ s.functionOn fn ∧ s.linkUp then s.setVector fn vec { s.vector fn vec with masked := false } else s)

/-- One 32-bit word of a vector's table entry, as PCIe lays it out: address low and high, data, vector control. -/
def MsixVec.word (v : MsixVec) (i : Nat) : Nat :=
  match i with
  | 0 => bits v.addr 31 0
  | 1 => bits v.addr 63 32
  | 2 => v.data % 2 ^ 32
  | _ => v.masked.toNat

/-- A vector with one word of its entry replaced. -/
def MsixVec.setWord (v : MsixVec) (i w : Nat) : MsixVec :=
  match i with
  | 0 => { v with addr := bits v.addr 63 32 * 2 ^ 32 + w % 2 ^ 32 }
  | 1 => { v with addr := w % 2 ^ 32 * 2 ^ 32 + bits v.addr 31 0 }
  | 2 => { v with data := w % 2 ^ 32 }
  | _ => { v with masked := w % 2 == 1 }

/-- The word at an offset of a function's MSI-X table. -/
def State.tableWord (s : State) (fn off : Nat) : Nat := (s.vector fn (off / 16)).word (off % 16 / 4)

/-- A read of 4 or 8 bytes of the table. -/
def State.tableRead (s : State) (fn off bytes : Nat) : Nat :=
  s.tableWord fn off + (if bytes = 8 then s.tableWord fn (off + 4) * 2 ^ 32 else 0)

/-- A write of 4 or 8 bytes of the table. -/
def State.tableWrite (s : State) (fn off bytes w : Nat) : State :=
  let one := fun (a : State) (o x : Nat) => a.setVector fn (o / 16) ((a.vector fn (o / 16)).setWord (o % 16 / 4) x)
  let s1 := one s off w
  if bytes = 8 then one s1 (off + 4) (w / 2 ^ 32) else s1

/-- The pending bits of a function. -/
def State.pendingBits (s : State) (fn : Nat) : Nat := ((List.range 64).map (fun i => (s.vector fn i).waiting.toNat * 2 ^ i)).sum

/-! ### The error queue (R579) -/

/-- Pops the head record into UBR_ERR_W0 to UBR_ERR_W2; with none queued VALID is 0. -/
def State.popBridgeErr (s : State) : State :=
  match s.bridge.errq with
  | [] => ((s.setReg Reg.UBR_ERR_W0 0).setReg Reg.UBR_ERR_W1 0).setReg Reg.UBR_ERR_W2 0
  | e :: l =>
    (({ s with bridge := { s.bridge with errq := l } }.setReg Reg.UBR_ERR_W0 (BitVec.ofNat 64 e.w0)).setReg Reg.UBR_ERR_W1 (BitVec.ofNat 64 e.w1)).setReg
      Reg.UBR_ERR_W2 (BitVec.ofNat 64 e.w2)

/-- Pops and answers with W0. -/
def State.popBridgeErrAs (s : State) : State :=
  let s1 := s.popBridgeErr
  s1.answer (.value (s1.reg Reg.UBR_ERR_W0).toNat)

/-- UBR_ERR_POP: an origin reads UBR_ERR_W0. -/
def execUbrErrPop (o : Origin) (s : State) : Host.Outcome State Fault Refusal :=
  s.whenUp (fun s => if setupReader o then s.popBridgeErrAs else s.refuseTo o)

/-! ### BAR0 (R562, R572) -/

/-- The views of BAR0: where an offset of a function's BAR leads. -/
inductive BarView where
  | timeNow (at_ : Nat)
  | attest (at_ : Nat)
  | errors (at_ : Nat)
  | ringWake
  | viState
  | table (at_ : Nat)
  | pba (at_ : Nat)
  | nothing
  deriving DecidableEq, Repr

/-- The view of an offset (R562). The offsets inside a view follow the registers' own spacing (log 30). -/
def barView (fn off : Nat) : BarView :=
  if fn = 0 then
    if off < 8 then .timeNow off
    else if 0x1000 ≤ off ∧ off < 0x1018 then .attest (off - 0x1000)
    else if 0x2000 ≤ off ∧ off < 0x2020 then .errors (off - 0x2000)
    else if 0x80000 ≤ off ∧ off < 0x80400 then .table (off - 0x80000)
    else if 0x90000 ≤ off ∧ off < 0x90008 then .pba (off - 0x90000)
    else .nothing
  else
    if off = 0 then .ringWake
    else if 0x1000 ≤ off ∧ off < 0x1018 then .attest (off - 0x1000)
    else if off = 0x2000 then .viState
    else if 0x3000 ≤ off ∧ off < 0x3008 then .timeNow (off - 0x3000)
    else if 0x8000 ≤ off ∧ off < 0x8400 then .table (off - 0x8000)
    else if 0xC000 ≤ off ∧ off < 0xC008 then .pba (off - 0xC000)
    else .nothing

/-- The origin that a function acts as (R561). -/
def fnOrigin (fn : Nat) : Origin := if fn = 0 then .usb4 else .vi (fn - 1)

/-- The size of BAR0. -/
def barBytes (fn : Nat) : Nat := if fn = 0 then 2 ^ 20 else 2 ^ 16

/-- 4 or 8 bytes of a 64-bit word at an offset inside it. -/
def part (w off bytes : Nat) : Nat := if bytes = 8 then w else w / 2 ^ (8 * (off % 8)) % 2 ^ 32

/-- A host read of BAR0. -/
def State.barRead (s : State) (fn off bytes : Nat) : State :=
  let o := fnOrigin fn
  match barView fn off with
  | .timeNow at_ => if bytes = 8 then s.answer (.value s.now) else if at_ = 0 then s.readTimeLo o else s.readTimeHi o
  | .attest at_ => s.answer (.value (part (s.reg (bankKey o (Reg.SEC_ATTEST + at_ / 8 * 8))).toNat at_ bytes))
  | .errors at_ =>
    if at_ < 8 then s.answer (.value (part s.ubrStatusView.toNat at_ bytes))
    else if at_ = 8 then
      let s1 := s.popBridgeErr
      s1.answer (.value (part (s1.reg Reg.UBR_ERR_W0).toNat at_ bytes))
    else s.answer (.value (part (s.reg (Reg.UBR_ERR_W0 + (at_ / 8 - 1) * 8)).toNat at_ bytes))
  | .viState => s.answer (.value (part (s.viView (fn - 1)).toNat 0 bytes))
  | .table at_ => s.answer (.value (s.tableRead fn at_ bytes))
  | .pba at_ => s.answer (.value (part (s.pendingBits fn) at_ bytes))
  | _ => s.answer (.value 0)

/-- A host write to the attestation registers of a function's bank: a REPORT command, or the fields (R532, R640). -/
def State.attestWrite (s : State) (o : Origin) (at_ bytes w : Nat) : State :=
  if at_ = 0 then
    if bits w 31 28 = 1 then s.attReport o (bits w 23 16) (bits w 15 8) (w % 2 == 1)
    else s.writePlain o (bankKey o Reg.SEC_ATTEST) (BitVec.ofNat 64 (w % 2 ^ 32))
  else
    let k := bankKey o (Reg.SEC_ATTEST + at_ / 8 * 8)
    if bytes = 8 then s.writePlain o k (BitVec.ofNat 64 w) else s.auditRefusal o k resWidth

/-- A host write to BAR0; views that are read only, and other offsets, take no write. -/
def State.barWrite (s : State) (fn off bytes w : Nat) (far : List FarRead) : State :=
  match barView fn off with
  | .ringWake => s.ringWake (fnOrigin fn) (w % 1024) far
  | .attest at_ => (s.learn 1 far).attestWrite (fnOrigin fn) at_ bytes w
  | .table at_ => s.tableWrite fn at_ bytes w
  | _ => s

/-- A host request that is an error: a record and UBR_ERR (R572). -/
def State.barError (s : State) (kind fn off : Nat) : State := (s.bridgeError kind fn off 0x50 1).bridgeSignal noUnit

/-- A host request to a BAR: a poisoned or malformed one is discarded, one beyond BAR0 or to no function of the endpoint is answered with
Unsupported Request (R572). -/
def State.barRequest (s : State) (r : BarReq) (far : List FarRead) : State :=
  if r.bad then s.barError 4 (r.fn % 128) r.offset
  else if 64 < r.fn ∨ barBytes r.fn < r.offset + r.bytes ∨ (r.bytes ≠ 4 ∧ r.bytes ≠ 8) ∨ r.offset % r.bytes ≠ 0 then (s.barError 1 (r.fn % 128) r.offset).answer .unsupported
  else if !s.functionOn r.fn then (if r.write then s else s.answer (.value 0))
  else if r.write then s.barWrite r.fn r.offset r.bytes r.value far
  else s.barRead r.fn r.offset r.bytes

/-- HOST_BAR_REQUEST: a host request arrives over the link; `far` is what reads of host memory that it causes returned. -/
def execHostBarRequest (req : BarReq) (far : List FarRead) (s : State) : Host.Outcome State Fault Refusal :=
  s.whenUp (fun s => if s.linkUp then s.barRequest req far else s)

/-! ### The mapping window (R577, R578) -/

/-- UBR_MAP_SEL as a command register. -/
def mapCmd : CmdReg := ⟨Reg.UBR_MAP_SEL, Fd.UBR_MAP_SEL_INDEX, Fd.UBR_MAP_SEL_STATUS, [.selvage, .hypervisor], some 3, .register, none⟩

/-- The words of an entry. -/
def MapEntry.words (e : MapEntry) : List Nat :=
  [e.en.toNat * 2 ^ 63 + e.data.toNat * 2 ^ 62 + e.pf.toNat * 2 ^ 61 + e.side.toNat * 2 ^ 60 + e.func * 2 ^ 53 + e.owner * 2 ^ 45,
   e.host * 2 ^ 26, e.metaBase * 2 ^ 12]

/-- UBR_MAP_READ: entry INDEX goes to D0 to D2. -/
def execUbrMapRead (o : Origin) (idx : Nat) (s : State) : Host.Outcome State Fault Refusal :=
  s.whenUp (fun s => s.command o mapCmd idx (fun s =>
    let ws := (s.mapEntry (idx % 4096)).words
    (((s.setReg Reg.UBR_MAP_D0 (BitVec.ofNat 64 (ws.getD 0 0))).setReg Reg.UBR_MAP_D1 (BitVec.ofNat 64 (ws.getD 1 0))).setReg
      Reg.UBR_MAP_D2 (BitVec.ofNat 64 (ws.getD 2 0)), 0)))

/-- The entry that D0 to D2 spell. -/
def State.mapWords (s : State) : MapEntry :=
  { en := s.bit Reg.UBR_MAP_D0 Fd.UBR_MAP_D0_EN, data := s.bit Reg.UBR_MAP_D0 Fd.UBR_MAP_D0_KIND
    pf := s.bit Reg.UBR_MAP_D0 Fd.UBR_MAP_D0_PREFETCH, side := s.bit Reg.UBR_MAP_D0 Fd.UBR_MAP_D0_SIDE
    func := s.fld Reg.UBR_MAP_D0 Fd.UBR_MAP_D0_FUNC, owner := s.fld Reg.UBR_MAP_D0 Fd.UBR_MAP_D0_OWNER
    host := s.fld Reg.UBR_MAP_D1 Fd.UBR_MAP_D1_HOST, metaBase := s.fld Reg.UBR_MAP_D2 Fd.UBR_MAP_D2_META }

/-- Are reads of a granule held? -/
def State.granuleBusy (s : State) (i : Nat) : Bool :=
  s.bridge.held.any (fun h => decide (granuleOf h.addr ≤ i) && decide (i ≤ granuleOf (h.addr + max 1 h.len - 1)))

/-- Replaces an entry; the granule's prefetched pages are discarded under the entry that they came by. -/
def State.setMap (s : State) (i : Nat) (e : MapEntry) : State :=
  let s1 := s.discardGranule i
  { s1 with bridge := { s1.bridge with
      map := Sparse.put (fun _ => {}) i e s1.bridge.map
      counters := s1.bridge.counters.filter (fun x => x.1 / 16384 != i) } }

/-- UBR_MAP_WRITE: D0 to D2 are checked and stored as entry INDEX. -/
def execUbrMapWrite (o : Origin) (idx : Nat) (s : State) : Host.Outcome State Fault Refusal :=
  s.whenUp (fun s => s.command o mapCmd idx (fun s =>
    let e := s.mapWords
    if !s.live e.owner || (e.data && e.metaBase == 0) || decide (64 < e.func) then (s, 1)
    else if s.granuleBusy (idx % 4096) then (s, 2)
    else (s.setMap (idx % 4096) e, 0)))

/-- UBR_MAP_DISABLE: entry INDEX is disabled. -/
def execUbrMapDisable (o : Origin) (idx : Nat) (s : State) : Host.Outcome State Fault Refusal :=
  s.whenUp (fun s => s.command o mapCmd idx (fun s =>
    if s.granuleBusy (idx % 4096) then (s, 2)
    else (s.setMap (idx % 4096) { s.mapEntry (idx % 4096) with en := false }, 0)))

end Sys2Proof.Machine
end

