-- ==== Sys2Proof/Machine/Causeway.lean ====
section
/-! DEFINITION. The Causeway engine: receiving, delivery and loss, remote reads, knots and seals, ports and lanes (R616 to R635). -/

namespace Sys2Proof.Machine

/-! ### Sending what waits (R622, R623) -/

/-- Held frames whose link key was missing leave in order. -/
def State.sendHeld : Nat → State → Nat → State
  | 0, s, _ => s
  | n + 1, s, i =>
    let p := s.peer i
    match p.unacked.find? (fun h => !h.sent) with
    | none => s
    | some h =>
      if s.hasKey h.frame.tenant i then
        State.sendHeld n ((s.setPeer i { p with unacked := updWhere (fun x => x == h) (fun x => { x with sent := true }) p.unacked }).wire i h.frame) i
      else s

/-- Frames beyond the window of 64 are held as room comes. -/
def State.promote : Nat → State → Nat → State
  | 0, s, _ => s
  | n + 1, s, i =>
    let p := s.peer i
    match p.backlog with
    | [] => s
    | f :: l => if p.unacked.length < 64 then State.promote n ((s.setPeer i { p with backlog := l }).hold i f) i else s

/-- An acknowledgement that is due goes out in an ACK frame, once the key of tenant 0x02 is there. -/
def State.ackNow (s : State) (i : Nat) : State :=
  if (s.peer i).ackDue && s.hasKey 2 i then s.wire i { type := 4, tenant := 2, epoch := s.epoch 2 } else s

/-- The link key of a tenant and peer is in the cache: what waited for it leaves. -/
def State.keyReady (s : State) (tenant i : Nat) : State := (State.sendHeld 64 (s.touchKey tenant i) i).ackNow i

/-- LINK_KEY_DERIVED: a derivation for an UP peer finishes. -/
def execLinkKeyDerived (tenant peer : Nat) (s : State) : Host.Outcome State Fault Refusal :=
  s.whenUp (fun s => if (s.peer peer).state = 3 && !s.hasKey tenant peer then s.keyReady tenant peer else s)

/-- Sends the held frames of a pair again, the oldest first. -/
def State.resend (s : State) (i : Nat) : State :=
  ((s.peer i).unacked.filter (fun h => h.sent)).foldl (fun a h => a.wire i h.frame) s

/-! ### Remote reads end (R624, R626) -/

/-- A remote read ends: its consumer waits for one read less. -/
def State.endRemote (s : State) (r : RemoteRead) : State :=
  { s with cwy := { s.cwy with reads := s.cwy.reads.erase r } }.readAnswered r.use

/-- A remote read is answered with poison. -/
def State.failRemote (s : State) (r : RemoteRead) : State := (s.setPoison (s.place r.addr) r.len).endRemote r

/-- A peer becomes LOST (R624). -/
def State.lostPeer (s : State) (i : Nat) : State :=
  let s1 := (s.cwy.reads.filter (fun r => r.peer == i)).foldl State.failRemote s
  let p := s1.peer i
  let knots := (((p.unacked.map (fun h => h.frame)) ++ p.backlog).filter (fun f => f.type == 3)).length
  let s2 := s1.setPeer i { p with state := 4, unacked := [], backlog := [], retries := 0, ackDue := false }
  ((State.bumpN knots s2 Reg.KNOT_REMOTE_DROP_CNT noUnit).bump Reg.CWY_PEER_LOST_CNT noUnit).raise 20 0x0400 i

/-! ### Receiving (R619 to R624) -/

/-- Does a port take a frame from a peer entry: the port is up with its receive rim running, and in the peer's mask? -/
def State.onPort (s : State) (port i : Nat) : Bool :=
  s.portUp port && s.rimOn (cwyRx port) && (s.peer i).ports / 2 ^ port % 2 == 1

/-- The UP peer that a frame addressed to this device comes from. -/
def State.sender (s : State) (port : Nat) (f : Frame) : Option Nat :=
  match s.peerOf f.src with
  | none => none
  | some i => if s.onPort port i && f.dst == s.ownDev && (s.peer i).state == 3 then some i else none

/-- A valid frame has been heard: its ACK releases held frames, progress restarts the retransmission interval, waiting frames are
held in their place (R623). -/
def State.heard (s : State) (i : Nat) (f : Frame) : State :=
  let p := s.peer i
  let rest := p.unacked.filter (fun h => !(h.sent && seqBefore h.frame.seq f.ack))
  let moved := rest.length != p.unacked.length
  State.promote 64 (s.setPeer i { p with
    heardAt := s.now
    unacked := rest
    moved := if moved then s.now else p.moved
    retries := if moved then 0 else p.retries }) i

/-- Receipt of a frame other than KEY: one whose tag fails is dropped and counted, one of a removed tenant too; a sequenced frame has
its effect only with the SEQ that is expected, a duplicate is discarded without a count, any other counted in OOO_DROP; what is due is
acknowledged (R517, R622, R623). -/
def State.receive (s : State) (port : Nat) (f : Frame) (tagOk sequenced : Bool) (effect : State → Nat → State) : State :=
  match s.sender port f with
  | none => s
  | some i =>
    if s.goneTenant f.tenant then s.bump Reg.SEC_GONE_DROP_CNT noUnit
    else if !tagOk then s.tagFail
    else
      let s1 := (s.keyReady f.tenant i).heard i f
      let p := s1.peer i
      if !sequenced then effect s1 i
      else if f.seq = p.expect then (effect (s1.setPeer i { p with expect := (p.expect + 1) % 2 ^ 32, ackDue := true }) i).ackNow i
      else if seqBefore f.seq p.expect then (s1.setPeer i { p with ackDue := true }).ackNow i
      else s1.bump Reg.CWY_OOO_DROP noUnit

/-- ACK: a frame that only acknowledges. -/
def execCwyAck (port : Nat) (f : Frame) (tagOk : Bool) (s : State) : Host.Outcome State Fault Refusal :=
  s.whenUp (fun s => s.receive port f tagOk false (fun a _ => a))

/-- HELLO: a keep-alive frame. -/
def execCwyHello (port : Nat) (f : Frame) (tagOk : Bool) (s : State) : Host.Outcome State Fault Refusal :=
  s.whenUp (fun s => s.receive port f tagOk false (fun a _ => a))

/-! ### Serving reads (R626, R629) -/

/-- The address window of a tenant: its instance's ranges; for tenant 0x02 general DRAM (R97, R537, R626). -/
def State.tenantWindow (s : State) (t : Nat) : List (Nat × Nat) :=
  if t = 2 then [(s.ownDev * 2 ^ 48, s.ownDev * 2 ^ 48 + generalEnd)]
  else if 0x10 ≤ t ∧ t ≤ 0x4F then s.windowRanges (t - 0x10)
  else []

/-- Is a request served: inside the window, in coherent memory of this device? -/
def State.serves (s : State) (t g n : Nat) : Bool :=
  devOf g == s.ownDev && inRanges (s.tenantWindow t) (g % 2 ^ 63) n && s.dmaOk (g % 2 ^ 48) n

/-- The request is refused with an ERROR frame, whose reason the manual does not lay out. -/
def State.refuseRemote (s : State) (i : Nat) (f : Frame) : State :=
  let (why, s1) := s.takeFree
  (s1.bump Reg.CWY_REFUSE_CNT noUnit).send i { type := 6, tenant := f.tenant, arg := why % 2 ^ 64, tag := f.tag, epoch := s.epoch f.tenant }

/-- Payload bytes of a frame (R618). -/
def State.maxPayload (s : State) : Nat := if s.bit Reg.CWY_ID Fd.CWY_ID_JUMBO then 4096 else 1024

/-- One READ_DATA frame of a request: the bytes at an offset, marked where they are poison. -/
def State.readDataFrame (s : State) (f : Frame) (off : Nat) : Frame :=
  let n := min s.maxPayload (f.length - off)
  let a := f.arg % 2 ^ 48 + off
  { type := 2, flags := if s.readFails a n then flagPoison else 0, tenant := f.tenant, length := n, arg := off, tag := f.tag
    epoch := s.epoch f.tenant, payload := s.peekBytes a n }

/-- READ_REQ: a read of 1 to 4,096 B is served, or refused. -/
def execReadReq (port : Nat) (f : Frame) (tagOk : Bool) (s : State) : Host.Outcome State Fault Refusal :=
  s.whenUp (fun s => s.receive port f tagOk true (fun a i =>
    if 1 ≤ f.length ∧ f.length ≤ 4096 ∧ a.serves f.tenant f.arg f.length then
      (List.range (ceilDiv f.length a.maxPayload)).foldl (fun b k => b.send i (a.readDataFrame f (k * a.maxPayload)))
        (a.noteRead (f.arg % 2 ^ 48) f.length)
    else a.refuseRemote i f))

/-- Is the device's time offset unsynchronised (R629, R630)? -/
def State.unsynced (s : State) : Bool :=
  s.bit Reg.TSN_GPTP_STATUS Fd.TSN_GPTP_STATUS_REFUSED || s.bit Reg.TSN_GPTP_STATUS Fd.TSN_GPTP_STATUS_GM_LOST

/-- The SEAL_DATA frame of a seal, with its extension (R629). -/
def State.sealDataFrame (s : State) (f : Frame) : Frame :=
  let a := f.arg % 2 ^ 48
  { type := 0xA
    flags := (if s.readFails a 32 then flagPoison else 0) + (if s.unsynced then flagUnsync else 0)
    tenant := f.tenant, tag := f.tag, epoch := s.epoch f.tenant
    ext := s.peekBytes a 4 ++ leBytes 4 (s.reg Reg.TSN_OFFSET).toNat ++ s.peekBytes (a + 8) 24 }

/-- SEAL_REQ: a read of a 32 B seal is answered with SEAL_DATA, or refused. -/
def execSealReq (port : Nat) (f : Frame) (tagOk : Bool) (s : State) : Host.Outcome State Fault Refusal :=
  s.whenUp (fun s => s.receive port f tagOk true (fun a i =>
    if a.serves f.tenant f.arg 32 then (a.noteRead (f.arg % 2 ^ 48) 32).send i (a.sealDataFrame f) else a.refuseRemote i f))

/-! ### Answers to remote reads (R625, R626, R629, R630) -/

/-- The held read that an answer belongs to takes it; one that names none, or comes when the lease has ended, is stale (R480, R626). -/
def State.answered (s : State) (i : Nat) (f : Frame) (use : State → RemoteRead → State) : State :=
  match s.cwy.reads.find? (fun r => r.peer == i && r.tag == f.tag) with
  | none => s.bump Reg.SPARE_STALE_CNT noUnit
  | some r => if r.expiry ≤ s.now then (s.failRemote r).bump Reg.SPARE_STALE_CNT noUnit else use s r

/-- Read data arrive for a held read; the last of them complete it, with poison where a frame carried POISON. -/
def State.takeData (s : State) (f : Frame) (r : RemoteRead) : State :=
  let bs := f.payload.take (r.len - f.arg)
  let s1 := s.farBytes (s.place r.addr + f.arg) bs
  let q : RemoteRead := { r with got := r.got + bs.length, poison := r.poison || f.flags % 2 == 1 }
  let s2 : State := { s1 with cwy := { s1.cwy with reads := updWhere (fun x => x == r) (fun _ => q) s1.cwy.reads } }
  if q.len ≤ q.got then if q.poison then s2.failRemote q else s2.endRemote q else s2

/-- READ_DATA: data for a held remote read. -/
def execReadData (port : Nat) (f : Frame) (tagOk : Bool) (s : State) : Host.Outcome State Fault Refusal :=
  s.whenUp (fun s => s.receive port f tagOk true (fun a i => a.answered i f (fun b r => b.takeData f r)))

/-- ERROR: the request was refused; the requester receives poison. -/
def execCwyError (port : Nat) (f : Frame) (tagOk : Bool) (s : State) : Host.Outcome State Fault Refusal :=
  s.whenUp (fun s => s.receive port f tagOk true (fun a i => a.answered i f State.failRemote))

/-- A 32-bit time extended against a reference (R42). -/
def extend32 (low ref : Nat) : Nat :=
  let d := signed32 (low + 2 ^ 32 - ref % 2 ^ 32)
  ((ref : Int) + d).toNat % 2 ^ 64

/-- The compact time of a remote seal in the device's own time: TIME + OFFSET_responder − OFFSET_requester, extended (R630). -/
def State.remoteTime (s : State) (time offset : Nat) : Nat :=
  extend32 ((time + offset + 2 ^ 32 - (s.reg Reg.TSN_OFFSET).toNat % 2 ^ 32) % 2 ^ 32) s.now

/-- A remote seal arrives: it is kept in the device's own time, with the mark of an unsynchronised side. -/
def State.takeSeal (s : State) (f : Frame) (r : RemoteRead) : State :=
  if f.flags % 2 = 1 then s.failRemote r
  else
    let p := s.place r.addr
    let e := fixBytes f.ext 32
    let s1 := s.farBytes p (leBytes 8 (s.remoteTime (ofLe (e.take 4)) (ofLe ((e.drop 4).take 4))) ++ e.drop 8)
    let out := s1.cwy.unsync.filter (fun x => x != p)
    let s2 : State := { s1 with cwy := { s1.cwy with unsync := if f.flags / 2 % 2 = 1 || s1.unsynced then p :: out else out } }
    s2.endRemote r

/-- SEAL_DATA: the seal of a held request. -/
def execSealData (port : Nat) (f : Frame) (tagOk : Bool) (s : State) : Host.Outcome State Fault Refusal :=
  s.whenUp (fun s => s.receive port f tagOk true (fun a i => a.answered i f (fun b r => if r.isSeal then b.takeSeal f r else b.bump Reg.SPARE_STALE_CNT noUnit)))

/-! ### Remote knots (R278, R627) -/

/-- Does a tenant reach a knot: its instance's range; for tenant 0x02 the knots outside every range? -/
def State.tenantKnot (s : State) (t k : Nat) : Bool :=
  if t = 2 then (s.knotOwner k).isNone else decide (0x10 ≤ t) && decide (t ≤ 0x4F) && s.ownsKnot (t - 0x10) k

/-- A KNOT frame is applied: OP 1 ADD, 2 SET; outside the tenant's range it is dropped and counted. -/
def State.remoteKnot (s : State) (f : Frame) : State :=
  if s.tenantKnot f.tenant f.knot then
    (if f.op = 1 then s.knotAdd f.knot f.arg else if f.op = 2 then s.knotSet f.knot f.arg else s).conclude
  else s.bump Reg.KNOT_REMOTE_DROP_CNT noUnit

/-- KNOT: a signal of another device to a knot of this one. -/
def execCwyKnot (port : Nat) (f : Frame) (tagOk : Bool) (s : State) : Host.Outcome State Fault Refusal :=
  s.whenUp (fun s => s.receive port f tagOk true (fun a _ => a.remoteKnot f))

/-! ### Timers of a pair (R623, R624) -/

/-- HELLO_TIMER: nothing has been sent to an UP peer for 100 µs. -/
def execHelloTimer (peer : Nat) (s : State) : Host.Outcome State Fault Refusal :=
  s.whenUp (fun s =>
    let p := s.peer peer
    if p.state = 3 ∧ p.sentAt + 100000 ≤ s.now ∧ s.hasKey 2 peer then s.wire peer { type := 5, tenant := 2, epoch := s.epoch 2 } else s)

/-- RETRANSMIT: RETX_US passes without progress; after 8 retransmissions without progress the peer is LOST. -/
def execRetransmit (peer : Nat) (s : State) : Host.Outcome State Fault Refusal :=
  s.whenUp (fun s =>
    let p := s.peer peer
    if p.state = 3 ∧ p.unacked.any (fun h => h.sent) ∧ p.moved + 1000 * max 1 (s.fld Reg.CWY_CFG Fd.CWY_CFG_RETX_US) ≤ s.now then
      if 8 ≤ p.retries then s.lostPeer peer
      else ((s.setPeer peer { p with retries := p.retries + 1, moved := s.now }).bump Reg.CWY_RETX_CNT noUnit).resend peer
    else s)

/-- PEER_TIMEOUT: PEER_TMO_US passes without a valid frame. -/
def execPeerTimeout (peer : Nat) (s : State) : Host.Outcome State Fault Refusal :=
  s.whenUp (fun s =>
    if (s.peer peer).state = 3 ∧ (s.peer peer).heardAt + 1000 * max 1 (s.fld Reg.CWY_CFG Fd.CWY_CFG_PEER_TMO_US) ≤ s.now then s.lostPeer peer else s)

/-! ### KEY frames (R622, R624) -/

/-- The identity certificate goes to a peer in KEY frames, in clear; ARG counts its bytes. -/
def State.sendKey (s : State) (i : Nat) : State :=
  (List.range (ceilDiv Config.identityCert.length s.maxPayload)).foldl (fun a k =>
    let bs := (Config.identityCert.drop (k * s.maxPayload)).take s.maxPayload
    a.transmit i { type := 7, tenant := 0, length := bs.length, arg := k * s.maxPayload, payload := bs }) s

/-- Does a certificate check, its key against KEY_ID: the first 16 B of the SHA-512 of the key (R621)? -/
def Peer.accepts (p : Peer) (cert : List Byte) : Bool :=
  match Config.peerKey cert with
  | none => false
  | some k => (beBytes 64 (Config.sha512 k).toNat).take 16 == p.keyId

/-- A pair starts: sequences at 0 on both sides. -/
def State.pairUp (s : State) (i : Nat) : State :=
  s.setPeer i { s.peer i with
    state := 3, seq := 0, expect := 0, unacked := [], backlog := [], retries := 0, moved := s.now, sentAt := s.now, heardAt := s.now, ackDue := false }

/-- A peer's certificate has come: it becomes UP, or REJECTED with the event CWY_PEER_REJECT. A pair that was UP is lost first; one that
has not sent its own KEY since then sends it. -/
def State.keyCame (s : State) (i : Nat) (cert : List Byte) : State :=
  let p := s.peer i
  if p.state = 5 then s
  else if p.accepts cert then
    let s1 := if p.state = 3 then s.lostPeer i else s
    (if p.state = 2 then s1 else s1.sendKey i).pairUp i
  else
    let s1 := if p.state = 3 then s.lostPeer i else s
    (s1.setPeer i { s1.peer i with state := 5 }).raise 20 0x0400 i

/-- KEY: the identity certificate of the device `src` has come in KEY frames. -/
def execCwyKey (port src : Nat) (cert : List Byte) (s : State) : Host.Outcome State Fault Refusal :=
  s.whenUp (fun s =>
    match s.peerOf src with
    | none => s
    | some i => if s.onPort port i then s.keyCame i cert else s)

/-! ### Ports (R616, R617, R622, R623, R633) -/

/-- The request of a port for its charge (R69). -/
def State.portReq (s : State) (p : Nat) : AlwReq := s.unitReq (.causewayPort p) .lc none 0

/-- The peers whose mask names a port. -/
def State.peersOf (s : State) (p : Nat) : List Nat :=
  (List.range s.cwy.nPeers).filter (fun i => (s.peer i).state != 0 && (s.peer i).ports / 2 ^ p % 2 == 1)

/-- May a port train: enabled in a device with a CAUSEWAY section, its domain on, its rims running? -/
def State.mayTrain (s : State) (p : Nat) : Bool :=
  decide (p < 4) && s.fld (Reg.CWY_PORT p) Fd.CWY_PORT_STATE == 1 && s.bit (Reg.CWY_PORT p) Fd.CWY_PORT_EN && s.cwy.hasSection &&
  s.domainOn (214 + p) && s.rimOn (cwyTx p) && s.rimOn (cwyRx p)

/-- Does a port run on its spare lane (R489)? -/
def spareLane (p : Nat) : Fld := ⟨20 + p, 20 + p⟩

/-- The lanes with which a port can train: 0 and 1, and lane 2 in the place of one that it replaces (R617). -/
def State.lanesOk (s : State) (p lanes : Nat) : Bool :=
  let on := (List.range 3).filter (fun l => lanes / 2 ^ l % 2 == 1)
  decide (lanes < 8) && (on.length == 1 || on.length == 2) && on.all (fun l => !s.cwy.badLanes.contains (p, l)) &&
  (!on.contains 2 || s.bit Reg.SPARE_USED (spareLane p))

/-- A port shows the lanes in service, and STATE by their number. -/
def State.setLanes (s : State) (p lanes : Nat) : State :=
  let n := ((List.range 3).filter (fun l => lanes / 2 ^ l % 2 == 1)).length
  (s.setFld (Reg.CWY_PORT p) Fd.CWY_PORT_LANES lanes).setFld (Reg.CWY_PORT p) Fd.CWY_PORT_STATE (if n = 2 then 2 else 3)

/-- A port is up on its lanes; to its peers that are not UP the identity certificate is sent (R622). -/
def State.portTrained (s : State) (port lanes : Nat) : State :=
  let s1 := s.setLanes port lanes
  ((s1.peersOf port).filter (fun i => (s1.peer i).state != 3 && (s1.peer i).state != 5)).foldl (fun a i =>
    (a.setPeer i { a.peer i with state := 2 }).sendKey i) s1

/-- CWY_LINK_UP: a port has trained on `lanes` and is up once it holds its charge (R10, R69); one that trains before asks for it and
trains again (log 83). -/
def execCwyLinkUp (port lanes : Nat) (s : State) : Host.Outcome State Fault Refusal :=
  s.whenUp (fun s =>
    if s.mayTrain port && s.lanesOk port lanes then
      let s1 := s.obtain (s.portReq port)
      if s1.holdsGrant (.causewayPort port) then s1.portTrained port lanes else s1
    else s)

/-- A port goes down: a pair that used it goes on over its next port from the oldest unacknowledged frame; a peer with no port up is LOST
(R623, R624). -/
def State.portLost (s : State) (p : Nat) : State :=
  let users := (s.peersOf p).filter (fun i => s.portFor i == some p)
  let s1 := ((s.setFld (Reg.CWY_PORT p) Fd.CWY_PORT_LANES 0).setFld (Reg.CWY_PORT p) Fd.CWY_PORT_STATE
    (if s.bit (Reg.CWY_PORT p) Fd.CWY_PORT_EN then 1 else 0)).alwDrop (.causewayPort p)
  (s.peersOf p).foldl (fun a i =>
    if (a.portFor i).isNone then
      if (a.peer i).state = 3 then a.lostPeer i else if (a.peer i).state = 2 then a.setPeer i { a.peer i with state := 1 } else a
    else if (a.peer i).state = 3 && users.contains i then a.resend i else a) s1

/-- CWY_LINK_DOWN: the link of a port is lost. -/
def execCwyLinkDown (port : Nat) (s : State) : Host.Outcome State Fault Refusal :=
  s.whenUp (fun s => if port < 4 ∧ s.portUp port then s.portLost port else s)

/-- EN of a port has changed: it trains, and its REJECTED peers are tried again; or it goes down. -/
def State.portEnabled (s : State) (p : Nat) (was : Bool) : State :=
  let on := s.bit (Reg.CWY_PORT p) Fd.CWY_PORT_EN
  if on && !was then
    (s.peersOf p).foldl (fun a i => if (a.peer i).state = 5 then a.setPeer i { a.peer i with state := 1 } else a)
      (s.setFld (Reg.CWY_PORT p) Fd.CWY_PORT_STATE 1)
  else if was && !on then
    if s.portUp p then s.portLost p else s.setFld (Reg.CWY_PORT p) Fd.CWY_PORT_STATE 0
  else s

/-- A write of CWY_PORT_p; without a CAUSEWAY section a write of EN has no effect (R621, R633). -/
def State.writeCwyPort (s : State) (o : Origin) (p : Nat) (value : Word) : State :=
  let v := if s.cwy.hasSection then value else Fd.CWY_PORT_EN.put value 0
  s.writeBy o (Reg.CWY_PORT p) v (fun old t => t.portEnabled p (old.bit (Reg.CWY_PORT p) Fd.CWY_PORT_EN))

/-- CWY_PORT_ENABLE: a write of a port's register. -/
def execCwyPortEnable (o : Origin) (p : Nat) (value : Word) (s : State) : Host.Outcome State Fault Refusal :=
  s.whenUp (fun s => s.writeCwyPort o (p % 4) value)

/-! ### Lanes (R470, R475, R617) -/

/-- The DIRECT peer behind a port. -/
def State.directPeer (s : State) (p : Nat) : Option Nat := (s.peersOf p).find? (fun i => (s.peer i).direct)

/-- A lane leaves service; the port runs on its other lane. -/
def State.dropLane (s : State) (p l : Nat) : State :=
  let s1 : State := { s with cwy := { s.cwy with badLanes := if s.cwy.badLanes.contains (p, l) then s.cwy.badLanes else (p, l) :: s.cwy.badLanes } }
  let left := andNot64 (s1.fld (Reg.CWY_PORT p) Fd.CWY_PORT_LANES) (2 ^ l)
  if s1.portUp p && left != 0 then s1.setLanes p left else s1

/-- Both ends have agreed: lane 2 is in service in the place of lane l, journaled and counted (R475, R617). -/
def State.laneChanged (s : State) (p l : Nat) : State :=
  let s1 : State := { s with cwy := { s.cwy with changing := s.cwy.changing.filter (fun x => x != (p, l)) } }
  let s2 := s1.setFld Reg.SPARE_USED (spareLane p) 1
  let s3 := if s2.portUp p then s2.setLanes p (or64 (s2.fld (Reg.CWY_PORT p) Fd.CWY_PORT_LANES) 4) else s2
  s3.jSubstituted jLane (4 * p + l) (4 * p + 2)

/-- Is lane 2 of a port free to replace another? -/
def State.laneFree (s : State) (p : Nat) : Bool :=
  (s.directPeer p).isSome && !s.bit Reg.SPARE_USED (spareLane p) && !s.cwy.badLanes.contains (p, 2) && !s.cwy.changing.any (fun x => x.1 == p)

/-- Tells the other end of a direct link of a lane change; what a LANE frame holds beside its type the manual does not say. -/
def State.sendLane (s : State) (p : Nat) : State :=
  match s.directPeer p with
  | none => s
  | some i =>
    if (s.peer i).state = 3 then
      let (v, s1) := s.takeFree
      s1.send i { type := 8, tenant := 2, arg := v % 2 ^ 64, epoch := s.epoch 2 }
    else s

/-- A lane change begins: BEGIN is journaled, the lane leaves service, the other end is asked; with the link down it is complete at once.
The second result is the STATUS code of R487. -/
def State.beginLane (s : State) (p l : Nat) (jrnl : Bool) : State × Nat :=
  let (s1, ok) := (s.dropLane p l).jBeginOp jLane (4 * p + l) (4 * p + 2) 0 jrnl
  if ok then
    if s1.portUp p then
      (({ s1 with cwy := { s1.cwy with changing := s1.cwy.changing ++ [(p, l)] } } : State).sendLane p, 0)
    else (s1.laneChanged p l, 0)
  else (s1, 6)

/-- A lane is lasting (R470, R617): on a direct link lane 2 replaces it; toward a switch the port goes to one lane, or down where the
partner does not support that. -/
def State.laneLasting (s : State) (p l : Nat) (jrnl oneLane : Bool) : State :=
  if s.laneFree p && l != 2 then (s.beginLane p l jrnl).1
  else if (s.directPeer p).isSome || oneLane then s.dropLane p l
  else (s.dropLane p l).portLost p

/-- FEC_UNCORR: a codeword that the FEC of a lane in service cannot correct; the frame it hit is lost. `oneLane` says whether the partner
supports one lane. -/
def execFecUncorr (port lane : Nat) (jrnl oneLane : Bool) (s : State) : Host.Outcome State Fault Refusal :=
  s.whenUp (fun s =>
    if port < 4 ∧ lane < 3 ∧ s.portUp port ∧ s.fld (Reg.CWY_PORT port) Fd.CWY_PORT_LANES / 2 ^ lane % 2 = 1 then
      let (s1, lasting) := (s.bump (Reg.CWY_FEC_UNCORR port lane) port).reportLasting 8 (4 * port + lane)
      if lasting then s1.laneLasting port lane jrnl oneLane else s1
    else s)

/-- A LANE frame names a lane: it completes a change that this end began, or begins and completes the one that the other end asks for. -/
def State.laneFrame (s : State) (p l : Nat) (jrnl : Bool) : State :=
  if s.cwy.changing.contains (p, l) then s.laneChanged p l
  else if s.laneFree p && decide (l < 2) then
    let (s1, ok) := (s.dropLane p l).jBeginOp jLane (4 * p + l) (4 * p + 2) 0 jrnl
    if ok then (s1.laneChanged p l).sendLane p else s1
  else s

/-- LANE: the two ends of a direct link agree on the change of a lane. -/
def execCwyLane (port : Nat) (f : Frame) (tagOk : Bool) (lane : Nat) (jrnl : Bool) (s : State) : Host.Outcome State Fault Refusal :=
  s.whenUp (fun s => s.receive port f tagOk true (fun a i => if (a.peer i).direct then a.laneFrame port lane jrnl else a))

/-- DARN_LANE by command (R487). -/
def State.cmdLane (s : State) (target : Nat) (jrnl : Bool) : State × Nat :=
  let p := target / 4
  let l := target % 4
  if 3 < p ∨ 2 < l then (s, 7)
  else if s.cwy.changing.contains (p, l) then (s, 3)
  else if l = 2 then (s.dropLane p l, 0)
  else if s.laneFree p then s.beginLane p l jrnl
  else (s, 2)

/-- DARN_LANE: requests the substitution of a lane. -/
def execDarnLane (o : Origin) (target : Nat) (jrnl : Bool) (s : State) : Host.Outcome State Fault Refusal :=
  s.whenUp (fun s => s.command o spareCmd target (fun s => s.cmdLane (target % 1024) jrnl))

/-! ### The peer window (R634) -/

/-- CWY_PEER_SEL in an origin's bank. -/
def peerSel (o : Origin) : CmdReg :=
  ⟨bankKey o Reg.CWY_PEER_SEL, Fd.CWY_PEER_SEL_INDEX, Fd.CWY_PEER_SEL_STATUS, [.selvage, .hypervisor], none, .register, none⟩

/-- PEER_READ: peer INDEX goes to D0 and D1 of the origin's bank. -/
def execPeerRead (o : Origin) (idx : Nat) (s : State) : Host.Outcome State Fault Refusal :=
  s.whenUp (fun s => s.command o (peerSel o) idx (fun s =>
    let i := idx % 256
    let p := s.peer i
    if s.cwy.nPeers ≤ i then (s, 1)
    else
      let d0 := p.state * 2 ^ 61 + p.direct.toNat * 2 ^ 60 + p.ports % 16 * 2 ^ 56 + p.mac % 2 ^ 48
      ((s.setReg (bankKey o Reg.CWY_PEER_D0) (BitVec.ofNat 64 d0)).setReg (bankKey o Reg.CWY_PEER_D1)
        (BitVec.ofNat 64 (p.seq * 2 ^ 32 + p.device)), 0)))

end Sys2Proof.Machine
end

