-- ==== Sys2Proof/Machine/Debug.lean ====
section
/-! DEFINITION. Debug: attach, halts and steps replayed into the checker, reads and writes (R443 to R445, R524). -/

namespace Sys2Proof.Machine

/-! ### Attach and detach (R443, R524) -/

/-- May a target be granted: inside the DEBUG mask, no confidential tenant's (R512, R524)? Checker copies, second cores and
Selvage are no targets. -/
def State.grantable (s : State) (sec : List Byte) (t : DebugTarget) : Bool :=
  Config.debugAllows sec t && (match t with
    | .job r q => (s.job? r q).isSome && !(s.tenant (0x10 + ringVi r)).conf
    | .pair p => decide (p < 2)
    | .appCore n => decide (n < 16))

/-- An attach or detach in the audit log, with origin 0x60; the status of a refusal is a free value. -/
def State.auditDebug (s : State) (ok : Bool) (old new : Nat) : State :=
  let (v, s1) := s.takeFree
  (if ok then s else s1).auditLog .debug .debug (if ok then 0 else 1 + v % 255) 0 old new

/-- DEBUG_ATTACH: a debugger returns the signed challenge with its scope; `sigOk` says whether the signature checks under the DEBUG
key. Without a DEBUG section debug is closed. -/
def execDebugAttach (targets : List DebugTarget) (sigOk : Bool) (s : State) : Host.Outcome State Fault Refusal :=
  s.whenUp (fun s =>
    match s.trust.record.bind (·.debugSec) with
    | none => (s.auditDebug false 0 0).answer .refused
    | some sec =>
      let got := targets.filter (s.grantable sec)
      if !sigOk || got.isEmpty then (s.auditDebug false 0 0).answer .refused
      else if s.auditFull then (s.bump Reg.AUDIT_REFUSED_CNT noUnit).answer .refused
      else
        let s1 := s.auditDebug true s.trust.attached.length (s.trust.attached.length + got.length)
        { s1 with trust := { s1.trust with attached := s1.trust.attached ++ got.filter (fun t => !s1.trust.attached.contains t), debugged := true } }.answer
          (.value got.length))

/-! ### Halts and steps (R444, R445) -/

/-- A core of the main copy halts: its watchdog stops with the time it has left; the span count stops with the instructions. -/
def State.debugHalt (s : State) (n : Nat) : State :=
  s.modCore n (fun c => if c.halted then c else { c with halted := true, wdogLeft := some ((c.wdogEnd.getD 0) - s.now), wdogEnd := none })

/-- A core of the main copy goes on. -/
def State.debugGo (s : State) (n : Nat) : State :=
  s.modCore n (fun c => match c.wdogLeft with
    | none => c
    | some l => { c with halted := false, stepOk := false, wdogLeft := none, wdogEnd := some (s.now + l) })

/-- The checker's cores that were held at a cheap point may execute it again. -/
def State.unholdChecker (s : State) (j : Job) : State := j.ckCores.foldl (fun a n => a.modCore n (fun c => { c with held := false })) s

/-- Halts or resumes a target. -/
def State.halt (s : State) (t : DebugTarget) (on : Bool) : State :=
  match t with
  | .job r q =>
    (match s.job? r q with
    | none => s
    | some j =>
      let s1 := j.cores.foldl (fun a n => if on then a.debugHalt n else a.debugGo n) s
      let s2 := s1.modJob r q (fun k => { k with debugged := on })
      if on then s2 else s2.unholdChecker j)
  | .pair p => s.setPair p { s.pair p with debug := on }
  | .appCore _ => s

/-- DEBUG_HALT: a debugger halts or breaks a target of its scope, or lets it go on. -/
def execDebugHalt (t : DebugTarget) (on : Bool) (s : State) : Host.Outcome State Fault Refusal :=
  s.whenUp (fun s => if s.trust.attached.contains t then s.halt t on else s.answer .refused)

/-- DEBUG_DETACH: the debugger detaches; what it halted goes on; the detach is audited. -/
def execDebugDetach (s : State) : Host.Outcome State Fault Refusal :=
  s.whenUp (fun s =>
    if s.trust.attached.isEmpty then s
    else
      let s1 := (s.trust.attached.foldl (fun a t => a.halt t false) s).auditDebug true s.trust.attached.length 0
      { s1 with trust := { s1.trust with attached := [] } })

/-- DEBUG_STEP: a halted target executes one instruction: each core of the main copy, both cores of a pair, whose first core is traced
(R446). -/
def execDebugStep (t : DebugTarget) (s : State) : Host.Outcome State Fault Refusal :=
  s.whenUp (fun s =>
    if !s.trust.attached.contains t then s.answer .refused
    else match t with
      | .job r q =>
        (match s.job? r q with
        | none => s.answer .refused
        | some j => j.cores.foldl (fun a n => a.modCore n (fun c => if c.wdogLeft.isSome then { c with stepOk := true } else c)) s)
      | .pair p => if (s.pair p).debug then { s.setPair p { s.pair p with steps := (s.pair p).steps + 1 } with
          out := s.out ++ s.traceOf Origin.safety.code p (s.pair p).steps } else s
      | .appCore _ => s)

/-! ### Reads and writes (R444) -/

/-- State of a core that a debugger reads. -/
def Core.debugRead (c : Core) : DebugRead → Nat
  | .scratchpad a => (c.spByte a).toNat
  | .vector v lane => (c.lanes v).getD lane 0
  | .accumulator e lane => (c.entry e).lanes.getD lane 0
  | .tile i => c.tileByte i
  | .position => c.pc
  | .timeCounter => 0

/-- A read whose value the model does not hold. -/
def State.freeRead (s : State) : State :=
  let (v, s1) := s.takeFree
  s1.answer (.value (v % 2 ^ 64))

/-- DEBUG_READ: core state of the main copy of a job; of a pair's first core and of an application core the `time` counter reads device
time (R39), and their other state is a free value. An array core has no `time` counter. -/
def execDebugRead (t : DebugTarget) (core : Nat) (r : DebugRead) (s : State) : Host.Outcome State Fault Refusal :=
  s.whenUp (fun s =>
    if !s.trust.attached.contains t then s.answer .refused
    else match t with
      | .job k q =>
        (match s.job? k q with
        | none => s.answer .refused
        | some j => if j.cores.contains core && r != .timeCounter then s.answer (.value ((s.core core).debugRead r)) else s.answer .refused)
      | _ => if r = .timeCounter then s.answer (.value s.now) else s.freeRead)

/-- A copy's block of 32 channels with one element replaced, written pending for the copy. -/
def State.writeElem (s : State) (j : Job) (ck : Bool) (core : Nat) (t : Tensor) (e : Nat × Nat × Nat × Nat) (code : Nat) : Job :=
  let (n, y, x, c) := e
  let rd := s.overlay j ck
  let c0 := c / 32 * 32
  let codes := (List.range (min 32 (t.c - c0))).map (fun i =>
    if c0 + i = c then code % 2 ^ formatBits t.fmt else t.code rd (s.place t.addr) (s.place t.zmapAddr) n y x (c0 + i))
  s.drainRun core ck t n y x c0 codes (t.scaleAt rd (s.place t.aux) (s.place t.zmapAddr) n y x c0) j

/-- Does an element lie in a tensor? -/
def Tensor.hasElem (t : Tensor) (e : Nat × Nat × Nat × Nat) : Bool :=
  decide (e.1 < t.n) && decide (e.2.1 < t.h) && decide (e.2.2.1 < t.w) && decide (e.2.2.2 < t.c)

/-- Are both copies halted at the same cheap point: each core of the main copy just past one, its checker held at it? -/
def State.bothAtCheap (s : State) (j : Job) : Bool :=
  (List.range j.cores.length).all (fun i =>
    let m := s.core (j.cores.getD i 0)
    m.wdogLeft.isSome && m.pc == m.cheapPc && (match j.ckCores[i]? with
      | none => !descBstitch j.desc
      | some k => (s.core k).held && m.cheapCount == (s.core k).cheapCount + 1))

/-- An element of an input, written once in DRAM. -/
def State.writeInput (s : State) (t : Tensor) (e : Nat × Nat × Nat × Nat) (code : Nat) : State :=
  (pendRuns (s.writeElem { ring := 0, seq := 0 } false 0 t e code).pend).foldl (fun a r => a.store r.1 r.2) s

/-- An element of an output, written pending for the main copy and, transformed, for the checker (R433, R444). -/
def State.writeOutput (s : State) (j : Job) (t : Tensor) (e : Nat × Nat × Nat × Nat) (code : Nat) : State :=
  let tr := j.pat.transform
  let j1 := s.writeElem j false (j.cores.headD 0) t e code
  let j2 := if j.ckCores.isEmpty ∨ t.role ≠ 2 then j1
    else s.writeElem j1 true (j.ckCores.headD 0) t (t.ckElem tr e) (if t.doubles tr then (doubleElem t.fmt (code % 2 ^ formatBits t.fmt)).1 else code)
  s.modJob j.ring j.seq (fun _ => j2)

/-- DEBUG_WRITE: an element by its coordinates, or state of a core, which is refused. -/
def execDebugWrite (t : DebugTarget) (w : DebugWrite) (s : State) : Host.Outcome State Fault Refusal :=
  s.whenUp (fun s =>
    if !s.trust.attached.contains t then s.answer .refused
    else match t, w with
      | .job r q, .element b n h x c code =>
        (match s.job? r q with
        | none => s.answer .refused
        | some j =>
          let ten := j.tensor b
          if !(decide (b < j.tens.length) && ten.hasElem (n, h, x, c)) || devOf ten.addr != s.ownDev then s.answer .refused
          else if ten.role = 0 then s.writeInput ten (n, h, x, c) code
          else if s.bothAtCheap j then s.writeOutput j ten (n, h, x, c) code
          else s.answer .refused)
      | .pair _, _ => s
      | _, _ => s.answer .refused)

end Sys2Proof.Machine
end

