-- ==== Sys2Proof/Machine/Gateway.lean ====
section
/-! DEFINITION. The CAN controllers (R581 to R589, R606, R607) and the tables of the sluice (R599, R610, R611). -/

namespace Sys2Proof.Machine

/-! ### The sluice's tables (R599, R600, R608, R610, R611) -/

/-- A PDU table entry, a signal map entry, a pending slot. -/
def State.pdu (s : State) (i : Nat) : Pdu := Sparse.get (fun _ => {}) i s.nets.pdus
def State.sigMap (s : State) (i : Nat) : SigMap := Sparse.get (fun _ => {}) i s.nets.maps
def State.slot (s : State) (i : Nat) : Slot := Sparse.get (fun _ => {}) i s.nets.slots
def State.setSlot (s : State) (i : Nat) (x : Slot) : State := { s with nets := { s.nets with slots := Sparse.put (fun _ => {}) i x s.nets.slots } }

/-- Is the sluice enabled and powered? -/
def State.sluiceOn (s : State) : Bool := s.bit Reg.GWY_SLU_CTRL Fd.GWY_SLU_CTRL_EN && s.domainOn 218

/-- The entries that the sluice considers (R608). -/
def State.pdusOf (s : State) : List Nat :=
  (List.range (s.fld Reg.GWY_SLU_CTRL Fd.GWY_SLU_CTRL_PDUS + 1)).filter (fun i => (s.pdu i).valid)
def State.mapsOf (s : State) : List SigMap :=
  ((List.range (s.fld Reg.GWY_SLU_CTRL Fd.GWY_SLU_CTRL_SIGNALS + 1)).map s.sigMap).filter (fun m => m.valid)

/-- The source PDU that satisfies a test. -/
def State.sourcePdu (s : State) (p : Pdu → Bool) : Option Nat := s.pdusOf.find? (fun i => !(s.pdu i).dst && p (s.pdu i))

/-- A received source PDU waits to reach the slots, cut to its LENGTH. -/
def State.sluiceIn (s : State) (i : Nat) (bs : List Byte) : State :=
  { s with nets := { s.nets with sluIn := s.nets.sluIn ++ [(i, fixBytes bs (s.pdu i).length)] } }

/-- The gap of a destination PDU in ns (R610). -/
def Pdu.gapNs (p : Pdu) : Nat := 1000 * min 1000000 p.gap

/-- May an updated slot be sent at an instant: MIN_GAP_US has passed since the last send (R601)? -/
def State.slotReady (s : State) (i t : Nat) : Bool :=
  let x := s.slot i
  x.updated && decide (x.since ≤ t) && (match x.lastSend with
    | none => true
    | some l => decide (l + (s.pdu i).gapNs ≤ t))

/-! ### Arbitration (R584) -/

/-- The arbitration field as a number: the lowest wins. -/
def arbField (ide : Bool) (id : Nat) (rtr : Bool) : Nat :=
  if ide then id / 2 ^ 18 % 2 ^ 11 * 2 ^ 21 + 2 ^ 20 + 2 ^ 19 + id % 2 ^ 18 * 2 + rtr.toNat
  else id % 2 ^ 11 * 2 ^ 21 + rtr.toNat * 2 ^ 20

/-- The heads of a controller's transmit queues that had been taken at an instant, as arbitration field and queue. -/
def State.canHeads (s : State) (n t : Nat) : List (Nat × Nat) :=
  (List.range 4).filterMap (fun k =>
    match (s.fq (.can n k)).fetched with
    | [] => none
    | (_, ws) :: _ =>
      let f := s.entryFrame ws
      if s.fqOn (.can n k) && decide (ws.getD 4 0 ≤ t) then some (arbField f.ide f.id (f.rtr && f.fmt == 0), k) else none)

/-- The destination PDUs of the sluice that compete on a controller at an instant, as arbitration field and 4 + index. -/
def State.canSlots (s : State) (n t : Nat) : List (Nat × Nat) :=
  if s.sluiceOn then
    (s.pdusOf.filter (fun i => let p := s.pdu i; p.dst && !p.side && p.ctrl == n && s.slotReady i t)).map (fun i =>
      (arbField (s.pdu i).ide (s.pdu i).id false, 4 + i))
  else []

/-- The competitor with the highest bus priority: a queue, or 4 + the index of a PDU. -/
def State.canWinner (s : State) (n t : Nat) : Option Nat :=
  ((s.canHeads n t ++ s.canSlots n t).foldl (fun (b : Option (Nat × Nat)) x =>
    match b with
    | none => some x
    | some y => if x.1 < y.1 then some x else some y) none).map (·.2)

/-! ### Controllers (R582, R583, R606) -/

/-- STATE, TEC and REC of a controller. -/
def State.canState (s : State) (n : Nat) : Nat := s.fld (Reg.GWY_CAN_STATUS n) Fd.GWY_CAN_STATUS_STATE
def State.setCan (s : State) (n state tec rec_ : Nat) : State :=
  ((s.setFld (Reg.GWY_CAN_STATUS n) Fd.GWY_CAN_STATUS_STATE state).setFld (Reg.GWY_CAN_STATUS n) Fd.GWY_CAN_STATUS_TEC tec).setFld
    (Reg.GWY_CAN_STATUS n) Fd.GWY_CAN_STATUS_REC rec_
def State.canTec (s : State) (n : Nat) : Nat := s.fld (Reg.GWY_CAN_STATUS n) Fd.GWY_CAN_STATUS_TEC
def State.canRec (s : State) (n : Nat) : Nat := s.fld (Reg.GWY_CAN_STATUS n) Fd.GWY_CAN_STATUS_REC

/-- Does a controller take part in its bus: enabled, powered, neither bus-off nor disabled? -/
def State.canLive (s : State) (n : Nat) : Bool :=
  decide (n < 16) && s.bit (Reg.GWY_CAN_CFG n) Fd.GWY_CAN_CFG_EN && s.domainOn (219 + n / 4) && decide (s.canState n ≤ 1)

/-- MODE: 3 acts as 0. -/
def State.canMode (s : State) (n : Nat) : Nat :=
  let m := s.fld (Reg.GWY_CAN_CFG n) Fd.GWY_CAN_CFG_MODE
  if m = 3 then 0 else m

/-- Error active or passive, by the counters (ISO 11898-1). -/
def passive (tec rec_ : Nat) : Nat := if 127 < tec ∨ 127 < rec_ then 1 else 0

/-- A controller enters bus-off: it stops transmitting, its entries stay pending, BUSOFF_CNT counts (R583). -/
def State.busOff (s : State) (n : Nat) : State := (s.setFld (Reg.GWY_CAN_STATUS n) Fd.GWY_CAN_STATUS_STATE 2).bump (Reg.GWY_BUSOFF_CNT n) n

/-- BUS_OFF: a controller enters bus-off. -/
def execBusOff (n : Nat) (s : State) : Host.Outcome State Fault Refusal := s.whenUp (fun s => if s.canLive n then s.busOff n else s)

/-- BUS_OFF_RECOVERY: 128 occurrences of 11 recessive bits have passed: with AUTO_REC the controller is error active again. -/
def execBusOffRecovery (n : Nat) (s : State) : Host.Outcome State Fault Refusal :=
  s.whenUp (fun s =>
    if n < 16 ∧ s.canState n = 2 ∧ s.domainOn (219 + n / 4) ∧ s.bit (Reg.GWY_CAN_CFG n) Fd.GWY_CAN_CFG_AUTO_REC ∧ s.bit (Reg.GWY_CAN_CFG n) Fd.GWY_CAN_CFG_EN then
      s.setCan n 0 0 0
    else s)

/-- A bus error counts into TEC or REC (ISO 11898-1): a transmitter by 8, a receiver by 1 or by 8; TEC above 255 is bus-off. -/
def State.canError (s : State) (n : Nat) (e : CanErr) : State :=
  let tec := if e = .transmit then s.canTec n + 8 else s.canTec n
  let rec_ := min 255 (match e with
    | .transmit => s.canRec n
    | .receive => s.canRec n + 1
    | .receiveSevere => s.canRec n + 8)
  if 255 < tec then (s.setCan n 1 tec rec_).busOff n else s.setCan n (passive tec rec_) tec rec_

/-- CAN_BUS_ERROR: a controller detects a bus error. -/
def execCanBusError (n : Nat) (e : CanErr) (s : State) : Host.Outcome State Fault Refusal :=
  s.whenUp (fun s => if s.canLive n then s.canError n e else s)

/-- Is a phase of tq time quanta of brp / 80 MHz each between two lengths in 1 / 80 MHz, with 8 to 385 quanta (R582)? -/
def phaseOk (brp seg1 seg2 least most : Nat) : Bool :=
  let tq := 1 + seg1 + seg2
  let t := max 1 brp * tq
  decide (8 ≤ tq) && decide (tq ≤ 385) && decide (least ≤ t) && decide (t ≤ most)

/-- May a controller be enabled as it is set up (R582)? The lower bounds are those of 1,000 kbit/s, 8 and 20 Mbit/s, the upper bound
that of 125 kbit/s. -/
def State.canTiming (s : State) (n : Nat) : Bool :=
  let b := fun f => s.fld (Reg.GWY_CAN_BT n) f
  let x := fun f => s.fld (Reg.GWY_CAN_XBT n) f
  let fd := s.bit (Reg.GWY_CAN_CFG n) Fd.GWY_CAN_CFG_FD_EN
  let xl := s.bit (Reg.GWY_CAN_CFG n) Fd.GWY_CAN_CFG_XL_EN
  phaseOk (b Fd.GWY_CAN_BT_NBRP) (b Fd.GWY_CAN_BT_NTSEG1) (b Fd.GWY_CAN_BT_NTSEG2) 80 640 &&
  (!fd || phaseOk (b Fd.GWY_CAN_BT_DBRP) (b Fd.GWY_CAN_BT_DTSEG1) (b Fd.GWY_CAN_BT_DTSEG2) 10 (2 ^ 32)) &&
  (!xl || (fd && phaseOk (x Fd.GWY_CAN_XBT_DBRP) (x Fd.GWY_CAN_XBT_DTSEG1) (x Fd.GWY_CAN_XBT_DTSEG2) 4 (2 ^ 32)))

/-- A write of GWY_CAN_CFG_n: an enable is checked, and starts error active; a disable shows STATE 3 (R582, R583, R606). -/
def State.writeCan (s : State) (o : Origin) (n : Nat) (value : Word) : State :=
  let k := Reg.GWY_CAN_CFG n
  if n < 16 then
    s.writeBy o k value (fun a b =>
      match a.bit k Fd.GWY_CAN_CFG_EN, b.bit k Fd.GWY_CAN_CFG_EN with
      | false, true => if b.canTiming n then b.setCan n 0 0 0 else (b.setFld k Fd.GWY_CAN_CFG_EN 0).setFld k Fd.GWY_CAN_CFG_CFG_ERR 1
      | true, false => b.setFld (Reg.GWY_CAN_STATUS n) Fd.GWY_CAN_STATUS_STATE 3
      | _, _ => b)
  else s.refuseTo o

/-- CAN_ENABLE: a write of GWY_CAN_CFG_n with EN 1. -/
def execCanEnable (o : Origin) (n : Nat) (value : Word) (s : State) : Host.Outcome State Fault Refusal :=
  s.whenUp (fun s => s.writeCan o n (Fd.GWY_CAN_CFG_EN.put value 1))

/-! ### Reception (R585, R587, R588) -/

/-- The frame's part of W2, and W3 (R586). -/
def canLow (f : CanFrame) : Nat :=
  (if f.fmt = 2 then f.vcid % 256 * 2 ^ 16 + f.sdt % 256 * 2 ^ 8 else 0) + f.brs.toNat + 2 * f.esi.toNat + 4 * f.rtr.toNat + 8 * f.sec.toNat
def canW3 (f : CanFrame) : Nat :=
  (if f.fmt = 2 then f.af % 2 ^ 32 * 2 ^ 32 else 0) + f.fmt % 4 * 2 ^ 30 + f.ide.toNat * 2 ^ 29 + f.id % 2 ^ 29

/-- Does a filter match a frame? -/
def CanFilter.hit (x : CanFilter) (f : CanFrame) : Bool := x.fmt == f.fmt && x.ide == f.ide && and64 x.id x.mask == and64 f.id x.mask

/-- A received frame takes the first matching filter; one that matches none is discarded. -/
def State.canRoute (s : State) (n : Nat) (f : CanFrame) (sof : Nat) : State :=
  match (Sparse.get (fun _ => []) n s.nets.filters).find? (fun x => x.hit f) with
  | none => s
  | some x =>
    if x.target < 2 then s.fqReceive (.can n (4 + x.target)) f.data sof (canLow f) (canW3 f)
    else if x.target = 2 ∧ s.sluiceOn then
      match s.sourcePdu (fun p => !p.side && p.ctrl == n && p.fmt == f.fmt && p.ide == f.ide && p.id == f.id && (f.fmt != 2 || p.key32 == f.af)) with
      | some i => s.sluiceIn i f.data
      | none => s
    else s

/-- A successful reception lowers REC by 1; from above 127 it goes to a value from 119 to 127 (ISO 11898-1), a free value. -/
def State.recDown (s : State) (n : Nat) : State :=
  if s.canRec n ≤ 127 then s.setCan n (passive (s.canTec n) (s.canRec n - 1)) (s.canTec n) (s.canRec n - 1)
  else
    let (v, s1) := s.takeFree
    s1.setCan n (passive (s1.canTec n) (119 + v % 9)) (s1.canTec n) (119 + v % 9)

/-- CAN_FRAME_RX: a frame is received without error; `sof` is the instant of its start of frame. A format that the controller has not
enabled is not received. -/
def execCanFrameRx (n : Nat) (f : CanFrame) (sof : Nat) (s : State) : Host.Outcome State Fault Refusal :=
  s.whenUp (fun s => if s.canLive n ∧ sof ≤ s.now ∧ s.canFormat n f f.data.length then (s.recDown n).canRoute n f sof else s)

/-! ### Transmission (R583, R584, R587) -/

/-- A frame that has been sent: TEC falls by 1; it leaves the device, or in loopback mode reaches the controller's own filters. -/
def State.canSent (s : State) (n : Nat) (f : CanFrame) (sof : Nat) : State :=
  let s1 := s.setCan n (passive (s.canTec n - 1) (s.canRec n)) (s.canTec n - 1) (s.canRec n)
  if s.canMode n = 2 then s1.canRoute n f sof else s1.emit (.canFrame n f)

/-- May a controller send: in listen-only mode it does not; a stopped rim refuses (R31)? -/
def State.canSends (s : State) (n : Nat) : Bool := s.canLive n && s.canMode n != 1

/-- CAN_TX_DONE: the frame that won arbitration at its start of frame finishes transmission. -/
def execCanTxDone (n sof : Nat) (s : State) : Host.Outcome State Fault Refusal :=
  s.whenUp (fun s =>
    if s.canSends n ∧ sof ≤ s.now then
      match s.canWinner n sof with
      | none => s
      | some k =>
        if 4 ≤ k then s
        else if !s.rimOn (552 + n) then s.rimRefuse (552 + n)
        else
          match (s.fq (.can n k)).fetched with
          | [] => s
          | (seq, ws) :: _ =>
            let s1 := (s.fqSent (.can n k) seq ws sof 0).canSent n (s.entryFrame ws) sof
            State.fqSettle (s1.fqArea (.can n k)).size s1 (.can n k)
    else s)

/-! ### The windows of the sluice (R610, R611) -/

/-- GWY_SLU_PDU_SEL and GWY_SLU_MAP_SEL in an origin's bank. -/
def pduSel (o : Origin) : CmdReg :=
  ⟨bankKey o Reg.GWY_SLU_PDU_SEL, Fd.GWY_SLU_PDU_SEL_INDEX, Fd.GWY_SLU_PDU_SEL_STATUS, [.selvage, .hypervisor, .safety], some 3, .register, none⟩
def mapSel (o : Origin) : CmdReg :=
  ⟨bankKey o Reg.GWY_SLU_MAP_SEL, Fd.GWY_SLU_MAP_SEL_INDEX, Fd.GWY_SLU_MAP_SEL_STATUS, [.selvage, .hypervisor, .safety], some 3, .register, none⟩

/-- The words of a PDU entry, and the entry that two words spell. -/
def Pdu.words (p : Pdu) : Nat × Nat :=
  (p.valid.toNat * 2 ^ 63 + p.side.toNat * 2 ^ 62 + p.dst.toNat * 2 ^ 61 + p.ctrl * 2 ^ 57 + p.fmt * 2 ^ 55 + p.ide.toNat * 2 ^ 54 + p.id,
   p.key32 * 2 ^ 32 + p.length * 2 ^ 20 + p.gap)
def pduOf (d0 d1 : Nat) : Pdu :=
  { valid := bits d0 63 63 == 1, side := bits d0 62 62 == 1, dst := bits d0 61 61 == 1, ctrl := bits d0 60 57, fmt := bits d0 56 55
    ide := bits d0 54 54 == 1, id := bits d0 28 0, key32 := bits d1 63 32, length := bits d1 31 20, gap := bits d1 19 0 }

/-- The words of a signal map entry, and the entry that a word spells. -/
def SigMap.word (m : SigMap) : Nat :=
  m.valid.toNat * 2 ^ 63 + m.src * 2 ^ 53 + m.dst * 2 ^ 43 + m.srcBig.toNat * 2 ^ 42 + m.dstBig.toNat * 2 ^ 41 + (m.len - 1) * 2 ^ 35 +
    m.srcStart * 2 ^ 14 + m.dstStart
def sigMapOf (d : Nat) : SigMap :=
  { valid := bits d 63 63 == 1, src := bits d 62 53, dst := bits d 52 43, srcBig := bits d 42 42 == 1, dstBig := bits d 41 41 == 1
    len := bits d 40 35 + 1, srcStart := bits d 27 14, dstStart := bits d 13 0 }

/-- Are the fields of an entry within R599? FMT 3 is refused on either side (R610). -/
def Pdu.ok (p : Pdu) : Bool :=
  decide (p.fmt < 3) &&
  if p.side then p.id == 0 && decide (p.length ≤ 1400)
  else (p.ide || decide (p.id < 2048)) && (p.fmt == 2 || p.key32 == 0) && (p.fmt != 2 || !p.ide) &&
    decide (p.length ≤ (match p.fmt with
      | 0 => 8
      | 1 => 64
      | _ => 2048))

/-- SLU_PDU_READ: an entry goes to D0 and D1 of the origin's bank. -/
def execSluPduRead (o : Origin) (idx : Nat) (s : State) : Host.Outcome State Fault Refusal :=
  s.whenUp (fun s => s.command o (pduSel o) idx (fun s =>
    let w := (s.pdu (idx % 1024)).words
    ((s.setReg (bankKey o Reg.GWY_SLU_PDU_D0) (BitVec.ofNat 64 w.1)).setReg (bankKey o Reg.GWY_SLU_PDU_D1) (BitVec.ofNat 64 w.2), 0)))

/-- Replaces a PDU entry. -/
def State.setPdu (s : State) (i : Nat) (p : Pdu) : State := { s with nets := { s.nets with pdus := Sparse.put (fun _ => {}) i p s.nets.pdus } }
def State.setSigMap (s : State) (i : Nat) (m : SigMap) : State := { s with nets := { s.nets with maps := Sparse.put (fun _ => {}) i m s.nets.maps } }

/-- SLU_PDU_WRITE: D0 and D1 are checked and stored. -/
def execSluPduWrite (o : Origin) (idx : Nat) (s : State) : Host.Outcome State Fault Refusal :=
  s.whenUp (fun s => s.command o (pduSel o) idx (fun s =>
    let p := pduOf (s.reg (bankKey o Reg.GWY_SLU_PDU_D0)).toNat (s.reg (bankKey o Reg.GWY_SLU_PDU_D1)).toNat
    if s.bit Reg.GWY_SLU_CTRL Fd.GWY_SLU_CTRL_EN then (s, 2) else if p.ok then (s.setPdu (idx % 1024) p, 0) else (s, 1)))

/-- SLU_PDU_CLEAR: VALID becomes 0. -/
def execSluPduClear (o : Origin) (idx : Nat) (s : State) : Host.Outcome State Fault Refusal :=
  s.whenUp (fun s => s.command o (pduSel o) idx (fun s =>
    if s.bit Reg.GWY_SLU_CTRL Fd.GWY_SLU_CTRL_EN then (s, 2) else (s.setPdu (idx % 1024) { s.pdu (idx % 1024) with valid := false }, 0)))

/-- SLU_MAP_READ: an entry goes to D0 of the origin's bank. -/
def execSluMapRead (o : Origin) (idx : Nat) (s : State) : Host.Outcome State Fault Refusal :=
  s.whenUp (fun s => s.command o (mapSel o) idx (fun s =>
    (s.setReg (bankKey o Reg.GWY_SLU_MAP_D0) (BitVec.ofNat 64 (s.sigMap (idx % 4096)).word), 0)))

/-- SLU_MAP_WRITE: D0 is stored. Its fields cannot name a PDU above 1,023 or a LEN of 0. -/
def execSluMapWrite (o : Origin) (idx : Nat) (s : State) : Host.Outcome State Fault Refusal :=
  s.whenUp (fun s => s.command o (mapSel o) idx (fun s =>
    if s.bit Reg.GWY_SLU_CTRL Fd.GWY_SLU_CTRL_EN then (s, 2)
    else (s.setSigMap (idx % 4096) (sigMapOf (s.reg (bankKey o Reg.GWY_SLU_MAP_D0)).toNat), 0)))

/-- SLU_MAP_CLEAR: VALID becomes 0. -/
def execSluMapClear (o : Origin) (idx : Nat) (s : State) : Host.Outcome State Fault Refusal :=
  s.whenUp (fun s => s.command o (mapSel o) idx (fun s =>
    if s.bit Reg.GWY_SLU_CTRL Fd.GWY_SLU_CTRL_EN then (s, 2)
    else (s.setSigMap (idx % 4096) { s.sigMap (idx % 4096) with valid := false }, 0)))

end Sys2Proof.Machine
end

