-- ==== Sys2Proof/Machine/Instances.lean ====
section
/-! DEFINITION. Virtual instances: quiesce, freeze, thaw, save, restore, reset (R535 to R557). -/

namespace Sys2Proof.Machine

/-- VI_CMD as a command register (R554). -/
def viCmd : CmdReg := ⟨Reg.VI_CMD, Fd.VI_CMD_INSTANCE, Fd.VI_CMD_STATUS, [.hypervisor], some 7, .register, some 1⟩

/-- Moves an instance to a state (R540). -/
def State.setVi (s : State) (v x : Nat) : State := s.setFld (Reg.VI_STATE v) Fd.VI_STATE_STATE x

/-- A command on an instance that its state lets through; otherwise BUSY and nothing changes (R540). -/
def State.viCommand (s : State) (o : Origin) (v : Nat) (states : List Nat) (act : State → Nat → State × Nat) : State :=
  s.command o viCmd v (fun s => if states.contains (s.viState (v % 64)) then act s (v % 64) else (s, 2))

/-! ### Quiesce (R541, R542) -/

/-- Withdraws an instance's descriptors that satisfy a test, and those fetched and not yet admitted, with reason 2. -/
def State.withdrawVi (s : State) (v : Nat) (p : Job → Bool) : State :=
  (viRings v).foldl (fun a n => a.withdrawFetched (2, 0) n) (s.withdraw (2, 0) (fun j => ringVi j.ring == v && p j))

/-- QUIESCE: fetching stops, what has not been launched is cancelled; with nothing left the instance is QUIESCED. -/
def execViQuiesce (o : Origin) (v : Nat) (s : State) : Host.Outcome State Fault Refusal :=
  s.whenUp (fun s => s.viCommand o v [1] (fun s v => ((((s.setVi v 2).withdrawVi v Job.queued).quiesced v).conclude, 0)))

/-- QUIESCE_HARD: running jobs stop as well, at their next cheap points. -/
def execViQuiesceHard (o : Origin) (v : Nat) (s : State) : Host.Outcome State Fault Refusal :=
  s.whenUp (fun s => s.viCommand o v [1, 2] (fun s v => ((((s.setVi v 2).withdrawVi v (fun _ => true)).quiesced v).conclude, 0)))

/-! ### Freeze and thaw (R544, R545, R552) -/

/-- FREEZE: fetching stops, running jobs are preempted as the save pool has room, placed ones give up their cores. -/
def State.freezeVi (s : State) (v : Nat) : State :=
  let s1 := { s.setVi v 4 with insts := { s.insts with frozenAt := Sparse.put (fun _ => 0) v s.now s.insts.frozenAt } }
  let s2 := (s1.jobs.filter (fun j => ringVi j.ring == v && j.stage == .placed)).foldl (fun a j => a.unplace j) s1
  let s3 := { s2 with jobs := updWhere (fun j => ringVi j.ring == v && j.stage.onCores) (fun j => { j with freezing := true }) s2.jobs }
  (s3.conclude).frozenCheck v

/-- FREEZE: the command FREEZE. -/
def execViFreeze (o : Origin) (v : Nat) (s : State) : Host.Outcome State Fault Refusal :=
  s.whenUp (fun s => s.viCommand o v [1, 3] (fun s v => (s.freezeVi v, 0)))

/-- A descriptor's leases resume with the time they had left: they stopped at the freeze, or when they began if that was later. -/
def State.resumeLeases (s : State) (frozen : Nat) (j : Job) : Job :=
  { j with
    leaseEnd := j.leaseEnd + (s.now - max frozen j.readyAt)
    waitEnd := j.waitEnd + (s.now - max frozen (j.waitEnd - s.waitNs j.ring j.desc))
    freezing := false }

/-- The instance is LIVE again; fetch restarts at HEAD, in host memory at the next poll. -/
def State.thawVi (s : State) (v : Nat) : State :=
  let frozen := Sparse.get (fun _ => 0) v s.insts.frozenAt
  let s1 := if s.viState v = 5 then { s with jobs := updWhere (fun j => ringVi j.ring == v) (s.resumeLeases frozen) s.jobs } else s
  let s2 := (viRings v).foldl (fun a n => if inHostWindow (a.descAddr n 0) then a else a.fetch n) (s1.setVi v 1)
  s2.conclude

/-- THAW: the command THAW. -/
def execViThaw (o : Origin) (v : Nat) (s : State) : Host.Outcome State Fault Refusal :=
  s.whenUp (fun s => s.viCommand o v [3, 5] (fun s v => (s.thawVi v, 0)))

/-! ### Reset (R543) -/

/-- RESET: rings disabled with GEN advanced, knots 0, fair and fault counters clear, resumed if suspended, EMPTY. The descriptors of a
frozen instance, preempted jobs with their saved states and slots among them, are cancelled with reason 2 (DEDUCED, log 48). -/
def State.resetVi (s : State) (v : Nat) : State :=
  let s2 := (viRings v).foldl (fun a n => (a.setFld (Reg.RING_CFG n) Fd.RING_CFG_EN 0).ringCancelled n) s
  let r := s2.knotRange v
  let s3 := ((List.range r.2).filter (fun i => s2.knot (r.1 + i) != 0)).foldl (fun a i => a.knotSet (r.1 + i) 0) s2
  let s4 := [Cls.lc, .test, .be].foldl (fun a c => a.setFair v c 0) s3
  let s5 := { s4 with sched := { s4.sched with faults := s4.sched.faults.filter (fun x => x.1 != v) } }
  ((s5.setBit Reg.ARY_SUSPEND v false).setVi v 0).conclude

/-- RESET: the command RESET. -/
def execViReset (o : Origin) (v : Nat) (s : State) : Host.Outcome State Fault Refusal :=
  s.whenUp (fun s => s.viCommand o v [3, 5] (fun s v => (s.resetVi v, 0)))

/-! ### Save (R547 to R550) -/

/-- Rounds up to the next section boundary (R548). -/
def sectionBytes (n : Nat) : Nat := ceilDiv n 4096 * 4096

/-- Bytes of a fixed part: descriptors in flight, knots of the range, hot-set entries owned (R548). -/
def fixedBytes (flight knots hot : Nat) : Nat := 16384 + sectionBytes (32 * flight) + sectionBytes (8 * knots) + sectionBytes (64 * hot)

/-- Bytes of one core's saved state (R204, R549). -/
def saveBytes (v : CoreSave) : Nat :=
  match v.live with
  | none => 1127424
  | some (pages, vregs, accs) => 4096 * pages.length + 256 * vregs.length + 128 * accs.length

/-- The 64 B lines that a copy of a preempted job holds pending, outside its staged extents: it has no drain in flight. -/
def Job.heldLines (j : Job) (ck : Bool) : List Nat :=
  ((j.pending ck).map (fun (x : Nat × Option Byte) => x.1 / 64)).eraseDups.filter (fun l => !j.extents.contains (l / 1024))

/-- Bytes of a preempted job's record: header, saved states, pending lines (R549). -/
def Job.bytes (j : Job) : Nat :=
  if j.saves.isEmpty then 0 else 4096 + (j.saves.map saveBytes).sum + 72 * ((j.heldLines false).length + (j.heldLines true).length)

/-- Bytes of the job part. -/
def jobsBytes (l : List Job) : Nat := (l.map Job.bytes).sum

/-- The jobs of an instance. -/
def State.viJobs (s : State) (v : Nat) : List Job := s.jobs.filter (fun j => ringVi j.ring == v)

/-- Fixed and job bytes of an instance's image. -/
def State.imageBytes (s : State) (v : Nat) : Nat × Nat :=
  (fixedBytes (s.inFlight v) (s.knotRange v).2 (s.hot.filter (fun x => x.2.state != 0 && x.2.owner == 0x10 + v)).length, jobsBytes (s.viJobs v))

/-- VI_IMG_LEN (R555). -/
def State.setImgLen (s : State) (fixed job : Nat) : State := s.setReg Reg.VI_IMG_LEN (BitVec.ofNat 64 (job * 2 ^ 32 + fixed))

/-- SAVE: the peer's certificate and the destination are checked, BEGIN is journaled (R547). -/
def State.saveVi (s : State) (v : Nat) (cert jrnl : Bool) : State × Nat :=
  let g := s.fld Reg.VI_IMG Fd.VI_IMG_IMAGE * 4096
  let (fixed, job) := s.imageBytes v
  if !cert then (s, 4)
  else if devOf g ≠ s.ownDev || !s.copyOk (g % 2 ^ 48) (fixed + job) then (s, 5)
  else
    let (s1, ok) := s.jBeginOp jSave v g 0 jrnl
    if ok then ({ s1.setVi v 6 with insts := { s1.insts with saving := s1.insts.saving ++ [⟨v, g, fixed, job⟩] } }, 1) else (s1, 8)

/-- SAVE: the command SAVE; `cert` says whether the peer certificate verifies under the device authority. -/
def execViSave (o : Origin) (v : Nat) (cert jrnl : Bool) (s : State) : Host.Outcome State Fault Refusal :=
  s.whenUp (fun s => s.viCommand o v [5] (fun s v => s.saveVi v cert jrnl))

/-- STATUS of VI_CMD leaves PENDING for an instance. -/
def State.viDone (s : State) (v : Nat) : State :=
  if s.fld Reg.VI_CMD Fd.VI_CMD_INSTANCE = v ∧ s.fld Reg.VI_CMD Fd.VI_CMD_STATUS = 1 then s.setFld Reg.VI_CMD Fd.VI_CMD_STATUS 0 else s

/-- n sealed bytes, each a free value (log 4). -/
def sealedBytes (g n : Nat) : List Byte := (List.range n).map (fun i => BitVec.ofNat 8 (Config.freeCell g i))

/-- The image is written and DONE journaled; the instance is FROZEN, its state unchanged (R547, R550). -/
def State.saved (s : State) (x : Saving) : State :=
  let g := s.free
  let s1 := { s.takeFree.2 with insts := { s.insts with saving := s.insts.saving.filter (fun y => y.vi != x.vi) } }
  let s2 := s1.store (x.place % 2 ^ 48) (sealedBytes g (x.fixed + x.job))
  (((s2.jWrite jSave jDone x.vi x.place 0).setVi x.vi 5).setImgLen x.fixed x.job).viDone x.vi

/-- SAVE_IMAGE_DONE: the save image of an instance is written. -/
def execSaveImageDone (v : Nat) (s : State) : Host.Outcome State Fault Refusal :=
  s.whenUp (fun s =>
    match s.insts.saving.find? (fun x => x.vi == v) with
    | none => s
    | some x => s.saved x)

/-! ### Restore (R551) -/

/-- A knot number of the image's range moves with the range. -/
def ViImage.knotTo (m : ViImage) (base k : Nat) : Nat := if m.base ≤ k ∧ k < m.base + m.count then base + (k - m.base) else k

/-- Replaces bits [hi:lo] of a word. -/
def putBits (w hi lo v : Nat) : Nat := w - bits w hi lo * 2 ^ lo + v % 2 ^ (hi + 1 - lo) * 2 ^ lo

/-- A descriptor of the image: its wait knot moves; a signal to the source device becomes one to this device. -/
def ViImage.descTo (m : ViImage) (base dev : Nat) (d : List Nat) : List Nat :=
  let w5 := d.getD 5 0
  let w7 := d.getD 7 0
  let d1 := d.set 5 (putBits w5 13 0 (m.knotTo base (bits w5 13 0)))
  if bits w7 30 16 = m.device then d1.set 7 (putBits (putBits w7 30 16 dev) 13 0 (m.knotTo base (bits w7 13 0))) else d1

/-- Bytes of the image's two parts. -/
def ViImage.bytes (m : ViImage) : Nat × Nat := (fixedBytes (m.jobs.length + m.fetched.length) m.count m.hot.length, jobsBytes m.jobs)

/-- Save slots and extents of the staging pool that the image's jobs take. -/
def ViImage.slots (m : ViImage) : Nat := (m.jobs.map (fun j => j.saves.length)).sum
def ViImage.extents (m : ViImage) : Nat := (m.jobs.map (fun j => j.extents.length)).sum

/-- The registers of the configuration section; the knot range stays the destination's own. -/
def State.installConfig (s : State) (v : Nat) (m : ViImage) : State :=
  let put := fun (a : State) (k w : Nat) => a.setReg k (BitVec.ofNat 64 w)
  let s1 := put (put (put s (Reg.VI_CFG v) m.cfg) (Reg.ARY_SHARE v) m.share) (Reg.KNOT_MIRROR v) m.mirror
  (List.range 4).foldl (fun a k => put (put a (Reg.VI_WIN_BASE v k) (m.wins.getD (2 * k) 0)) (Reg.VI_WIN_LIMIT v k) (m.wins.getD (2 * k + 1) 0)) s1

/-- The rings with HEAD, RETIRED, the last TAIL read and the descriptors not yet admitted. -/
def State.installRings (s : State) (v : Nat) (m : ViImage) : State :=
  (List.range 16).foldl (fun a i =>
    match m.rings[i]? with
    | none => a
    | some r =>
      let n := 16 * v + i
      let mine := (m.fetched.filter (fun x => x.1 % 16 == i)).map (fun x => (x.2.1, m.descTo (s.knotRange v).1 s.ownDev x.2.2))
      let w := fun (k : Nat) => BitVec.ofNat 64 (r.words.getD k 0)
      let a1 := (((a.setReg (Reg.RING_DESC n) (w 0)).setReg (Reg.RING_CPL n) (w 1)).setReg (Reg.RING_DB n) (w 2)).setReg (Reg.RING_CFG n) (w 3)
      a1.setRing n { head := r.head, retired := r.retired, lastTail := r.lastTail, fetched := mine }) s

/-- Knot values at the destination BASE plus each knot's offset. -/
def State.installKnots (s : State) (v : Nat) (m : ViImage) : State :=
  (List.range m.count).foldl (fun a i => a.knotSet ((s.knotRange v).1 + i) (m.knots.getD i 0)) s

/-- The hot-set entries, each at the first free entry; one that fails registration stays unregistered. -/
def State.installHot (s : State) (v : Nat) (m : ViImage) : State :=
  m.hot.foldl (fun a ws =>
    let w := fun (k : Nat) => BitVec.ofNat 64 (ws.getD k 0)
    match (List.range hotCount).find? (fun i => (a.hotEntry i).state == 0) with
    | none => a
    | some i => (a.hotRegister { hotOf (w 0) (w 1) (w 2) with owner := 0x10 + v } i).1) s

/-- A job's staged extents and pending lines find their places here again (R115, R551). -/
def State.installPending (s : State) (j : Job) : State :=
  let s1 := j.extents.foldl (fun a h => a.takeExtent j.ring j.seq h) { s with jobs := s.jobs ++ [{ j with pend := [], pendCk := [], extents := [], places := [] }] }
  let s2 := (s1.roomFor j.ring j.seq false (j.heldLines false)).getD s1
  let s3 := (s2.roomFor j.ring j.seq true (j.heldLines true)).getD s2
  s3.modJob j.ring j.seq (fun k => { k with pend := j.pend, pendCk := j.pendCk })

/-- One descriptor in its stage, its leases with the time they had left; a job whose pattern is not registered is refused. -/
def State.installJob (s : State) (v : Nat) (m : ViImage) (j : Job) : State :=
  let n := 16 * v + j.ring % 16
  let k : Job := { j with
    ring := n, desc := m.descTo (s.knotRange v).1 s.ownDev j.desc, readyAt := s.now, leaseEnd := s.now + j.leaseEnd, waitEnd := s.now + j.waitEnd
    gen := s.fld (Reg.RING_CFG n) Fd.RING_CFG_GEN, resv := none, cores := [], ckCores := [], granted := [], slots := j.saves.length }
  if j.kind ≠ 1 then { s with jobs := s.jobs ++ [k] }
  else
    match s.hotLookup (descPattern k.desc) v with
    | none => s.finish k codeRefused (refusedDetail (3, 0)) 0
    | some i =>
      let s1 := s.installPending { k with entry := i }
      if (s1.hotEntry i).state = 1 then s1.startLoad i else s1

/-- RESTORE: the checks, then the installation; the instance is RESTORING until it ends. -/
def State.restoreVi (s : State) (v : Nat) (img : Option ViImage) : State × Nat :=
  if !s.live (0x10 + v) then (s, 2)
  else
    match img with
    | none => (s, 3)
    | some m =>
      let (fixed, job) := m.bytes
      if m.peer ≠ s.ownDev then (s, 4)
      else if (s.knotRange v).2 < m.count || decide ((s.sched.saveSize + s.memst.stageSize) * 2 ^ 26 < fixed + job) ||
          decide (s.slotCount < s.slotsTaken + m.slots) || decide (s.extentCount < s.extentsTaken + m.extents) then (s, 6)
      else
        let s1 := s.setTenant (0x10 + v) { s.tenant (0x10 + v) with imported := true }
        let s2 := (((s1.installConfig v m).installRings v m).installKnots v m).installHot v m
        let s3 := m.jobs.foldl (fun a j => a.installJob v m j) s2
        ({ s3.setVi v 7 with insts := { s3.insts with
            frozenAt := Sparse.put (fun _ => 0) v s.now s3.insts.frozenAt
            restoring := s3.insts.restoring ++ [(v, fixed, job)] } }, 1)

/-- RESTORE: the command RESTORE; `img` is what the image's tag and header, verified, show, or none where they do not verify. -/
def execViRestore (o : Origin) (v : Nat) (img : Option Machine.ViImage) (s : State) : Host.Outcome State Fault Refusal :=
  s.whenUp (fun s => s.viCommand o v [0] (fun s v => s.restoreVi v img))

/-- RESTORE_DONE: a restore ends and the instance is FROZEN. -/
def execRestoreDone (v : Nat) (s : State) : Host.Outcome State Fault Refusal :=
  s.whenUp (fun s =>
    match s.insts.restoring.find? (fun x => x.1 == v) with
    | none => s
    | some (_, fixed, job) =>
      let s1 := { s with insts := { s.insts with restoring := s.insts.restoring.filter (fun x => x.1 != v) } }
      ((s1.setVi v 5).setImgLen fixed job).viDone v)

end Sys2Proof.Machine
end

