-- ==== Sys2Proof/Machine/Tsn.lean ====
section
/-! DEFINITION. The TSN switch, its gates and frame queues, the transparent clock, the sluice's port, the gPTP servo (R590 to R598,
R602, R609, R612 to R614, R653). -/

namespace Sys2Proof.Machine

/-! ### gPTP time (R594) -/

/-- TSN_OFFSET as a signed number; gPTP time of an instant; gPTP time now. -/
def State.tsnOffset (s : State) : Int := (s.reg Reg.TSN_OFFSET).toInt
def State.gptpNow (s : State) : Int := s.now + s.tsnOffset

/-! ### Ports and frames -/

def State.tsnPort (s : State) (p : Nat) : TsnPort := Sparse.get (fun _ => {}) p s.nets.ports
def State.setTsnPort (s : State) (p : Nat) (x : TsnPort) : State :=
  { s with nets := { s.nets with ports := Sparse.put (fun _ => {}) p x s.nets.ports } }

/-- Is a port enabled and the switch powered? -/
def State.portOn (s : State) (p : Nat) : Bool := decide (p < 8) && s.bit (Reg.TSN_PORT_CFG p) Fd.TSN_PORT_CFG_EN && s.domainOn 218

/-- The number that big-endian bytes spell. -/
def ofBe (bs : List Byte) : Nat := ofLe bs.reverse

/-- A big-endian field of a frame. -/
def beAt (bs : List Byte) (off n : Nat) : Nat := ofBe (slice bs off n)

/-- Is a frame tagged; its PCP and VID; the offset of its EtherType. -/
def ethTagged (bs : List Byte) : Bool := beAt bs 12 2 == 0x8100
def ethPcp (bs : List Byte) : Nat := if ethTagged bs then beAt bs 14 2 / 2 ^ 13 else 0
def ethVid (bs : List Byte) : Nat := if ethTagged bs then beAt bs 14 2 % 2 ^ 12 else 0
def ethOff (bs : List Byte) : Nat := if ethTagged bs then 16 else 12
def ethType (bs : List Byte) : Nat := beAt bs (ethOff bs) 2

/-- The VLAN a frame belongs to: its VID, or for an untagged frame VLAN 1 (log 31). -/
def ethVlan (bs : List Byte) : Nat := if ethVid bs = 0 then 1 else ethVid bs

/-- Rate of an external port in Mbit/s (R590, R614). -/
def State.portMbps (s : State) (p : Nat) : Nat :=
  if p < 4 then (match s.fld (Reg.TSN_PORT_CFG p) Fd.TSN_PORT_CFG_SPEED with
    | 0 => 2500
    | 1 => 5000
    | _ => 10000)
  else 10

/-- Time a frame takes on an external port in ns, with preamble and frame check sequence. -/
def State.wireNs (s : State) (p len : Nat) : Nat := ceilDiv ((len + 12) * 8000) (s.portMbps p)

/-! ### Gates (R592) -/

/-- A bank of a port's gate lists. -/
def TsnPort.bank (x : TsnPort) (b : Nat) : GateList := if b = 0 then x.bank0 else x.bank1

/-- The end of the interval that a port runs, in device time. -/
def State.intervalEnd (s : State) (g : GateList) (r : GateRun) : Int :=
  let start : Int := (g.base + r.n * g.cycle : Nat)
  let off := r.frozen.getD s.tsnOffset
  if r.hold then start - off
  else if r.idx + 1 = g.ents.length then start + g.cycle - off
  else start + (((g.ents.take (r.idx + 1)).map (·.2)).sum : Nat) - off

/-- Is the gate of a class open in an entry? -/
def gateOpen (e : Nat × Nat) (cls : Nat) : Bool := e.1 / 2 ^ cls % 2 == 1

/-- The time for which a class's gate stays open through a run of intervals; none for all of them. -/
def openTime (cls : Nat) : List (Nat × Nat) → Option Nat
  | [] => none
  | e :: l => if gateOpen e cls then (openTime cls l).map (· + e.2) else some 0

/-- May a frame of a class start on a port now: its gate stays open until its last bit has left? A port with no list is open. -/
def State.gateFits (s : State) (p cls len : Nat) : Bool :=
  let x := s.tsnPort p
  match x.run with
  | none => true
  | some r =>
    let g := x.bank r.bank
    match g.ents[r.idx]? with
    | none => true
    | some e =>
      let left := (s.intervalEnd g r - s.now).toNat
      match openTime cls ((e.1, left) :: (g.ents.drop (r.idx + 1) ++ g.ents.take r.idx)) with
      | none => true
      | some t => decide (s.wireNs p len ≤ t)

/-! ### The transparent clock (R593) -/

/-- The PTP header of a frame: its offset, if it carries PTP. -/
def ptpOff (bs : List Byte) : Option Nat := if ethType bs = 0x88F7 then some (ethOff bs + 2) else none

/-- Message type; two-step flag; sender and sequence number of a PTP message. -/
def ptpType (bs : List Byte) (o : Nat) : Nat := beAt bs o 1 % 16
def ptpTwoStep (bs : List Byte) (o : Nat) : Bool := beAt bs (o + 6) 1 / 2 % 2 == 1
def ptpKey (bs : List Byte) (o : Nat) : List Byte := slice bs (o + 20) 12

/-- A frame with an amount added to its correctionField. -/
def addCorrection (bs : List Byte) (o amount : Nat) : List Byte :=
  bs.take (o + 8) ++ beBytes 8 ((beAt bs (o + 8) 8 + amount) % 2 ^ 64) ++ bs.drop (o + 16)

/-- Does the servo syntonise device time? -/
def State.syntonises (s : State) : Bool := s.bit Reg.TIME_CTRL Fd.TIME_CTRL_SERVO && !s.bit Reg.TIME_STATUS Fd.TIME_STATUS_REF_LOSS

/-- A residence time in units of 2^-16 ns of the grandmaster's rate. -/
def State.residence (s : State) (ns : Nat) : Nat :=
  if s.syntonises then ns * 2 ^ 16 else ((ns * 2 ^ 16 : Nat) * (2 ^ 41 + signed32 s.nets.ratio) / 2 ^ 41).toNat

/-- What a frame carries when it leaves a port: an event message takes its residence time; the Follow_Up of a two-step Sync takes that
of the Sync and the link delay of its ingress port, a free value. -/
def State.corrected (s : State) (p : Nat) (w : WaitFrame) : State × List Byte :=
  match ptpOff w.bytes with
  | none => (s, w.bytes)
  | some o =>
    let t := ptpType w.bytes o
    let r := s.residence (s.now - w.sfd)
    if t = 0 ∧ ptpTwoStep w.bytes o then
      let (v, s1) := s.takeFree
      ({ s1 with nets := { s1.nets with twoStep := s1.nets.twoStep ++ [⟨ptpKey w.bytes o, p, r + v * 2 ^ 16⟩] } }, w.bytes)
    else if t ≤ 3 then (s, addCorrection w.bytes o r)
    else if t = 8 then
      match s.nets.twoStep.find? (fun x => x.key == ptpKey w.bytes o && x.port == p) with
      | none => (s, w.bytes)
      | some x => ({ s with nets := { s.nets with twoStep := s.nets.twoStep.erase x } }, addCorrection w.bytes o x.amount)
    else (s, w.bytes)

/-! ### Leaving an external port (R31, R592) -/

/-- A frame leaves an external port; a stopped rim refuses it. -/
def State.ethOut (s : State) (p : Nat) (w : WaitFrame) : State :=
  if s.rimOn (546 + p) then
    let (s1, bs) := s.corrected p w
    s1.emit (.ethFrame p bs)
  else s.rimRefuse (546 + p)

/-- Does a copy of a transmit entry's frame still wait at some port? -/
def State.entryWaits (s : State) (e : Nat × Nat) : Bool := s.nets.ports.any (fun x => x.2.waiting.any (fun w => w.entry == some e))

/-- A transmit entry of port 6, of which no copy waits, completes (R587, R588). -/
def State.entryEnd (s : State) (e : Nat × Nat) (status : Nat) : State :=
  if s.entryWaits e then s
  else
    match (s.fq (.tsn e.1)).fetched.find? (fun x => x.1 == e.2) with
    | none => s
    | some x =>
      let s1 := s.fqSent (.tsn e.1) e.2 (x.2.set 2 (or64 (x.2.getD 2 0) 1)) s.now status
      State.fqSettle (s1.fqArea (.tsn e.1)).size s1 (.tsn e.1)

/-- A frame reaches an external egress port: it leaves, or waits behind its class and its gate. -/
def State.ethEgress (s : State) (p : Nat) (w : WaitFrame) : State :=
  let x := s.tsnPort p
  if s.gateFits p w.cls w.bytes.length && !x.waiting.any (fun y => y.cls == w.cls) then s.ethOut p w
  else s.setTsnPort p { x with waiting := x.waiting ++ [w] }

/-- Frames whose gates let them start leave in order; a frame that waits holds back its class. -/
def State.releaseFrames (s : State) (p : Nat) : State :=
  ((s.tsnPort p).waiting.foldl (fun ((a, held) : State × List Nat) w =>
    if !held.contains w.cls && a.gateFits p w.cls w.bytes.length then
      let a1 := a.setTsnPort p { a.tsnPort p with waiting := (a.tsnPort p).waiting.erase w }
      let a2 := a1.ethOut p w
      (match w.entry with
        | some e => a2.entryEnd e 0
        | none => a2, held)
    else (a, w.cls :: held)) (s, [])).1

/-- A cycle ends: frames that have waited through GATE_MAX_CYCLES cycles are dropped and counted, port 6's with ABORTED. -/
def State.cycleEnds (s : State) (p : Nat) : State :=
  let most := max 1 (s.fld (Reg.TSN_PORT_CFG p) Fd.TSN_PORT_CFG_GATE_MAX_CYCLES)
  let x := s.tsnPort p
  let ws := x.waiting.map (fun w => { w with cycles := w.cycles + 1 })
  let s1 := s.setTsnPort p { x with waiting := ws.filter (fun w => decide (w.cycles < most)) }
  (ws.filter (fun w => decide (most ≤ w.cycles))).foldl (fun a w =>
    let a1 := a.bump (Reg.TSN_GATE_DROP p) p
    match w.entry with
    | some e => a1.entryEnd e 1
    | none => a1) s1

/-- The number of the first cycle that starts at or after gPTP time now. -/
def State.nextCycle (s : State) (g : GateList) : Nat := ceilDiv (s.gptpNow - g.base).toNat g.cycle

/-- The run of a gate list after its interval has ended. -/
def State.nextRun (s : State) (g : GateList) (r : GateRun) : GateRun :=
  if r.hold then { r with idx := 0, hold := false }
  else if r.idx + 1 < g.ents.length then { r with idx := r.idx + 1 }
  else if r.frozen.isSome then { r with n := s.nextCycle g, frozen := none, hold := true }
  else { r with n := r.n + 1, idx := 0 }

/-- GATE_INTERVAL_END: the interval that a port's gate list runs has ended. -/
def execGateIntervalEnd (p : Nat) (s : State) : Host.Outcome State Fault Refusal :=
  s.whenUp (fun s =>
    let x := s.tsnPort p
    match x.run with
    | none => s
    | some r =>
      let g := x.bank r.bank
      if s.domainOn 218 ∧ p < 6 ∧ s.intervalEnd g r ≤ s.now then
        let wraps := !r.hold && r.idx + 1 == g.ents.length
        let s1 := if wraps then s.cycleEnds p else s
        (s1.setTsnPort p { s1.tsnPort p with run := some (s.nextRun g r) }).releaseFrames p
      else s)

/-- GATE_BANK_TAKEOVER: the bank that GATE_BANK names takes over at a cycle start at or after its base time. -/
def execGateBankTakeover (p : Nat) (s : State) : Host.Outcome State Fault Refusal :=
  s.whenUp (fun s =>
    let x := s.tsnPort p
    let b := s.fld (Reg.TSN_PORT_CFG p) Fd.TSN_PORT_CFG_GATE_BANK
    let g := x.bank b
    let runs := match x.run with
      | some r => r.bank == b
      | none => false
    if p < 6 && s.domainOn 218 && !runs && !g.ents.isEmpty && decide (0 < g.cycle) && decide ((g.base : Int) ≤ s.gptpNow) then
      (s.setTsnPort p { x with run := some { bank := b, n := (s.gptpNow - g.base).toNat / g.cycle } }).releaseFrames p
    else s)

/-! ### The sluice's side of port 7 (R602, R609) -/

/-- The sum of a byte string in 16-bit words, folded to 16 bits. -/
def sum16 : List Byte → Nat
  | [] => 0
  | [a] => a.toNat * 256
  | a :: b :: l => a.toNat * 256 + b.toNat + sum16 l
def fold16 (n : Nat) : Nat :=
  let m := n % 65536 + n / 65536
  m % 65536 + m / 65536

/-- The pseudo-header of UDP over IPv4. -/
def pseudoHeader (src dst len : Nat) : List Byte := beBytes 4 src ++ beBytes 4 dst ++ beBytes 2 17 ++ beBytes 2 len

/-- A field of GWY_SLU_ETH. -/
def State.sluEth (s : State) (k : Nat) (f : Fld) : Nat := s.fld k f

/-- The UDP datagram of a frame that port 7 hands to the sluice: its payload (R609). -/
def State.datagram (s : State) (bs : List Byte) : Option (List Byte) :=
  let vid := s.sluEth Reg.GWY_SLU_ETH_W0 Fd.GWY_SLU_ETH_W0_VID
  let ip := bs.drop (ethOff bs + 2)
  let hl := beAt ip 0 1 % 16 * 4
  let udp := (ip.take (beAt ip 2 2)).drop hl
  let ulen := beAt udp 4 2
  let body := udp.take ulen
  let mac := beAt bs 0 6 == s.sluEth Reg.GWY_SLU_ETH_W1 Fd.GWY_SLU_ETH_W1_SRC_MAC
  let vlan := if ethTagged bs then ethVid bs == vid else vid == 0
  let head := ethType bs == 0x0800 && beAt ip 0 1 / 16 == 4 && decide (20 ≤ hl) && decide (hl ≤ ip.length) && fold16 (sum16 (ip.take hl)) == 65535 &&
    decide (beAt ip 2 2 ≤ ip.length)
  let whole := beAt ip 6 2 % 2 ^ 14 == 0 && beAt ip 9 1 == 17
  let dest := beAt ip 16 4 == s.sluEth Reg.GWY_SLU_ETH_W2 Fd.GWY_SLU_ETH_W2_SRC_IP && beAt udp 2 2 == s.sluEth Reg.GWY_SLU_ETH_W3 Fd.GWY_SLU_ETH_W3_SRC_PORT
  let sum := decide (8 ≤ ulen) && decide (ulen ≤ udp.length) &&
    (beAt udp 6 2 == 0 || fold16 (sum16 (pseudoHeader (beAt ip 12 4) (beAt ip 16 4) ulen) + sum16 body) == 65535)
  if mac && vlan && head && whole && dest && sum then some (body.drop 8) else none

/-- The PDUs of a datagram, back to back; unknown IDs are skipped and counted, one that runs beyond the datagram ends it. -/
def State.splitPdus : Nat → State → List Byte → State
  | 0, s, _ => s
  | n + 1, s, bs =>
    if bs.isEmpty then s
    else if bs.length < 8 ∨ bs.length - 8 < beAt bs 4 4 then s.bump Reg.GWY_UNKNOWN noUnit
    else
      let len := beAt bs 4 4
      let s1 := match s.sourcePdu (fun p => p.side && p.key32 == beAt bs 0 4) with
        | some i => s.sluiceIn i (slice bs 8 len)
        | none => s.bump Reg.GWY_UNKNOWN noUnit
      State.splitPdus n s1 (bs.drop (8 + len))

/-- A frame reaches port 7: the sluice takes its datagram; any other frame is discarded and counted. -/
def State.ethSluice (s : State) (bs : List Byte) : State :=
  if s.sluiceOn then
    match s.datagram bs with
    | some body => State.splitPdus body.length s body
    | none => s.bump Reg.GWY_UNKNOWN noUnit
  else s

/-! ### Forwarding (R590, R591, R653) -/

/-- Bytes of shared buffer in use, and the size of the buffer. -/
def State.bufferUsed (s : State) : Nat := (s.nets.ports.map (fun x => (x.2.waiting.map (fun w => w.bytes.length)).sum)).sum
def bufferSize : Nat := 2 ^ 21

/-- Is an address a group address? -/
def isGroup (mac : Nat) : Bool := mac / 2 ^ 40 % 2 == 1

/-- Learns the source of a frame; static entries stay, a full table learns nothing new. -/
def State.learnMac (s : State) (p : Nat) (bs : List Byte) : State :=
  let src := beAt bs 6 6
  let vid := ethVlan bs
  if isGroup src then s
  else
    let hit := fun (e : FdbEntry) => e.mac == src && e.vid == vid
    if s.nets.fdb.any hit then
      { s with nets := { s.nets with fdb := updWhere (fun e => hit e && !e.fixed) (fun e => { e with ports := 2 ^ p, seen := s.now }) s.nets.fdb } }
    else if s.nets.fdb.length < 4096 then
      { s with nets := { s.nets with fdb := s.nets.fdb ++ [{ mac := src, vid := vid, ports := 2 ^ p, seen := s.now }] } }
    else s

/-- The egress ports of a frame: those of its forwarding entry, else all members of its VLAN; never its ingress port; a reserved group
address is not forwarded unless it carries PTP (log 31). -/
def State.egressPorts (s : State) (p : Nat) (bs : List Byte) : List Nat :=
  let dst := beAt bs 0 6
  let vid := ethVlan bs
  let members := match s.nets.vlans.find? (fun v => v.1 == vid) with
    | some v => v.2
    | none => 0
  let mask := match s.nets.fdb.find? (fun e => e.mac == dst && e.vid == vid) with
    | some e => and64 e.ports members
    | none => members
  if dst / 16 = 0x0180C200000 ∧ ethType bs ≠ 0x88F7 then []
  else (List.range 8).filter (fun q => q != p && mask / 2 ^ q % 2 == 1 && s.portOn q)

/-- A frame reaches one egress port. -/
def State.ethDeliver (s : State) (ingress cls : Nat) (bs : List Byte) (sfd : Nat) (entry : Option (Nat × Nat)) (p : Nat) : State :=
  if p < 6 then s.ethEgress p { cls := cls, bytes := bs, entry := entry, ingress := ingress, sfd := sfd }
  else if p = 6 then
    let k := s.fld Reg.TSN_PCP_MAP Fd.TSN_PCP_MAP_MAP / 2 ^ (3 * ethPcp bs) % 8
    let w3 := (ethPcp bs * 2 ^ 29 + ingress * 2 ^ 24 + ethVid bs) * 2 ^ 32
    if s.fqOn (.tsn (8 + k)) then s.fqReceive (.tsn (8 + k)) bs sfd 1 w3 else s.bump (Reg.TSN_RX_NOBUF 6) 6
  else s.ethSluice bs

/-- A frame enters the switch: too long, or with the buffer full, it is dropped and counted; otherwise it is learned from and
forwarded. -/
def State.ethIn (s : State) (p cls : Nat) (bs : List Byte) (sfd : Nat) (entry : Option (Nat × Nat)) : State :=
  if bs.length < 14 || decide (1522 < bs.length + 4) || decide (bufferSize < s.bufferUsed + bs.length) then s.bump (Reg.TSN_MAC_DROP p) p
  else
    let s1 := s.learnMac p bs
    (s1.egressPorts p bs).foldl (fun a q => a.ethDeliver p cls bs sfd entry q) s1

/-- ETH_FRAME_RX: a frame, without its frame check sequence, arrives at an external port; `sfd` is the instant of its SFD. -/
def execEthFrameRx (p : Nat) (bytes : List Byte) (fcsOk : Bool) (sfd : Nat) (s : State) : Host.Outcome State Fault Refusal :=
  s.whenUp (fun s =>
    if p < 6 ∧ s.portOn p ∧ sfd ≤ s.now then
      if fcsOk then s.ethIn p (ethPcp bytes) bytes sfd none else s.bump (Reg.TSN_MAC_DROP p) p
    else s)

/-- ETH_TX_DONE: the frame at the head of transmit queue k of port 6 enters the switch and, unless it waits for a gate, its
transmission ends. -/
def execEthTxDone (k : Nat) (s : State) : Host.Outcome State Fault Refusal :=
  s.whenUp (fun s =>
    if k < 8 ∧ s.fqOn (.tsn k) ∧ s.portOn 6 then
      match (s.fq (.tsn k)).fetched with
      | [] => s
      | (seq, ws) :: _ =>
        if s.entryWaits (k, seq) then s
        else (s.ethIn 6 k (s.readBytes (entryAddr ws) (entryLen ws)) s.now (some (k, seq))).entryEnd (k, seq) 0
    else s)

/-- LEARNED_ENTRY_AGEING: a learned entry has not been refreshed for AGE_S seconds (R653). -/
def execLearnedEntryAgeing (mac vid : Nat) (s : State) : Host.Outcome State Fault Refusal :=
  s.whenUp (fun s =>
    let age := s.fld Reg.TSN_CTRL Fd.TSN_CTRL_AGE_S
    if age = 0 then s
    else { s with nets := { s.nets with fdb := s.nets.fdb.filter (fun e =>
        !(e.mac == mac && e.vid == vid && !e.fixed && decide (e.seen + 1000000000 * age ≤ s.now))) } })

/-- A write of TSN_PORT_CFG_p (R614). -/
def State.writePort (s : State) (o : Origin) (p : Nat) (value : Word) : State :=
  if p < 8 then s.writePlainBy o (Reg.TSN_PORT_CFG p) value else s.refuseTo o

/-- PORT_ENABLE: a write of TSN_PORT_CFG_p. -/
def execPortEnable (o : Origin) (p : Nat) (value : Word) (s : State) : Host.Outcome State Fault Refusal := s.whenUp (fun s => s.writePort o p value)

/-! ### The servo (R594 to R598, R612, R613) -/

/-- A flag of TSN_GPTP_STATUS. -/
def State.gptpFlag (s : State) (f : Fld) (v : Nat) : State := s.setFld Reg.TSN_GPTP_STATUS f v
def State.gptpIs (s : State) (f : Fld) : Bool := s.bit Reg.TSN_GPTP_STATUS f

/-- The rate filter takes a Sync, unless HOLD stops it: the cumulative rate ratio, and while SERVO is set TIME_RATE_ADJ, become free
values, since the manual gives no filter (log 32). -/
def State.rateFilter (s : State) : State :=
  if s.gptpIs Fd.TSN_GPTP_STATUS_HOLDING then s
  else
    let (v, s1) := s.takeFree
    let s2 := { s1 with nets := { s1.nets with ratio := v % 2 ^ 32 } }
    if s2.syntonises then
      let (a, s3) := s2.takeFree
      s3.setAdj (a % 2 ^ 32)
    else s2

/-- A Sync's jump is refused: TSN_OFFSET stays, TSN_PEND takes the error, REFUSED, the count and TSN_JUMP (R595). -/
def State.refuseSync (s : State) (e : Word) : State :=
  (((s.setReg Reg.TSN_PEND e).gptpFlag Fd.TSN_GPTP_STATUS_REFUSED 1).bump Reg.GPTP_REFUSE_CNT noUnit).raise 19 0x0010 noUnit

/-- JUMP_NS; 0 acts as 1. -/
def State.jumpNs (s : State) : Nat := max 1 (s.fld Reg.TSN_GPTP_CTRL Fd.TSN_GPTP_CTRL_JUMP_NS)

/-- The servo takes a Sync with a phase error (R595, R598). -/
def State.takeSync (s : State) (e : Word) : State :=
  let lost := s.bit Reg.TIME_STATUS Fd.TIME_STATUS_REF_LOSS
  let s1 := s.gptpFlag Fd.TSN_GPTP_STATUS_IS_GM 0
  let s2 := if lost then s1 else s1.gptpFlag Fd.TSN_GPTP_STATUS_GM_LOST 0
  if s.gptpIs Fd.TSN_GPTP_STATUS_REFUSED then
    let s3 := s2.setReg Reg.TSN_PEND e
    if lost then s3 else s3.rateFilter
  else if lost ∨ s.jumpNs < e.toInt.natAbs then s2.refuseSync e
  else (s2.setReg Reg.TSN_OFFSET (s2.reg Reg.TSN_OFFSET + e)).rateFilter

/-- Does the servo run on a port? -/
def State.gptpPort (s : State) (p : Nat) : Bool := decide (p < 6) && s.portOn p && s.fld Reg.TSN_GPTP_CTRL Fd.TSN_GPTP_CTRL_PORTS / 2 ^ p % 2 == 1

/-- SYNC_RX: a Sync arrives on a port; `e` is the phase error, the grandmaster's time less the device's gPTP time, signed ns. -/
def execSyncRx (p : Nat) (e : Word) (s : State) : Host.Outcome State Fault Refusal := s.whenUp (fun s => if s.gptpPort p then s.takeSync e else s)

/-- SYNC_TIMEOUT: no Sync for 3 intervals; `elected` says that the best master clock algorithm elects this device. -/
def execSyncTimeout (elected : Bool) (s : State) : Host.Outcome State Fault Refusal :=
  s.whenUp (fun s =>
    if s.domainOn 218 then
      let s1 := s.gptpFlag Fd.TSN_GPTP_STATUS_GM_LOST 1
      if elected && s.bit Reg.TSN_GPTP_CTRL Fd.TSN_GPTP_CTRL_GM_CAPABLE then s1.gptpFlag Fd.TSN_GPTP_STATUS_IS_GM 1 else s1
    else s)

/-- ACCEPT: TSN_OFFSET takes TSN_PEND; gate lists that run finish their cycle in the old gPTP time (R597). -/
def State.gptpAccept (s : State) : State :=
  if s.gptpIs Fd.TSN_GPTP_STATUS_REFUSED then
    let old := s.tsnOffset
    let freeze := fun (x : TsnPort) => { x with run := x.run.map (fun (r : GateRun) => if r.hold then r else { r with frozen := some (r.frozen.getD old) }) }
    let s1 : State := { s with nets := { s.nets with ports := s.nets.ports.map (fun x => (x.1, freeze x.2)) } }
    ((s1.setReg Reg.TSN_OFFSET (s1.reg Reg.TSN_OFFSET + s1.reg Reg.TSN_PEND)).gptpFlag Fd.TSN_GPTP_STATUS_REFUSED 0).gptpFlag Fd.TSN_GPTP_STATUS_HOLDING 0
  else s

/-- HOLD: the rate filter stops until ACCEPT. -/
def State.gptpHold (s : State) : State :=
  if s.gptpIs Fd.TSN_GPTP_STATUS_REFUSED then s.gptpFlag Fd.TSN_GPTP_STATUS_HOLDING 1 else s

/-- A write of TSN_GPTP_CTRL: its fields and its command. -/
def State.writeGptp (s : State) (o : Origin) (value : Word) : State :=
  s.writeBy o Reg.TSN_GPTP_CTRL value (fun _ t =>
    if mayWrite o [.selvage, .hypervisor] then
      match Fd.TSN_GPTP_CTRL_CMD.of value with
      | 1 => t.gptpAccept
      | 2 => t.gptpHold
      | _ => t
    else t)

/-- ACCEPT: a write of TSN_GPTP_CTRL with CMD 1. -/
def execGptpAccept (o : Origin) (value : Word) (s : State) : Host.Outcome State Fault Refusal :=
  s.whenUp (fun s => s.writeGptp o (Fd.TSN_GPTP_CTRL_CMD.put value 1))

/-- HOLD: a write of TSN_GPTP_CTRL with CMD 2. -/
def execGptpHold (o : Origin) (value : Word) (s : State) : Host.Outcome State Fault Refusal :=
  s.whenUp (fun s => s.writeGptp o (Fd.TSN_GPTP_CTRL_CMD.put value 2))

/-- A write of TSN_OFFSET: ignored unless the device is grandmaster (R613). -/
def State.writeOffset (s : State) (o : Origin) (value : Word) : State :=
  if s.gptpIs Fd.TSN_GPTP_STATUS_IS_GM then s.writePlainBy o Reg.TSN_OFFSET value
  else s.writePlainBy o Reg.TSN_OFFSET (s.reg Reg.TSN_OFFSET)

/-- OFFSET_WRITE: a write of TSN_OFFSET. -/
def execOffsetWrite (o : Origin) (value : Word) (s : State) : Host.Outcome State Fault Refusal := s.whenUp (fun s => s.writeOffset o value)

end Sys2Proof.Machine
end

