-- ==== Sys2Proof/Machine/Leases.lean ====
section
/-! DEFINITION. Root leases, timeouts at every level, ALIVE (R480 to R486). -/

namespace Sys2Proof.Machine

/-! ### Units with root leases (R483) -/

/-- The units that hold root leases, by the model's own numbers: 0 tack engine, 1 job engine, 2 commit sequencer, 3 allowance controller,
4 scheduler, 5 to 8 intake quarters, 9 fusion unit, 10 to 13 display pipes, 14 media engine, 15 USB4 bridge, 16 to 19 Causeway ports,
20 TSN switch, 21 to 24 CAN groups, 25 and 26 safety pairs. -/
def rootCount : Nat := 27

/-- The length of a root lease and of the hardware timer (R481, R482). -/
def rootLength : Nat := 500000
def hwLength : Nat := 1000000

/-- The power domains that are reset with a unit; none where the whole device is (R82). -/
def rootDomains (u : Nat) : List Nat :=
  if 5 ≤ u ∧ u ≤ 8 then [196 + u]
  else if u = 9 then [205]
  else if 10 ≤ u ∧ u ≤ 13 then [196 + u]
  else if u = 14 then [210, 211]
  else if u = 15 then [212]
  else if 16 ≤ u ∧ u ≤ 19 then [198 + u]
  else if u = 20 then [218]
  else if 21 ≤ u ∧ u ≤ 24 then [198 + u]
  else []

/-- The end of a root lease. -/
def State.rootEnd (s : State) (u : Nat) : Nat := Sparse.get (fun _ => 0) u s.watch.roots
def State.setRootEnd (s : State) (u t : Nat) : State := { s with watch := { s.watch with roots := Sparse.put (fun _ => 0) u t s.watch.roots } }

/-- Does a unit hold a root lease: it has power, a safety pair runs? -/
def State.rooted (s : State) (u : Nat) : Bool :=
  decide (u < rootCount) && (rootDomains u).all s.domainOn && (decide (u < 25) || (s.pair (u - 25)).runs)

/-- A renewal of one lease; one taken when it has ended is stale (R480). -/
def State.renewRoot (s : State) (u : Nat) : State :=
  if !s.rooted u then s
  else if s.now < s.rootEnd u then s.setRootEnd u (s.now + rootLength)
  else s.bump Reg.SPARE_STALE_CNT noUnit

/-- ROOT_LEASE_RENEW: Selvage renews the root leases of the units that make progress, and with them the hardware timer (R481, R482). -/
def execRootLeaseRenew (units : List Nat) (s : State) : Host.Outcome State Fault Refusal :=
  s.whenUp (fun s =>
    let s1 := units.foldl State.renewRoot s
    if s1.now < s1.watch.hwEnd then { s1 with watch := { s1.watch with hwEnd := s1.now + hwLength } } else s1)

/-! ### The end of a root lease (R483) -/

/-- An open sample becomes a void slot with reason SOURCE (R351, R481). -/
def State.voidOpen (s : State) (n : Nat) : State :=
  let s1 := ((s.chan n).samples.filter (fun m => m.done.isNone)).foldl (fun a m => a.settleSample n m.q 5 id) s
  s1.modChan n (fun c => { c with cur := none })

/-- The four channels of an intake quarter. -/
def quarterChans (k : Nat) : List Nat := (List.range 4).map (fun i => 4 * k + i)

/-- The passes of the fusion unit are lost: counted, their grids' instants without a list (R376, R386). -/
def State.dropPasses (s : State) : State :=
  let ps := s.fusion.running.toList ++ s.fusion.queue
  let s1 : State := { s with fusion := { s.fusion with running := none, queue := [] } }
  ps.foldl (fun a p => (a.bump (Reg.FUSE_PASS_DROP p.grid) p.grid).unobserved p.grid p.num p.tg 0) s1

/-- What a unit had under way ends when its domain is reset. -/
def State.dropUnit (s : State) (u : Nat) : State :=
  if 5 ≤ u ∧ u ≤ 8 then (quarterChans (u - 5)).foldl (fun a n => if a.chanOn n then (a.voidOpen n).alwDrop (.channel n) else a) s
  else if u = 9 then s.dropPasses.alwDrop .fusion
  else if 10 ≤ u ∧ u ≤ 13 then s.disablePipe (u - 10)
  else if u = 14 then
    let s1 : State := { s with encoder := { s.encoder with active := false, forceIdr := s.encoder.forceIdr || s.encoder.active } }
    s1.alwDrop .decoder
  else if u = 15 then if s.linkUp then s.linkLost else s
  else if 16 ≤ u ∧ u ≤ 19 then if s.portUp (u - 16) then s.portLost (u - 16) else s
  else if u = 20 then { s with nets := { s.nets with ports := s.nets.ports.map (fun x => (x.1, { x.2 with run := none, waiting := [] })) } }
  else s

/-- The unit's power domain is reset; its set-up is restored later. -/
def State.resetUnit (s : State) (u : Nat) : State :=
  let s1 := (rootDomains u).foldl (fun a d => a.setDomain d false) (s.dropUnit u)
  ({ s1 with darn := { s1.darn with restoring := u :: s1.darn.restoring } }).conclude

/-- ROOT_FAILED names the first unit whose lease has expired (R488). -/
def State.nameRoot (s : State) (u : Nat) : State :=
  if s.fld Reg.SPARE_TIMER Fd.SPARE_TIMER_ROOT_FAILED = 0xFF then s.setFld Reg.SPARE_TIMER Fd.SPARE_TIMER_ROOT_FAILED (Config.rootNumber u) else s

/-- A root lease ends: LEASE_ROOT; the device, the unit or the pair is reset (R442, R483). -/
def State.rootExpired (s : State) (u : Nat) : State :=
  let s1 := (s.nameRoot u).report 14 u
  let s2 : State := { s1 with darn := { s1.darn with expired := u :: s1.darn.expired } }
  if u < 5 then s2.enterReset
  else if u < 25 then s2.resetUnit u
  else s2.diverge (u - 25)

/-- ROOT_LEASE_EXPIRE: a root lease reaches its end. -/
def execRootLeaseExpire (unit : Nat) (s : State) : Host.Outcome State Fault Refusal :=
  s.whenUp (fun s =>
    if s.rooted unit && decide (s.rootEnd unit ≤ s.now) && !s.darn.expired.contains unit then s.rootExpired unit else s)

/-- Units whose domain has been restored take up their work: charges are requested again, links train again, controllers start error
active. -/
def State.resumeUnit (s : State) (u : Nat) : State :=
  if 5 ≤ u ∧ u ≤ 8 then (quarterChans (u - 5)).foldl (fun a n => if a.bit (Reg.CH_SRC n) Fd.CH_SRC_EN then a.obtain (a.chanReq n) else a) s
  else if u = 9 then
    if s.bit (Reg.FUSE_GRID_CFG 0) Fd.FUSE_GRID_CFG_EN ∨ s.bit (Reg.FUSE_GRID_CFG 1) Fd.FUSE_GRID_CFG_EN then
      s.obtain (s.unitReq .fusion .lc none 0)
    else s
  else if 10 ≤ u ∧ u ≤ 13 then if s.bit (Reg.PIPE_CFG (u - 10)) Fd.PIPE_CFG_EN then s.enablePipe (u - 10) else s
  else if u = 14 then s.mediaCharge
  else if 21 ≤ u ∧ u ≤ 24 then
    (List.range 4).foldl (fun a i =>
      let n := 4 * (u - 21) + i
      if a.bit (Reg.GWY_CAN_CFG n) Fd.GWY_CAN_CFG_EN then a.setCan n 0 0 0 else a) s
  else s

/-- UNIT_RESTORED: the set-up of a reset unit is restored; its root lease starts anew. -/
def execUnitRestored (unit : Nat) (s : State) : Host.Outcome State Fault Refusal :=
  s.whenUp (fun s =>
    if s.darn.restoring.contains unit then
      let s1 := (rootDomains unit).foldl (fun a d => a.setDomain d true) s
      let s2 : State := { s1 with darn := { s1.darn with restoring := s1.darn.restoring.erase unit, expired := s1.darn.expired.erase unit } }
      ((s2.setRootEnd unit (s2.now + rootLength)).resumeUnit unit).conclude
    else s)

/-! ### DMA streams (R481) -/

/-- Is 1 ms past since the holder of a stream asked for its charge, which no stream precedes (R481)? -/
def State.streamAged (s : State) (h : Holder) : Bool :=
  match s.alw.grantOf h with
  | none => false
  | some g => decide (g.req.made + 1000000 ≤ s.now)

/-- A stream that has completed nothing for 1 ms is abandoned: a void slot, a failed load, poison for a remote read; a copy-back starts
again. -/
def State.abandon (s : State) (d : DmaStream) : State :=
  match d with
  | .channel n => if s.chanOn n && (s.chan n).cur.isSome then s.onCurrent n (fun a q => (a.settleSample n q 5 id).modChan n (fun c => { c with cur := none })) else s
  | .loader i => if (s.hotEntry i).state = 2 ∧ s.streamAged (.loader i) then s.loadFailed i else s
  | .copyBack k => if s.streamAged (.copyBack k) then (s.alwDrop (.copyBack k)).askCopyBack else s
  | .remote tag =>
    match s.cwy.reads.find? (fun r => r.tag == tag && decide (r.expiry ≤ s.now)) with
    | none => s
    | some r => s.failRemote r

/-- DMA_STREAM_EXPIRE: the lease of a DMA stream reaches its end without progress. -/
def execDmaStreamExpire (stream : DmaStream) (s : State) : Host.Outcome State Fault Refusal := s.whenUp (fun s => (s.abandon stream).conclude)

/-! ### The panel timer and the array timer (R482) -/

/-- PANEL_TIMER_EXPIRE: a core has not halted within 50 µs of a watchdog, a flush or a darning request: it is isolated, its domain switched
off, and its darning decided. -/
def execPanelTimerExpire (core : Nat) (jrnl : Bool) (s : State) : Host.Outcome State Fault Refusal :=
  s.whenUp (fun s =>
    if core < 128 ∧ s.coreMode core ≠ 3 ∧ s.domainOn (s.coreDomain core) then
      let d := s.coreDomain core
      ((s.darnCore core jrnl).domainDown d).conclude
    else s)

/-- The number under which LEASE_ROOT counts a panel. -/
def panelUnit (p : Nat) : Nat := 32 + p

/-- A panel's shared logic and cores are reset: its uncommitted jobs are re-queued, its cores out of placement until it resumes. -/
def State.resetPanel (s : State) (p : Nat) : State :=
  let s1 := s.report 14 (panelUnit p)
  let s2 := (panelCores p).foldl (fun a n =>
    let b := match a.jobOf n with
      | some j => a.pullJob j
      | none => a
    b.clearTest n) s1
  let s3 : State := { s2 with watch := { s2.watch with panels := p :: s2.watch.panels } }
  s3.checkReservations.conclude

/-- ARRAY_TIMER_EXPIRE: a panel has not acknowledged a flush halt within 30 µs. -/
def execArrayTimerExpire (panel : Nat) (s : State) : Host.Outcome State Fault Refusal :=
  s.whenUp (fun s => if panel < 16 ∧ s.domainOn (31 + panel) ∧ !s.watch.panels.contains panel then s.resetPanel panel else s)

/-- PANEL_RESUME: the reset of a panel is complete and its cores return to placement, in compute mode with empty state. -/
def execPanelResume (panel : Nat) (s : State) : Host.Outcome State Fault Refusal :=
  s.whenUp (fun s =>
    if s.watch.panels.contains panel then
      (({ s with watch := { s.watch with panels := s.watch.panels.erase panel } } : State).freshPanel panel).conclude
    else s)

/-! ### The hardware timer and ALIVE (R482, R485) -/

/-- HW_TIMER_EXPIRE: Selvage has been silent for 1 ms: ALIVE stops, the error pins show the error level. -/
def execHwTimerExpire (s : State) : Host.Outcome State Fault Refusal :=
  s.whenUp (fun s =>
    if s.watch.hwEnd ≤ s.now ∧ s.watch.lostAt = none then ({ s with watch := { s.watch with lostAt := some s.now } } : State).assertPins.drivePins else s)

/-- SELF_RESET: SELF_RESET_MS after the loss of ALIVE the device resets itself, where SELF_RESET_EN is set. -/
def execSelfReset (s : State) : Host.Outcome State Fault Refusal :=
  s.whenUp (fun s =>
    match s.watch.lostAt with
    | none => s
    | some t =>
      if s.bit Reg.SPARE_TIMER Fd.SPARE_TIMER_SELF_RESET_EN ∧ t + 1000000 * max 1 (s.fld Reg.SPARE_TIMER Fd.SPARE_TIMER_SELF_RESET_MS) ≤ s.now then
        s.enterReset
      else s)

/-- Are every root lease and the hardware timer current? -/
def State.leasesCurrent (s : State) : Bool :=
  s.darn.expired.isEmpty && s.watch.lostAt.isNone && decide (s.now < s.watch.hwEnd) &&
  (List.range rootCount).all (fun u => !s.rooted u || decide (s.now < s.rootEnd u))

/-- ALIVE_EDGE: an edge 500 µs after the last one, while the lease tree is current. -/
def execAliveEdge (s : State) : Host.Outcome State Fault Refusal :=
  s.whenUp (fun s =>
    if s.leasesCurrent && decide (s.watch.edgeAt + 500000 ≤ s.now) then
      { s with sys := { s.sys with alive := !s.sys.alive }, watch := { s.watch with edgeAt := s.now } }
    else s)

end Sys2Proof.Machine
end

