-- ==== Sys2Proof/Machine/Raster.lean ====
section
/-! DEFINITION. The raster instructions of graphics mode (R193, R397 to R402). -/

namespace Sys2Proof.Machine

/-- The shared tiles on which some core still works. -/
def State.liveTiles (s : State) : List SharedTile :=
  s.tiles.filter (fun t => t.cores.any (fun n => (s.core n).tile == some (t.x, t.y) && (s.core n).job == some (t.ring, t.seq)))

/-- Is an entry the tile at (x, y) of a job in the panel of a core? -/
def SharedTile.isTile (t : SharedTile) (j : Job) (n x y : Nat) : Bool :=
  t.panel == n / 8 && t.ring == j.ring && t.seq == j.seq && t.x == x && t.y == y

/-- The order state of a tile: for each of its 16 blocks the primitives that cover it, in order; `prims` lists for each primitive
of the bin the blocks that it covers. -/
def tileOrder (prims : List (List Nat)) : List (List Nat) :=
  (List.range 16).map (fun b => (List.range prims.length).filter (fun p => (prims.getD p []).contains b))

/-- May this bin be shared (R400)? -/
def State.mayShare (s : State) (prims : List (List Nat)) : Bool :=
  decide (s.fld Reg.GFX_CTRL Fd.GFX_CTRL_SPLIT_PRIMS < prims.length)

/-- A core joins a shared tile, or takes one of the 8 entries of its panel for it; none when it must wait (R400, R402). -/
def State.shareTile (s : State) (j : Job) (n x y : Nat) (prims : List (List Nat)) : Option (List SharedTile) :=
  let l := s.liveTiles
  match l.find? (fun t => t.isTile j n x y) with
  | some t =>
    if t.cores.contains n then some l
    else if t.cores.length < 4 then some (updWhere (fun u => u == t) (fun u => { u with cores := u.cores ++ [n] }) l) else none
  | none =>
    if (l.filter (fun t => t.panel == n / 8)).length < 8 then
      some (l ++ [⟨n / 8, j.ring, j.seq, x, y, [n], tileOrder prims⟩])
    else none

/-- A tile pass begins on a core; a pass that continues a split tile, or follows a spill of the bin heap, is counted (R398, R399). -/
def State.tilePass (s : State) (n x y : Nat) (split spill : Bool) : State :=
  let s1 := s.modCore n (fun c => { c with tile := some (x, y) })
  let s2 := if split then s1.bump Reg.GFX_SPLIT_CNT noUnit else s1
  if spill then s2.bump Reg.GFX_HEAP_SPILL_CNT noUnit else s2

/-- Does a tile come after the last that a job's list gave, in raster order? -/
def Job.tileNext (j : Job) (x y : Nat) : Bool :=
  match j.tileAt with
  | none => true
  | some (a, b) => decide (b < y) || (b == y && decide (a < x))

/-- May the front end give a tile now: the next ones in raster order, a tile that was split, a tile of the list that starts again after a
spill, a shared tile that is under way (R398, R399, R400)? -/
def State.mayTake (s : State) (j : Job) (n x y : Nat) (shared split spill : Bool) : Bool :=
  if split then j.splits.contains (x, y)
  else spill || (shared && s.liveTiles.any (fun t => t.isTile j n x y)) || j.tileNext x y

/-- The tile is given: the list moves on, a split tile goes on. -/
def State.tileGiven (s : State) (j : Job) (x y : Nat) (split spill : Bool) : State :=
  s.modJob j.ring j.seq (fun k =>
    if split then { k with splits := k.splits.erase (x, y) }
    else if spill || k.tileNext x y then { k with tileAt := some (x, y) }
    else k)

/-- TILE_SETUP: a tile pass begins on a core for the tile at (x, y), shared or alone. A core that finds no order entry waits. -/
def execTileSetup (core x y : Nat) (prims : List (List Nat)) (shared split spill : Bool) (s : State) : Host.Outcome State Fault Refusal :=
  s.whenUp (fun s =>
    match s.runs core with
    | none => s
    | some j =>
      if !j.pat.graphics || !s.mayTake j core x y shared split spill then s
      else if shared && s.mayShare prims then
        match s.shareTile j core x y prims with
        | none => s
        | some l => ({ s with tiles := l }).issueIn core true (fun a j => (a.tileGiven j x y split spill).tilePass core x y split spill)
      else s.issueIn core true (fun a j => (a.tileGiven j x y split spill).tilePass core x y split spill))

/-- The shared tile of a core's pass. -/
def State.tileOf (s : State) (j : Job) (n : Nat) : Option SharedTile :=
  match (s.core n).tile with
  | none => none
  | some (x, y) => s.liveTiles.find? (fun t => t.isTile j n x y && t.cores.contains n)

/-- May a primitive that covers a block hold it: every earlier primitive that covers it has released it (R401)? -/
def SharedTile.granted (t : SharedTile) (prim block : Nat) : Bool :=
  (t.order.getD block []).contains prim && (t.order.getD block []).all (fun q => decide (prim ≤ q))

/-- INTERLOCK_ACQUIRE: a fragment of a primitive acquires a block; in a shared tile it waits until every earlier primitive that
covers the block has released it (R401). -/
def execInterlockAcquire (core prim block : Nat) (s : State) : Host.Outcome State Fault Refusal :=
  s.whenUp (fun s =>
    match s.runs core with
    | none => s
    | some j =>
      match s.tileOf j core with
      | none => s.issueIn core true (fun a _ => a)
      | some t => if t.granted prim block then s.issueIn core true (fun a _ => a) else s)

/-- A primitive releases a block. -/
def SharedTile.release (t : SharedTile) (prim block : Nat) : SharedTile :=
  { t with order := t.order.set block ((t.order.getD block []).filter (fun q => q != prim)) }

/-- INTERLOCK_RELEASE: a primitive releases a block after its last access (R401). -/
def execInterlockRelease (core prim block : Nat) (s : State) : Host.Outcome State Fault Refusal :=
  s.whenUp (fun s => s.issueIn core true (fun a j =>
    match a.tileOf j core with
    | none => a
    | some t => { a with tiles := updWhere (fun u => u == t) (fun u => u.release prim block) a.tiles }))

/-- ATTRIBUTE_INTERPOLATION: an attribute is interpolated for 64 fragments into a vector register; the manual states no function
of its operands, and the lanes are free values. -/
def execAttributeInterpolation (core dst : Nat) (s : State) : Host.Outcome State Fault Refusal :=
  s.whenUp (fun s => s.issueIn core true (fun a _ =>
    let (_, b) := a.takeFree
    b.modCore core (fun c => c.putLanes (dst % 256) ((List.range 64).map (fun i => Config.freeCell a.free i)))))

end Sys2Proof.Machine
end

