-- ==== Sys2Proof/Machine/Sluice.lean ====
section
/-! DEFINITION. The sluice: signals from source PDUs to the pending slots of destinations, sends to either side, the enable (R599 to
R603, R608). -/

namespace Sys2Proof.Machine

/-! ### Signals (R600) -/

/-- The place of bit j of a signal of len bits, counted from its least significant bit: little-endian upward from START; big-endian
the most significant bit at START, down to bit 0 of the byte, then on from bit 7 of the next. -/
def signalBit (big : Bool) (start len j : Nat) : Nat :=
  if big then
    let k := len - 1 - j
    if k ≤ start % 8 then start - k
    else
      let m := k - start % 8 - 1
      (start / 8 + 1 + m / 8) * 8 + (7 - m % 8)
  else start + j

/-- The places that a signal takes in a PDU. -/
def signalBits (big : Bool) (start len : Nat) : List Nat := (List.range len).map (signalBit big start len)

/-- A bit of a PDU, and a PDU with one bit replaced. -/
def pduBit (bs : List Byte) (i : Nat) : Bool := ((bs[i / 8]?).getD 0).toNat / 2 ^ (i % 8) % 2 == 1
def setPduBit (bs : List Byte) (i : Nat) (v : Bool) : List Byte :=
  let b := ((bs[i / 8]?).getD 0).toNat
  bs.set (i / 8) (BitVec.ofNat 8 (if v then or64 b (2 ^ (i % 8)) else andNot64 b (2 ^ (i % 8))))

/-- Copies one signal from a source PDU into a destination's bytes. -/
def SigMap.copy (m : SigMap) (src dst : List Byte) : List Byte :=
  (List.range m.len).foldl (fun d j => setPduBit d (signalBit m.dstBig m.dstStart m.len j) (pduBit src (signalBit m.srcBig m.srcStart m.len j))) dst

/-! ### Updates (R601) -/

/-- The mapped signals of a source PDU reach the slot of one destination, which is marked updated; values unsent are overwritten, and
counted. -/
def State.updateSlot (s : State) (src : Nat) (bs : List Byte) (d : Nat) : State :=
  let x := s.slot d
  let ms := s.mapsOf.filter (fun m => m.src == src && m.dst == d)
  let s1 := if x.updated then s.bump Reg.GWY_OVERWRITE noUnit else s
  s1.setSlot d { x with bytes := ms.foldl (fun b m => m.copy bs b) (fixBytes x.bytes (s.pdu d).length), updated := true
                        since := if x.updated then x.since else s.now }

/-- A source PDU reaches the slots of each destination it feeds. -/
def State.applyPdu (s : State) (src : Nat) (bs : List Byte) : State :=
  let ds := ((s.mapsOf.filter (fun m => m.src == src)).map (·.dst)).eraseDups
  ds.foldl (fun a d => a.updateSlot src bs d) s

/-- SLUICE_UPDATE: the oldest received source PDU reaches the slots. -/
def execSluiceUpdate (s : State) : Host.Outcome State Fault Refusal :=
  s.whenUp (fun s =>
    match s.nets.sluIn with
    | [] => s
    | (i, bs) :: l =>
      let s1 := { s with nets := { s.nets with sluIn := l } }
      if s1.sluiceOn then s1.applyPdu i bs else s1)

/-! ### Sends (R584, R601, R602, R609) -/

/-- The IPv4 header of a datagram: no options, DF, identification 0. -/
def State.ipHeader (s : State) (len : Nat) : List Byte :=
  let w3 := fun f => s.fld Reg.GWY_SLU_ETH_W3 f
  let h := fun (sum : Nat) => [BitVec.ofNat 8 0x45] ++ beBytes 1 (4 * w3 Fd.GWY_SLU_ETH_W3_DSCP) ++ beBytes 2 (20 + len) ++ beBytes 2 0 ++ beBytes 2 0x4000 ++
    beBytes 1 (max 1 (w3 Fd.GWY_SLU_ETH_W3_TTL)) ++ beBytes 1 17 ++ beBytes 2 sum ++ beBytes 4 (s.fld Reg.GWY_SLU_ETH_W2 Fd.GWY_SLU_ETH_W2_SRC_IP) ++
    beBytes 4 (s.fld Reg.GWY_SLU_ETH_W2 Fd.GWY_SLU_ETH_W2_DST_IP)
  h (65535 - fold16 (sum16 (h 0)))

/-- The UDP datagram of a payload, with its checksum; a computed 0 is sent as all ones. -/
def State.udpBytes (s : State) (body : List Byte) : List Byte :=
  let len := 8 + body.length
  let u := fun (sum : Nat) => beBytes 2 (s.fld Reg.GWY_SLU_ETH_W3 Fd.GWY_SLU_ETH_W3_SRC_PORT) ++ beBytes 2 (s.fld Reg.GWY_SLU_ETH_W3 Fd.GWY_SLU_ETH_W3_DST_PORT) ++
    beBytes 2 len ++ beBytes 2 sum ++ body
  let ph := pseudoHeader (s.fld Reg.GWY_SLU_ETH_W2 Fd.GWY_SLU_ETH_W2_SRC_IP) (s.fld Reg.GWY_SLU_ETH_W2 Fd.GWY_SLU_ETH_W2_DST_IP) len
  let c := 65535 - fold16 (sum16 ph + sum16 (u 0))
  u (if c = 0 then 65535 else c)

/-- The Ethernet frame of a PDU: PDU ID, length, bytes in one datagram, tagged when VID is not 0. -/
def State.pduFrame (s : State) (p : Pdu) (bs : List Byte) : List Byte :=
  let w0 := fun f => s.fld Reg.GWY_SLU_ETH_W0 f
  let vid := w0 Fd.GWY_SLU_ETH_W0_VID
  let udp := s.udpBytes (beBytes 4 p.key32 ++ beBytes 4 p.length ++ bs)
  beBytes 6 (w0 Fd.GWY_SLU_ETH_W0_DST_MAC) ++ beBytes 6 (s.fld Reg.GWY_SLU_ETH_W1 Fd.GWY_SLU_ETH_W1_SRC_MAC) ++
    (if vid = 0 then [] else beBytes 2 0x8100 ++ beBytes 2 (w0 Fd.GWY_SLU_ETH_W0_PCP * 2 ^ 13 + vid)) ++ beBytes 2 0x0800 ++ s.ipHeader udp.length ++ udp

/-- The CAN frame of a PDU. SDT and VCID of CAN XL, which the sluice's tables do not hold, are 0 (log 33). -/
def pduCan (p : Pdu) (bs : List Byte) : CanFrame :=
  { fmt := p.fmt, ide := p.ide, id := p.id, rtr := false, brs := p.fmt == 1, esi := false, sec := false, sdt := 0, vcid := 0, af := p.key32, data := bs }

/-- A slot is sent: it is no longer updated, its gap starts. -/
def State.slotSent (s : State) (d : Nat) : State := s.setSlot d { s.slot d with updated := false, lastSend := some s.now }

/-- Sends an updated slot whose gap has passed, if its side accepts it: its controller, where it wins arbitration, or port 7. -/
def State.sendSlot (s : State) (d : Nat) : State :=
  let p := s.pdu d
  let bs := fixBytes (s.slot d).bytes p.length
  if p.side then
    if s.portOn 7 then (s.slotSent d).ethIn 7 (s.fld Reg.GWY_SLU_ETH_W0 Fd.GWY_SLU_ETH_W0_PCP) (s.pduFrame p bs) s.now none else s
  else if s.canSends p.ctrl ∧ s.canFormat p.ctrl (pduCan p bs) p.length ∧ s.canWinner p.ctrl s.now = some (4 + d) then
    if s.rimOn (552 + p.ctrl) then (s.slotSent d).canSent p.ctrl (pduCan p bs) s.now else s.rimRefuse (552 + p.ctrl)
  else s

/-- SLUICE_SEND: a destination's slot is sent. -/
def execSluiceSend (d : Nat) (s : State) : Host.Outcome State Fault Refusal :=
  s.whenUp (fun s => if s.sluiceOn ∧ s.pdusOf.contains d ∧ (s.pdu d).dst ∧ s.slotReady d s.now then s.sendSlot d else s)

/-! ### The enable (R600, R608) -/

/-- Do two signals write overlapping bits of one destination? -/
def overlaps (a b : SigMap) : Bool :=
  a.dst == b.dst && (signalBits a.dstBig a.dstStart a.len).any (fun i => (signalBits b.dstBig b.dstStart b.len).contains i)

/-- Is some pair of a list in a relation? -/
def anyPair {α : Type} (r : α → α → Bool) : List α → Bool
  | [] => false
  | a :: l => l.any (r a) || anyPair r l

/-- Is an entry good: from a considered source PDU to a considered destination PDU, within both? -/
def State.signalOk (s : State) (m : SigMap) : Bool :=
  s.pdusOf.contains m.src && s.pdusOf.contains m.dst && !(s.pdu m.src).dst && (s.pdu m.dst).dst &&
    (signalBits m.srcBig m.srcStart m.len).all (fun i => decide (i < 8 * (s.pdu m.src).length)) &&
    (signalBits m.dstBig m.dstStart m.len).all (fun i => decide (i < 8 * (s.pdu m.dst).length))

/-- May the sluice be enabled? -/
def State.sluiceOk (s : State) : Bool := s.mapsOf.all s.signalOk && !anyPair overlaps s.mapsOf

/-- A write of GWY_SLU_CTRL: an enable is checked; slots start empty. -/
def State.writeSluice (s : State) (o : Origin) (value : Word) : State :=
  let k := Reg.GWY_SLU_CTRL
  s.writeBy o k value (fun a b =>
    if !a.bit k Fd.GWY_SLU_CTRL_EN && b.bit k Fd.GWY_SLU_CTRL_EN then
      if b.sluiceOk then { b with nets := { b.nets with slots := [], sluIn := [] } }
      else (b.setFld k Fd.GWY_SLU_CTRL_EN 0).setFld k Fd.GWY_SLU_CTRL_CFG_ERR 1
    else b)

/-- SLUICE_ENABLE: a write of GWY_SLU_CTRL with EN 1. -/
def execSluiceEnable (o : Origin) (value : Word) (s : State) : Host.Outcome State Fault Refusal :=
  s.whenUp (fun s => s.writeSluice o (Fd.GWY_SLU_CTRL_EN.put value 1))

end Sys2Proof.Machine
end

