-- ==== Sys2Proof/Machine/Setup.lean ====
section
/-! DEFINITION. Writes of set-up registers by address: widths, windows, the rules of single registers, commands (R636 to R656, R676). -/

namespace Sys2Proof.Machine

/-! ### Registers with a rule of their own -/

/-- A write whose own rule refuses the value: RESULT 0xF5, unless an earlier code of R640 applies. `v` holds what the rule lets through. -/
def State.writeRanged (s : State) (o : Origin) (k : Nat) (v : Word) (bad : Bool) : State :=
  if !setupOrigin o then s.refuseTo o
  else if !s.auditOpen o then s.auditRefusal o k 0
  else
    match RegMap.find k with
    | none => s
    | some (r, i, _) =>
      let (w, c) := s.writtenWord o k r i v
      s.commitWrite o k w (if bad && c == 0 then resRange else c)

/-- May BASE of an event queue hold an address: in the reserved region for queues 0 and 2, in general DRAM for queue 1 (R647)? -/
def evqBaseOk (d a : Nat) : Bool := if d = 1 then decide (a < generalEnd) else decide (reservedBase ≤ a) && decide (a < dramEnd)

/-- Who owns event queue d. -/
def evqWriters (d : Nat) : List Writer := if d = 0 then [.selvage] else if d = 1 then [.hypervisor] else [.safety]

/-- A write of GEN_EVQ_CFG_d. -/
def State.writeEvq (s : State) (o : Origin) (d : Nat) (value : Word) : State :=
  let k := Reg.EVQ_CFG d
  let bad := mayWrite o (evqWriters d) && !evqBaseOk d (Fd.GEN_EVQ_CFG_0_BASE.of value * 16)
  s.writeRanged o k (if bad then s.reg k else value) bad

/-- A write of GEN_EVQ_TAIL_d: not audited; a TAIL beyond HEAD has no effect; records left in the queue send its interrupt (R645, R647). -/
def State.writeTail (s : State) (o : Origin) (d : Nat) (value : Word) : State :=
  let k := Reg.EVQ_TAIL d
  if !setupOrigin o then s.refuseTo o
  else
    match RegMap.find k with
    | none => s
    | some (r, i, _) =>
      let beyond := seqBefore (s.fld (Reg.EVQ_HEAD d) Fd.GEN_EVQ_HEAD_0_HEAD) (Fd.GEN_EVQ_TAIL_0_TAIL.of value)
      let v := if beyond then Fd.GEN_EVQ_TAIL_0_TAIL.put value (s.fld k Fd.GEN_EVQ_TAIL_0_TAIL) else value
      let s1 := s.setReg k (s.writtenWord o k r i v).1
      if mayWrite o (evqWriters d) && !beyond && s1.evqCount d != 0 then s1.emit (.evq d (s1.fld k Fd.GEN_EVQ_TAIL_0_VEC)) else s1

/-- EVQ_TAIL_WRITE: a write of GEN_EVQ_TAIL_d. -/
def execEvqTailWrite (o : Origin) (d : Nat) (value : Word) (s : State) : Host.Outcome State Fault Refusal :=
  s.whenUp (fun s => if d < 3 then s.writeTail o d value else s)

/-- A write of GEN_UFS_LU_u: OWNER changes only from or to 0x00 (R649). -/
def State.writeUfs (s : State) (o : Origin) (u : Nat) (value : Word) : State :=
  let k := Reg.GEN_UFS_LU u
  let was := s.fld k Fd.GEN_UFS_LU_OWNER
  let want := Fd.GEN_UFS_LU_OWNER.of value
  let bad := mayWrite o [.selvage, .hypervisor] && was != want && was != 0 && want != 0
  s.writeRanged o k (if bad then Fd.GEN_UFS_LU_OWNER.put value was else value) bad

/-- UFS_LU_WRITE: a write of GEN_UFS_LU_u. -/
def execUfsLuWrite (o : Origin) (u : Nat) (value : Word) (s : State) : Host.Outcome State Fault Refusal :=
  s.whenUp (fun s => if u < 32 then s.writeUfs o u value else s)

/-- Do two ranges meet? -/
def rangesMeet (a n b m : Nat) : Bool := decide (a < b + m) && decide (b < a + n)

/-- The fixed regions of xSPI NOR beside the journal, in units of 64 KiB (R494). -/
def norRegions : List (Nat × Nat) := [(0x00, 1), (0x01, 1), (0x02, 4), (0x06, 4), (0x0A, 1), (0x20, 0x20), (0x40, 0x20)]

/-- Would a journal lie free of every other region and of the image slots of the configuration record (R488)? -/
def State.journalFree (s : State) (base size : Nat) : Bool :=
  let n := min 64 (max 4 size)
  norRegions.all (fun r => !rangesMeet base n r.1 r.2) &&
  ((s.trust.record.map (fun r => r.slots)).getD []).all (fun x => !rangesMeet (base * 65536) (n * 65536) x.2.2.1 x.2.2.2)

/-- A write of SPARE_JRNL, judged on both fields together (R488). -/
def State.writeJournal (s : State) (o : Origin) (value : Word) : State :=
  let k := Reg.SPARE_JRNL
  let bad := o == .selvage && !s.locked 13 && !s.journalFree (Fd.SPARE_JRNL_BASE_64K.of value) (Fd.SPARE_JRNL_SIZE_64K.of value)
  s.writeRanged o k (if bad then s.reg k else value) bad

/-- A write of a register of the AUDIT block, which is not audited (R525). -/
def State.writeSilent (s : State) (o : Origin) (k : Nat) (value : Word) : State :=
  if !setupOrigin o then s.refuseTo o
  else
    match RegMap.find k with
    | none => s
    | some (r, i, _) => (s.setReg k (s.writtenWord o k r i value).1).clearSat k

/-! ### Windows and commands -/

/-- The windows that each origin class has for itself (R62, R288, R326, R467, R531, R532, R610, R611, R634). -/
def bankedRanges : List (Nat × Nat) :=
  [(Reg.TIME_TACK_SEL, 0x44), (Reg.KNOT_SEL, 0x10), (Reg.ARY_HOT_SEL, 0x30), (Reg.SAFE_ST_SEL, 0x18), (Reg.SEC_TENANT_SEL, 0x10),
   (Reg.SEC_ATTEST, 0x18), (Reg.GWY_SLU_PDU_SEL, 0x18), (Reg.GWY_SLU_MAP_SEL, 0x10), (Reg.CWY_PEER_SEL, 0x18)]

/-- The key of a register as an origin reaches it. -/
def keyFor (o : Origin) (k : Nat) : Nat := if bankedRanges.any (fun r => decide (r.1 ≤ k) && decide (k < r.1 + r.2)) then bankKey o k else k

/-- The state that an outcome leaves. -/
def State.after (s : State) (r : Host.Outcome State Fault Refusal) : State :=
  match r with
  | .next t => t
  | _ => s

/-- CMD of a command register, and the low bits that its INDEX takes. -/
def cmdOf (v : Word) : Nat := bits v.toNat 31 28
def lowOf (v : Word) (n : Nat) : Nat := v.toNat % 2 ^ n

/-- The command that a write of a command register performs, if CMD names one. -/
def State.commandAt (s : State) (o : Origin) (b : Nat) (v : Word) (e : WriteEnv) : Option (Host.Outcome State Fault Refusal) :=
  let c := cmdOf v
  if b = Reg.TIME_TACK_SEL then
    match c with
    | 1 => some (execTackRead o (lowOf v 12) s)
    | 2 => some (execTackWrite o (lowOf v 12) s)
    | 3 => some (execTackDisable o (lowOf v 12) s)
    | 4 => some (execTackClear o (lowOf v 12) s)
    | _ => none
  else if b = Reg.PWR_DOMAIN_REQ then
    match c with
    | 1 => some (execPwrDomainOn o (lowOf v 8) s)
    | 2 => some (execPwrDomainOff o (lowOf v 8) s)
    | _ => none
  else if b = Reg.ARY_HOT_SEL then
    match c with
    | 1 => some (execHotRead o (lowOf v 12) s)
    | 2 => some (execHotRegister o (lowOf v 12) s)
    | 3 => some (execHotUnregister o (lowOf v 12) s)
    | 4 => some (execHotSetFlags o (lowOf v 12) s)
    | 5 => some (execHotEvict o (lowOf v 12) s)
    | _ => none
  else if b = Reg.KNOT_SEL then
    match c with
    | 1 => some (execKnotSelRead o (lowOf v 14) s)
    | 2 => some (execKnotSelSet o (lowOf v 14) s)
    | 3 => some (execKnotSelAdd o (lowOf v 14) s)
    | _ => none
  else if b = Reg.SAFE_ST_SEL then
    match c with
    | 1 => some (execStRead o (lowOf v 8) s)
    | 2 => some (execStWrite o (lowOf v 8) s)
    | _ => none
  else if b = Reg.SPARE_CMD then
    match c with
    | 1 => some (execDarnCore o (lowOf v 10) e.jrnl s)
    | 2 => some (execDarnChannel o (lowOf v 10) e.jrnl s)
    | 3 => some (execDarnLane o (lowOf v 10) e.jrnl s)
    | _ => none
  else if b = Reg.SEC_FW then
    match c with
    | 1 => some (execFwStage o (lowOf v 3) s)
    | 2 => some (execFwSwitch o (lowOf v 3) e.jrnl s)
    | 3 => some (execFwDiscard o (lowOf v 3) s)
    | _ => none
  else if b = Reg.SEC_TENANT_SEL then
    match c with
    | 1 => some (execTenantRead o (lowOf v 8) s)
    | 2 => some (execTenantCreate o (lowOf v 8) s)
    | 3 => some (execTenantRemove o (lowOf v 8) e.jrnl s)
    | 4 => some (execTenantForceRemove o (lowOf v 8) e.jrnl s)
    | _ => none
  else if b = Reg.SEC_ATTEST then
    match c with
    | 1 => some (execAttReport o (bits v.toNat 23 16) (bits v.toNat 15 8) (v.toNat % 2 == 1) e.far s)
    | _ => none
  else if b = Reg.AUDIT_EXPORT then
    match c with
    | 1 => some (execAuditExport o (lowOf v 20) s)
    | _ => none
  else if b = Reg.VI_CMD then
    match c with
    | 1 => some (execViQuiesce o (lowOf v 6) s)
    | 2 => some (execViQuiesceHard o (lowOf v 6) s)
    | 3 => some (execViFreeze o (lowOf v 6) s)
    | 4 => some (execViThaw o (lowOf v 6) s)
    | 5 => some (execViSave o (lowOf v 6) e.cert e.jrnl s)
    | 6 => some (execViRestore o (lowOf v 6) e.img s)
    | 7 => some (execViReset o (lowOf v 6) s)
    | _ => none
  else if b = Reg.UBR_MAP_SEL then
    match c with
    | 1 => some (execUbrMapRead o (lowOf v 12) s)
    | 2 => some (execUbrMapWrite o (lowOf v 12) s)
    | 3 => some (execUbrMapDisable o (lowOf v 12) s)
    | _ => none
  else if b = Reg.GWY_SLU_PDU_SEL then
    match c with
    | 1 => some (execSluPduRead o (lowOf v 10) s)
    | 2 => some (execSluPduWrite o (lowOf v 10) s)
    | 3 => some (execSluPduClear o (lowOf v 10) s)
    | _ => none
  else if b = Reg.GWY_SLU_MAP_SEL then
    match c with
    | 1 => some (execSluMapRead o (lowOf v 12) s)
    | 2 => some (execSluMapWrite o (lowOf v 12) s)
    | 3 => some (execSluMapClear o (lowOf v 12) s)
    | _ => none
  else if b = Reg.CWY_PEER_SEL then
    match c with
    | 1 => some (execPeerRead o (lowOf v 8) s)
    | _ => none
  else none

/-! ### One register -/

/-- A write of one whole register by an origin: `k` is the register's offset, `b` that of its family's first, i and j its place in the
family. -/
def State.regWriteAt (s : State) (o : Origin) (k b i j : Nat) (v : Word) (e : WriteEnv) : State :=
  if b = Reg.RING_WAKE then s.ringWake o (lowOf v 10) e.far
  else if b = Reg.RING_CFG 0 then (s.learn (0x10 + ringVi i) e.far).writeRingCfg o i v
  else if b = Reg.AUDIT_ACK then s.ackAudit o v
  else if k / 0x10000 = 15 then
    match s.commandAt o b v e with
    | some r => s.after r
    | none => s.writeSilent o k v
  else if k = Reg.EVQ_CFG 0 ∨ k = Reg.EVQ_CFG 1 ∨ k = Reg.EVQ_CFG 2 then s.writeEvq o ((k - Reg.EVQ_CFG 0) / 0x20) v
  else if k = Reg.EVQ_TAIL 0 ∨ k = Reg.EVQ_TAIL 1 ∨ k = Reg.EVQ_TAIL 2 then s.writeTail o ((k - Reg.EVQ_TAIL 0) / 0x20) v
  else if k = Reg.GEN_EVT_ROUTE 12 then s.writePlainBy o k (BitVec.ofNat 64 (or64 v.toNat 5))
  else if b = Reg.GEN_UFS_LU 0 then s.writeUfs o i v
  else if b = Reg.TIME_FSYNC_CFG 0 then s.writeFsync o i v
  else if b = Reg.TIME_RATE_ADJ then s.writeAdj o v
  else if b = Reg.ALW_BUDGET then s.writeBudget o false v
  else if b = Reg.ALW_DRAM_BUDGET then s.writeBudget o true v
  else if b = Reg.PWR_RATE_FLOOR then s.writeRateFloor o v
  else if b = Reg.PWR_RATE_LOW_CNT then
    s.writeBy o k v (fun _ t => if t.reg k = 0 then { t with sys := { t.sys with rateRaised := false } } else t)
  else if b = Reg.MEM_STAGE then s.writeStage o v
  else if b = Reg.ARY_SUSPEND then s.writeSuspend o v
  else if b = Reg.ARY_SAVE_CFG ∨ b = Reg.ARY_HOT_CFG then s.writePool o k v
  else if b = Reg.KNOT_RANGE 0 then s.writeKnotRange o i v
  else if b = Reg.CH_SRC 0 then s.writeChan o i v
  else if b = Reg.FUSE_GRID_CFG 0 then s.writeGrid o i v
  else if b = Reg.DSP_EARLY then s.writeEarly o v
  else if b = Reg.PIPE_CFG 0 then s.writePipe o i v
  else if b = Reg.SP_CFG 0 then s.writeSpCfg o i v
  else if b = Reg.SP_TABLE 0 then s.writeSpTable o i v
  else if b = Reg.SAFE_PIN then s.writeSafePin o v
  else if b = Reg.SAFE_PENDING then s.writePending o v
  else if b = Reg.SAFE_SW_ERR then s.writeSwErr o v
  else if b = Reg.SAFE_SRC_CFG 0 then s.writeBy o k v (fun _ t => t.drivePins)
  else if b = Reg.SPARE_JRNL then s.writeJournal o v
  else if b = Reg.GWY_CAN_Q 0 0 then s.writeFq o (.can i j) v
  else if b = Reg.TSN_Q 0 then s.writeFq o (.tsn i) v
  else if b = Reg.GWY_CAN_CFG 0 then s.writeCan o i v
  else if b = Reg.GWY_SLU_CTRL then s.writeSluice o v
  else if b = Reg.TSN_PORT_CFG 0 then s.writePort o i v
  else if b = Reg.TSN_GPTP_CTRL then s.writeGptp o v
  else if b = Reg.TSN_OFFSET then s.writeOffset o v
  else if b = Reg.CWY_PORT 0 then s.writeCwyPort o i v
  else if b = Reg.MEDIA_DEC 0 then s.writeDecoder o i v
  else if b = Reg.MEDIA_ENC0 then s.writeEncoder o v
  else
    match s.commandAt o b v e with
    | some r => s.after r
    | none => s.writePlainBy o (keyFor o k) v

/-- A write of the register at an offset; where none is laid out nothing happens (R639). -/
def State.regWrite (s : State) (o : Origin) (k : Nat) (v : Word) (e : WriteEnv) : State :=
  match RegMap.find k with
  | none => s
  | some (r, i, j) => s.regWriteAt o k (k / 0x10000 * 0x10000 + r.off) i j v e

/-! ### An access (R638) -/

/-- The width of the register at an offset, if one is laid out there. -/
def widthAt (k : Nat) : Option Nat := (RegMap.find k).map (fun x => x.1.width)

/-- The 64-bit register that an offset lies in. -/
def wideAt (k : Nat) : Option Nat :=
  if widthAt k = some 64 then some k else if k % 8 = 4 ∧ widthAt (k - 4) = some 64 then some (k - 4) else none

/-- A write of 4 B: a 32-bit register takes it; of a 64-bit register it has no effect and is audited with RESULT 0xF3, unless nothing of
that register is audited. -/
def State.write4 (s : State) (o : Origin) (k : Nat) (v : Word) (e : WriteEnv) : State :=
  match wideAt k with
  | some w =>
    if w / 0x10000 = 15 ∨ w = Reg.EVQ_TAIL 0 ∨ w = Reg.EVQ_TAIL 1 ∨ w = Reg.EVQ_TAIL 2 then s else s.auditRefusal o (keyFor o w) resWidth
  | none => s.regWrite o k v e

/-- A write of 8 B: of a 64-bit register, or of two adjacent 32-bit registers, the lower first. -/
def State.write8 (s : State) (o : Origin) (k : Nat) (v : Word) (e : WriteEnv) : State :=
  if widthAt k = some 64 then s.regWrite o k v e
  else (s.regWrite o k (BitVec.ofNat 64 (v.toNat % 2 ^ 32)) e).regWrite o (k + 4) (BitVec.ofNat 64 (v.toNat / 2 ^ 32)) e

/-- The end of the 22 blocks (R636). -/
def setupEnd : Nat := 22 * 0x10000

/-- A write access to set-up space: natural alignment, 4 B or 8 B, by an origin that reaches it; anything else is refused (R637, R638). -/
def State.setupWrite (s : State) (o : Origin) (off bytes : Nat) (v : Word) (e : WriteEnv) : State :=
  if !setupOrigin o || (bytes != 4 && bytes != 8) || off % bytes != 0 || decide (setupEnd ≤ off) then s.refuseTo o
  else if bytes = 4 then s.write4 o off (BitVec.ofNat 64 (v.toNat % 2 ^ 32)) e
  else s.write8 o off v e

/-- REGISTER_WRITE: a write to set-up space at an offset from 0x00F0_0000_0000. -/
def execRegisterWrite (o : Origin) (off bytes : Nat) (value : Word) (env : WriteEnv) (s : State) : Host.Outcome State Fault Refusal :=
  s.whenUp (fun s => s.setupWrite o off bytes value env)

/-- Has a block a lock field (R636)? -/
def hasLock (blk : Nat) : Bool := decide (blk < 22) && blk != 3 && blk != 6 && blk != 11

/-- LOCK_WRITE: a write of a block's control register that sets LOCK and leaves its other fields as they are (R643). -/
def execLockWrite (o : Origin) (blk : Nat) (s : State) : Host.Outcome State Fault Refusal :=
  s.whenUp (fun s =>
    if hasLock blk then s.regWrite o (lockReg blk) (BitVec.ofNat 64 (or64 (s.reg (lockReg blk)).toNat (2 ^ 31))) {} else s)

end Sys2Proof.Machine
end

