-- ==== Sys2Proof/Machine/Worlds.lean ====
section
/-! DEFINITION. Worlds, enclaves, eyelets and secure leases (R518 to R523). -/

namespace Sys2Proof.Machine

/-! ### Harts (R518 to R520) -/

/-- The key of a hart of an application core. -/
def hartKey (core hart : Nat) : Nat := 64 * core + hart

def State.hart (s : State) (core hart : Nat) : Hart := Sparse.get (fun _ => {}) (hartKey core hart) s.trust.harts
def State.setHart (s : State) (core hart : Nat) (h : Hart) : State :=
  { s with trust := { s.trust with harts := Sparse.put (fun _ => {}) (hartKey core hart) h s.trust.harts } }

/-- Registers as the hart's own instructions left them: integer registers at keys 1 to 31, floating-point registers at 32 to 63. -/
def regsOf (l : List (Nat × Nat)) : Sparse Nat :=
  (l.filter (fun r => decide (0 < r.1) && decide (r.1 < 64))).foldl (fun m r => Sparse.put (fun _ => 0) r.1 (r.2 % 2 ^ 64) m) []

/-- Every register but a0 to a7 becomes 0 (R519). -/
def keepArgs (m : Sparse Nat) : Sparse Nat := m.filter (fun x => decide (10 ≤ x.1) && decide (x.1 ≤ 17))

/-- a0, and the value −1 in it. -/
def setA0 (m : Sparse Nat) : Sparse Nat := Sparse.put (fun _ => 0) 10 (2 ^ 64 - 1) m

/-- A gateway fault at the GATE, in the caller's world. -/
def State.gatewayFault (s : State) (core hart : Nat) (h : Hart) : State := s.setHart core hart { h with trap := some .gatewayFault }

/-- A live enclave. -/
def State.enclave? (s : State) (t : Nat) : Option Enclave := (s.trust.enclaves.find? (fun e => e.1 == t)).map (·.2)

def State.setEnclave (s : State) (t : Nat) (e : Enclave) : State :=
  { s with trust := { s.trust with enclaves := Sparse.put (fun _ => {}) t e s.trust.enclaves } }

/-- EYE: a marker executed in sequence does nothing (R519). -/
def execEye (s : State) : Host.Outcome State Fault Refusal := s.whenUp (fun s => s)

/-- The state of a hart before a gateway instruction: its registers as its own instructions left them. -/
def State.hartWith (s : State) (core hart : Nat) (regs : List (Nat × Nat)) : Hart := { s.hart core hart with regs := regsOf regs, trap := none }

/-- GATE.S: from the normal world, outside enclaves, to EYE 1, 0; anything else is a gateway fault (R519). -/
def State.gateS (s : State) (core hart target ret : Nat) (eye : Option Eyelet) (h : Hart) : State :=
  match eye with
  | none => s.gatewayFault core hart h
  | some e =>
    if !h.secure && h.enclave == 0 && e.secure && e.tag == 0 && decide (h.stack.length < 4) then
      s.setHart core hart { h with pc := target, secure := true, stack := ⟨ret, false⟩ :: h.stack }
    else s.gatewayFault core hart h

/-- GATE_S: a hart executes GATE.S to an address at which it finds `eye`; `ret` is the address after the GATE. -/
def execGateS (core hart target ret : Nat) (eye : Option Eyelet) (regs : List (Nat × Nat)) (s : State) : Host.Outcome State Fault Refusal :=
  s.whenUp (fun s => s.gateS core hart target ret eye (s.hartWith core hart regs))

/-- Entry into an enclave: registers but a0 to a7 become 0; at a resume eyelet an occupied frame is restored and is then empty
(R519, R520). -/
def State.enterEnclave (s : State) (core hart target ret : Nat) (e : Eyelet) (v : Enclave) (h : Hart) : State :=
  let inside : Hart := { h with pc := target, regs := keepArgs h.regs, secure := v.secure, enclave := e.tag, stack := ⟨ret, h.secure⟩ :: h.stack }
  if e.resume then
    match v.frame with
    | none => s.gatewayFault core hart h
    | some (pc, regs) => (s.setEnclave e.tag { v with frame := none }).setHart core hart { inside with pc := pc, regs := regs }
  else s.setHart core hart inside

/-- GATE.E: from either world, outside enclaves, to EYE w, t of a live enclave t that world w owns (R519). -/
def State.gateE (s : State) (core hart target ret : Nat) (eye : Option Eyelet) (h : Hart) : State :=
  match eye with
  | none => s.gatewayFault core hart h
  | some e =>
    match s.enclave? e.tag with
    | none => s.gatewayFault core hart h
    | some v =>
      if h.enclave == 0 && e.tag != 0 && v.secure == e.secure && decide (h.stack.length < 4) then s.enterEnclave core hart target ret e v h
      else s.gatewayFault core hart h

/-- GATE_E: a hart executes GATE.E. -/
def execGateE (core hart target ret : Nat) (eye : Option Eyelet) (regs : List (Nat × Nat)) (s : State) : Host.Outcome State Fault Refusal :=
  s.whenUp (fun s => s.gateE core hart target ret eye (s.hartWith core hart regs))

/-- GRET: the return record is popped; leaving an enclave zeroes registers but a0 to a7; with an empty stack it is an illegal
instruction (R519). -/
def State.gret (s : State) (core hart : Nat) (h : Hart) : State :=
  match h.stack with
  | [] => s.setHart core hart { h with trap := some .illegal }
  | r :: rs =>
    s.setHart core hart { h with
      pc := r.pc, secure := r.secure, enclave := 0, stack := rs
      regs := if h.enclave = 0 then h.regs else keepArgs h.regs }

/-- GRET: a hart executes GRET. -/
def execGret (core hart : Nat) (regs : List (Nat × Nat)) (s : State) : Host.Outcome State Fault Refusal :=
  s.whenUp (fun s => s.gret core hart (s.hartWith core hart regs))

/-- An interrupt or exception inside an enclave: registers and pc go to the save frame, the caller resumes with a0 = −1 and takes
the trap there (R520). -/
def State.leaveEnclave (s : State) (core hart pc : Nat) (h : Hart) (v : Enclave) : State :=
  match h.stack with
  | [] => s
  | r :: rs =>
    (s.setEnclave h.enclave { v with frame := some (pc, h.regs) }).setHart core hart
      { h with pc := r.pc, regs := setA0 [], secure := r.secure, enclave := 0, stack := rs, trap := some .pending }

/-- ENCLAVE_TRAP: an interrupt or exception meets a hart inside an enclave at `pc`. -/
def execEnclaveTrap (core hart pc : Nat) (regs : List (Nat × Nat)) (s : State) : Host.Outcome State Fault Refusal :=
  s.whenUp (fun s =>
    let h := s.hartWith core hart regs
    match s.enclave? h.enclave with
    | none => s
    | some v => if h.enclave = 0 then s else s.leaveEnclave core hart pc h v)

/-! ### Enclaves (R521, R522) -/

/-- Are the ranges of an enclave good: 1 to 16, 4 KiB aligned, on-package DRAM, apart from each other and from live enclaves? -/
def State.rangesOk (s : State) (rs : List (Nat × Nat)) : Bool :=
  decide (1 ≤ rs.length) && decide (rs.length ≤ 16) &&
  rs.all (fun r => r.1 % 4096 == 0 && r.2 % 4096 == 0 && r.2 != 0 && inGeneral r.1 r.2 && !s.enclaved r.1 r.2) &&
  (List.range rs.length).all (fun i => (List.range i).all (fun k =>
    let a := rs.getD i (0, 0)
    let b := rs.getD k (0, 0)
    decide (a.1 + a.2 ≤ b.1) || decide (b.1 + b.2 ≤ a.1)))

/-- The lowest tag that is neither live nor among the given dirty ones. -/
def State.cleanTag (s : State) (dirty : List Nat) : Option Nat :=
  ((List.range 127).map (· + 1)).find? (fun t => !(s.enclave? t).isSome && !dirty.contains t)

/-- Ranges in address order. -/
def insertRange (r : Nat × Nat) : List (Nat × Nat) → List (Nat × Nat)
  | [] => [r]
  | x :: xs => if r.1 ≤ x.1 then r :: x :: xs else x :: insertRange r xs
def sortRanges (rs : List (Nat × Nat)) : List (Nat × Nat) := rs.foldl (fun l r => insertRange r l) []

/-- Registers an enclave under a tag, with the measurement of its ranges (R521). -/
def State.newEnclave (s : State) (secure : Bool) (rs : List (Nat × Nat)) (tag : Nat) : State :=
  let meas := (Config.sha512 ((sortRanges rs).flatMap (fun r => s.readBytes r.1 r.2))).toNat
  (s.setEnclave tag { secure := secure, ranges := rs, meas := meas }).answer (.value tag)

/-- ENCLAVE_REGISTER: the hypervisor, or the secure world, asks for an enclave of its own world; with no clean tag every dirty tag
becomes clean first (R521, R522). -/
def execEnclaveRegister (secure : Bool) (ranges : List (Nat × Nat)) (s : State) : Host.Outcome State Fault Refusal :=
  s.whenUp (fun s =>
    if s.rangesOk ranges then
      match s.cleanTag s.trust.dirty with
      | some t => s.newEnclave secure ranges t
      | none =>
        match s.cleanTag [] with
        | some t => { s with trust := { s.trust with dirty := [] } }.newEnclave secure ranges t
        | none => s.answer .refused
    else s.answer .refused)

/-- Zeroes a range: nothing listed, nothing poisoned. -/
def State.zeroRange (s : State) (r : Nat × Nat) : State :=
  let mine := fun (a : Nat) => decide (r.1 ≤ a) && decide (a < r.1 + r.2)
  { s with
    mem := s.mem.filter (fun c => !mine c.1)
    poison := s.poison.filter (fun c => !mine (64 * c.1)) }

/-- ENCLAVE_DESTROY: the ranges are zeroed and released, the tag becomes dirty (R521, R522). -/
def execEnclaveDestroy (tag : Nat) (s : State) : Host.Outcome State Fault Refusal :=
  s.whenUp (fun s =>
    match s.enclave? tag with
    | none => s.answer .refused
    | some v =>
      let s1 := v.ranges.foldl State.zeroRange s
      { s1 with trust := { s1.trust with
          enclaves := s1.trust.enclaves.filter (fun e => e.1 != tag)
          dirty := tag :: s1.trust.dirty } })

/-! ### Secure leases (R523) -/

/-- Is a holder what it says: a core in the secure world, in the named enclave, or a running pair? -/
def State.holderOk (s : State) : SecHolder → Bool
  | .world c => s.trust.harts.any (fun h => h.1 / 64 == c && h.2.secure)
  | .enclave c t => s.trust.harts.any (fun h => h.1 / 64 == c && h.2.enclave == t && t != 0)
  | .pair p => decide (p < 2) && (s.pair p).runs

/-- Origin and FLAGS of a holder's audit entries. -/
def holderOrigin : SecHolder → Origin
  | .pair _ => .safety
  | _ => .selvage
def holderFlags : SecHolder → Nat
  | .world _ => 2
  | .enclave _ _ => 4
  | .pair _ => 1

/-- May a domain be requested at all (R82)? -/
def requestable (d : Nat) : Bool := mayRequest .hypervisor d || mayRequest .safety d

/-- SECURE_LEASE_TAKE: a holder takes a secure lease on a requestable domain; it is audited as a power request. -/
def execSecureLeaseTake (h : SecHolder) (d : Nat) (s : State) : Host.Outcome State Fault Refusal :=
  s.whenUp (fun s =>
    if s.holderOk h && requestable d then
      let s1 := s.auditAs (holderOrigin h) .power 0 (holderFlags h) d (s.secureHeld d).toNat 1
      { s1 with watch := { s1.watch with secLeases := s1.watch.secLeases.filter (fun x => x != (d, h)) ++ [(d, h)] } }
    else s.answer .refused)

/-- SECURE_LEASE_RELEASE: a holder releases its lease. -/
def execSecureLeaseRelease (h : SecHolder) (d : Nat) (s : State) : Host.Outcome State Fault Refusal :=
  s.whenUp (fun s =>
    if s.watch.secLeases.contains (d, h) then
      let t := { s with watch := { s.watch with secLeases := s.watch.secLeases.filter (fun x => x != (d, h)) } }
      t.auditAs (holderOrigin h) .power 0 (holderFlags h) d 1 (t.secureHeld d).toNat
    else s.answer .refused)

end Sys2Proof.Machine
end

