-- ==== Sys2Proof/Machine/ResetSeq.lean ====
section
/-! DEFINITION. The start of the device: reset release, the steps of Selvage's boot, the resolution of the journal, early view,
injection (R420, R449, R450, R479, R497 to R499, R503 to R505, R621, R670, R675). -/

namespace Sys2Proof.Machine

/-! ### Images at start (R494 to R497) -/

/-- The bytes of an image slot: what the device has written there, or what the flash holds. -/
def State.slotImage (s : State) (b : BootRead) (kind slot : Nat) : Option (List Byte) :=
  let key := 2 * kind + slot
  if s.trust.store.invalid.contains key then none
  else
    match s.trust.store.images.find? (fun x => x.1 == key) with
    | some x => some x.2
    | none => (b.flash.find? (fun x => x.1 == key)).map (·.2)

/-- The slot that a kind starts from: the active one if it is good, else the other (R498). -/
def State.pickSlot (s : State) (b : BootRead) (kind : Nat) (good : Nat → List Byte → Bool) : Option (Nat × List Byte) :=
  [s.activeSlot kind, s.otherSlot kind].findSome? (fun k =>
    match s.slotImage b kind k with
    | some bs => if good k bs then some (k, bs) else none
    | none => none)

/-- Is an image's SVN at least the floor of its kind? Without RPMB no floor is known. -/
def State.svnOk (s : State) (b : BootRead) (kind : Nat) (bs : List Byte) : Bool := !b.rpmb || decide (s.floor kind ≤ imgSvn bs)

/-- A kind runs from a slot: SLOT_B, its measurement, its SVN (R507, R529). -/
def State.runKind (s : State) (kind : Nat) (x : Nat × List Byte) : State :=
  let r : Running := { slot := x.1, svn := imgSvn x.2, meas := (Config.sha512 (imgWhole x.2)).toNat }
  let s1 : State := { s with trust := { s.trust with running := Sparse.put (fun _ => {}) kind r s.trust.running } }
  let k := 2 ^ (kind - 1)
  let old := s1.fld Reg.SEC_BOOT Fd.SEC_BOOT_SLOT_B
  s1.setFld Reg.SEC_BOOT Fd.SEC_BOOT_SLOT_B (if x.1 = 1 then or64 old k else andNot64 old k)

/-- A fallback to the other slot is audited (R498). -/
def State.auditFallback (s : State) (kind slot : Nat) : State :=
  if slot = s.activeSlot kind then s else s.auditLog .selvage .firmware 0 (2 * kind + slot) (s.activeSlot kind) slot

/-! ### The configuration record (R503, R504) -/

/-- Do the image slots lie free of the regions of xSPI NOR and of one another? Each is (kind, slot, offset, size). -/
def State.slotsFree (s : State) : List (Nat × Nat × Nat × Nat) → Bool
  | [] => true
  | x :: l =>
    norRegions.all (fun r => !rangesMeet (r.1 * 65536) (r.2 * 65536) x.2.2.1 x.2.2.2) &&
    !rangesMeet (s.fld Reg.SPARE_JRNL Fd.SPARE_JRNL_BASE_64K * 65536) (s.journalUnits * 65536) x.2.2.1 x.2.2.2 &&
    l.all (fun y => !rangesMeet y.2.2.1 y.2.2.2 x.2.2.1 x.2.2.2) && s.slotsFree l

/-- The ordering code of the device, as its identity certificate carries it: 1 or 2, no other variant (R3, R503, R504). -/
def orderCode : Nat := 1 + Config.identityOrder % 2

/-- The record of an image of kind 2, unless R504 refuses it. -/
def State.recordOf (s : State) (bs : List Byte) : Option Record :=
  match recSections bs with
  | none => none
  | some l =>
    let slots := Config.imageSlots (((oneSection l 2).getD []).drop 4)
    let count := fun t => (l.filter (fun x => x.1 == t)).length
    if l.all (fun x => decide (1 ≤ x.1) && decide (x.1 ≤ 5)) && count 1 == 1 && count 2 == 1 && leAt (imgBody bs) 0 2 == orderCode &&
        s.slotsFree slots then
      (recKey l).map (fun k =>
        { key := k, slots := slots, early := (oneSection l 3).map (·.drop 4), debugSec := (oneSection l 4).map (·.drop 4)
          causeway := (oneSection l 5).map (·.drop 4) })
    else none

/-- The record is read and verified, from either slot; GEN_ID and SEC_BOOT take ORDER (R497 step 5, R498, R529). -/
def State.startRecord (s : State) (b : BootRead) : State :=
  match s.pickSlot b 2 (fun _ bs => imgGood 2 (2 ^ 18) none bs && s.svnOk b 2 bs && (s.recordOf bs).isSome) with
  | none => s
  | some x =>
    let order := leAt (imgBody x.2) 0 2
    let s1 : State := { s with trust := { s.trust with record := s.recordOf x.2 } }
    let s2 := (s1.runKind 2 x).auditFallback 2 x.1
    ((s2.setFld Reg.SEC_BOOT Fd.SEC_BOOT_CONFIG_OK 1).setFld Reg.SEC_BOOT Fd.SEC_BOOT_ORDER order).setFld Reg.GEN_ID Fd.GEN_ID_ORDER order

/-! ### RPMB and the audit log (R497 step 4, R499, R526) -/

/-- BOOT_COUNT: one more than RPMB held; a free value where it was not read. The audit log starts at BOOT_COUNT × 2^40 with an
entry of kind 9. -/
def State.startCount (s : State) (b : BootRead) : State :=
  let (v, s1) := s.takeFree
  let s2 := if b.rpmb then s.modStore (fun t => { t with boots := t.boots + 1 }) else s1
  let n := if b.rpmb then s2.trust.store.boots % 2 ^ 24 else v % 2 ^ 24
  let seq := BitVec.ofNat 64 (n * 2 ^ 40)
  let s3 := ((s2.setReg Reg.AUDIT_HEAD seq).setReg Reg.AUDIT_TAIL seq).setReg Reg.AUDIT_EXPORTED seq
  let s4 : State := { s3 with audit := { chain := Config.sha512 (Config.identityKey ++ leBytes 8 n) } }
  ((s4.setFld Reg.SEC_BOOT Fd.SEC_BOOT_BOOT_COUNT n).setFld Reg.SEC_BOOT Fd.SEC_BOOT_RPMB_OK b.rpmb.toNat).auditLog .selvage .boot 0 0 0 n

/-! ### Substitutions in force and open operations (R477 to R479) -/

/-- Counts in a table of spares taken: at least spare k is gone. -/
def takeSpare (m : Sparse Nat) (i k : Nat) : Sparse Nat := Sparse.put (fun _ => 0) i (max (k + 1) (Sparse.get (fun _ => 0) i m)) m

/-- A substitution is applied to the maps (R473 to R475, R489). -/
def State.applySubst (s : State) (x : Subst) : State :=
  if x.kind = jRow then
    let r : RowId := ⟨x.target / 131072, x.target / 8192 % 16, x.target % 8192⟩
    let k := x.spare % 4096
    { s with memst := { s.memst with
        rowMap := (r, k) :: s.memst.rowMap.filter (fun y => y.1 != r)
        sparesOut := takeSpare s.memst.sparesOut (16 * r.chan + r.bank) k } }
  else if x.kind = jSpRow then
    { s with darn := { s.darn with spUsed := takeSpare s.darn.spUsed (x.spare / 512) (x.spare % 256) } }
  else if x.kind = jCore then
    ((s.setFld (Reg.ARY_CORE x.target) Fd.ARY_CORE_PHYS (128 + x.spare)).setBit Reg.ARY_SPARE_STATE x.spare true)
  else if x.kind = jChannel then
    match s.logicalChan x.target with
    | none => s
    | some n =>
      let f := chanFld (x.target / 264)
      let s1 := (s.setFld (Reg.MEM_CHMAP n) Fd.MEM_CHMAP_PHYS x.spare).setFld Reg.SPARE_USED f (s.fld Reg.SPARE_USED f + 1)
      { s1 with darn := { s1.darn with badChans := x.target :: s1.darn.badChans } }
  else if x.kind = jLane then
    let s1 := s.setFld Reg.SPARE_USED (spareLane (x.target / 4)) 1
    { s1 with cwy := { s1.cwy with badLanes := (x.target / 4, x.target % 4) :: s1.cwy.badLanes } }
  else s

/-- An open substitution is completed: applied, entered, recorded, counted (R479, R490). -/
def State.completeSubst (s : State) (r : JRec) : State :=
  let x : Subst := ⟨r.kind, r.target, r.spare⟩
  let s1 := s.applySubst x
  let j : Journal := { s1.journal with subs := s1.journal.subs ++ [x] }
  (({ s1 with journal := j } : State).jWrite r.kind jCompleted r.target r.spare 0).bump Reg.SPARE_DARN_CNT noUnit

/-- Has an open switch its FLIP record? -/
def Journal.flipped (j : Journal) (r : JRec) : Bool := j.recs.any (fun q => q.kind == jSwitch && q.phase == jFlip && q.target == r.target && decide (r.seq < q.seq))

/-- A switch is rolled back: the new slot is invalid, the boot control word names the old one. -/
def State.unswitch (s : State) (r : JRec) : State :=
  let s1 := s.modStore (fun t => { t with
    invalid := r.target :: t.invalid.erase r.target
    active := Sparse.put (fun _ => 0) (r.target / 2) (r.spare % 2) t.active })
  s1.jWrite jSwitch jRolledBack r.target r.spare 0

/-- Does the new slot of a switch verify under R496? -/
def State.newSlotOk (s : State) (b : BootRead) (r : JRec) : Bool :=
  let kind := r.target / 2
  match s.slotImage b kind (r.target % 2) with
  | none => false
  | some bs =>
    imgGood kind (s.slotBytes kind (r.target % 2)) (s.trust.record.map (·.key)) bs && decide (s.floor kind ≤ imgSvn bs) &&
      (kind != 2 || (s.recordOf bs).isSome)

/-- A switch whose new slot verifies is completed, and the floor rises to the image's FLOOR (R500). -/
def State.completeSwitch (s : State) (b : BootRead) (r : JRec) : State :=
  let kind := r.target / 2
  let top := imgFloor ((s.slotImage b kind (r.target % 2)).getD [])
  let s1 := s.modStore (fun t => { t with floors := Sparse.put (fun _ => 0) kind (max top (s.floor kind)) t.floors })
  s1.jWrite jSwitch jCompleted r.target r.spare 0

/-- One open operation is resolved; one that needs RPMB stays open where RPMB was not read (R479, R499). -/
def State.resolveOp (s : State) (b : BootRead) (r : JRec) : State :=
  if 1 ≤ r.kind ∧ r.kind ≤ 5 then s.completeSubst r
  else if r.kind = jSave then s.jWrite jSave jRolledBack r.target r.spare 0
  else if r.kind = jSwitch then
    if !s.journal.flipped r then s.unswitch r
    else if !b.rpmb then s
    else if s.newSlotOk b r then s.completeSwitch b r
    else (s.unswitch r).auditLog .selvage .firmware 2 r.target r.target r.spare
  else if r.kind = jRemoval ∧ b.rpmb then
    ((s.setEpoch r.target (min 0xFFFFFFFF (s.epoch r.target + 1))).setTenant r.target { state := 3 }).jWrite jRemoval jCompleted r.target 0 0
  else s

/-- The journal is read: substitutions in force are applied, open operations resolved in the order of their BEGIN records; records that
do not check count as absent (R477, R479). -/
def State.startJournal (s : State) (b : BootRead) : State :=
  if b.jrnl then
    let s1 := s.journal.subs.foldl State.applySubst s
    (s.journal.openOps.foldl (fun a r => a.resolveOp b r) s1).refreshFill
  else { s with journal := { seq := s.journal.seq } }.refreshFill

/-! ### Power, leases, links (R70, R82, R497 step 7, R621) -/

/-- Domains that Selvage powers at start beside those of the array cores in service: its own, the safety pairs, the DRAM channel groups,
the fabric, application core 0 with its cluster, the UFS host controller. DESIGN CHOICE (log 14): the manual names only those that nobody
may request, UFS and core 0; every other domain waits for its request. -/
def startDomains : List Nat := List.range 15 ++ [183, 199, 223]

/-- Rim domains that run after the start: the DRAM channels, UFS, xSPI, trigger and PWM, the time reference (R650). -/
def startRims : List Nat := (List.range 8).flatMap groupChans ++ [572, 573, 575, 576]

/-- A rim domain runs. -/
def State.setRimOn (s : State) (d : Nat) : State := s.setBit (Reg.PWR_RIM_ON (d / 64)) (d % 64) true

/-- Power is applied, with the standing charges of R70; the root leases are granted; device time is locked (R36, R497, R675). -/
def State.startPower (s : State) : State :=
  let s1 : State := { s with alw := { s.alw with
    grants := s.alw.grants ++ [.selvage, .safetyPair 0, .safetyPair 1, .refresh, .jobEngine].map standingGrant } }
  let s2 := (startDomains ++ (List.range 128).map s.coreDomain).foldl State.domainUp s1
  let s3 := startRims.foldl State.setRimOn (s2.obtain (s2.unitReq .ufs .lc none 0))
  let s4 := (List.range rootCount).foldl (fun a u => a.setRootEnd u (a.now + rootLength)) s3
  (({ s4 with watch := { s4.watch with hwEnd := s4.now + hwLength, edgeAt := s4.now } } : State).setFld Reg.TIME_STATUS Fd.TIME_STATUS_LOCKED 1).setTenant
    0x02 { state := 1 }

/-- A peer of the CAUSEWAY section: its entry, from its 32 bytes. -/
def peerEntry (bs : List Byte) : Peer :=
  { device := leAt bs 0 2 % 32768, ports := leAt bs 2 1 % 16, direct := leAt bs 2 1 / 128 == 1, mac := ofBe (slice bs 4 6), keyId := slice bs 16 16, state := 1 }

/-- The CAUSEWAY section is taken: identity, ports' VLAN tags, peers (R621). Offsets are those of R621 less its header. -/
def State.startCauseway (s : State) : State :=
  match s.trust.record.bind (·.causeway) with
  | none => s
  | some c =>
    let n := min 256 ((c.length - 20) / 32)
    let ps := (List.range n).map (fun i => (i, peerEntry (slice c (20 + 32 * i) 32)))
    let s1 := ((s.setFld Reg.CWY_ID Fd.CWY_ID_DEVICE (leAt c 0 2)).setFld Reg.CWY_ID Fd.CWY_ID_ETHERTYPE (ofBe (slice c 2 2))).setFld Reg.CWY_ID
      Fd.CWY_ID_JUMBO (leAt c 10 1)
    let s2 := (List.range 4).foldl (fun a p => a.setFld (Reg.CWY_PORT p) Fd.CWY_PORT_VLAN (leAt c (12 + 2 * p) 2)) s1
    { s2 with cwy := { s2.cwy with
        hasSection := true, mac := ofBe (slice c 4 6), nPeers := n
        peers := ps.foldl (fun m x => Sparse.put (fun _ => {}) x.1 x.2 m) s2.cwy.peers } }

/-! ### Early view (R420, R505) -/

/-- A field of the EARLY_VIEW section, by its byte in R505. -/
def evAt (c : List Byte) (off n : Nat) : Nat := leAt c (off - 4) n

/-- The registers of the channel, the receiver, the pipe and the plane, as the section sets them. -/
def State.earlyRegs (s : State) (c : List Byte) : State :=
  let ch := evAt c 8 1 % 16
  let rx := evAt c 4 1 % 4
  let p := evAt c 34 1 % 4
  let k := evAt c 52 1 % 8
  let rl := evAt c 5 1
  let tl := evAt c 35 1
  let col := evAt c 53 1
  let src := ([(Fd.CH_SRC_EN, 1), (Fd.CH_SRC_UNIT, rx), (Fd.CH_SRC_VC, rl % 4), (Fd.CH_SRC_DT, evAt c 6 1)] : List (Fld × Nat)).foldl
    (fun w f => f.1.put w f.2) (0 : Word)
  let pipe := ([(Fd.PIPE_CFG_EN, 1), (Fd.PIPE_CFG_EDP, tl % 2), (Fd.PIPE_CFG_LANES, tl / 2 % 4), (Fd.PIPE_CFG_BPC10, tl / 8 % 2),
    (Fd.PIPE_CFG_RATE, tl / 16)] : List (Fld × Nat)).foldl (fun w f => f.1.put w f.2) (s.reg (Reg.PIPE_CFG p))
  let plane := ([(Fd.PLANE_CFG_EN, 1), (Fd.PLANE_CFG_MATRIX, col % 4), (Fd.PLANE_CFG_FULL_RANGE, col / 4 % 2)] : List (Fld × Nat)).foldl
    (fun w f => f.1.put w f.2) (s.reg (Reg.PLANE_CFG p k))
  let s1 := ((s.setFld (Reg.INTK_RX_CFG rx) Fd.INTK_RX_CFG_CPHY (rl / 4 % 2)).setFld (Reg.INTK_RX_CFG rx) Fd.INTK_RX_CFG_RATE (rl / 8 % 4)).setReg
    (Reg.CH_SRC ch) src
  let s2 := (s1.setFld (Reg.CH_FMT ch) Fd.CH_FMT_IN_FMT (evAt c 7 1)).setFld (Reg.CH_KNOT ch) Fd.CH_KNOT_SAMPLE_KNOT (evAt c 10 2)
  let s3 := (s2.setFld (Reg.CH_BUF0 ch) Fd.CH_BUF0_DATA_BASE (evAt c 16 8 / 64)).setFld (Reg.CH_BUF0 ch) Fd.CH_BUF0_NBUF (evAt c 9 1)
  let s4 := (s3.setFld (Reg.CH_BUF1 ch) Fd.CH_BUF1_SLOT_4K (evAt c 32 2)).setFld (Reg.CH_BUF1 ch) Fd.CH_BUF1_CTL_BASE (evAt c 24 8 / 8192)
  let s5 := (s4.setReg (Reg.PIPE_CFG p) pipe).setReg (Reg.PIPE_TIM0 p) (BitVec.ofNat 64 (evAt c 36 8))
  (s5.setReg (Reg.PIPE_TIM1 p) (BitVec.ofNat 64 (evAt c 44 8))).setReg (Reg.PLANE_CFG p k) plane

/-- Does a buffer lie outside the staging pool, the save pool and the reserved region (R505)? -/
def State.earlyRange (s : State) (a n : Nat) : Bool :=
  inGeneral a n && !s.inStage a n && !rangesMeet a n s.sched.saveBase (s.sched.saveSize * 2 ^ 26)

/-- Does the section verify? `t` holds the registers as the section sets them. -/
def State.earlyOk (t : State) (c : List Byte) : Bool :=
  let ch := evAt c 8 1
  let slots := evAt c 9 1 + 1
  let slot := evAt c 32 2 * 4096
  decide (c.length = 60) && decide (ch < 16) && decide (evAt c 4 1 < 4) && decide (evAt c 34 1 < 4) && decide (evAt c 52 1 < 8) &&
    (evAt c 7 1 == 3 || evAt c 7 1 == 7) && decide (2 ≤ slots) && decide (slots ≤ 8) && evAt c 16 8 % 4096 == 0 && evAt c 24 8 % 8192 == 0 &&
    decide ((t.convSet ch).tensorBytes 1 (evAt c 12 2) (evAt c 14 2) ≤ slot) && t.earlyRange (evAt c 16 8) (slots * slot) &&
    t.earlyRange (evAt c 24 8) (slots * 8192) && t.pipeValid (evAt c 34 1) && t.chanValid ch

/-- A unit's charge is held as a standing charge. -/
def State.standCharge (s : State) (h : Holder) : State :=
  { s with alw := { s.alw with
      waiting := s.alw.waiting.filter (fun r => r.holder != h)
      ramp := if (s.alw.ramp.bind (·.req)).any (fun r => r.holder == h) then none else s.alw.ramp
      grants := s.alw.grants.filter (fun g => g.req.holder != h) ++ [standingGrant h] } }

/-- Early view starts if its section verifies; otherwise the pipe stays disabled. -/
def State.startEarly (s : State) : State :=
  match s.trust.record.bind (·.early) with
  | none => s
  | some c =>
    let t := s.earlyRegs c
    if t.earlyOk c then
      let ch := evAt c 8 1
      let p := evAt c 34 1
      let e : EarlyView := { channel := ch, pipe := p, plane := evAt c 52 1, x := evAt c 54 2, y := evAt c 56 2 }
      let t1 := [201 + ch / 4, 206 + p].foldl State.domainUp t
      let t2 := ([528 + evAt c 4 1, 532 + p] : List Nat).foldl State.setRimOn t1
      let t3 := ((t2.enableChan ch).modChan ch (fun x => { x with dims := (evAt c 14 2, evAt c 12 2) })).enablePipe p
      let t4 := (t3.standCharge (.channel ch)).standCharge (.pipe p)
      (({ t4 with display := { t4.display with early := some e } } : State).setFld Reg.DSP_EARLY Fd.DSP_EARLY_ACTIVE 1).setFld Reg.SEC_BOOT Fd.SEC_BOOT_EARLY 1
    else s

/-! ### Injection (R449, R450) -/

/-- The number by which a report names a unit. -/
def injNumber : InjUnit → Nat
  | .path i => i
  | .decoder c => c
  | .comparator k => k
  | .sealChecker k => k
  | .coreCode n => n
  | .lockstep p => p
  | .spCrc p => p
  | .timer k => k

/-- A failed core is darned before service; a failed spare is marked so. -/
def State.failCore (s : State) (phys : Nat) (jrnl : Bool) : State :=
  match s.logicalCore phys with
  | some n => s.darnCore n jrnl
  | none => if 128 ≤ phys ∧ phys < 136 then s.setBit Reg.ARY_SPARE_STATE (8 + (phys - 128)) true else s

/-- A unit that fails is reported and treated by R450. -/
def State.failInjected (s : State) (jrnl : Bool) (u : InjUnit) : State :=
  let s1 := s.report 10 (injNumber u)
  match u with
  | .path _ => s1
  | .decoder c => s1.requestChannel c 1 0 ⟨c, 0, 0⟩
  | .comparator k => { s1 with checkers := { s1.checkers with badCmp := k :: s1.checkers.badCmp } }
  | .sealChecker k => { s1 with checkers := { s1.checkers with badSeal := k :: s1.checkers.badSeal } }
  | .coreCode n => s1.failCore n jrnl
  | .lockstep _ => s1
  | .spCrc p => { s1 with watch := { s1.watch with badSp := p :: s1.watch.badSp } }
  | .timer _ => s1

/-- Injection runs; its result goes to SAFE_INJECT. -/
def State.startInjection (s : State) (b : BootRead) : State :=
  let s1 := b.failed.foldl (fun a u => a.failInjected b.jrnl u) s
  let ok := b.failed.isEmpty
  let s2 := ((s1.setFld Reg.SAFE_INJECT Fd.SAFE_INJECT_DONE 1).setFld Reg.SAFE_INJECT Fd.SAFE_INJECT_PASS ok.toNat).setFld Reg.SAFE_INJECT
    Fd.SAFE_INJECT_FAILED b.failed.length
  { s2 with safe := { s2.safe with injected := ok } }

/-! ### Images of kinds 3 to 5 (R497 steps 9 and 10, R498) -/

/-- Is a failed unit a timer without a spare? A core watchdog that fails is its core's failure: its core has a spare (log 42). -/
def isTimer : InjUnit → Bool
  | .timer _ => true
  | _ => false

/-- One kind is read, verified and loaded, from either slot. -/
def State.startKind (s : State) (b : BootRead) (kind : Nat) : State :=
  match s.pickSlot b kind (fun k bs => imgGood kind (s.slotBytes kind k) (s.trust.record.map (·.key)) bs && s.svnOk b kind bs) with
  | none => s
  | some x => ((s.writeBytes (imgLoad x.2) (imgBody x.2)).runKind kind x).auditFallback kind x.1

/-- Does a kind run? -/
def State.kindRuns (s : State) (kind : Nat) : Bool := s.trust.running.any (fun x => x.1 == kind)

/-- The entry of a kind, as its running slot's image gives it. -/
def State.entryOf (s : State) (b : BootRead) (kind : Nat) : Nat :=
  imgEntry ((s.slotImage b kind (s.runningImage kind).slot).getD [])

/-- The safety pairs start, apart from one whose lockstep checker failed. -/
def State.startPairs (s : State) (b : BootRead) : State :=
  [0, 1].foldl (fun a p => if b.failed.contains (.lockstep p) then a else a.setPair p { runs := true }) s

/-- Application core 0 runs hart 0, with its charge and its cluster's (R69). -/
def State.runCore0 (s : State) (h : Hart) : State :=
  ((s.obtain (s.unitReq (.appCluster 0) .lc none 0)).obtain (s.unitReq (.appCore 0) .lc none 0)).setHart 0 0 h

/-- Application core 0 starts the secure world's image, or the hypervisor where there is none. -/
def State.startHart (s : State) (b : BootRead) : State :=
  if s.kindRuns 4 then s.runCore0 { pc := s.entryOf b 4, secure := true }
  else if s.kindRuns 3 then s.runCore0 { pc := s.entryOf b 3 }
  else s

/-- The images start: none without RPMB or without a record (R498). With a failed timer the hypervisor and the secure world, through which
every guest starts, do not (R450; DEDUCED, log 42). With a failed timer or without the safety pairs' image the pins stay at the error level. -/
def State.startImages (s : State) (b : BootRead) : State :=
  if b.rpmb && s.trust.record.isSome then
    let stuck := b.failed.any isTimer
    let s1 := (if stuck then [5] else [3, 4, 5]).foldl (fun a k => a.startKind b k) s
    let s2 := if s1.kindRuns 5 then s1.startPairs b else s1
    { s2.startHart b with safe := { s2.safe with blocked := stuck || !s1.kindRuns 5 } }
  else { s with safe := { s.safe with blocked := true } }

/-! ### Reset release (R670, R497) -/

/-- What follows RPMB: record, journal, power, Causeway, early view, injection, images, pins. -/
def State.startRest (s : State) (b : BootRead) : State :=
  let s1 := ((s.startCount b).startRecord b).startJournal b
  let s2 := (({ s1 with sys := { s1.sys with up := true } } : State).startPower.startCauseway).startEarly
  ((s2.startInjection b).startImages b).drivePins.conclude

/-- The start: without the root key or a good image of kind 1 nothing starts; firmware below its floor marks its slot invalid and resets
(R497, R498). -/
def State.start (s : State) (b : BootRead) : State :=
  if !b.puf then s
  else
    match s.pickSlot b 1 (fun _ bs => imgGood 1 (2 ^ 21) none bs) with
    | none => s
    | some x =>
      if b.rpmb ∧ imgSvn x.2 < s.floor 1 then s.modStore (fun t => { t with boots := t.boots + 1, invalid := (2 + x.1) :: t.invalid })
      else (s.runKind 1 x).startRest b

/-- RESET_RELEASE: RESET_N rises while PWROK is high, or a self reset ends; the device starts unless another cause holds it in reset
(R670, R671). -/
def execResetRelease (boot : BootRead) (s : State) : Host.Outcome State Fault Refusal :=
  .next (if s.sys.up || !s.sys.pwrok then s
    else
      let s1 : State := { s with sys := { s.sys with resetN := true } }
      if s1.sys.released then s1.start boot else s1)

end Sys2Proof.Machine
end

