-- ==== Sys2Proof/Machine/Dispatch.lean ====
section
/-! DEFINITION. One arm per command: a direct call of its meaning. -/

namespace Sys2Proof.Machine

def exec (i : Instr) (s : State) : Host.Outcome State Fault Refusal :=
  match i with
  | .tackFire n => Sys2Proof.Machine.execTackFire n s
  | .tackLateFire n => Sys2Proof.Machine.execTackLateFire n s
  | .tackTimeout n => Sys2Proof.Machine.execTackTimeout n s
  | .tackRead o n => Sys2Proof.Machine.execTackRead o n s
  | .tackWrite o n => Sys2Proof.Machine.execTackWrite o n s
  | .tackDisable o n => Sys2Proof.Machine.execTackDisable o n s
  | .tackClear o n => Sys2Proof.Machine.execTackClear o n s
  | .fsyncPulseEnd n => Sys2Proof.Machine.execFsyncPulseEnd n s
  | .fsyncCfgWrite o n value => Sys2Proof.Machine.execFsyncCfgWrite o n value s
  | .timeNowLoRead o => Sys2Proof.Machine.execTimeNowLoRead o s
  | .timeRateAdjWrite o value => Sys2Proof.Machine.execTimeRateAdjWrite o value s
  | .refLoss => Sys2Proof.Machine.execRefLoss s
  | .rateWindowEnd counts => Sys2Proof.Machine.execRateWindowEnd counts s
  | .clrMin o value => Sys2Proof.Machine.execClrMin o value s
  | .alwRequest req => Sys2Proof.Machine.execAlwRequest req s
  | .alwGrant => Sys2Proof.Machine.execAlwGrant s
  | .alwRelease holder gen => Sys2Proof.Machine.execAlwRelease holder gen s
  | .alwBudgetWrite o dram value => Sys2Proof.Machine.execAlwBudgetWrite o dram value s
  | .pwrDomainOn o d => Sys2Proof.Machine.execPwrDomainOn o d s
  | .pwrDomainPowered d => Sys2Proof.Machine.execPwrDomainPowered d s
  | .pwrDomainOff o d => Sys2Proof.Machine.execPwrDomainOff o d s
  | .rimStart d => Sys2Proof.Machine.execRimStart d s
  | .rimStop d => Sys2Proof.Machine.execRimStop d s
  | .rimSlip d => Sys2Proof.Machine.execRimSlip d s
  | .beatRead o addr errs jrnl => Sys2Proof.Machine.execBeatRead o addr errs jrnl s
  | .rowWindowExpire chan bank row => Sys2Proof.Machine.execRowWindowExpire chan bank row s
  | .rowReplaceDone chan bank row => Sys2Proof.Machine.execRowReplaceDone chan bank row s
  | .refreshTierChange g temp => Sys2Proof.Machine.execRefreshTierChange g temp s
  | .scrubPeriodEnd finished => Sys2Proof.Machine.execScrubPeriodEnd finished s
  | .jobCommit ring seq => Sys2Proof.Machine.execJobCommit ring seq s
  | .copyBackDone extent => Sys2Proof.Machine.execCopyBackDone extent s
  | .stageWaitEnd core => Sys2Proof.Machine.execStageWaitEnd core s
  | .memErrPop o => Sys2Proof.Machine.execMemErrPop o s
  | .memStageWrite o value => Sys2Proof.Machine.execMemStageWrite o value s
  | .stageMove => Sys2Proof.Machine.execStageMove s
  | .mload core sp len sc scLen err => Sys2Proof.Machine.execMload core sp len sc scLen err s
  | .mstep core pair cnt e sp stride sc scStride clear swap err => Sys2Proof.Machine.execMstep core pair cnt e sp stride sc scStride clear swap err s
  | .mdrain run e v half clear rq => Sys2Proof.Machine.execMdrain run e v half clear rq s
  | .vload core v sp fmt sc err => Sys2Proof.Machine.execVload core v sp fmt sc err s
  | .vstore core v sp fmt sc raw err => Sys2Proof.Machine.execVstore core v sp fmt sc raw err s
  | .vectorOp run dst op => Sys2Proof.Machine.execVectorOp run dst op s
  | .fill core tag src sp sc => Sys2Proof.Machine.execFill core tag src sp sc s
  | .drain run tag band sp sc => Sys2Proof.Machine.execDrain run tag band sp sc s
  | .xchg run tag dest dst sp len => Sys2Proof.Machine.execXchg run tag dest dst sp len s
  | .transferDone core tag => Sys2Proof.Machine.execTransferDone core tag s
  | .waitTag core tag => Sys2Proof.Machine.execWaitTag core tag s
  | .fence core => Sys2Proof.Machine.execFence core s
  | .branch core dest => Sys2Proof.Machine.execBranch core dest s
  | .cheap core => Sys2Proof.Machine.execCheap core s
  | .scan run pb score box anch first cells => Sys2Proof.Machine.execScan run pb score box anch first cells s
  | .sort run pb => Sys2Proof.Machine.execSort run pb s
  | .suppress run pb first rounds => Sys2Proof.Machine.execSuppress run pb first rounds s
  | .emit run pb => Sys2Proof.Machine.execEmit run pb s
  | .qpush run dest base size cap sp => Sys2Proof.Machine.execQpush run dest base size cap sp s
  | .qpop core base => Sys2Proof.Machine.execQpop core base s
  | .tileSetup core x y prims shared split spill => Sys2Proof.Machine.execTileSetup core x y prims shared split spill s
  | .interlockAcquire core prim block => Sys2Proof.Machine.execInterlockAcquire core prim block s
  | .interlockRelease core prim block => Sys2Proof.Machine.execInterlockRelease core prim block s
  | .attributeInterpolation core dst => Sys2Proof.Machine.execAttributeInterpolation core dst s
  | .flushEnd => Sys2Proof.Machine.execFlushEnd s
  | .spanOverrun core => Sys2Proof.Machine.execSpanOverrun core s
  | .watchdogExpire core => Sys2Proof.Machine.execWatchdogExpire core s
  | .jobPlace => Sys2Proof.Machine.execJobPlace s
  | .forcedPreempt ring seq => Sys2Proof.Machine.execForcedPreempt ring seq s
  | .saveDone ring seq => Sys2Proof.Machine.execSaveDone ring seq s
  | .modeSwitchDone core => Sys2Proof.Machine.execModeSwitchDone core s
  | .scrubDone core => Sys2Proof.Machine.execScrubDone core s
  | .reservationExpire ring seq gen => Sys2Proof.Machine.execReservationExpire ring seq gen s
  | .viResume o v => Sys2Proof.Machine.execViResume o v s
  | .hotRead o idx => Sys2Proof.Machine.execHotRead o idx s
  | .hotRegister o idx => Sys2Proof.Machine.execHotRegister o idx s
  | .hotUnregister o idx => Sys2Proof.Machine.execHotUnregister o idx s
  | .hotSetFlags o idx => Sys2Proof.Machine.execHotSetFlags o idx s
  | .hotEvict o idx => Sys2Proof.Machine.execHotEvict o idx s
  | .hotLoadDone entry bytes => Sys2Proof.Machine.execHotLoadDone entry bytes s
  | .savePoolMove => Sys2Proof.Machine.execSavePoolMove s
  | .hotRegionMove => Sys2Proof.Machine.execHotRegionMove s
  | .doorbellWrite u value => Sys2Proof.Machine.execDoorbellWrite u value s
  | .doorbellPoll u far => Sys2Proof.Machine.execDoorbellPoll u far s
  | .ringWake o n far => Sys2Proof.Machine.execRingWake o n far s
  | .jobDescriptor ring far => Sys2Proof.Machine.execJobDescriptor ring far s
  | .knotDescriptor ring => Sys2Proof.Machine.execKnotDescriptor ring s
  | .cancelDescriptor ring => Sys2Proof.Machine.execCancelDescriptor ring s
  | .knotWaitTimeout ring seq gen => Sys2Proof.Machine.execKnotWaitTimeout ring seq gen s
  | .jobLeaseExpire ring seq gen => Sys2Proof.Machine.execJobLeaseExpire ring seq gen s
  | .sealCheckDone checker => Sys2Proof.Machine.execSealCheckDone checker s
  | .ringEnable o n value far => Sys2Proof.Machine.execRingEnable o n value far s
  | .ringDisable o n value => Sys2Proof.Machine.execRingDisable o n value s
  | .ringCancel o n value => Sys2Proof.Machine.execRingCancel o n value s
  | .knotSelRead o k => Sys2Proof.Machine.execKnotSelRead o k s
  | .knotSelSet o k => Sys2Proof.Machine.execKnotSelSet o k s
  | .knotSelAdd o k => Sys2Proof.Machine.execKnotSelAdd o k s
  | .knotRangeWrite o v value => Sys2Proof.Machine.execKnotRangeWrite o v value s
  | .frameStart rx vc fc hdr => Sys2Proof.Machine.execFrameStart rx vc fc hdr s
  | .longPacket rx vc dt hdr crcOk bytes => Sys2Proof.Machine.execLongPacket rx vc dt hdr crcOk bytes s
  | .frameEnd rx vc hdr => Sys2Proof.Machine.execFrameEnd rx vc hdr s
  | .tdmFrame port slots => Sys2Proof.Machine.execTdmFrame port slots s
  | .lateBudgetExpire ch q => Sys2Proof.Machine.execLateBudgetExpire ch q s
  | .sourceEntryFetch ch far => Sys2Proof.Machine.execSourceEntryFetch ch far s
  | .pictureDecoded session idx q dec => Sys2Proof.Machine.execPictureDecoded session idx q dec s
  | .encodeStart => Sys2Proof.Machine.execEncodeStart s
  | .accessUnitDone bytes => Sys2Proof.Machine.execAccessUnitDone bytes s
  | .channelEnable o n value => Sys2Proof.Machine.execChannelEnable o n value s
  | .channelDisable o n value => Sys2Proof.Machine.execChannelDisable o n value s
  | .unordWrite o n on => Sys2Proof.Machine.execUnordWrite o n on s
  | .decoderEnable o session value => Sys2Proof.Machine.execDecoderEnable o session value s
  | .encoderEnable o value => Sys2Proof.Machine.execEncoderEnable o value s
  | .gridPassDone g torn => Sys2Proof.Machine.execGridPassDone g torn s
  | .trackStep g => Sys2Proof.Machine.execTrackStep g s
  | .trackStepDone g => Sys2Proof.Machine.execTrackStepDone g s
  | .gridEnable o g value => Sys2Proof.Machine.execGridEnable o g value s
  | .gridDisable o g value => Sys2Proof.Machine.execGridDisable o g value s
  | .pipeEnable o p value => Sys2Proof.Machine.execPipeEnable o p value s
  | .linkTrainingDone p ok => Sys2Proof.Machine.execLinkTrainingDone p ok s
  | .pipeDisable o p value => Sys2Proof.Machine.execPipeDisable o p value s
  | .heldFrameStart p => Sys2Proof.Machine.execHeldFrameStart p s
  | .freeRun p => Sys2Proof.Machine.execFreeRun p s
  | .telltaleCrc p idx => Sys2Proof.Machine.execTelltaleCrc p idx s
  | .spEnable o p value => Sys2Proof.Machine.execSpEnable o p value s
  | .spTableWrite o p value => Sys2Proof.Machine.execSpTableWrite o p value s
  | .earlyViewEnd o => Sys2Proof.Machine.execEarlyViewEnd o s
  | .compareDone comparator jrnl => Sys2Proof.Machine.execCompareDone comparator jrnl s
  | .lockstepDivergence pair => Sys2Proof.Machine.execLockstepDivergence pair s
  | .pairRestart pair => Sys2Proof.Machine.execPairRestart pair s
  | .debugAttach targets sigOk => Sys2Proof.Machine.execDebugAttach targets sigOk s
  | .debugDetach => Sys2Proof.Machine.execDebugDetach s
  | .debugHalt t on => Sys2Proof.Machine.execDebugHalt t on s
  | .debugStep t => Sys2Proof.Machine.execDebugStep t s
  | .debugRead t core r => Sys2Proof.Machine.execDebugRead t core r s
  | .debugWrite t w => Sys2Proof.Machine.execDebugWrite t w s
  | .selftestStart slot missed => Sys2Proof.Machine.execSelftestStart slot missed s
  | .goldenRunDone core pass jrnl => Sys2Proof.Machine.execGoldenRunDone core pass jrnl s
  | .coverDeadline core => Sys2Proof.Machine.execCoverDeadline core s
  | .pinMinExpire => Sys2Proof.Machine.execPinMinExpire s
  | .safeForce o on => Sys2Proof.Machine.execSafeForce o on s
  | .swErr o code => Sys2Proof.Machine.execSwErr o code s
  | .stRead o idx => Sys2Proof.Machine.execStRead o idx s
  | .stWrite o idx => Sys2Proof.Machine.execStWrite o idx s
  | .coreDarnDone core pass => Sys2Proof.Machine.execCoreDarnDone core pass s
  | .channelDarn phys jrnl => Sys2Proof.Machine.execChannelDarn phys jrnl s
  | .channelCopyDone phys => Sys2Proof.Machine.execChannelCopyDone phys s
  | .spRowReplace phys bank row jrnl => Sys2Proof.Machine.execSpRowReplace phys bank row jrnl s
  | .darnCore o target jrnl => Sys2Proof.Machine.execDarnCore o target jrnl s
  | .darnChannel o target jrnl => Sys2Proof.Machine.execDarnChannel o target jrnl s
  | .darnLane o target jrnl => Sys2Proof.Machine.execDarnLane o target jrnl s
  | .rootLeaseRenew units => Sys2Proof.Machine.execRootLeaseRenew units s
  | .rootLeaseExpire unit => Sys2Proof.Machine.execRootLeaseExpire unit s
  | .unitRestored unit => Sys2Proof.Machine.execUnitRestored unit s
  | .dmaStreamExpire stream => Sys2Proof.Machine.execDmaStreamExpire stream s
  | .panelTimerExpire core jrnl => Sys2Proof.Machine.execPanelTimerExpire core jrnl s
  | .arrayTimerExpire panel => Sys2Proof.Machine.execArrayTimerExpire panel s
  | .hwTimerExpire => Sys2Proof.Machine.execHwTimerExpire s
  | .selfReset => Sys2Proof.Machine.execSelfReset s
  | .aliveEdge => Sys2Proof.Machine.execAliveEdge s
  | .fwStage o kind => Sys2Proof.Machine.execFwStage o kind s
  | .fwSwitch o kind jrnl => Sys2Proof.Machine.execFwSwitch o kind jrnl s
  | .fwDiscard o kind => Sys2Proof.Machine.execFwDiscard o kind s
  | .tenantRead o t => Sys2Proof.Machine.execTenantRead o t s
  | .tenantCreate o t => Sys2Proof.Machine.execTenantCreate o t s
  | .tenantRemove o t jrnl => Sys2Proof.Machine.execTenantRemove o t jrnl s
  | .tenantForceRemove o t jrnl => Sys2Proof.Machine.execTenantForceRemove o t jrnl s
  | .removalDone t rpmb => Sys2Proof.Machine.execRemovalDone t rpmb s
  | .attReport o enclave tenant wrap far => Sys2Proof.Machine.execAttReport o enclave tenant wrap far s
  | .reportDone o => Sys2Proof.Machine.execReportDone o s
  | .eye => Sys2Proof.Machine.execEye s
  | .gateS core hart target ret eye regs => Sys2Proof.Machine.execGateS core hart target ret eye regs s
  | .gateE core hart target ret eye regs => Sys2Proof.Machine.execGateE core hart target ret eye regs s
  | .gret core hart regs => Sys2Proof.Machine.execGret core hart regs s
  | .enclaveTrap core hart pc regs => Sys2Proof.Machine.execEnclaveTrap core hart pc regs s
  | .enclaveRegister secure ranges => Sys2Proof.Machine.execEnclaveRegister secure ranges s
  | .enclaveDestroy tag => Sys2Proof.Machine.execEnclaveDestroy tag s
  | .secureLeaseTake h d => Sys2Proof.Machine.execSecureLeaseTake h d s
  | .secureLeaseRelease h d => Sys2Proof.Machine.execSecureLeaseRelease h d s
  | .auditExport o count => Sys2Proof.Machine.execAuditExport o count s
  | .exportDone => Sys2Proof.Machine.execExportDone s
  | .auditAck o value => Sys2Proof.Machine.execAuditAck o value s
  | .viQuiesce o v => Sys2Proof.Machine.execViQuiesce o v s
  | .viQuiesceHard o v => Sys2Proof.Machine.execViQuiesceHard o v s
  | .viFreeze o v => Sys2Proof.Machine.execViFreeze o v s
  | .viThaw o v => Sys2Proof.Machine.execViThaw o v s
  | .viSave o v cert jrnl => Sys2Proof.Machine.execViSave o v cert jrnl s
  | .saveImageDone v => Sys2Proof.Machine.execSaveImageDone v s
  | .viRestore o v img => Sys2Proof.Machine.execViRestore o v img s
  | .restoreDone v => Sys2Proof.Machine.execRestoreDone v s
  | .viReset o v => Sys2Proof.Machine.execViReset o v s
  | .usb4LinkUp mode => Sys2Proof.Machine.execUsb4LinkUp mode s
  | .usb4LinkDown => Sys2Proof.Machine.execUsb4LinkDown s
  | .functionLevelReset fn => Sys2Proof.Machine.execFunctionLevelReset fn s
  | .hostCompletion tag gen data ahead => Sys2Proof.Machine.execHostCompletion tag gen data ahead s
  | .bridgeReadExpire tag gen => Sys2Proof.Machine.execBridgeReadExpire tag gen s
  | .hostBarRequest req far => Sys2Proof.Machine.execHostBarRequest req far s
  | .prefetchExpire page => Sys2Proof.Machine.execPrefetchExpire page s
  | .msixUnmask fn vec => Sys2Proof.Machine.execMsixUnmask fn vec s
  | .ubrMapRead o idx => Sys2Proof.Machine.execUbrMapRead o idx s
  | .ubrMapWrite o idx => Sys2Proof.Machine.execUbrMapWrite o idx s
  | .ubrMapDisable o idx => Sys2Proof.Machine.execUbrMapDisable o idx s
  | .ubrErrPop o => Sys2Proof.Machine.execUbrErrPop o s
  | .canEnable o n value => Sys2Proof.Machine.execCanEnable o n value s
  | .canFrameRx n f sof => Sys2Proof.Machine.execCanFrameRx n f sof s
  | .canTxDone n sof => Sys2Proof.Machine.execCanTxDone n sof s
  | .busOff n => Sys2Proof.Machine.execBusOff n s
  | .busOffRecovery n => Sys2Proof.Machine.execBusOffRecovery n s
  | .queueDoorbell q value => Sys2Proof.Machine.execQueueDoorbell q value s
  | .queueEnable o q value => Sys2Proof.Machine.execQueueEnable o q value s
  | .queueDisable o q value => Sys2Proof.Machine.execQueueDisable o q value s
  | .ethFrameRx p bytes fcsOk sfd => Sys2Proof.Machine.execEthFrameRx p bytes fcsOk sfd s
  | .ethTxDone k => Sys2Proof.Machine.execEthTxDone k s
  | .gateIntervalEnd p => Sys2Proof.Machine.execGateIntervalEnd p s
  | .gateBankTakeover p => Sys2Proof.Machine.execGateBankTakeover p s
  | .syncRx p e => Sys2Proof.Machine.execSyncRx p e s
  | .syncTimeout elected => Sys2Proof.Machine.execSyncTimeout elected s
  | .gptpAccept o value => Sys2Proof.Machine.execGptpAccept o value s
  | .gptpHold o value => Sys2Proof.Machine.execGptpHold o value s
  | .offsetWrite o value => Sys2Proof.Machine.execOffsetWrite o value s
  | .portEnable o p value => Sys2Proof.Machine.execPortEnable o p value s
  | .sluiceUpdate => Sys2Proof.Machine.execSluiceUpdate s
  | .sluiceSend d => Sys2Proof.Machine.execSluiceSend d s
  | .sluiceEnable o value => Sys2Proof.Machine.execSluiceEnable o value s
  | .sluPduRead o idx => Sys2Proof.Machine.execSluPduRead o idx s
  | .sluPduWrite o idx => Sys2Proof.Machine.execSluPduWrite o idx s
  | .sluPduClear o idx => Sys2Proof.Machine.execSluPduClear o idx s
  | .sluMapRead o idx => Sys2Proof.Machine.execSluMapRead o idx s
  | .sluMapWrite o idx => Sys2Proof.Machine.execSluMapWrite o idx s
  | .sluMapClear o idx => Sys2Proof.Machine.execSluMapClear o idx s
  | .readReq port f tagOk => Sys2Proof.Machine.execReadReq port f tagOk s
  | .readData port f tagOk => Sys2Proof.Machine.execReadData port f tagOk s
  | .cwyKnot port f tagOk => Sys2Proof.Machine.execCwyKnot port f tagOk s
  | .cwyAck port f tagOk => Sys2Proof.Machine.execCwyAck port f tagOk s
  | .cwyHello port f tagOk => Sys2Proof.Machine.execCwyHello port f tagOk s
  | .cwyError port f tagOk => Sys2Proof.Machine.execCwyError port f tagOk s
  | .cwyKey port src cert => Sys2Proof.Machine.execCwyKey port src cert s
  | .cwyLane port f tagOk lane jrnl => Sys2Proof.Machine.execCwyLane port f tagOk lane jrnl s
  | .sealReq port f tagOk => Sys2Proof.Machine.execSealReq port f tagOk s
  | .sealData port f tagOk => Sys2Proof.Machine.execSealData port f tagOk s
  | .helloTimer peer => Sys2Proof.Machine.execHelloTimer peer s
  | .retransmit peer => Sys2Proof.Machine.execRetransmit peer s
  | .peerTimeout peer => Sys2Proof.Machine.execPeerTimeout peer s
  | .cwyLinkUp port lanes => Sys2Proof.Machine.execCwyLinkUp port lanes s
  | .cwyLinkDown port => Sys2Proof.Machine.execCwyLinkDown port s
  | .linkKeyDerived tenant peer => Sys2Proof.Machine.execLinkKeyDerived tenant peer s
  | .cwyPortEnable o p value => Sys2Proof.Machine.execCwyPortEnable o p value s
  | .peerRead o idx => Sys2Proof.Machine.execPeerRead o idx s
  | .fecUncorr port lane jrnl oneLane => Sys2Proof.Machine.execFecUncorr port lane jrnl oneLane s
  | .evqTailWrite o d value => Sys2Proof.Machine.execEvqTailWrite o d value s
  | .ufsLuWrite o u value => Sys2Proof.Machine.execUfsLuWrite o u value s
  | .lockWrite o blk => Sys2Proof.Machine.execLockWrite o blk s
  | .registerWrite o off bytes value env => Sys2Proof.Machine.execRegisterWrite o off bytes value env s
  | .resetRelease boot => Sys2Proof.Machine.execResetRelease boot s
  | .resetNLow => Sys2Proof.Machine.execResetNLow s
  | .pwrokFall => Sys2Proof.Machine.execPwrokFall s
  | .supplyUndervolt dram => Sys2Proof.Machine.execSupplyUndervolt dram s
  | .thermalTrip => Sys2Proof.Machine.execThermalTrip s
  | .alwRampDone => Sys2Proof.Machine.execAlwRampDone s
  | .vtotalLineEnd p => Sys2Proof.Machine.execVtotalLineEnd p s
  | .panelResume panel => Sys2Proof.Machine.execPanelResume panel s
  | .stageDone kind ok => Sys2Proof.Machine.execStageDone kind ok s
  | .pwrokRise => Sys2Proof.Machine.execPwrokRise s
  | .learnedEntryAgeing mac vid => Sys2Proof.Machine.execLearnedEntryAgeing mac vid s
  | .busMasteringEnable fn => Sys2Proof.Machine.execBusMasteringEnable fn s
  | .canBusError n e => Sys2Proof.Machine.execCanBusError n e s

end Sys2Proof.Machine
end

