-- ==== Sys2Proof/Machine/Step.lean ====
section
/-! DEFINITION. One step: the command at the front of the queue, or on an empty queue one tick of device time. -/

namespace Sys2Proof.Machine

/-- With nothing commanded the block idles: outside reset device time advances by one 200 MHz tick (R37) and the bridge sends a
posted write; in reset nothing happens (R671). -/
def State.idle (s : State) : State := if s.sys.up then s.tick.drainPosted else s

/-- Takes the command at the front of the queue, or idles. -/
def step (s : State) : Host.Outcome State Fault Refusal :=
  match s.pending with
  | [] => .next s.idle
  | c :: rest => exec c { s with pending := rest }

/-- The state with the command that a word of the table spells put at the front of its queue: none is spelled. -/
def State.withFetchWord (s : State) (nbits w : Nat) : State :=
  match decodeTableWord nbits w with
  | none => s
  | some c => { s with pending := c :: s.pending }

end Sys2Proof.Machine
end

