-- ==== Sys2Proof/Machine/Pins.lean ====
section
/-! DEFINITION. How every output of the device is driven: in reset, without power, in service (R56, R459, R485, R486, R661, R673 to R675). -/

namespace Sys2Proof.Machine

/-- The outputs of R673, by controller, port or pipe where there are several. -/
inductive Ball where
  | alive
  | errOutP
  | errOutN
  | thermTripN
  | fsync (n : Nat)
  | canTxd (n : Nat)
  | canMode (n : Nat)
  | usb4Lane
  | sbtx
  | cwyLane (port : Nat)
  | dpLane (pipe : Nat)
  | dpAux (pipe : Nat)
  | usxgmiiTx (port : Nat)
  | mdc
  | mdio
  | t1s (port : Nat)
  | tdm (port : Nat)
  | ufsTx
  | ufsRefClk
  | ufsRstN
  | xspiClk
  | xspiCsN
  | xspiData
  | xspiResetN
  | jtagTdo
  deriving DecidableEq, Repr

/-- What an output does: a driven level, high impedance, high impedance with the internal pull-down, an open drain released,
electrical idle, or what its unit sends, which the messages of `State.out` show. -/
inductive Drive where
  | low
  | high
  | highZ
  | pulledDown
  | released
  | idle
  | byUnit
  deriving DecidableEq, Repr

/-- A driven level. -/
def Drive.level (b : Bool) : Drive := if b then .high else .low

/-- The state of an output in reset; a latched trip holds THERM_TRIP_N low (R661, R673). -/
def Ball.inReset (tripped : Bool) : Ball → Drive
  | .alive => .low
  | .errOutP => .low
  | .errOutN => .high
  | .thermTripN => if tripped then .low else .released
  | .fsync _ => .pulledDown
  | .canTxd _ => .high
  | .canMode _ => .high
  | .usb4Lane => .idle
  | .sbtx => .low
  | .cwyLane _ => .idle
  | .dpLane _ => .idle
  | .dpAux _ => .highZ
  | .usxgmiiTx _ => .idle
  | .mdc => .low
  | .mdio => .highZ
  | .t1s _ => .highZ
  | .tdm _ => .highZ
  | .ufsTx => .highZ
  | .ufsRefClk => .low
  | .ufsRstN => .low
  | .xspiClk => .low
  | .xspiCsN => .high
  | .xspiData => .highZ
  | .xspiResetN => .low
  | .jtagTdo => .highZ

/-- Do the error pins show the error level (R459)? -/
def State.errorLevel (s : State) : Bool := s.bit Reg.SAFE_PIN Fd.SAFE_PIN_LEVEL

/-- The state of an output between reset release and the next reset. FSYNC pins keep their state in reset until the first write of their
register (R674). DEDUCED (log 85): a CAN controller that is not enabled or not powered holds its pins as in reset; an enabled one takes its
transceiver out of standby. -/
def State.pinInService (s : State) (b : Ball) : Drive :=
  let can := fun (n : Nat) => s.bit (Reg.GWY_CAN_CFG n) Fd.GWY_CAN_CFG_EN && s.domainOn (219 + n / 4)
  match b with
  | .alive => .level s.sys.alive
  | .errOutP => .level (!s.errorLevel)
  | .errOutN => .level s.errorLevel
  | .thermTripN => .released
  | .fsync n => if (s.fsyncPin n).configured then .level (s.fsyncLevel n) else .pulledDown
  | .canTxd n => if can n then .byUnit else .high
  | .canMode n => .level (!can n)
  | _ => .byUnit

/-- How an output is driven; without power every one is at high impedance (R673). -/
def State.drive (s : State) (powered : Bool) (b : Ball) : Drive :=
  if !powered then .highZ else if s.sys.up then s.pinInService b else b.inReset s.sys.tripped

end Sys2Proof.Machine
end

