-- ==== Sys2Proof/WellFormed.lean ====
section
/-! DEFINITION. Which commands are well formed: every unit, entry, channel, tag and index that an operand names exists. A command that is
not well formed is never sent; the machine answers it all the same, mostly without effect. -/

namespace Sys2Proof

/-- Is an origin one of the manual's: instances are numbered 0 to 63 (R511)? -/
def Origin.wellFormed : Origin → Bool
  | .vi v => decide (v < 64)
  | _ => true

/-- Is a queue one of R605's? -/
def FrameQ.wellFormed : FrameQ → Bool
  | .can n k => decide (n < 16) && decide (k < 6)
  | .tsn k => decide (k < 16)

/-- Is there such a unit? -/
def Holder.wellFormed : Holder → Bool
  | .core n => decide (n < 128)
  | .appCore n => decide (n < 16)
  | .appCluster n => decide (n < 2)
  | .safetyPair n => decide (n < 2)
  | .channel n => decide (n < 16)
  | .pipe n => decide (n < 4)
  | .causewayPort n => decide (n < 4)
  | .sealChecker n => decide (n < 4)
  | .loader n => decide (n < 4096)
  | .copyBack n => decide (n < 2)
  | .comparator n => decide (n < 8)
  | .spare n => decide (n < 8)
  | .domain n => decide (n < 224)
  | _ => true

/-- Is a polled unit there? -/
def PollUnit.wellFormed : PollUnit → Bool
  | .ring n => decide (n < 1024)
  | .source c => decide (c < 16)
  | .output => true

/-- Is there such a beat? Only the scrubber, which is the device itself, names one by its physical place. -/
def BeatAt.wellFormed (o : Origin) : BeatAt → Bool
  | .addr _ => true
  | .phys c b r k => o == .device && decide (c < 528) && decide (b < 16) && decide (r < 4096) && decide (k < 32)

/-- A fill takes every pixel of its band. -/
def FillSrc.wellFormed : FillSrc → Bool
  | .band b => b.step == 1
  | _ => true

/-- Is a command well formed? -/
def Instr.wellFormed : Instr → Bool
  | .tackFire n => decide (n < 4096)
  | .tackLateFire n => decide (n < 4096)
  | .tackTimeout n => decide (n < 4096)
  | .tackRead o n => o.wellFormed && decide (n < 4096)
  | .tackWrite o n => o.wellFormed && decide (n < 4096)
  | .tackDisable o n => o.wellFormed && decide (n < 4096)
  | .tackClear o n => o.wellFormed && decide (n < 4096)
  | .fsyncPulseEnd n => decide (n < 16)
  | .fsyncCfgWrite o n _ => o.wellFormed && decide (n < 16)
  | .timeNowLoRead o => o.wellFormed
  | .timeRateAdjWrite o _ => o.wellFormed
  | .refLoss => true
  | .rateWindowEnd _ => true
  | .clrMin o _ => o.wellFormed
  | .alwRequest a => a.holder.wellFormed
  | .alwGrant => true
  | .alwRelease h _ => h.wellFormed
  | .alwBudgetWrite o _ _ => o.wellFormed
  | .pwrDomainOn o d => o.wellFormed && decide (d < 256)
  | .pwrDomainPowered d => decide (d < 224)
  | .pwrDomainOff o d => o.wellFormed && decide (d < 256)
  | .rimStart d => decide (d < 577)
  | .rimStop d => decide (d < 577)
  | .rimSlip d => decide (d < 577)
  | .beatRead o x _ _ => o.wellFormed && BeatAt.wellFormed o x
  | .rowWindowExpire chan bank row => decide (chan < 528) && decide (bank < 16) && decide (row < 4096)
  | .rowReplaceDone chan bank row => decide (chan < 528) && decide (bank < 16) && decide (row < 4096)
  | .refreshTierChange g _ => decide (g < 8)
  | .scrubPeriodEnd _ => true
  | .jobCommit ring _ => decide (ring < 1024)
  | .copyBackDone _ => true
  | .stageWaitEnd core => decide (core < 128)
  | .memErrPop o => o.wellFormed
  | .memStageWrite o _ => o.wellFormed
  | .stageMove => true
  | .mload core _ _ _ _ _ => decide (core < 128)
  | .mstep core _ cnt e _ _ _ _ _ _ _ => decide (core < 128) && decide (cnt < 65) && decide (e < 64)
  | .mdrain run e v half _ _ => decide (run.core < 128) && decide (e < 64) && decide (v < 256) && decide (half < 2)
  | .vload core v _ _ _ _ => decide (core < 128) && decide (v < 256)
  | .vstore core v _ _ _ _ _ => decide (core < 128) && decide (v < 256)
  | .vectorOp run dst _ => decide (run.core < 128) && decide (dst < 256)
  | .fill core tag src _ _ => decide (core < 128) && decide (tag < 16) && src.wellFormed
  | .drain run tag band _ _ => decide (run.core < 128) && decide (tag < 16) && decide (1 ≤ band.step)
  | .xchg run tag dest _ _ _ => decide (run.core < 128) && decide (tag < 16) && decide (dest < 128)
  | .transferDone core tag => decide (core < 128) && decide (tag < 16)
  | .waitTag core tag => decide (core < 128) && decide (tag < 16)
  | .fence core => decide (core < 128)
  | .branch core _ => decide (core < 128)
  | .cheap core => decide (core < 128)
  | .scan run _ _ _ _ _ _ => decide (run.core < 128)
  | .sort run _ => decide (run.core < 128)
  | .suppress run _ _ _ => decide (run.core < 128)
  | .emit run _ => decide (run.core < 128)
  | .qpush run dest _ _ _ _ => decide (run.core < 128) && decide (dest < 128)
  | .qpop core _ => decide (core < 128)
  | .tileSetup core _ _ _ _ _ _ => decide (core < 128)
  | .interlockAcquire core _ block => decide (core < 128) && decide (block < 64)
  | .interlockRelease core _ block => decide (core < 128) && decide (block < 64)
  | .attributeInterpolation core dst => decide (core < 128) && decide (dst < 256)
  | .flushEnd => true
  | .spanOverrun core => decide (core < 128)
  | .watchdogExpire core => decide (core < 128)
  | .jobPlace => true
  | .forcedPreempt ring _ => decide (ring < 1024)
  | .saveDone ring _ => decide (ring < 1024)
  | .modeSwitchDone core => decide (core < 128)
  | .scrubDone _ => true
  | .reservationExpire ring _ _ => decide (ring < 1024)
  | .viResume o v => o.wellFormed && decide (v < 64)
  | .hotRead o idx => o.wellFormed && decide (idx < 4096)
  | .hotRegister o idx => o.wellFormed && decide (idx < 4096)
  | .hotUnregister o idx => o.wellFormed && decide (idx < 4096)
  | .hotSetFlags o idx => o.wellFormed && decide (idx < 4096)
  | .hotEvict o idx => o.wellFormed && decide (idx < 4096)
  | .hotLoadDone entry _ => decide (entry < 4096)
  | .savePoolMove => true
  | .hotRegionMove => true
  | .doorbellWrite u _ => u.wellFormed
  | .doorbellPoll u _ => u.wellFormed
  | .ringWake o n _ => o.wellFormed && decide (n < 1024)
  | .jobDescriptor ring _ => decide (ring < 1024)
  | .knotDescriptor ring => decide (ring < 1024)
  | .cancelDescriptor ring => decide (ring < 1024)
  | .knotWaitTimeout ring _ _ => decide (ring < 1024)
  | .jobLeaseExpire ring _ _ => decide (ring < 1024)
  | .sealCheckDone checker => decide (checker < 4)
  | .ringEnable o n _ _ => o.wellFormed && decide (n < 1024)
  | .ringDisable o n _ => o.wellFormed && decide (n < 1024)
  | .ringCancel o n _ => o.wellFormed && decide (n < 1024)
  | .knotSelRead o k => o.wellFormed && decide (k < 16384)
  | .knotSelSet o k => o.wellFormed && decide (k < 16384)
  | .knotSelAdd o k => o.wellFormed && decide (k < 16384)
  | .knotRangeWrite o v _ => o.wellFormed && decide (v < 64)
  | .frameStart rx vc _ _ => decide (rx < 4) && decide (vc < 4)
  | .longPacket rx vc dt _ _ _ => decide (rx < 4) && decide (vc < 4) && decide (dt < 64)
  | .frameEnd rx vc _ => decide (rx < 4) && decide (vc < 4)
  | .tdmFrame port _ => decide (port < 4)
  | .lateBudgetExpire ch _ => decide (ch < 16)
  | .sourceEntryFetch ch _ => decide (ch < 16)
  | .pictureDecoded session _ _ _ => decide (session < 2)
  | .encodeStart => true
  | .accessUnitDone _ => true
  | .channelEnable o n _ => o.wellFormed && decide (n < 16)
  | .channelDisable o n _ => o.wellFormed && decide (n < 16)
  | .unordWrite o n _ => o.wellFormed && decide (n < 16)
  | .decoderEnable o session _ => o.wellFormed && decide (session < 2)
  | .encoderEnable o _ => o.wellFormed
  | .gridPassDone g _ => decide (g < 2)
  | .trackStep g => decide (g < 2)
  | .trackStepDone g => decide (g < 2)
  | .gridEnable o g _ => o.wellFormed && decide (g < 2)
  | .gridDisable o g _ => o.wellFormed && decide (g < 2)
  | .pipeEnable o p _ => o.wellFormed && decide (p < 4)
  | .linkTrainingDone p _ => decide (p < 4)
  | .pipeDisable o p _ => o.wellFormed && decide (p < 4)
  | .heldFrameStart p => decide (p < 4)
  | .freeRun p => decide (p < 4)
  | .telltaleCrc p idx => decide (p < 4) && decide (idx < 32)
  | .spEnable o p _ => o.wellFormed && decide (p < 4)
  | .spTableWrite o p _ => o.wellFormed && decide (p < 4)
  | .earlyViewEnd o => o.wellFormed
  | .compareDone comparator _ => decide (comparator < 8)
  | .lockstepDivergence pair => decide (pair < 2)
  | .pairRestart pair => decide (pair < 2)
  | .debugAttach _ _ => true
  | .debugDetach => true
  | .debugHalt _ _ => true
  | .debugStep _ => true
  | .debugRead _ core _ => decide (core < 128)
  | .debugWrite _ _ => true
  | .selftestStart slot _ => decide (slot < 256)
  | .goldenRunDone core _ _ => decide (core < 128)
  | .coverDeadline core => decide (core < 128)
  | .pinMinExpire => true
  | .safeForce o _ => o.wellFormed
  | .swErr o _ => o.wellFormed
  | .stRead o idx => o.wellFormed && decide (idx < 256)
  | .stWrite o idx => o.wellFormed && decide (idx < 256)
  | .coreDarnDone core _ => decide (core < 128)
  | .channelDarn phys _ => decide (phys < 528)
  | .channelCopyDone phys => decide (phys < 528)
  | .spRowReplace phys bank row _ => decide (phys < 136) && decide (bank < 64) && decide (row < 260)
  | .darnCore o target _ => o.wellFormed && decide (target < 1024)
  | .darnChannel o target _ => o.wellFormed && decide (target < 1024)
  | .darnLane o target _ => o.wellFormed && decide (target < 1024)
  | .rootLeaseRenew _ => true
  | .rootLeaseExpire unit => decide (unit < 27)
  | .unitRestored unit => decide (unit < 27)
  | .dmaStreamExpire _ => true
  | .panelTimerExpire core _ => decide (core < 128)
  | .arrayTimerExpire panel => decide (panel < 16)
  | .hwTimerExpire => true
  | .selfReset => true
  | .aliveEdge => true
  | .fwStage o kind => o.wellFormed && decide (kind < 8)
  | .fwSwitch o kind _ => o.wellFormed && decide (kind < 8)
  | .fwDiscard o kind => o.wellFormed && decide (kind < 8)
  | .tenantRead o t => o.wellFormed && decide (t < 256)
  | .tenantCreate o t => o.wellFormed && decide (t < 256)
  | .tenantRemove o t _ => o.wellFormed && decide (t < 256)
  | .tenantForceRemove o t _ => o.wellFormed && decide (t < 256)
  | .removalDone t _ => decide (t < 256)
  | .attReport o enclave tenant _ _ => o.wellFormed && decide (enclave < 256) && decide (tenant < 256)
  | .reportDone o => o.wellFormed
  | .eye => true
  | .gateS core _ _ _ _ _ => decide (core < 16)
  | .gateE core _ _ _ _ _ => decide (core < 16)
  | .gret core _ _ => decide (core < 16)
  | .enclaveTrap core _ _ _ => decide (core < 16)
  | .enclaveRegister _ _ => true
  | .enclaveDestroy tag => decide (tag < 128)
  | .secureLeaseTake _ d => decide (d < 224)
  | .secureLeaseRelease _ d => decide (d < 224)
  | .auditExport o count => o.wellFormed && decide (count < 1048576)
  | .exportDone => true
  | .auditAck o _ => o.wellFormed
  | .viQuiesce o v => o.wellFormed && decide (v < 64)
  | .viQuiesceHard o v => o.wellFormed && decide (v < 64)
  | .viFreeze o v => o.wellFormed && decide (v < 64)
  | .viThaw o v => o.wellFormed && decide (v < 64)
  | .viSave o v _ _ => o.wellFormed && decide (v < 64)
  | .saveImageDone v => decide (v < 64)
  | .viRestore o v _ => o.wellFormed && decide (v < 64)
  | .restoreDone v => decide (v < 64)
  | .viReset o v => o.wellFormed && decide (v < 64)
  | .usb4LinkUp mode => decide (mode < 5)
  | .usb4LinkDown => true
  | .functionLevelReset fn => decide (fn < 65)
  | .hostCompletion tag _ _ _ => decide (tag < 512)
  | .bridgeReadExpire tag _ => decide (tag < 512)
  | .hostBarRequest _ _ => true
  | .prefetchExpire _ => true
  | .msixUnmask fn vec => decide (fn < 65) && decide (vec < 64)
  | .ubrMapRead o idx => o.wellFormed && decide (idx < 4096)
  | .ubrMapWrite o idx => o.wellFormed && decide (idx < 4096)
  | .ubrMapDisable o idx => o.wellFormed && decide (idx < 4096)
  | .ubrErrPop o => o.wellFormed
  | .canEnable o n _ => o.wellFormed && decide (n < 16)
  | .canFrameRx n _ _ => decide (n < 16)
  | .canTxDone n _ => decide (n < 16)
  | .busOff n => decide (n < 16)
  | .busOffRecovery n => decide (n < 16)
  | .queueDoorbell q _ => q.wellFormed
  | .queueEnable o q _ => o.wellFormed && q.wellFormed
  | .queueDisable o q _ => o.wellFormed && q.wellFormed
  | .ethFrameRx p _ _ _ => decide (p < 6)
  | .ethTxDone k => decide (k < 8)
  | .gateIntervalEnd p => decide (p < 6)
  | .gateBankTakeover p => decide (p < 6)
  | .syncRx p _ => decide (p < 6)
  | .syncTimeout _ => true
  | .gptpAccept o _ => o.wellFormed
  | .gptpHold o _ => o.wellFormed
  | .offsetWrite o _ => o.wellFormed
  | .portEnable o p _ => o.wellFormed && decide (p < 7)
  | .sluiceUpdate => true
  | .sluiceSend d => decide (d < 1024)
  | .sluiceEnable o _ => o.wellFormed
  | .sluPduRead o idx => o.wellFormed && decide (idx < 1024)
  | .sluPduWrite o idx => o.wellFormed && decide (idx < 1024)
  | .sluPduClear o idx => o.wellFormed && decide (idx < 1024)
  | .sluMapRead o idx => o.wellFormed && decide (idx < 4096)
  | .sluMapWrite o idx => o.wellFormed && decide (idx < 4096)
  | .sluMapClear o idx => o.wellFormed && decide (idx < 4096)
  | .readReq port _ _ => decide (port < 4)
  | .readData port _ _ => decide (port < 4)
  | .cwyKnot port _ _ => decide (port < 4)
  | .cwyAck port _ _ => decide (port < 4)
  | .cwyHello port _ _ => decide (port < 4)
  | .cwyError port _ _ => decide (port < 4)
  | .cwyKey port _ _ => decide (port < 4)
  | .cwyLane port _ _ lane _ => decide (port < 4) && decide (lane < 3)
  | .sealReq port _ _ => decide (port < 4)
  | .sealData port _ _ => decide (port < 4)
  | .helloTimer peer => decide (peer < 256)
  | .retransmit peer => decide (peer < 256)
  | .peerTimeout peer => decide (peer < 256)
  | .cwyLinkUp port lanes => decide (port < 4) && decide (lanes < 8)
  | .cwyLinkDown port => decide (port < 4)
  | .linkKeyDerived tenant peer => decide (tenant < 256) && decide (peer < 256)
  | .cwyPortEnable o p _ => o.wellFormed && decide (p < 4)
  | .peerRead o idx => o.wellFormed && decide (idx < 256)
  | .fecUncorr port lane _ _ => decide (port < 4) && decide (lane < 3)
  | .evqTailWrite o d _ => o.wellFormed && decide (d < 3)
  | .ufsLuWrite o u _ => o.wellFormed && decide (u < 32)
  | .lockWrite o blk => o.wellFormed && decide (blk < 22)
  | .registerWrite o off _ _ _ => o.wellFormed && decide (off < 1441792)
  | .resetRelease _ => true
  | .resetNLow => true
  | .pwrokFall => true
  | .supplyUndervolt _ => true
  | .thermalTrip => true
  | .alwRampDone => true
  | .vtotalLineEnd p => decide (p < 4)
  | .panelResume panel => decide (panel < 16)
  | .stageDone kind _ => decide (kind < 8)
  | .pwrokRise => true
  | .learnedEntryAgeing mac vid => decide (mac < 281474976710656) && decide (vid < 4096)
  | .busMasteringEnable fn => decide (fn < 65)
  | .canBusError n _ => decide (n < 16)

end Sys2Proof
end

