-- ==== Sys2Proof/Safety.lean ====
section
/-! DEFINITION. The terms in which claims are stated: the invariant of the tables, the log area that audit entries and event records
are written to, what a command register and a register write leave, what no command may take back. -/

namespace Sys2Proof.Machine

/-- The tables of registers, memory, poison, knots, key epochs and rollback floors are in canonical form, so that equal contents are equal
data; no EPOCH passes its 32 bits (R502). -/
structure State.Inv (s : State) : Prop where
  regs   : Sparse.wf RegMap.reset s.regs = true
  mem    : Memory.wf s.mem = true
  poison : Sparse.wf (fun _ => false) s.poison = true
  knots  : Sparse.wf (fun _ => 0) s.knots = true
  epochs : Sparse.wf (fun _ => 0) s.epochs = true
  floors : Sparse.wf (fun _ => 0) s.trust.store.floors = true
  top    : ∀ k, s.epoch k ≤ 0xFFFFFFFF

/-- May an origin give a command register a command now (R527, R637, R640)? -/
def State.granted (s : State) (o : Origin) (c : CmdReg) : Prop := mayWrite o c.writers = true ∧ s.auditOpen o = true

/-- The state in which a command register's command acts: INDEX has taken the written value. -/
def State.indexed (s : State) (c : CmdReg) (idx : Nat) : State := s.setFld c.key c.index idx

/-- What a granted command that left `t` and answers `code` ends in (R640, R525): STATUS takes the code, and the write is audited with
it, PENDING counting as applied. -/
def State.commandDone (s : State) (o : Origin) (c : CmdReg) (t : State) (code : Nat) : State :=
  let u := t.setFld c.key c.status code
  u.auditLog o c.kind (if c.pend = some code then 0 else code) (setupAddr c.key) (s.reg c.key).toNat (u.reg c.key).toNat

/-- What a granted command leaves, whatever code it answers. -/
def State.commanded (s : State) (o : Origin) (c : CmdReg) (idx : Nat) (act : State → State × Nat) : State :=
  let r := act (s.indexed c idx)
  s.commandDone o c r.1 r.2

/-- A write of value `v` to register `k` is applied whole and leaves the word `w` (R637 to R643, R676, R527): the origin reaches set-up
space, the audit log is open to it, the unit's domain is on, and no field that changes is another writer's, locked or frozen. -/
def State.writes (s : State) (o : Origin) (k : Nat) (v w : Word) : Prop :=
  setupOrigin o = true ∧ s.auditOpen o = true ∧
  ∃ r i j, RegMap.find (k % RegMap.bankSize) = some (r, i, j) ∧ s.unitOff r i = false ∧ s.writtenWord o k r i v = (w, 0)

/-- The state with such a write done: the word stored and audited, and a counter written with 0 without its SAT bit (R484, R525). -/
def State.landed (s : State) (o : Origin) (k : Nat) (w : Word) : State := (s.commitWrite o k w 0).clearSat k

/-- What the software of a safety pair checks before it acts on a result of sampled data (R448): the completion code, with the slots it
uses valid; a seal whose FRAME follows the last one it accepted, in half-range; an age within the function's limit. -/
def resultUsable (code : Nat) (slotsValid : Bool) (frame last : BitVec 16) (age limit : Nat) : Bool :=
  (code == codeDone || code == codeDoneLate || (code == codeDoneVoid && slotsValid)) && frame - last == 1 && decide (age ≤ limit)

/-- A byte that logging may write: of the audit ring (R526), or of an enabled event queue (R645). -/
def State.logByte (s : State) (a : Nat) : Prop :=
  (reservedBase ≤ a ∧ a < reservedBase + 128 * auditSize) ∨
  ∃ d, d < 3 ∧ s.bit (Reg.EVQ_CFG d) Fd.GEN_EVQ_CFG_0_EN = true ∧
    s.fld (Reg.EVQ_CFG d) Fd.GEN_EVQ_CFG_0_BASE * 16 ≤ a ∧
    a < s.fld (Reg.EVQ_CFG d) Fd.GEN_EVQ_CFG_0_BASE * 16 + 16 * sizeOfCode (s.fld (Reg.EVQ_CFG d) Fd.GEN_EVQ_CFG_0_SIZE_CODE)

/-- A register in which counting, events and audit entries leave their marks: a counter and the SAT words of its block, the heads of
the event queues, the counts of lost records and of the refusals at a stopped rim, the audit log's own registers. -/
def logReg (k : Nat) : Prop :=
  k / 0x10000 = 15 ∨ k = Reg.GEN_SAT ∨ k = Reg.PWR_RIM_REFUSE_CNT ∨ k = Reg.PWR_SAT ∨
  (∃ d, d < 3 ∧ (k = Reg.EVQ_HEAD d ∨ k = Reg.GEN_EVQ_DROP_CNT d))

/-- The registers in which one count shows: the counter, and the word of its SAT bit (R484). -/
def counterRegs (c k : Nat) : Prop := k = c ∨ ∃ b, satOf c = some b ∧ k = b.word

/-- From s to t nothing changes but the registers that p names, what logging writes (registers, bytes, messages, the audit chain, which stopped
rims an event record has met), and the answer given. -/
structure State.Quiet (p : Nat → Prop) (s t : State) : Prop where
  rest : t = { s with
    regs := t.regs, mem := t.mem, poison := t.poison, out := t.out, audit := t.audit, resp := t.resp
    sys := { s.sys with rimRaised := t.sys.rimRaised } }
  regs : ∀ k, ¬ p k → ¬ logReg k → t.reg k = s.reg k
  mem  : ∀ a, ¬ s.logByte a → t.readByte a = s.readByte a

/-- Between two states no rollback floor, key EPOCH, BOOT_COUNT or journal sequence has gone back, and the queue is the same. -/
structure State.Guarded (s t : State) : Prop where
  floors : ∀ k, s.floor k ≤ t.floor k
  epochs : ∀ k, s.epoch k ≤ t.epoch k
  boots  : s.trust.store.boots ≤ t.trust.store.boots
  seq    : s.journal.seq ≤ t.journal.seq
  queue  : t.pending = s.pending

/-- The commands that act on a device in reset: the pins, the supplies and the sensors (R661, R670, R671). -/
def isPin : Instr → Bool
  | .resetRelease _ => true
  | .resetNLow => true
  | .pwrokFall => true
  | .pwrokRise => true
  | .supplyUndervolt _ => true
  | .thermalTrip => true
  | _ => false

end Sys2Proof.Machine
end

