-- ==== Sys2Proof/Certificates/Slice0/Obligations.lean ====
section
/-! DEFINITION. The statements for the provers. First what holds of every command, then for each family the states and operands
in which each of its commands takes its effect, then the rules of the manual family by family. -/

open Sys2Proof Sys2Proof.Machine

/-! ### The block as a whole -/

/-- A step takes the command at the front of the queue and is exec of it on the state with the queue's rest. -/
def Obligations.StepTakesTheFront : Prop :=
  ∀ (c : Instr) (rest : List Instr) (s : State), s.pending = c :: rest → step s = exec c { s with pending := rest }

/-- R37: on every tick device time advances by 5 × (1 + A × 2^-32) ns, in units of 2^-32 ns, and by more than nothing. With no command
waiting the block takes one such tick, and nothing else changes but that the bridge sends its oldest posted write (log 10), with its page
metadata where it is sealed (log 84). -/
def Obligations.IdleTakesOneTick : Prop :=
  ∀ s : State, s.pending = [] → s.sys.up = true → s.fld Reg.TIME_STATUS Fd.TIME_STATUS_REF_LOSS = 0 →
    let amount : Int := 5 * (2 ^ 32 + signed32 (s.fld Reg.TIME_RATE_ADJ Fd.TIME_RATE_ADJ_ADJ))
    0 < amount ∧
    let t : State := { s with time := s.time + BitVec.ofInt 96 amount }
    (s.bridge.posted = [] → step s = .next t) ∧
    (∀ p l, s.bridge.posted = p :: l →
      let u : State := { t with
        bridge := { s.bridge with posted := l }
        out := s.out ++ [.hostWrite p.fn p.host p.bytes p.isSealed] }
      step s = .next (if p.isSealed then (pagesOf p.addr p.bytes.length).foldl (State.sealPage p) u else u))

/-- R508, R509: a page of a sealed posted write carries its metadata with it: a 32 B record at META_BASE + 32 × its index within the granule,
with the GCM tag, the page's write counter, one higher than at its last write, and POISON set when the key of the write has been retired. -/
def Obligations.SealedPagesCarryMetadata : Prop :=
  ∀ (s : State) (p : Posted) (page c : Nat), Sparse.wf (fun _ => 0) s.bridge.counters = true →
    Sparse.get (fun _ => 0) page s.bridge.counters = c + 1 → c + 1 < 2 ^ 64 →
    let t := State.sealPage p s page
    Sparse.get (fun _ => 0) page t.bridge.counters = c + 2 ∧
    ∃ record : List Byte, t.out = s.out ++ [.hostMeta p.fn (4096 * p.metaBase + 32 * (page % 16384)) record] ∧ record.length = 32 ∧
      (record.drop 16).take 8 = leBytes 8 (c + 1) ∧
      ((record.drop 24).headD 0 = 0 ↔ s.live p.owner = true ∧ s.epoch p.owner = p.epoch)

/-- R671, R673: while the device is in reset nothing acts but its pins, supplies and sensors. -/
def Obligations.NothingActsInReset : Prop :=
  ∀ (c : Instr) (s : State), s.sys.up = false → isPin c = false → exec c s = .next s

/-- No command faults and none is refused: every refusal of the manual is an answer and a next state (R98). -/
def Obligations.EveryCommandAnswers : Prop :=
  ∀ (c : Instr) (s : State), ∃ t, exec c s = .next t

/-- Every step keeps the tables of registers, memory, poison, key epochs and rollback floors in canonical form, and every EPOCH within
its 32 bits. -/
def Obligations.StepKeepsInvariant : Prop :=
  ∀ s t : State, s.Inv → step s = .next t → t.Inv

/-- The invariant holds at reset. -/
def Obligations.ResetHasInvariant : Prop := State.reset.Inv

/-- R499, R502: no command lowers a rollback floor, a key's EPOCH or BOOT_COUNT, or sets the journal's sequence back, a reset included;
and no command touches the queue of those that wait. -/
def Obligations.NoCommandTakesBack : Prop :=
  ∀ (c : Instr) (s t : State), s.Inv → exec c s = .next t → s.Guarded t

/-- What the manual gives for reset: GEN_ID (R644), event routing (R648), the channel map (R102), the core map in compute mode (R215), the
reaction codes of R456, knots 0 (R277), the telltale of the pins (R459, R671), and nothing waiting. -/
def Obligations.ResetValues : Prop :=
  let s := State.reset
  s.sys.up = false ∧ s.pending = [] ∧ s.time = 0 ∧
  s.fld Reg.GEN_ID Fd.GEN_ID_PART = 0x880 ∧ s.fld Reg.GEN_ID Fd.GEN_ID_STEPPING = 1 ∧
  (∀ b, b < 22 → s.fld (Reg.GEN_EVT_ROUTE b) Fd.GEN_EVT_ROUTE_DEST = if b = 12 then 7 else 3) ∧
  (∀ n, n < 512 → s.physChan n = if n < 256 then n else n + 8) ∧
  (∀ n, n < 128 → s.physOf n = n ∧ s.coreMode n = 0 ∧ s.coreTenant n = 0) ∧
  (List.range 16).map s.reactEach = [1, 2, 1, 2, 2, 1, 1, 1, 0, 2, 2, 2, 1, 2, 2, 2] ∧
  (List.range 16).map s.reactLast = [2, 2, 2, 2, 2, 2, 1, 1, 1, 2, 2, 2, 1, 2, 2, 2] ∧
  (∀ k, k < 16384 → s.knot k = 0)

/-- R671: RESET_N low, PWROK low, an undervoltage and a thermal trip each put the device in reset: every register at its reset value, DRAM
contents lost. What outlasts a reset stays: xSPI NOR and RPMB (R494, R499), the journal (R479) and the epochs (R502). -/
def Obligations.ResetCommandsReset : Prop :=
  ∀ (s : State) (dram : Bool),
    let gone := fun (t : State) => t.regs = [] ∧ t.mem = [] ∧ t.sys.up = false ∧ t.jobs = [] ∧ t.trust.store = s.trust.store ∧
      t.journal = s.journal ∧ t.epochs = s.epochs ∧ t.pending = s.pending
    (∃ t, exec .resetNLow s = .next t ∧ gone t ∧ t.sys.resetN = false ∧ t.sys.pwrok = s.sys.pwrok) ∧
    (∃ t, exec .pwrokFall s = .next t ∧ gone t ∧ t.sys.pwrok = false ∧ t.sys.tripped = false) ∧
    (∃ t, exec (.supplyUndervolt dram) s = .next t ∧ gone t ∧ t.sys.dramLow = (s.sys.dramLow || dram) ∧ t.sys.coreLow = (s.sys.coreLow || !dram)) ∧
    (s.sys.pwrok = true → ∃ t, exec .thermalTrip s = .next t ∧ gone t ∧ t.sys.tripped = true) ∧
    (∃ t, exec .pwrokRise s = .next t ∧ t = { s with sys := { s.sys with pwrok := true, coreLow := false, dramLow := false } }) ∧
    (s.sys.up = true → ∀ l, s.watch.lostAt = some l → s.bit Reg.SPARE_TIMER Fd.SPARE_TIMER_SELF_RESET_EN = true →
      l + 1000000 * max 1 (s.fld Reg.SPARE_TIMER Fd.SPARE_TIMER_SELF_RESET_MS) ≤ s.now → ∃ t, exec .selfReset s = .next t ∧ gone t)

/-- R497, R498, R670: with PWROK high and nothing else holding reset, RESET_RELEASE starts the device exactly when the root key is read, a
slot of kind 1 holds an image that verifies, and, where RPMB is read, its SVN is not below its floor. A device that started has a live
hypervisor tenant, and BOOT_COUNT is one more where RPMB is read. (That firmware below its floor leaves the device in reset is the
model's choice, log 41.) -/
def Obligations.ResetReleaseStarts : Prop :=
  ∀ (s : State) (b : BootRead), s.sys.up = false → s.sys.pwrok = true → { s.sys with resetN := true }.released = true →
    let s1 : State := { s with sys := { s.sys with resetN := true } }
    ∃ t, exec (.resetRelease b) s = .next t ∧
      (t.sys.up = true ↔ b.puf = true ∧ ∃ x, s1.pickSlot b 1 (fun _ bs => imgGood 1 (2 ^ 21) none bs) = some x ∧
        (b.rpmb = true → s.floor 1 ≤ imgSvn x.2)) ∧
      (t.sys.up = true → t.live 0x02 = true ∧ (b.rpmb = true → t.trust.store.boots = s.trust.store.boots + 1))

/-! ### Where each command takes its effect, family by family

Each clause names the states and operands in which a command takes effect, and the next state that it then answers with. The commands
whose effect is one word or a few fields are given their values; the others name the operation of the model that is their effect, and
the rules further down say what those operations do. -/

/-- Device time, tacks and FSYNC pins (R36 to R63): what fires, what times out, what the tack window and the time registers do. -/
def Obligations.TimeCommandsComplete : Prop :=
  ∀ s : State, s.sys.up = true →
    (∀ n, n < 4096 → s.tackDue (s.tack n) = true → s.tackFirst n = true → exec (.tackFire n) s = .next ((s.tackDone n).fireDue n).conclude) ∧
    (∀ n w, (s.tack n).wait = some w → (s.tack n).enable = true → s.preMet (s.tack n) w.threshold = true → s.tackTurn n = true →
      exec (.tackLateFire n) s = .next ((s.tackDone n).lateFire n w).conclude) ∧
    (∀ n w, (s.tack n).wait = some w → (s.tack n).enable = true → s.preMet (s.tack n) w.threshold = false → w.since + w.limit ≤ s.now →
      exec (.tackTimeout n) s = .next (s.dropWait n .timeout).conclude) ∧
    (∀ o i, s.granted o (tackSel o) →
      exec (.tackRead o i) s = .next (s.commandDone o (tackSel o)
        ((s.indexed (tackSel o) i).putWords (bankKey o Reg.TIME_TACK_D0) (tackWords (s.tack (i % 4096)))) 0)) ∧
    (∀ o i, s.granted o (tackSel o) → exec (.tackWrite o i) s = .next (s.commanded o (tackSel o) i (fun t => t.tackWrite o (i % 4096)))) ∧
    (∀ o i, s.granted o (tackSel o) → (s.tack (i % 4096)).shut o = false →
      exec (.tackDisable o i) s = .next (s.commanded o (tackSel o) i (fun t => t.tackDisable o (i % 4096)))) ∧
    (∀ o i, s.granted o (tackSel o) →
      exec (.tackClear o i) s = .next (s.commandDone o (tackSel o)
        ((s.indexed (tackSel o) i).setTack (i % 4096) { s.tack (i % 4096) with late := 0, skip := 0, timeout := 0, sat := 0 }) 0)) ∧
    (∀ n e, (s.fsyncPin n).pulseEnd = some e → e ≤ s.now →
      exec (.fsyncPulseEnd n) s = .next (s.setFsync n { s.fsyncPin n with pulseEnd := none })) ∧
    (∀ o n (v w : Word), n < 16 → Fd.TIME_FSYNC_CFG_OVERLAP.of v = 0x3FFF → s.writes o (Reg.TIME_FSYNC_CFG n) v w →
      exec (.fsyncCfgWrite o n v) s = .next (
        let t := s.landed o (Reg.TIME_FSYNC_CFG n) w
        let stop := !t.bit (Reg.TIME_FSYNC_CFG n) Fd.TIME_FSYNC_CFG_EN ||
          (s.fld (Reg.TIME_FSYNC_CFG n) Fd.TIME_FSYNC_CFG_POL != t.fld (Reg.TIME_FSYNC_CFG n) Fd.TIME_FSYNC_CFG_POL)
        t.setFsync n { configured := (t.fsyncPin n).configured || mayWrite o [.selvage, .hypervisor, .safety]
                       pulseEnd := if stop then none else (t.fsyncPin n).pulseEnd })) ∧
    (∀ o, setupReader o = true →
      exec (.timeNowLoRead o) s = .next { s with
        timeLatch := Sparse.put (fun _ => 0) o.code (s.now / 2 ^ 32 % 2 ^ 32) s.timeLatch
        resp := .value (s.now % 2 ^ 32) }) ∧
    (∀ o (v w : Word), s.bit Reg.TIME_CTRL Fd.TIME_CTRL_SERVO = false → clampAdj v.toNat = (v.toNat, false) →
      s.writes o Reg.TIME_RATE_ADJ v w → exec (.timeRateAdjWrite o v) s = .next (s.landed o Reg.TIME_RATE_ADJ w)) ∧
    (s.bit Reg.TIME_STATUS Fd.TIME_STATUS_REF_LOSS = false →
      exec .refLoss s = .next (((((s.setFld Reg.TIME_STATUS Fd.TIME_STATUS_REF_LOSS 1).setFld Reg.TIME_STATUS Fd.TIME_STATUS_LOCKED 0).setFld
        Reg.TSN_GPTP_STATUS Fd.TSN_GPTP_STATUS_GM_LOST 1).raise 1 0x000C noUnit).report 11 0))

/-- The current allowance, the power domains, rims and rate counts (R65 to R96). -/
def Obligations.PowerCommandsComplete : Prop :=
  ∀ s : State, s.sys.up = true →
    (∀ h r, s.unitAsks h = some r → s.awaitsGrant h = false →
      s.alw.grants.any (fun g => g.req.holder == h && (g.standing || { g.req with made := r.made } == r)) = false →
      exec (.alwRequest ⟨h, s.leaseGen h⟩) s = .next (s.ask r)) ∧
    (∀ r, s.alwHead = some r → s.mayGrant r = true →
      exec .alwGrant s = .next (if !r.lift && s.alwServe.heldAtOnce r then s.alwServe.onGrant r.holder else s.alwServe)) ∧
    (∀ h gen, s.alw.grants.any (fun g => !g.standing && g.req.holder == h && g.req.gen == gen) = true →
      exec (.alwRelease h gen) s = .next
        (s.dropGrants (fun g => !g.standing && g.req.holder == h && g.req.gen == gen)).afterRelease) ∧
    (∀ x, s.alw.ramp = some x → x.ends ≤ s.time.toNat → exec .alwRampDone s = .next (s.rampEnd x)) ∧
    (s.alw.ramp = none → s.fallLeft = 0 → exec .alwRampDone s = .next s.afterRelease) ∧
    (∀ o (dram : Bool) (v w : Word),
      let k := if dram then Reg.ALW_DRAM_BUDGET else Reg.ALW_BUDGET
      let f := if dram then Fd.ALW_DRAM_BUDGET_DRAM_QA else Fd.ALW_BUDGET_CORE_QA
      let held := max (budgetRange dram).1 (min (budgetRange dram).2 (f.of v))
      s.writes o k (f.put v held) w → mayWrite o [.selvage, .hypervisor] = true → s.locked 2 = false →
      exec (.alwBudgetWrite o dram v) s = .next (
        let t := if held = f.of v then s.landed o k w else (s.landed o k w).setFld Reg.ALW_STATUS Fd.ALW_STATUS_CLAMP 1
        if t.alwOver then t.paceUnder else t.afterRelease)) ∧
    (∀ o d, s.granted o pwrReq → mayRequest o (d % 256) = true →
      exec (.pwrDomainOn o d) s = .next (s.commanded o pwrReq d (fun t => t.requestOn o (d % 256)))) ∧
    (∀ d, s.domainOn d = false → s.holdsGrant (.domain d) = true → exec (.pwrDomainPowered d) s = .next ((s.powered d).spareTests d).conclude) ∧
    (∀ o d, s.granted o pwrReq → mayRequest o (d % 256) = true → s.secureHeld (d % 256) = false →
      exec (.pwrDomainOff o d) s = .next (s.commanded o pwrReq d (fun t => t.requestOff o (d % 256)))) ∧
    (∀ d, d < 577 → exec (.rimStart d) s = .next (s.setBit (Reg.PWR_RIM_ON (d / 64)) (d % 64) true)) ∧
    (∀ d, d < 577 → s.rimOn d = true → exec (.rimStop d) s = .next { s.setBit (Reg.PWR_RIM_ON (d / 64)) (d % 64) false with
      sys := { s.sys with rimRaised := s.sys.rimRaised.erase d } }) ∧
    (∀ d, s.rimOn d = true → exec (.rimSlip d) s = .next (s.rimSlip d)) ∧
    (∀ counts, exec (.rateWindowEnd counts) s = .next (s.rateWindow counts)) ∧
    (∀ o (v w : Word), s.writes o Reg.PWR_RATE_FLOOR (Fd.PWR_RATE_FLOOR_CLR_MIN.put v 1) w → mayWrite o [.selvage, .hypervisor] = true →
      Fd.PWR_RATE_FLOOR_CLR_MIN.of (Fd.PWR_RATE_FLOOR_CLR_MIN.put v 1) = 1 →
      exec (.clrMin o v) s = .next (State.rateRearm ((List.range 24).foldl (fun a i => a.setFld (Reg.PWR_RATE i) Fd.PWR_RATE_MIN 0x3FFF)
        (s.landed o Reg.PWR_RATE_FLOOR w))))

/-- Bonded memory and the staging of outputs (R97 to R130, R424 to R441). -/
def Obligations.MemoryCommandsComplete : Prop :=
  ∀ s : State, s.sys.up = true →
    (∀ o addr errs jrnl,
      let a := addr / 64 * 64
      s.mayReadDram o a = true → s.rimOn (s.rowOf a).chan = true →
      (s.isPoisoned a 64 = true → exec (.beatRead o (.addr addr) errs jrnl) s = .next { s with resp := poisonFor o }) ∧
      (s.isPoisoned a 64 = false → errs = 0 → exec (.beatRead o (.addr addr) errs jrnl) s = .next { s with resp := .bytes (s.readBytes a 64) }) ∧
      (s.isPoisoned a 64 = false → 1 ≤ errs → errs ≤ 3 →
        exec (.beatRead o (.addr addr) errs jrnl) s =
          .next { s.correctedBeat o (s.rowOf a) a errs jrnl with resp := .bytes (s.readBytes a 64) }) ∧
      (s.isPoisoned a 64 = false → 4 ≤ errs → errs ≤ 5 →
        exec (.beatRead o (.addr addr) errs jrnl) s = .next ((s.setPoison a 1).badBeat o (s.rowOf a) a jrnl))) ∧
    (∀ o c b r k errs jrnl, s.bit Reg.MEM_CTRL Fd.MEM_CTRL_SCRUB_EN = true →
      exec (.beatRead o (.phys c b r k) errs jrnl) s = .next (match s.logicalChan c with
        | some n => s.readBeat .device (dramAddr n (localOf b r k)) errs jrnl
        | none => s.readSpare ⟨c, b, r⟩ errs jrnl)) ∧
    (∀ c b r, s.memst.tracked.any (fun t => t.isRow ⟨c, b, r⟩ && t.errs.all (fun e => decide (s.rowWin < s.now - e.1))) = true →
      exec (.rowWindowExpire c b r) s = .next (s.untrack ⟨c, b, r⟩)) ∧
    (∀ c b r k, s.memst.replacing.find? (fun x => x.1 == ⟨c, b, r⟩) = some (⟨c, b, r⟩, k) →
      exec (.rowReplaceDone c b r) s = .next (s.rowReplaced ⟨c, b, r⟩ k)) ∧
    (∀ g (temp : Int), g < 8 →
      exec (.refreshTierChange g temp) s = .next ((s.setFld (Reg.MEM_TEMP g) Fd.MEM_TEMP_TJ (BitVec.ofInt 8 (max (-128) (min 127 temp))).toNat).setFld
        (Reg.MEM_TEMP g) Fd.MEM_TEMP_TIER (nextTier (s.fld (Reg.MEM_TEMP g) Fd.MEM_TEMP_TIER) temp))) ∧
    (s.bit Reg.MEM_CTRL Fd.MEM_CTRL_SCRUB_EN = true → s.memst.scrubFrom + s.scrubNs ≤ s.now →
      exec (.scrubPeriodEnd true) s = .next { s with memst := { s.memst with
        scrubPass := s.memst.scrubPass + 1, passRuns := false, scrubFrom := s.now } } ∧
      (s.memst.passRuns = false → exec (.scrubPeriodEnd false) s =
        .next (State.bump { s with memst := { s.memst with passRuns := true } } Reg.MEM_SCRUB_LATE_CNT noUnit))) ∧
    (∀ o, setupReader o = true → exec (.memErrPop o) s = .next { s.popMemErr with resp := .value (s.popMemErr.reg Reg.MEM_ERR_W0).toNat }) ∧
    (∀ o (v w : Word), s.writes o Reg.MEM_STAGE v w → mayWrite o [.selvage, .hypervisor] = true → s.locked 4 = false →
      exec (.memStageWrite o v) s = .next ((s.landed o Reg.MEM_STAGE w).setFld Reg.MEM_STAGE Fd.MEM_STAGE_MOVE_PENDING 1)) ∧
    (s.bit Reg.MEM_STAGE Fd.MEM_STAGE_MOVE_PENDING = true → s.memst.extents = [] → s.jobs.all (fun j => j.extents.isEmpty) = true →
      exec .stageMove s = .next (State.setFld { s with memst := { s.memst with
          stageBase := s.fld Reg.MEM_STAGE Fd.MEM_STAGE_BASE * 2 ^ 26
          stageSize := stageUnits (s.fld Reg.MEM_STAGE Fd.MEM_STAGE_SIZE) } } Reg.MEM_STAGE Fd.MEM_STAGE_MOVE_PENDING 0)) ∧
    (∀ e, s.memst.extents.contains e = true → (s.holdsGrant (.copyBack 0) || s.holdsGrant (.copyBack 1)) = true →
      exec (.copyBackDone e) s = .next (
        let t := s.movedHome e
        if t.memst.extents.isEmpty then (t.alwDrop (.copyBack 0)).alwDrop (.copyBack 1) else t)) ∧
    (∀ n tag b r q j t, (s.core n).stalledDrain = some (tag, b) → (s.core n).job = some (r, q) → s.job? r q = some j →
      s.roomFor r q (j.isCk n) (s.drainLines (j.tensor b.binding) b) = some t →
      exec (.stageWaitEnd n) s = .next ((s.claimFor j n b t).modCore n (fun c => { c with
        tags := updWhere (fun x => x == tag) (fun x => { x with stalled := false }) c.tags }))) ∧
    (∀ r q j, s.job? r q = some j → (j.stage = .running ∨ j.stage = .preempting) → j.bothRan = true →
      (j.cores ++ j.ckCores).all (fun n => (s.core n).tags.isEmpty) = true → exec (.jobCommit r q) s = .next (s.runEnded j)) ∧
    (∀ r q j, s.job? r q = some j → j.stage = .checking → s.verdictsOpen j = false → exec (.jobCommit r q) s = .next (s.commitRun j)) ∧
    (∀ k t j, s.seals.find? (fun t => t.checker == some k && t.granted) = some t → s.job? t.ring t.seq = some j → s.checkerWaits k = false →
      exec (.sealCheckDone k) s = .next (s.sealDone t k j))

/-- Instructions of the inference cores (R161 to R250): a core whose sequencer may issue runs one and moves on; a transfer tag is free
for FILL, DRAIN and XCHG. -/
def Obligations.CoreInstructionsComplete : Prop :=
  ∀ (s : State) (n : Nat) (j : Job), s.sys.up = true → s.runs n = some j →
    (∀ sp len sc scLen err, exec (.mload n sp len sc scLen err) s =
      .next (s.issue n (fun t j => t.accesses n j err (fun u => u.mload n sp len sc scLen)))) ∧
    (∀ pair b int cnt e sp stride sc scStride clear swap err, matB pair = some (b, int) → 1 ≤ cnt → cnt ≤ 64 → e + cnt ≤ 64 →
      b = 16 ∨ j.pat.graphics = false →
      exec (.mstep n pair cnt e sp stride sc scStride clear swap err) s =
        .next (s.issue n (fun t j => t.accesses n j err (fun u => u.mstep n j pair b int cnt e sp stride sc scStride clear swap)))) ∧
    (∀ e v half clear rq err, exec (.mdrain ⟨n, err⟩ e v half clear rq) s =
      .next (s.issue n (fun t j => t.withErr n j err (fun u => u.mdrain n j (e % 64) (v % 256) (half % 2) clear rq)))) ∧
    (∀ v sp fmt sc err, exec (.vload n v sp fmt sc err) s =
      .next (s.issue n (fun t j => t.accesses n j err (fun u => u.vload n j (v % 256) sp fmt sc)))) ∧
    (∀ v sp fmt sc raw err, exec (.vstore n v sp fmt sc raw err) s =
      .next (s.issue n (fun t j => t.withErr n j err (fun u => u.vstore n j (v % 256) sp fmt sc raw)))) ∧
    (∀ dst op err, exec (.vectorOp ⟨n, err⟩ dst op) s =
      .next (s.issue n (fun t j => t.withErr n j err (fun u => u.vectorOp n j (dst % 256) op)))) ∧
    (j.pat.graphics = false → ∀ tag, tag < 16 → (s.core n).tagFree tag = true →
      (∀ src sp sc, exec (.fill n tag src sp sc) s = .next (s.issue n (fun t j => t.fill n j tag src sp sc))) ∧
      (∀ band sp sc err, exec (.drain ⟨n, err⟩ tag band sp sc) s =
        .next (s.issue n (fun t j => t.withErr n j err (fun u => u.drain n j tag band sp sc)))) ∧
      (∀ dest dst sp len err, exec (.xchg ⟨n, err⟩ tag dest dst sp len) s =
        .next (s.issue n (fun t j => t.withErr n j err (fun u => u.xchg n j tag dest dst sp len))))) ∧
    (∀ tag, (s.core n).tagFree tag = true → exec (.waitTag n tag) s = .next (s.issue n (fun t _ => t))) ∧
    (∀ tag, (s.core n).tagFree tag = false →
      exec (.waitTag n tag) s = .next (s.issue n (fun t _ => t.modCore n (fun c => { c with waitTag := some tag })))) ∧
    exec (.fence n) s = .next (s.issue n (fun t _ => t)) ∧
    exec (.branch n none) s = .next (s.issue n (fun t _ => t)) ∧
    (∀ k, exec (.branch n (some k)) s = .next ((s.traced j n).modCore n (fun c =>
      { c with pc := k, span := c.span + j.pat.graphics.toNat, stepOk := false }))) ∧
    ((s.core n).tags = [] →
      exec (.cheap n) s = .next (if s.cheapHeld j n then s.modCore n (fun c => { c with held := true })
        else if descQmode j.desc then s.cheapBarrier j n else s.cheapOn j n)) ∧
    (∀ dest base size cap sp err, exec (.qpush ⟨n, err⟩ dest base size cap sp) s =
      .next (s.issue n (fun t j => t.accesses n j err (fun u => u.qpush n j dest base size cap sp)))) ∧
    (∀ base, exec (.qpop n base) s = .next (s.issue n (fun t j => t.qpop n j base))) ∧
    (j.pat.graphics = false → j.isCk n = false → ∀ pb err,
      let assist := fun (extra : List Byte → Bool) (f : State → List Byte → State) =>
        s.issue n (fun t j => t.accesses n j err (fun u =>
          let b := (u.core n).spBytes pb 64
          if pb + 64 ≤ spSize ∧ pbOk b ∧ extra b then f u b else u.fault j n 8))
      (∀ score box anch first cells, exec (.scan ⟨n, err⟩ pb score box anch first cells) s =
        .next (assist (scanOk ⟨score, box, anch, first, cells⟩) (fun u b => u.scan n j ⟨score, box, anch, first, cells⟩ b))) ∧
      exec (.sort ⟨n, err⟩ pb) s = .next (assist (fun _ => true) (fun u b => u.sortAssist n b)) ∧
      (∀ first rounds, exec (.suppress ⟨n, err⟩ pb first rounds) s = .next (assist (fun _ => true) (fun u b => u.suppress n j first rounds b))) ∧
      exec (.emit ⟨n, err⟩ pb) s = .next (assist (fun _ => true) (fun u b => u.emitList n j b)))

/-- Graphics on the cores (R390 to R403), and the ends of transfers and spans. -/
def Obligations.GraphicsAndSpansComplete : Prop :=
  ∀ (s : State) (n : Nat), s.sys.up = true →
    (∀ j x y prims split spill, s.runs n = some j → j.pat.graphics = true →
      (s.mayTake j n x y false split spill = true → exec (.tileSetup n x y prims false split spill) s =
        .next (s.issue n (fun a j => (a.tileGiven j x y split spill).tilePass n x y split spill))) ∧
      (∀ l, s.mayTake j n x y true split spill = true → s.mayShare prims = true → s.shareTile j n x y prims = some l →
        exec (.tileSetup n x y prims true split spill) s =
          .next (State.issue { s with tiles := l } n (fun a j => (a.tileGiven j x y split spill).tilePass n x y split spill)))) ∧
    (∀ j prim block, s.runs n = some j → j.pat.graphics = true →
      (match s.tileOf j n with
        | none => true
        | some t => t.granted prim block) = true → exec (.interlockAcquire n prim block) s = .next (s.issue n (fun a _ => a))) ∧
    (∀ j prim block, s.runs n = some j → j.pat.graphics = true →
      exec (.interlockRelease n prim block) s = .next (s.issue n (fun a j => match a.tileOf j n with
        | none => a
        | some t => { a with tiles := updWhere (fun u => u == t) (fun u => u.release prim block) a.tiles }))) ∧
    (∀ j dst, s.runs n = some j → j.pat.graphics = true →
      exec (.attributeInterpolation n dst) s = .next (s.issue n (fun a _ => State.modCore { a with free := a.free + 1 } n (fun c =>
        c.putLanes (dst % 256) ((List.range 64).map (fun i => Config.freeCell a.free i)))))) ∧
    (∀ tag t r q j, (s.core n).tags.find? (fun t => t.tag == tag && !t.stalled && t.awaits == 0) = some t → (s.core n).job = some (r, q) →
      s.job? r q = some j → (j.stage = .running ∨ j.stage = .preempting) → exec (.transferDone n tag) s = .next ((s.transferDone n j t).forcedSave r q)) ∧
    (∀ j, s.jobOn n = some j → j.pat.maxSpan < (s.core n).span → exec (.spanOverrun n) s = .next (s.spanOverrun n j)) ∧
    (∀ j e, s.jobOn n = some j → (s.core n).wdogEnd = some e → e ≤ s.now → (s.core n).span ≤ j.pat.maxSpan →
      exec (.watchdogExpire n) s = .next (s.watchdog j))

/-- The array's scheduler, its mode switches and the hot set (R291 to R330). -/
def Obligations.SchedulerCommandsComplete : Prop :=
  ∀ s : State, s.sys.up = true →
    exec .jobPlace s = .next s.placeNext ∧
    (∀ r q j, s.job? r q = some j → j.stage = .preempting → j.saving = false → j.forced = false → j.preemptAt + 30000 ≤ s.now →
      (j.cores ++ j.ckCores).all (fun n => s.coreMode n != 2) = true →
      exec (.forcedPreempt r q) s = .next (s.force j)) ∧
    (∀ r q j, s.job? r q = some j → j.stage = .preempting → j.saving = true → j.saves ≠ [] →
      exec (.saveDone r q) s = .next (State.conclude (match j.withdrawn with
        | some why => s.endJob r q codeCancelled (cancelDetail why)
        | none => s.endSave j))) ∧
    (∀ r q j v, s.job? r q = some j → j.resv = some v → v.expiry ≤ s.now → j.stage = .held →
      exec (.reservationExpire r q v.gen) s = .next (s.modJob r q (fun k => { k with resv := none }))) ∧
    (∀ r q g, s.job? r q = none → exec (.reservationExpire r q g) s = .next (s.bump Reg.SPARE_STALE_CNT noUnit)) ∧
    (∀ n, n < 128 → s.coreMode n = 2 → s.switchHeld n = true → exec (.modeSwitchDone n) s = .next (s.switchDone n).conclude) ∧
    (∀ n, (s.core n).scrubs = true → s.holdsGrant (.core n) = true → exec (.scrubDone (some n)) s = .next (s.scrubbed n).conclude) ∧
    exec (.scrubDone none) s = .next (s.dropLines (fun l => s.departed l.origin)) ∧
    (∀ f, s.sched.flush = some f → exec .flushEnd s = .next (s.flushEnd f)) ∧
    (∀ o v (w : Word), s.writes o Reg.ARY_SUSPEND (BitVec.ofNat 64 (2 ^ (v % 64))) w →
      exec (.viResume o v) s = .next (s.resumed (s.landed o Reg.ARY_SUSPEND w))) ∧
    (∀ o i, s.granted o (hotSel o) →
      exec (.hotRead o i) s = .next (s.commandDone o (hotSel o)
        ((s.indexed (hotSel o) i).putWords (bankKey o Reg.ARY_HOT_D0) (hotWords (s.hotEntry (i % hotCount)))) 0)) ∧
    (∀ o i, s.granted o (hotSel o) →
      exec (.hotRegister o i) s = .next (s.commanded o (hotSel o) i (fun t => t.hotRegister (t.hotFrom o) (i % hotCount)))) ∧
    (∀ o i, s.granted o (hotSel o) → (s.hotEntry (i % hotCount)).state ≠ 0 → s.hotInUse (i % hotCount) = false →
      exec (.hotUnregister o i) s = .next (s.commandDone o (hotSel o)
        (((((s.indexed (hotSel o) i).unpin (i % hotCount)).alwDrop (.loader (i % hotCount))).setHot (i % hotCount) {}).hotRetry) 0)) ∧
    (∀ o i, s.granted o (hotSel o) → (s.hotEntry (i % hotCount)).state ≠ 0 →
      exec (.hotSetFlags o i) s = .next (
        let t := s.indexed (hotSel o) i
        let u := t.setHot (i % hotCount) { s.hotEntry (i % hotCount) with pin := (t.hotFrom o).pin, cpin := (t.hotFrom o).cpin }
        s.commandDone o (hotSel o) ((if (t.hotFrom o).cpin then u else u.unpin (i % hotCount)).hotRetry) 0)) ∧
    (∀ o i, s.granted o (hotSel o) → (s.hotEntry (i % hotCount)).state ≠ 0 → (s.indexed (hotSel o) i).evictable (i % hotCount) = true →
      exec (.hotEvict o i) s = .next (s.commandDone o (hotSel o) ((s.indexed (hotSel o) i).hotDrop (i % hotCount)).hotRetry 0)) ∧
    (∀ e, (s.hotEntry e).state = 2 → (s.hotEntry e).waitRoom = false → s.holdsGrant (.loader e) = true →
      exec (.hotLoadDone e none) s = .next (s.loadFailed e).conclude ∧
      (∀ bs, exec (.hotLoadDone e (some bs)) s = .next (State.conclude (
        if bs.length = (s.hotEntry e).length ∧ s.sourceOk (s.hotEntry e) = true ∧
            Image.admitOk (fun off n => (bs.drop off).take n) (s.hotEntry e).length = true
        then s.loaded e bs else s.loadFailed e)))) ∧
    (∀ e b, (s.hotEntry e).state ≠ 2 → exec (.hotLoadDone e b) s = .next (s.bump Reg.SPARE_STALE_CNT noUnit)) ∧
    (s.bit Reg.ARY_SAVE_CFG Fd.ARY_SAVE_CFG_MOVE_PENDING = true → s.jobs.all (fun j => j.saves.isEmpty) = true →
      exec .savePoolMove s = .next (State.setFld { s with sched := { s.sched with
          saveBase := s.fld Reg.ARY_SAVE_CFG Fd.ARY_SAVE_CFG_BASE * 2 ^ 26
          saveSize := min 64 (max 3 (s.fld Reg.ARY_SAVE_CFG Fd.ARY_SAVE_CFG_SIZE)) } } Reg.ARY_SAVE_CFG Fd.ARY_SAVE_CFG_MOVE_PENDING 0)) ∧
    (s.bit Reg.ARY_HOT_CFG Fd.ARY_HOT_CFG_MOVE_PENDING = true → s.hotIdle = true → exec .hotRegionMove s = .next s.moveHot)

/-- Rings, descriptors, waits, leases and knots (R251 to R290). -/
def Obligations.RingCommandsComplete : Prop :=
  ∀ s : State, s.sys.up = true →
    (∀ u (v : Word), (s.doorbell u).2.2 = true ∨ (s.doorbell u).2.1 = false →
      exec (.doorbellWrite u v) s = .next (s.store (s.doorbell u).1 (leBytes 8 v.toNat))) ∧
    (∀ u (v : Word), (s.doorbell u).2.2 = false → (s.doorbell u).2.1 = true →
      exec (.doorbellWrite u v) s = .next ((s.store (s.doorbell u).1 (leBytes 8 v.toNat)).readUnit u)) ∧
    (∀ u far, (s.doorbell u).2 = (true, true) → s.pollDue u = true →
      ((s.unitRing u).polling = true → exec (.doorbellPoll u far) s = .next ((s.pollTick u).poll u far)) ∧
      ((s.unitRing u).polling = false → exec (.doorbellPoll u far) s = .next (s.pollTick u))) ∧
    (∀ o n far, mayWake o n = true → n < ringCount → s.bit (Reg.RING_CFG n) Fd.RING_CFG_EN = true → s.bit (Reg.RING_CFG n) Fd.RING_CFG_POLLED = true →
      exec (.ringWake o n far) s = .next ((s.setRing n { s.ring n with polling := true, polledAt := s.now }).poll (.ring n) far)) ∧
    (∀ n far q d l, (s.ring n).fetched = (q, d) :: l →
      let t := s.setRing n { s.ring n with fetched := l }
      (descKind d ≠ 0 → descKind d ≠ 2 →
        exec (.jobDescriptor n far) s = .next ((t.learn (0x10 + ringVi n) far).admitJob n q d).conclude) ∧
      (descKind d = 0 → exec (.knotDescriptor n) s = .next (t.admitKnot n q d).conclude) ∧
      (descKind d = 2 → exec (.cancelDescriptor n) s = .next (t.admitCancel n q d).conclude)) ∧
    (∀ n q j, s.job? n q = some j → j.stage = .waiting → j.waitEnd ≤ s.now → s.leasesRun (ringVi n) = true → s.oldLease j j.gen = false →
      (s.waitMet j.desc = true → exec (.knotWaitTimeout n q j.gen) s = .next s.conclude) ∧
      (s.waitMet j.desc = false →
        exec (.knotWaitTimeout n q j.gen) s = .next ((s.bump Reg.KNOT_TMO_CNT noUnit).endJob n q codeTimeout 1).conclude)) ∧
    (∀ n q g, s.job? n q = none →
      exec (.knotWaitTimeout n q g) s = .next (s.bump Reg.KNOT_TMO_CNT noUnit) ∧
      exec (.jobLeaseExpire n q g) s = .next (s.bump Reg.RING_SEQ_BAD_CNT noUnit)) ∧
    (∀ n q j, s.job? n q = some j → j.entered = true → j.stage ≠ .faulted → j.leaseEnd ≤ s.now → s.leasesRun (ringVi n) = true → s.oldLease j j.gen = false →
      exec (.jobLeaseExpire n q j.gen) s = .next (State.conclude (match j.withdrawn with
        | some why => s.endJob n q codeCancelled (cancelDetail why)
        | none => s.endJob n q codeTimeout 2))) ∧
    (∀ o n far (v w : Word), n < ringCount →
      let t := s.learn (0x10 + ringVi n) far
      t.writes o (Reg.RING_CFG n) (Fd.RING_CFG_EN.put v 1) w →
      exec (.ringEnable o n v far) s = .next (State.ringCfgAfter o n (Fd.RING_CFG_EN.put v 1) t (t.landed o (Reg.RING_CFG n) w))) ∧
    (∀ o n (v w : Word), n < ringCount → s.writes o (Reg.RING_CFG n) (Fd.RING_CFG_EN.put v 0) w →
      exec (.ringDisable o n v) s = .next (State.ringCfgAfter o n (Fd.RING_CFG_EN.put v 0) s (s.landed o (Reg.RING_CFG n) w))) ∧
    (∀ o n (v w : Word), n < ringCount → s.writes o (Reg.RING_CFG n) (Fd.RING_CFG_CANCEL.put v 1) w →
      exec (.ringCancel o n v) s = .next (State.ringCfgAfter o n (Fd.RING_CFG_CANCEL.put v 1) s (s.landed o (Reg.RING_CFG n) w))) ∧
    (∀ o k, s.granted o (knotSel o) → o ≠ .safety →
      let t := s.indexed (knotSel o) k
      exec (.knotSelRead o k) s =
        .next (s.commandDone o (knotSel o) (t.setReg (bankKey o Reg.KNOT_DATA) (BitVec.ofNat 64 (s.knot (k % knotCount)))) 0) ∧
      exec (.knotSelSet o k) s =
        .next (s.commandDone o (knotSel o) (t.knotSet (k % knotCount) (t.reg (bankKey o Reg.KNOT_DATA)).toNat).conclude 0) ∧
      exec (.knotSelAdd o k) s =
        .next (s.commandDone o (knotSel o) (t.knotAdd (k % knotCount) (t.reg (bankKey o Reg.KNOT_DATA)).toNat).conclude 0)) ∧
    (∀ o v (x w : Word), v < 64 → s.rangeOk v (Fd.KNOT_RANGE_BASE.of x) (Fd.KNOT_RANGE_COUNT.of x) = true →
      s.writes o (Reg.KNOT_RANGE v) x w →
      exec (.knotRangeWrite o v x) s = .next (State.rangeChanged v s (s.landed o (Reg.KNOT_RANGE v) w)))

/-- Intake and the media engine (R331 to R364, R655). -/
def Obligations.IntakeCommandsComplete : Prop :=
  ∀ s : State, s.sys.up = true →
    (∀ rx vc fc hdr,
      exec (.frameStart rx vc fc hdr) s = .next ((s.csiChans rx vc).foldl (fun a n =>
        ((((a.headerError n hdr).checkFc n fc).1).liveStart n fc ((a.headerError n hdr).checkFc n fc).2).linkError n hdr true) s)) ∧
    (∀ rx vc dt hdr ok bytes, typeSupported dt = true →
      exec (.longPacket rx vc dt hdr ok bytes) s = .next (((s.csiChans rx vc).filter (fun n => s.chSrc n Fd.CH_SRC_DT == dt)).foldl (fun a n =>
        (a.headerError n hdr).onCurrent n (fun b q => (b.modChan n (fun c => c.modSample q (fun m =>
          { m with lastData := s.now, lines := m.lines ++ [bytes] }))).linkError n hdr ok)) s)) ∧
    (∀ rx vc hdr,
      exec (.frameEnd rx vc hdr) s = .next (((s.csiChans rx vc).foldl (fun a n =>
        ((a.headerError n hdr).onCurrent n (fun b q => (b.linkError n hdr true).complete n q)).modChan n (fun c =>
          { c with cur := none, ghost := false })) s).conclude)) ∧
    (∀ port slots, exec (.tdmFrame port slots) s = .next (((s.chansOf 1 port).foldl (fun a n => a.tdmFrame n slots) (s.tdmSend port)).conclude)) ∧
    (∀ n q m, (s.chan n).open? q = some m → s.chanOn n = true → s.anchor n m + s.lateNs n ≤ s.now →
      exec (.lateBudgetExpire n q) s =
        .next (s.settleSample n q (if m.started then 2 else 1) id).conclude) ∧
    (∀ o n (v w : Word), n < channelCount → s.bit (Reg.CH_SRC n) Fd.CH_SRC_EN = false → Fd.CH_SRC_UNORD.of (Fd.CH_SRC_EN.put v 1) = s.chSrc n Fd.CH_SRC_UNORD →
      s.writes o (Reg.CH_SRC n) (Fd.CH_SRC_EN.put v 1) w → (s.landed o (Reg.CH_SRC n) w).bit (Reg.CH_SRC n) Fd.CH_SRC_EN = true →
      (s.landed o (Reg.CH_SRC n) w).unordered n = s.unordered n →
      exec (.channelEnable o n v) s = .next ((s.landed o (Reg.CH_SRC n) w).enableChan n)) ∧
    (∀ o n (v w : Word), n < channelCount → s.bit (Reg.CH_SRC n) Fd.CH_SRC_EN = true →
      s.writes o (Reg.CH_SRC n) (Fd.CH_SRC_EN.put v 0) w → (s.landed o (Reg.CH_SRC n) w).bit (Reg.CH_SRC n) Fd.CH_SRC_EN = false →
      (s.landed o (Reg.CH_SRC n) w).unordered n = s.unordered n →
      exec (.channelDisable o n v) s = .next ((s.landed o (Reg.CH_SRC n) w).disableChan n)) ∧
    (∀ o n (on : Bool) (w : Word),
      let v := Fd.CH_SRC_CFG_ERR.put (Fd.CH_SRC_UNORD.put (s.reg (Reg.CH_SRC n)) on.toNat) 0
      n < channelCount → s.bit (Reg.CH_SRC n) Fd.CH_SRC_EN = false → s.unordAllowed o n (Fd.CH_SRC_UNORD.of v) = true →
      s.writes o (Reg.CH_SRC n) v w → (s.landed o (Reg.CH_SRC n) w).bit (Reg.CH_SRC n) Fd.CH_SRC_EN = false →
      exec (.unordWrite o n on) s = .next (
        let t := s.landed o (Reg.CH_SRC n) w
        if t.unordered n = s.unordered n then t
        else (t.modChan n (fun c => { c with owner := if t.unordered n then o.code else 0 })).setFld Reg.INTK_CTRL Fd.INTK_CTRL_UNORD_COUNT
          t.unordCount)) ∧
    (∀ n far, s.chanOn n = true → (s.chan n).queue.waiting = true →
      let t := s.learn 0 far
      let a := t.sourceArea n
      let e := t.sourceEntry a (s.chan n).queue.head
      let q : Ring := { (s.chan n).queue with head := ((s.chan n).queue.head + 1) % 2 ^ 32 }
      let done := (t.modChan n (fun c => { c with queue := q.entryDone e.seq })).queueStatus a (q.entryDone e.seq)
      t.readFails (a.entry (s.chan n).queue.head) 32 = false →
      (s.chSrc n Fd.CH_SRC_KIND = 1 → exec (.sourceEntryFetch n far) s = .next (t.takePlayback n q e)) ∧
      (s.chSrc n Fd.CH_SRC_KIND = 3 → s.slotFree n (s.chan n).nextQ = true →
        exec (.sourceEntryFetch n far) s = .next (done.replaySample n e).conclude) ∧
      (s.chSrc n Fd.CH_SRC_KIND = 2 → (s.sessionOf n).isSome = true →
        exec (.sourceEntryFetch n far) s = .next (if e.bad then (done.voidSample n 8 e.time e.sid).conclude else t.takeEntry n q e))) ∧
    (∀ k i q refs e (pic : Option (List (List Byte))),
      let n := s.fld (Reg.MEDIA_DEC k) Fd.MEDIA_DEC_CHANNEL
      s.chanOn n = true → s.chSrc n Fd.CH_SRC_KIND = 2 → s.sessionOf n = some k → (s.chan n).entries[i]? = some e →
      (s.chan n).mayDecode i e = true →
      let st := s.pictureStatus n e refs pic
      let s0 := if st = 6 then s.bump (Reg.MEDIA_DEC_ERR k) noUnit else s
      let s1 := if e.bad then s0 else s0.noteRead (s.place e.addr) e.size
      let s2 := (s1.entryOut n i e st).assignUpTo 65536 n q
      q < (s2.chan n).nextQ →
      ((s2.chan n).open? q = none → exec (.pictureDecoded k i q ⟨refs, pic⟩) s = .next (s2.bump (Reg.CH_LATE_DROP n) n).conclude) ∧
      (∀ m, (s2.chan n).open? q = some m →
        exec (.pictureDecoded k i q ⟨refs, pic⟩) s = .next ((((s2.beginSample n q e.time 0 false).modChan n (fun c =>
          { c.modSample q (fun x => { x with sid := e.sid, status := st, lines := if st = 0 then pic.getD [] else [] }) with cur := none })).complete n q).conclude))) ∧
    (s.bit Reg.MEDIA_ENC0 Fd.MEDIA_ENC0_EN = true → s.holdsGrant .decoder = true → s.encoder.active = false →
      s.encoder.next < s.knot (s.fld (Reg.CH_KNOT s.encChan) Fd.CH_KNOT_SAMPLE_KNOT) →
      (s.encoder.queue.waiting = true →
        let idr := s.encoder.forceIdr || decide (max 1 (s.encFld Fd.MEDIA_ENC0_GOP) ≤ s.encoder.count)
        exec .encodeStart s = .next { s with encoder := { s.encoder with
          active := true, idr := idr, forceIdr := false, count := if idr then 1 else s.encoder.count + 1 } }) ∧
      (s.encoder.queue.waiting = false →
        exec .encodeStart s = .next (((State.bump { s with encoder := { s.encoder with forceIdr := true } } Reg.MEDIA_ENC_SKIP noUnit).encRelease).conclude))) ∧
    (∀ bytes, s.bit Reg.MEDIA_ENC0 Fd.MEDIA_ENC0_EN = true → s.encoder.active = true →
      exec (.accessUnitDone bytes) s = .next (((s.unitOut bytes).encRelease.knotAdd (s.fld Reg.MEDIA_ENC2 Fd.MEDIA_ENC2_KNOT) 1).conclude)) ∧
    (∀ o k (v w : Word), k < 2 → s.bit (Reg.MEDIA_DEC k) Fd.MEDIA_DEC_EN = false → s.writes o (Reg.MEDIA_DEC k) v w →
      (s.landed o (Reg.MEDIA_DEC k) w).bit (Reg.MEDIA_DEC k) Fd.MEDIA_DEC_EN = true → (s.landed o (Reg.MEDIA_DEC k) w).decoderValid k = true →
      exec (.decoderEnable o k v) s = .next (s.landed o (Reg.MEDIA_DEC k) w).mediaCharge.conclude) ∧
    (∀ o (v w : Word), s.bit Reg.MEDIA_ENC0 Fd.MEDIA_ENC0_EN = false → s.writes o Reg.MEDIA_ENC0 v w →
      let t := s.landed o Reg.MEDIA_ENC0 w
      t.bit Reg.MEDIA_ENC0 Fd.MEDIA_ENC0_EN = true → t.encoderValid = true →
      exec (.encoderEnable o v) s = .next (State.conclude (State.mediaCharge ({
        t.setFld Reg.MEDIA_ENC1 Fd.MEDIA_ENC1_GEN (t.fld Reg.MEDIA_ENC1 Fd.MEDIA_ENC1_GEN + 1) with
        encoder := ({ next := (t.chan t.encChan).place } : Encoder) } : State))))

/-- Fusion and tracks (R365 to R389): a running pass ends and its sample is counted, lists of tracks are taken and written, grids go on
and off. -/
def Obligations.FusionCommandsComplete : Prop :=
  ∀ s : State, s.sys.up = true →
    (∀ g p torn, s.fusion.running = some p → p.grid = g → s.gridOn g = true →
      exec (.gridPassDone g torn) s = .next (State.conclude (State.nextPass 3
        { s.passEnd g p torn with fusion := { (s.passEnd g p torn).fusion with running := none } }))) ∧
    (∀ g a, (s.grid g).await = some a → s.gridOn g = true →
      let k := s.knot (s.fld (Reg.FUSE_TRK_W3 g) Fd.FUSE_TRK_W3_LIST_KNOT)
      let slot := s.listSlot g a.num
      k ≠ a.knot →
      (s.readFails slot 36864 = false → ofLe (s.peekBytes slot 8) = a.tg → ofLe (s.peekBytes (slot + 8) 4) = a.num % 2 ^ 32 →
        exec (.trackStep g) s = .next (s.trackStep g a.num a.tg a.stale (some (s.detections slot)))) ∧
      (s.readFails slot 36864 = true ∨ ofLe (s.peekBytes slot 8) ≠ a.tg → exec (.trackStep g) s = .next (s.setGrid g { s.grid g with await := some { a with knot := k } }))) ∧
    (∀ g num bs rest, (s.grid g).lists = (num, bs) :: rest → s.gridOn g = true →
      exec (.trackStepDone g) s = .next (State.conclude (State.knotSet (State.store (s.setGrid g { s.grid g with lists := rest })
        (s.fld (Reg.FUSE_TRK_W2 g) Fd.FUSE_TRK_W2_TBASE * 4096 + num % slotsOf (s.fld (Reg.FUSE_TRK_W2 g) Fd.FUSE_TRK_W2_NT_M1) * 36864) bs)
        (s.fld (Reg.FUSE_TRK_W3 g) Fd.FUSE_TRK_W3_OUT_KNOT) (num + 1)))) ∧
    (∀ o g (v w : Word), g < 2 → s.bit (Reg.FUSE_GRID_CFG g) Fd.FUSE_GRID_CFG_EN = false →
      s.writes o (Reg.FUSE_GRID_CFG g) (Fd.FUSE_GRID_CFG_EN.put v 1) w →
      (s.landed o (Reg.FUSE_GRID_CFG g) w).bit (Reg.FUSE_GRID_CFG g) Fd.FUSE_GRID_CFG_EN = true →
      exec (.gridEnable o g v) s = .next ((s.landed o (Reg.FUSE_GRID_CFG g) w).enableGrid g)) ∧
    (∀ o g (v w : Word), g < 2 → s.bit (Reg.FUSE_GRID_CFG g) Fd.FUSE_GRID_CFG_EN = true →
      s.writes o (Reg.FUSE_GRID_CFG g) (Fd.FUSE_GRID_CFG_EN.put v 0) w →
      (s.landed o (Reg.FUSE_GRID_CFG g) w).bit (Reg.FUSE_GRID_CFG g) Fd.FUSE_GRID_CFG_EN = false →
      exec (.gridDisable o g v) s = .next ((s.landed o (Reg.FUSE_GRID_CFG g) w).disableGrid g))

/-- Display pipes and the safety plane (R404 to R423). -/
def Obligations.DisplayCommandsComplete : Prop :=
  ∀ (s : State) (p : Nat), s.sys.up = true →
    (s.pipeOn p = true → (s.pipe p).held = true → s.linesPassed p (s.tim0 p Fd.PIPE_TIM0_VTOTAL) = true →
      exec (.heldFrameStart p) s = .next (((s.scanned p).modPipe p (fun x => { x with freeRun := false })).startFrame p).conclude) ∧
    (s.pipeOn p = true → (s.pipe p).started = true → (s.pipe p).held = false → s.bit (Reg.PIPE_STATUS p) Fd.PIPE_STATUS_HOLDING = false →
      s.linesPassed p (s.tim0 p Fd.PIPE_TIM0_VTOTAL) = true →
      exec (.vtotalLineEnd p) s = .next ((s.scanned p).setStatus p Fd.PIPE_STATUS_HOLDING 1)) ∧
    (s.pipeOn p = true → ((s.pipe p).started = false ∨ (s.bit (Reg.PIPE_STATUS p) Fd.PIPE_STATUS_HOLDING = true ∧
        s.linesPassed p (s.tim0 p Fd.PIPE_TIM0_VTOTAL + max 1 (s.pipeCfg p Fd.PIPE_CFG_HOLD_MAX)) = true)) →
      exec (.freeRun p) s = .next (
        let t := s.bump (Reg.PIPE_FREE_RUN p) p
        let u := if (s.pipe p).freeRun = true ∨ s.display.early.any (fun e => e.pipe == p) = true then t else t.raise 11 (Reg.PIPE_FREE_RUN p % 65536) p
        ((u.modPipe p (fun x => { x with freeRun := true })).startFrame p).conclude)) ∧
    (∀ o (v w : Word), p < 4 → s.bit (Reg.PIPE_CFG p) Fd.PIPE_CFG_EN = false →
      s.writes o (Reg.PIPE_CFG p) (Fd.PIPE_CFG_EN.put v 1) w → (s.landed o (Reg.PIPE_CFG p) w).bit (Reg.PIPE_CFG p) Fd.PIPE_CFG_EN = true →
      exec (.pipeEnable o p v) s = .next ((s.landed o (Reg.PIPE_CFG p) w).enablePipe p)) ∧
    (∀ o (v w : Word), p < 4 → s.bit (Reg.PIPE_CFG p) Fd.PIPE_CFG_EN = true → s.bit (Reg.SP_CFG p) Fd.SP_CFG_EN = false →
      s.writes o (Reg.PIPE_CFG p) (Fd.PIPE_CFG_EN.put v 0) w → (s.landed o (Reg.PIPE_CFG p) w).bit (Reg.PIPE_CFG p) Fd.PIPE_CFG_EN = false →
      exec (.pipeDisable o p v) s = .next ((s.landed o (Reg.PIPE_CFG p) w).disablePipe p)) ∧
    (s.bit (Reg.PIPE_CFG p) Fd.PIPE_CFG_EN = true → (s.pipe p).training = true → s.holdsGrant (.pipe p) = true →
      exec (.linkTrainingDone p true) s = .next (s.modPipe p (fun x => { x with training := false, trained := true })) ∧
      exec (.linkTrainingDone p false) s = .next (((s.modPipe p (fun x => { x with training := false, trained := false })).setStatus p
        Fd.PIPE_STATUS_LINK_FAIL 1).raise 11 (Reg.PIPE_STATUS p % 65536) p)) ∧
    (∀ o (v w : Word), p < 4 → s.watch.badSp.contains p = false → s.bit (Reg.SP_CFG p) Fd.SP_CFG_EN = false →
      s.writes o (Reg.SP_CFG p) (Fd.SP_CFG_EN.put v 1) w → (s.landed o (Reg.SP_CFG p) w).bit (Reg.SP_CFG p) Fd.SP_CFG_EN = true →
      exec (.spEnable o p v) s = .next ((s.landed o (Reg.SP_CFG p) w).takeTable p)) ∧
    (∀ o (v w : Word), p < 4 → mayWrite o [.selvage, .safety] = true → s.writes o (Reg.SP_TABLE p) v w →
      (s.landed o (Reg.SP_TABLE p) w).bit (Reg.SP_CFG p) Fd.SP_CFG_EN = true →
      exec (.spTableWrite o p v) s = .next ((s.landed o (Reg.SP_TABLE p) w).modPipe p (fun x => { x with staged := true }))) ∧
    (∀ i t, ((s.pipe p).table.map telltaleOf)[i]? = some t → s.pipeOn p = true → (s.pipe p).started = true →
      s.bit (Reg.SP_CFG p) Fd.SP_CFG_EN = true →
      crc32c ((List.range (t.w * t.h)).flatMap (fun k => leBytes 4 (s.telltalePixel p t (s.lit p i) (k % t.w) (k / t.w)))) ≠
        (if s.lit p i then t.crcOn else t.crcOff) →
      exec (.telltaleCrc p i) s = .next ((((if s.lit p i || t.off != 0 then
          s.noteSafe (if s.lit p i then t.on else t.off) (4 * t.w * t.h) else s).setFld (Reg.SP_MISMATCH p) ⟨i, i⟩ 1).bump (Reg.PIPE_SP_CRC p) p).report srcSpCrc p)) ∧
    (∀ o (w : Word) e, s.writes o Reg.DSP_EARLY 1 w → mayWrite o [.selvage, .hypervisor] = true →
      (s.landed o Reg.DSP_EARLY w).display.early = some e →
      exec (.earlyViewEnd o) s = .next (
        let t := (s.landed o Reg.DSP_EARLY w).setFld Reg.DSP_EARLY Fd.DSP_EARLY_ACTIVE 0
        { t with
          display := { t.display with early := none }
          alw := { t.alw with grants := t.alw.grants.map (fun g =>
            if g.req.holder = .channel e.channel ∨ g.req.holder = .pipe e.pipe then { g with standing := false } else g) } }))

/-- Comparison, lockstep, self-test and the error pins (R442 to R468). -/
def Obligations.SafetyCommandsComplete : Prop :=
  ∀ s : State, s.sys.up = true →
    (∀ k t j jrnl, s.checkers.cmps.find? (fun t => t.unit == some k && t.granted) = some t → s.job? t.ring t.seq = some j →
      exec (.compareDone k jrnl) s = .next (s.compared t k j jrnl)) ∧
    (∀ p, p < 2 → (s.pair p).runs = true → (s.pair p).halted = false → exec (.lockstepDivergence p) s = .next (s.diverge p)) ∧
    (∀ p, p < 2 → (s.pair p).runs = true → (s.pair p).halted = true →
      exec (.pairRestart p) s = .next (
        let t := s.setPair p { runs := true }
        { t with
          watch := { t.watch with
            secLeases := t.watch.secLeases.filter (fun x => x.2 != .pair p)
            roots := Sparse.put (fun _ => 0) (25 + p) (t.now + 500000) t.watch.roots }
          darn := { t.darn with expired := t.darn.expired.erase (25 + p) } })) ∧
    (∀ k x missed, s.watch.opened.find? (fun o => o.slot == k && !o.started) = some x →
      (s.coresHeld x.cores = true → exec (.selftestStart k missed) s = .next (s.deferSlot x)) ∧
      (s.coresHeld x.cores = false → x.cores.all (fun n => (s.core n).test == some k && s.holdsGrant (.core n)) = true →
        s.clashes (s.stSlot k) x.cores = true → exec (.selftestStart k missed) s = .next (s.deferSlot x)) ∧
      (s.coresHeld x.cores = false → x.cores.all (fun n => (s.core n).test == some k && s.holdsGrant (.core n)) = true →
        s.clashes (s.stSlot k) x.cores = false → exec (.selftestStart k missed) s = .next (State.rotate { s with watch := { s.watch with
          opened := updWhere (fun x => x.slot == k) (fun x => { x with started := true }) s.watch.opened } } missed))) ∧
    (∀ n jrnl, s.goldenRuns n = true →
      exec (.goldenRunDone n true jrnl) s = .next (s.goldenPass n).conclude ∧
      exec (.goldenRunDone n false jrnl) s = .next (((s.endGolden n).report 9 n).darnCore n jrnl).conclude) ∧
    (∀ n, n < 128 → s.coreMode n ≠ 3 → s.domainOn (31 + n / 8) = true → s.coreDarning n = false →
      s.lastPass n + s.coverNs ≤ s.now + s.withdrawNs →
      exec (.coverDeadline n) s = .next ((if s.watch.due.contains n || (s.core n).test.isSome then s else s.withdrawCore n).coverMiss n)) ∧
    (s.safe.minEnd ≤ s.now → exec .pinMinExpire s = .next s.drivePins) ∧
    (∀ o (w : Word), s.writes o Reg.SAFE_PIN (Fd.SAFE_PIN_FORCE.put (s.reg Reg.SAFE_PIN) 1) w → s.bit Reg.SAFE_PIN Fd.SAFE_PIN_FORCE = false →
      (s.landed o Reg.SAFE_PIN w).bit Reg.SAFE_PIN Fd.SAFE_PIN_FORCE = true →
      exec (.safeForce o true) s = .next (s.landed o Reg.SAFE_PIN w).assertPins.drivePins) ∧
    (∀ o (w : Word), s.writes o Reg.SAFE_PIN (Fd.SAFE_PIN_FORCE.put (s.reg Reg.SAFE_PIN) 0) w →
      (s.landed o Reg.SAFE_PIN w).bit Reg.SAFE_PIN Fd.SAFE_PIN_FORCE = false →
      exec (.safeForce o false) s = .next (s.landed o Reg.SAFE_PIN w).drivePins) ∧
    (∀ (v w : Word), s.writes .safety Reg.SAFE_SW_ERR v w →
      exec (.swErr .safety v) s = .next (
        let t := s.landed .safety Reg.SAFE_SW_ERR w
        State.report { t with safe := { t.safe with swCode := v.toNat % 2 ^ 32 } } 15 0)) ∧
    (∀ o i, s.granted o (stSel o) →
      exec (.stRead o i) s = .next (s.commandDone o (stSel o)
        ((s.indexed (stSel o) i).putWords (bankKey o Reg.SAFE_ST_D0) (stWords (s.stSlot (i % 256)))) 0)) ∧
    (∀ o i, s.granted o (stSel o) → exec (.stWrite o i) s = .next (s.commanded o (stSel o) i (fun t => t.stWrite o (i % 256))))

/-- The debug unit (R505 to R510). -/
def Obligations.DebugCommandsComplete : Prop :=
  ∀ s : State, s.sys.up = true →
    (∀ targets sec, s.trust.record.bind (·.debugSec) = some sec → s.auditFull = false →
      exec (.debugAttach targets true) s = .next (
        let got := targets.filter (s.grantable sec)
        let t := s.auditDebug true s.trust.attached.length (s.trust.attached.length + got.length)
        if got = [] then (s.auditDebug false 0 0).answer .refused
        else State.answer { t with trust := { t.trust with
          attached := t.trust.attached ++ got.filter (fun x => !t.trust.attached.contains x), debugged := true } } (.value got.length))) ∧
    (∀ t on, s.trust.attached.contains t = true → exec (.debugHalt t on) s = .next (s.halt t on)) ∧
    (s.trust.attached ≠ [] → exec .debugDetach s = .next (
      let t := (s.trust.attached.foldl (fun a t => a.halt t false) s).auditDebug true s.trust.attached.length 0
      { t with trust := { t.trust with attached := [] } })) ∧
    (∀ r q j, s.trust.attached.contains (.job r q) = true → s.job? r q = some j →
      exec (.debugStep (.job r q)) s = .next (j.cores.foldl (fun a n => a.modCore n (fun c =>
        if c.wdogLeft.isSome then { c with stepOk := true } else c)) s) ∧
      (∀ n x, j.cores.contains n = true → x ≠ .timeCounter → exec (.debugRead (.job r q) n x) s = .next { s with resp := .value ((s.core n).debugRead x) }) ∧
      (∀ b n h x c code, decide (b < j.tens.length) = true → (j.tensor b).hasElem (n, h, x, c) = true → devOf (j.tensor b).addr = s.ownDev →
        ((j.tensor b).role = 0 →
          exec (.debugWrite (.job r q) (.element b n h x c code)) s = .next (s.writeInput (j.tensor b) (n, h, x, c) code)) ∧
        ((j.tensor b).role ≠ 0 → s.bothAtCheap j = true →
          exec (.debugWrite (.job r q) (.element b n h x c code)) s = .next (s.writeOutput j (j.tensor b) (n, h, x, c) code)))) ∧
    (∀ p, s.trust.attached.contains (.pair p) = true → (s.pair p).debug = true →
      exec (.debugStep (.pair p)) s = .next { s.setPair p { s.pair p with steps := (s.pair p).steps + 1 } with
        out := s.out ++ s.traceOf Origin.safety.code p (s.pair p).steps }) ∧
    (∀ p n, s.trust.attached.contains (.pair p) = true → exec (.debugRead (.pair p) n .timeCounter) s = .next { s with resp := .value s.now }) ∧
    (∀ t n x, s.trust.attached.contains t = false → exec (.debugRead t n x) s = .next { s with resp := .refused })

/-- Darning (R469 to R479). -/
def Obligations.DarningCommandsComplete : Prop :=
  ∀ s : State, s.sys.up = true →
    (∀ n d pass, s.darn.cores.find? (fun d => d.logical == n) = some d → s.domainOn (175 + d.spare) = true → s.holdsGrant (.spare d.spare) = true →
      exec (.coreDarnDone n pass) s = .next (s.coreDarned n d.spare pass).conclude) ∧
    (∀ phys jrnl n, s.darn.chanWait.contains phys = true → s.dieBusy (phys / 264) = false → s.logicalChan phys = some n →
      (∀ sp, s.freeChan (phys / 264) = some sp → exec (.channelDarn phys jrnl) s = .next (s.beginChan phys n sp jrnl).1) ∧
      (s.freeChan (phys / 264) = none → exec (.channelDarn phys jrnl) s = .next ((s.unwaitChan phys).raise 4 0x0100 phys))) ∧
    (∀ phys c, s.darn.copies.find? (fun c => c.old == phys) = some c → exec (.channelCopyDone phys) s = .next (s.chanCopied c)) ∧
    (∀ phys b r jrnl n, s.logicalCore phys = some n → s.darn.spWait.contains ⟨phys, b, r⟩ = true → (s.core n).job = none → (s.core n).test = none →
      exec (.spRowReplace phys b r jrnl) s = .next (s.replaceSpRow n ⟨phys, b, r⟩ jrnl).conclude) ∧
    (∀ o i jrnl, s.granted o spareCmd → i % 1024 < 128 → (s.indexed spareCmd i).coreDarning (i % 1024) = false →
      (s.indexed spareCmd i).spareFree (i % 1024) = true →
      exec (.darnCore o i jrnl) s = .next (
        let r := ((s.indexed spareCmd i).evacuate (i % 1024)).beginCore (i % 1024) jrnl
        s.commandDone o spareCmd r.1.conclude r.2)) ∧
    (∀ o i jrnl, s.granted o spareCmd → i % 1024 < 528 → s.darn.copies.any (fun c => c.old == i % 1024) = false →
      exec (.darnChannel o i jrnl) s = .next (s.commanded o spareCmd i (fun t => t.cmdChan (i % 1024) jrnl))) ∧
    (∀ o i jrnl, s.granted o spareCmd → i % 1024 / 4 < 4 → i % 1024 % 4 = 2 → s.cwy.changing.contains (i % 1024 / 4, 2) = false →
      exec (.darnLane o i jrnl) s = .next (s.commandDone o spareCmd ((s.indexed spareCmd i).dropLane (i % 1024 / 4) 2) 0))

/-- Leases, timers and ALIVE (R480 to R490). -/
def Obligations.LeaseCommandsComplete : Prop :=
  ∀ s : State, s.sys.up = true →
    (∀ units, exec (.rootLeaseRenew units) s = .next (
      let t := units.foldl State.renewRoot s
      if t.now < t.watch.hwEnd then { t with watch := { t.watch with hwEnd := t.now + hwLength } } else t)) ∧
    (∀ u, s.rooted u = true → s.rootEnd u ≤ s.now → s.darn.expired.contains u = false →
      exec (.rootLeaseExpire u) s = .next (s.rootExpired u)) ∧
    (∀ u, s.darn.restoring.contains u = true →
      exec (.unitRestored u) s = .next (
        let t := (rootDomains u).foldl (fun a d => a.setDomain d true) s
        let v : State := { t with darn := { t.darn with restoring := t.darn.restoring.erase u, expired := t.darn.expired.erase u } }
        ((v.setRootEnd u (v.now + rootLength)).resumeUnit u).conclude)) ∧
    (∀ x, exec (.dmaStreamExpire x) s = .next (s.abandon x).conclude) ∧
    (∀ n jrnl, n < 128 → s.coreMode n ≠ 3 → s.domainOn (s.coreDomain n) = true →
      exec (.panelTimerExpire n jrnl) s = .next ((s.darnCore n jrnl).domainDown (s.coreDomain n)).conclude) ∧
    (∀ p, p < 16 → s.domainOn (31 + p) = true → s.watch.panels.contains p = false → exec (.arrayTimerExpire p) s = .next (s.resetPanel p)) ∧
    (∀ p, s.watch.panels.contains p = true →
      exec (.panelResume p) s = .next ((State.freshPanel { s with watch := { s.watch with panels := s.watch.panels.erase p } } p).conclude)) ∧
    (s.watch.hwEnd ≤ s.now → s.watch.lostAt = none →
      exec .hwTimerExpire s = .next (State.drivePins (State.assertPins { s with watch := { s.watch with lostAt := some s.now } }))) ∧
    (s.leasesCurrent = true → s.watch.edgeAt + 500000 ≤ s.now →
      exec .aliveEdge s = .next { s with sys := { s.sys with alive := !s.sys.alive }, watch := { s.watch with edgeAt := s.now } })

/-- Firmware, tenants, attestation and the audit log (R491 to R534). -/
def Obligations.TrustCommandsComplete : Prop :=
  ∀ s : State, s.sys.up = true →
    (∀ o k, s.granted o fwCmd → exec (.fwStage o k) s = .next (s.commanded o fwCmd (k % 8) (fun t => t.stageImage (k % 8)))) ∧
    (∀ k x ok, s.trust.staging.find? (fun x => x.1 == k) = some x → exec (.stageDone k ok) s = .next (s.staged k x.2 ok)) ∧
    (∀ o k jrnl, s.granted o fwCmd → s.trust.staged.contains (k % 8) = true →
      exec (.fwSwitch o k jrnl) s = .next (s.commanded o fwCmd (k % 8) (fun t => t.switchSlot (k % 8) jrnl))) ∧
    (∀ o k, s.granted o fwCmd → s.trust.staged.contains (k % 8) = true →
      exec (.fwDiscard o k) s = .next (
        let t := s.indexed fwCmd (k % 8)
        s.commandDone o fwCmd { t with trust := { t.trust with
          staged := t.trust.staged.erase (k % 8), staging := t.trust.staging.filter (fun x => x.1 != k % 8) } } 0)) ∧
    (∀ o k, s.granted o (tenantSel o) → isTenant (k % 256) = true →
      exec (.tenantRead o k) s = .next (s.commandDone o (tenantSel o) ((s.indexed (tenantSel o) (k % 256)).setReg (bankKey o Reg.SEC_TENANT_D0)
        (BitVec.ofNat 64 (s.epoch (k % 256) * 2 ^ 32 + (s.tenant (k % 256)).conf.toNat * 8 + (s.tenant (k % 256)).state))) 0)) ∧
    (∀ o k, s.granted o (tenantSel o) → isInstance (k % 256) = true → (s.tenant (k % 256)).state ≠ 1 → (s.tenant (k % 256)).state ≠ 2 →
      s.epoch (k % 256) ≠ 0xFFFFFFFF →
      exec (.tenantCreate o k) s = .next (
        let t := s.indexed (tenantSel o) (k % 256)
        s.commandDone o (tenantSel o) ((t.setTenant (k % 256) { state := 1, conf := t.bit (bankKey o Reg.SEC_TENANT_D0) Fd.SEC_TENANT_D0_CONF }).auditLog
          .selvage .keySlot 0 (k % 256) (s.tenant (k % 256)).state 1) 0)) ∧
    (∀ o k jrnl, s.granted o (tenantSel o) → isInstance (k % 256) = true → (s.tenant (k % 256)).state = 1 →
      exec (.tenantForceRemove o k jrnl) s = .next (s.commanded o (tenantSel o) (k % 256) (fun t => t.removeTenant (k % 256) jrnl)) ∧
      (s.viState (k % 256 - 0x10) = 0 → (s.indexed (tenantSel o) (k % 256)).viState (k % 256 - 0x10) = 0 →
        exec (.tenantRemove o k jrnl) s = .next (s.commanded o (tenantSel o) (k % 256) (fun t => t.removeTenant (k % 256) jrnl)))) ∧
    (∀ k, s.trust.removing.contains k = true →
      let t := { s with trust := { s.trust with removing := s.trust.removing.erase k } }
      let e := min 0xFFFFFFFF (s.epoch k + 1)
      exec (.removalDone k true) s = .next (((((t.setEpoch k e).setTenant k { state := 3 }).jWrite jRemoval jDone k 0 0).auditLog .selvage .tenant 0 k
        (s.epoch k) e).tenantStatus k 0) ∧
      exec (.removalDone k false) s = .next (t.tenantStatus k 7)) ∧
    (∀ o enclave tenant wrap far,
      let t := s.learn 1 far
      let w := wrap && (originWriter o == some .usb4)
      t.granted o (attSel o) →
      exec (.attReport o enclave tenant wrap far) s = .next (t.commanded o (attSel o) (enclave % 256 * 65536 + tenant % 256 * 256 + w.toNat)
        (fun u => u.request o (enclave % 256) (tenant % 256) w))) ∧
    (∀ o r, s.trust.reports.find? (fun r => r.origin == o) = some r →
      exec (.reportDone o) s = .next ((State.store { s with trust := { s.trust with reports := s.trust.reports.filter (fun x => x.origin != o) } } r.out
        (s.reportBody r ++ signed136 (s.reportBody r))).setFld (bankKey o Reg.SEC_ATTEST) Fd.SEC_ATTEST_STATUS 0)) ∧
    (∀ n, exec (.auditExport .hypervisor n) s = .next ((s.setFld Reg.AUDIT_EXPORT Fd.AUDIT_EXPORT_COUNT n).startExport (n % 2 ^ 20))) ∧
    (∀ first n dest, s.trust.exporting = some (first, n, dest) →
      exec .exportDone s = .next ((((State.store { s with trust := { s.trust with exporting := none } } dest
        (s.exportEntries first n ++ s.exportTrailer first n)).setReg Reg.AUDIT_EXPORTED (BitVec.ofNat 64 (first + n))).auditLog .selvage .exported 0 dest
        first (first + n)).setFld Reg.AUDIT_EXPORT Fd.AUDIT_EXPORT_STATUS 0)) ∧
    (∀ v : Word, v.toNat ≤ (s.reg Reg.AUDIT_EXPORTED).toNat → (s.reg Reg.AUDIT_TAIL).toNat < v.toNat →
      exec (.auditAck .hypervisor v) s = .next (s.setReg Reg.AUDIT_TAIL v).auditSpace)

/-- R518 to R523: worlds, enclaves, gateways, secure leases. -/
def Obligations.WorldCommandsComplete : Prop :=
  ∀ s : State, s.sys.up = true →
    exec .eye s = .next s ∧
    (∀ c n target ret e regs, (s.hart c n).secure = false → (s.hart c n).enclave = 0 → e.secure = true → e.tag = 0 → (s.hart c n).stack.length < 4 →
      exec (.gateS c n target ret (some e) regs) s = .next (s.setHart c n { s.hart c n with
        regs := regsOf regs, trap := none, pc := target, secure := true, stack := ⟨ret, false⟩ :: (s.hart c n).stack })) ∧
    (∀ c n target ret e v regs, s.enclave? e.tag = some v → (s.hart c n).enclave = 0 → e.tag ≠ 0 → v.secure = e.secure → (s.hart c n).stack.length < 4 →
      e.resume = false →
      exec (.gateE c n target ret (some e) regs) s = .next (s.setHart c n { s.hart c n with
        pc := target, regs := keepArgs (regsOf regs), trap := none, secure := v.secure, enclave := e.tag
        stack := ⟨ret, (s.hart c n).secure⟩ :: (s.hart c n).stack })) ∧
    (∀ c n r rs regs, (s.hart c n).stack = r :: rs →
      exec (.gret c n regs) s = .next (s.setHart c n { s.hart c n with
        pc := r.pc, secure := r.secure, enclave := 0, stack := rs, trap := none
        regs := if (s.hart c n).enclave = 0 then regsOf regs else keepArgs (regsOf regs) })) ∧
    (∀ c n pc r rs v regs, (s.hart c n).enclave ≠ 0 → s.enclave? (s.hart c n).enclave = some v → (s.hart c n).stack = r :: rs →
      exec (.enclaveTrap c n pc regs) s = .next ((s.setEnclave (s.hart c n).enclave { v with frame := some (pc, regsOf regs) }).setHart c n { s.hart c n with
        pc := r.pc, regs := setA0 [], secure := r.secure, enclave := 0, stack := rs, trap := some .pending })) ∧
    (∀ secure ranges t, s.rangesOk ranges = true → s.cleanTag s.trust.dirty = some t →
      exec (.enclaveRegister secure ranges) s = .next (s.newEnclave secure ranges t)) ∧
    (∀ tag v, s.enclave? tag = some v →
      exec (.enclaveDestroy tag) s = .next (
        let t := v.ranges.foldl State.zeroRange s
        { t with trust := { t.trust with enclaves := t.trust.enclaves.filter (fun e => e.1 != tag), dirty := tag :: t.trust.dirty } })) ∧
    (∀ h d, s.holderOk h = true → requestable d = true →
      exec (.secureLeaseTake h d) s = .next (
        let t := s.auditAs (holderOrigin h) .power 0 (holderFlags h) d (s.secureHeld d).toNat 1
        { t with watch := { t.watch with secLeases := t.watch.secLeases.filter (fun x => x != (d, h)) ++ [(d, h)] } })) ∧
    (∀ h d, s.watch.secLeases.contains (d, h) = true →
      exec (.secureLeaseRelease h d) s = .next (
        let t := { s with watch := { s.watch with secLeases := s.watch.secLeases.filter (fun x => x != (d, h)) } }
        t.auditAs (holderOrigin h) .power 0 (holderFlags h) d 1 (t.secureHeld d).toNat))

/-- Virtual instances (R535 to R556): each command in the states that let it through. -/
def Obligations.InstanceCommandsComplete : Prop :=
  ∀ s : State, s.sys.up = true →
    (∀ o v, s.granted o viCmd →
      let t := s.indexed viCmd v
      let x := v % 64
      (t.viState x = 1 → exec (.viQuiesce o v) s =
        .next (s.commandDone o viCmd (((t.setVi x 2).withdrawVi x Job.queued).quiesced x).conclude 0)) ∧
      (t.viState x = 1 ∨ t.viState x = 2 → exec (.viQuiesceHard o v) s =
        .next (s.commandDone o viCmd (((t.setVi x 2).withdrawVi x (fun _ => true)).quiesced x).conclude 0)) ∧
      (t.viState x = 1 ∨ t.viState x = 3 → exec (.viFreeze o v) s = .next (s.commandDone o viCmd (t.freezeVi x) 0)) ∧
      (t.viState x = 3 ∨ t.viState x = 5 → exec (.viThaw o v) s = .next (s.commandDone o viCmd (t.thawVi x) 0)) ∧
      (t.viState x = 3 ∨ t.viState x = 5 → exec (.viReset o v) s = .next (s.commandDone o viCmd (t.resetVi x) 0)) ∧
      (t.viState x = 5 → ∀ cert jrnl, exec (.viSave o v cert jrnl) s =
        .next (s.commandDone o viCmd (t.saveVi x cert jrnl).1 (t.saveVi x cert jrnl).2)) ∧
      (t.viState x = 0 → ∀ img, exec (.viRestore o v img) s =
        .next (s.commandDone o viCmd (t.restoreVi x img).1 (t.restoreVi x img).2))) ∧
    (∀ v x, s.insts.saving.find? (fun x => x.vi == v) = some x → exec (.saveImageDone v) s = .next (s.saved x)) ∧
    (∀ v u fixed job, s.insts.restoring.find? (fun x => x.1 == v) = some (u, fixed, job) →
      exec (.restoreDone v) s = .next (State.viDone (((State.setVi { s with insts := { s.insts with
        restoring := s.insts.restoring.filter (fun x => x.1 != v) } } v 5).setImgLen fixed job)) v))

/-- The host bridge (R557 to R576). -/
def Obligations.BridgeCommandsComplete : Prop :=
  ∀ s : State, s.sys.up = true →
    (∀ tag gen h ahead data, s.bridge.held.find? (fun h => h.tag == tag && h.gen == gen && decide (tag < 512)) = some h →
      data ≠ .expired → s.now < h.expiry → exec (.hostCompletion tag gen data ahead) s = .next (s.completeRead h data ahead)) ∧
    (∀ tag gen h, s.bridge.held.find? (fun h => h.tag == tag && h.gen == gen && decide (h.expiry ≤ s.now)) = some h →
      exec (.bridgeReadExpire tag gen) s = .next (s.expireRead h)) ∧
    (∀ page, exec (.prefetchExpire page) s = .next (s.discardPages (fun p => p.page == page && decide (p.arrived + 100000 ≤ s.now)))) ∧
    (∀ mode, s.usbReady = true → s.linkUp = false → 1 ≤ mode → mode ≤ 4 → s.holdsGrant .bridge = true →
      exec (.usb4LinkUp mode) s = .next (((s.setFld Reg.UBR_STATUS Fd.UBR_STATUS_LINK_UP 1).setFld Reg.UBR_STATUS Fd.UBR_STATUS_MODE mode).bridgeSignal
        noUnit)) ∧
    (s.linkUp = true → exec .usb4LinkDown s = .next s.linkLost) ∧
    (∀ fn, 1 ≤ fn → fn ≤ 64 → exec (.functionLevelReset fn) s = .next ((s.resetFunction fn).msix 0 0)) ∧
    exec (.functionLevelReset 0) s = .next (((List.range 65).foldl State.resetFunction s).msix 0 0) ∧
    (∀ fn, s.linkUp = true → fn ≤ 64 → s.bridge.masters.contains fn = false →
      exec (.busMasteringEnable fn) s = .next { s with bridge := { s.bridge with masters := fn :: s.bridge.masters } }) ∧
    (∀ fn vec, fn ≤ 64 → vec < 64 → s.functionOn fn = true → s.linkUp = true →
      exec (.msixUnmask fn vec) s = .next (s.setVector fn vec { s.vector fn vec with masked := false })) ∧
    (∀ o, setupReader o = true → exec (.ubrErrPop o) s = .next { s.popBridgeErr with resp := .value (s.popBridgeErr.reg Reg.UBR_ERR_W0).toNat }) ∧
    (∀ req far, s.linkUp = true → exec (.hostBarRequest req far) s = .next (s.barRequest req far)) ∧
    (∀ o i, s.granted o mapCmd →
      let t := s.indexed mapCmd i
      let ws := (s.mapEntry (i % 4096)).words
      exec (.ubrMapRead o i) s = .next (s.commandDone o mapCmd (((t.setReg Reg.UBR_MAP_D0 (BitVec.ofNat 64 (ws.getD 0 0))).setReg Reg.UBR_MAP_D1
        (BitVec.ofNat 64 (ws.getD 1 0))).setReg Reg.UBR_MAP_D2 (BitVec.ofNat 64 (ws.getD 2 0))) 0) ∧
      (t.live t.mapWords.owner = true → (t.mapWords.data && t.mapWords.metaBase == 0) = false → t.mapWords.func ≤ 64 → t.granuleBusy (i % 4096) = false →
        exec (.ubrMapWrite o i) s = .next (s.commandDone o mapCmd (t.setMap (i % 4096) t.mapWords) 0)) ∧
      (t.granuleBusy (i % 4096) = false →
        exec (.ubrMapDisable o i) s = .next (s.commandDone o mapCmd (t.setMap (i % 4096) { s.mapEntry (i % 4096) with en := false }) 0)))

/-- CAN controllers and the gateway's queues (R577 to R588). -/
def Obligations.CanCommandsComplete : Prop :=
  ∀ s : State, s.sys.up = true →
    (∀ n, s.canLive n = true →
      exec (.busOff n) s = .next (s.busOff n) ∧
      (∀ e, exec (.canBusError n e) s = .next (s.canError n e)) ∧
      (∀ f sof, sof ≤ s.now → s.canFormat n f f.data.length = true → exec (.canFrameRx n f sof) s = .next ((s.recDown n).canRoute n f sof))) ∧
    (∀ n, n < 16 → s.canState n = 2 → s.domainOn (219 + n / 4) = true → s.bit (Reg.GWY_CAN_CFG n) Fd.GWY_CAN_CFG_AUTO_REC = true →
      s.bit (Reg.GWY_CAN_CFG n) Fd.GWY_CAN_CFG_EN = true → exec (.busOffRecovery n) s = .next (s.setCan n 0 0 0)) ∧
    (∀ o n (v w : Word), n < 16 → s.bit (Reg.GWY_CAN_CFG n) Fd.GWY_CAN_CFG_EN = false →
      s.writes o (Reg.GWY_CAN_CFG n) (Fd.GWY_CAN_CFG_EN.put v 1) w →
      let t := s.landed o (Reg.GWY_CAN_CFG n) w
      t.bit (Reg.GWY_CAN_CFG n) Fd.GWY_CAN_CFG_EN = true →
      exec (.canEnable o n v) s = .next (if t.canTiming n then t.setCan n 0 0 0
        else (t.setFld (Reg.GWY_CAN_CFG n) Fd.GWY_CAN_CFG_EN 0).setFld (Reg.GWY_CAN_CFG n) Fd.GWY_CAN_CFG_CFG_ERR 1)) ∧
    (∀ n sof k q ws l, s.canSends n = true → sof ≤ s.now → s.canWinner n sof = some k → k < 4 → s.rimOn (552 + n) = true →
      (s.fq (.can n k)).fetched = (q, ws) :: l →
      exec (.canTxDone n sof) s = .next (
        let t := (s.fqSent (.can n k) q ws sof 0).canSent n (s.entryFrame ws) sof
        State.fqSettle (t.fqArea (.can n k)).size t (.can n k))) ∧
    (∀ q (v : Word), fqValid q = true →
      exec (.queueDoorbell q v) s = .next (
        let t := s.store (s.fqArea q).base (leBytes 8 v.toNat)
        if t.fqOn q then t.fqObserve q else t)) ∧
    (∀ o q (v w : Word), fqValid q = true → s.bit (fqReg q) Fd.GWY_CAN_Q_EN = false → s.writes o (fqReg q) (Fd.GWY_CAN_Q_EN.put v 1) w →
      let t := s.landed o (fqReg q) w
      t.bit (fqReg q) Fd.GWY_CAN_Q_EN = true →
      exec (.queueEnable o q v) s = .next (
        let u := (t.setFld (fqReg q) Fd.GWY_CAN_Q_GEN (t.fld (fqReg q) Fd.GWY_CAN_Q_GEN + 1)).setFq q {}
        u.queueStatus (u.fqArea q) {})) ∧
    (∀ o q (v w : Word), fqValid q = true → s.bit (fqReg q) Fd.GWY_CAN_Q_EN = true → s.writes o (fqReg q) (Fd.GWY_CAN_Q_EN.put v 0) w →
      (s.landed o (fqReg q) w).bit (fqReg q) Fd.GWY_CAN_Q_EN = false →
      exec (.queueDisable o q v) s = .next ((s.landed o (fqReg q) w).fqFlush q))

/-- The TSN switch and network time (R589 to R602). -/
def Obligations.SwitchCommandsComplete : Prop :=
  ∀ s : State, s.sys.up = true →
    (∀ p r, (s.tsnPort p).run = some r → s.domainOn 218 = true → p < 6 → s.intervalEnd ((s.tsnPort p).bank r.bank) r ≤ s.now →
      exec (.gateIntervalEnd p) s = .next (
        let g := (s.tsnPort p).bank r.bank
        let t := if !r.hold && r.idx + 1 == g.ents.length then s.cycleEnds p else s
        (t.setTsnPort p { t.tsnPort p with run := some (s.nextRun g r) }).releaseFrames p)) ∧
    (∀ p, p < 6 → s.domainOn 218 = true → (s.tsnPort p).run = none →
      let b := s.fld (Reg.TSN_PORT_CFG p) Fd.TSN_PORT_CFG_GATE_BANK
      let g := (s.tsnPort p).bank b
      g.ents ≠ [] → 0 < g.cycle → (g.base : Int) ≤ s.gptpNow →
      exec (.gateBankTakeover p) s = .next ((s.setTsnPort p { s.tsnPort p with
        run := some { bank := b, n := (s.gptpNow - g.base).toNat / g.cycle } }).releaseFrames p)) ∧
    (∀ p bytes sfd, p < 6 → s.portOn p = true → sfd ≤ s.now →
      exec (.ethFrameRx p bytes true sfd) s = .next (s.ethIn p (ethPcp bytes) bytes sfd none) ∧
      exec (.ethFrameRx p bytes false sfd) s = .next (s.bump (Reg.TSN_MAC_DROP p) p)) ∧
    (∀ k q ws l, k < 8 → s.fqOn (.tsn k) = true → s.portOn 6 = true → (s.fq (.tsn k)).fetched = (q, ws) :: l → s.entryWaits (k, q) = false →
      exec (.ethTxDone k) s = .next ((s.ethIn 6 k (s.readBytes (entryAddr ws) (entryLen ws)) s.now (some (k, q))).entryEnd (k, q) 0)) ∧
    (∀ mac vid, s.fld Reg.TSN_CTRL Fd.TSN_CTRL_AGE_S ≠ 0 →
      exec (.learnedEntryAgeing mac vid) s = .next { s with nets := { s.nets with fdb := s.nets.fdb.filter (fun e =>
        !(e.mac == mac && e.vid == vid && !e.fixed && decide (e.seen + 1000000000 * s.fld Reg.TSN_CTRL Fd.TSN_CTRL_AGE_S ≤ s.now))) } }) ∧
    (∀ p e, s.gptpPort p = true → exec (.syncRx p e) s = .next (s.takeSync e)) ∧
    (s.domainOn 218 = true →
      exec (.syncTimeout false) s = .next (s.gptpFlag Fd.TSN_GPTP_STATUS_GM_LOST 1) ∧
      (s.bit Reg.TSN_GPTP_CTRL Fd.TSN_GPTP_CTRL_GM_CAPABLE = true → (s.gptpFlag Fd.TSN_GPTP_STATUS_GM_LOST 1).bit Reg.TSN_GPTP_CTRL Fd.TSN_GPTP_CTRL_GM_CAPABLE = true →
        exec (.syncTimeout true) s = .next ((s.gptpFlag Fd.TSN_GPTP_STATUS_GM_LOST 1).gptpFlag Fd.TSN_GPTP_STATUS_IS_GM 1))) ∧
    (∀ o (v w : Word), mayWrite o [.selvage, .hypervisor] = true →
      (Fd.TSN_GPTP_CTRL_CMD.of (Fd.TSN_GPTP_CTRL_CMD.put v 1) = 1 → s.writes o Reg.TSN_GPTP_CTRL (Fd.TSN_GPTP_CTRL_CMD.put v 1) w →
        exec (.gptpAccept o v) s = .next (s.landed o Reg.TSN_GPTP_CTRL w).gptpAccept) ∧
      (Fd.TSN_GPTP_CTRL_CMD.of (Fd.TSN_GPTP_CTRL_CMD.put v 2) = 2 → s.writes o Reg.TSN_GPTP_CTRL (Fd.TSN_GPTP_CTRL_CMD.put v 2) w →
        exec (.gptpHold o v) s = .next (s.landed o Reg.TSN_GPTP_CTRL w).gptpHold)) ∧
    (∀ o (v w : Word), s.gptpIs Fd.TSN_GPTP_STATUS_IS_GM = true → s.writes o Reg.TSN_OFFSET v w →
      exec (.offsetWrite o v) s = .next (s.landed o Reg.TSN_OFFSET w)) ∧
    (∀ o p (v w : Word), p < 8 → s.writes o (Reg.TSN_PORT_CFG p) v w → exec (.portEnable o p v) s = .next (s.landed o (Reg.TSN_PORT_CFG p) w))

/-- The sluice (R603 to R613). -/
def Obligations.SluiceCommandsComplete : Prop :=
  ∀ s : State, s.sys.up = true →
    (∀ i bs l, s.nets.sluIn = (i, bs) :: l → s.sluiceOn = true →
      exec .sluiceUpdate s = .next (State.applyPdu { s with nets := { s.nets with sluIn := l } } i bs)) ∧
    (∀ d, s.sluiceOn = true → s.pdusOf.contains d = true → (s.pdu d).dst = true → s.slotReady d s.now = true →
      exec (.sluiceSend d) s = .next (s.sendSlot d)) ∧
    (∀ o (v w : Word), s.bit Reg.GWY_SLU_CTRL Fd.GWY_SLU_CTRL_EN = false → s.writes o Reg.GWY_SLU_CTRL (Fd.GWY_SLU_CTRL_EN.put v 1) w →
      let t := s.landed o Reg.GWY_SLU_CTRL w
      t.bit Reg.GWY_SLU_CTRL Fd.GWY_SLU_CTRL_EN = true →
      exec (.sluiceEnable o v) s = .next (if t.sluiceOk then { t with nets := { t.nets with slots := [], sluIn := [] } }
        else (t.setFld Reg.GWY_SLU_CTRL Fd.GWY_SLU_CTRL_EN 0).setFld Reg.GWY_SLU_CTRL Fd.GWY_SLU_CTRL_CFG_ERR 1)) ∧
    (∀ o i, s.granted o (pduSel o) →
      let t := s.indexed (pduSel o) i
      let p := pduOf (t.reg (bankKey o Reg.GWY_SLU_PDU_D0)).toNat (t.reg (bankKey o Reg.GWY_SLU_PDU_D1)).toNat
      exec (.sluPduRead o i) s = .next (s.commandDone o (pduSel o)
        ((t.setReg (bankKey o Reg.GWY_SLU_PDU_D0) (BitVec.ofNat 64 (s.pdu (i % 1024)).words.1)).setReg (bankKey o Reg.GWY_SLU_PDU_D1)
          (BitVec.ofNat 64 (s.pdu (i % 1024)).words.2)) 0) ∧
      (t.bit Reg.GWY_SLU_CTRL Fd.GWY_SLU_CTRL_EN = false →
        (p.ok = true → exec (.sluPduWrite o i) s = .next (s.commandDone o (pduSel o) (t.setPdu (i % 1024) p) 0)) ∧
        exec (.sluPduClear o i) s = .next (s.commandDone o (pduSel o) (t.setPdu (i % 1024) { s.pdu (i % 1024) with valid := false }) 0))) ∧
    (∀ o i, s.granted o (mapSel o) →
      let t := s.indexed (mapSel o) i
      exec (.sluMapRead o i) s = .next (s.commandDone o (mapSel o)
        (t.setReg (bankKey o Reg.GWY_SLU_MAP_D0) (BitVec.ofNat 64 (s.sigMap (i % 4096)).word)) 0) ∧
      (t.bit Reg.GWY_SLU_CTRL Fd.GWY_SLU_CTRL_EN = false →
        exec (.sluMapWrite o i) s = .next (s.commandDone o (mapSel o)
          (t.setSigMap (i % 4096) (sigMapOf (t.reg (bankKey o Reg.GWY_SLU_MAP_D0)).toNat)) 0) ∧
        exec (.sluMapClear o i) s = .next (s.commandDone o (mapSel o) (t.setSigMap (i % 4096) { s.sigMap (i % 4096) with valid := false }) 0)))

/-- Causeway frames (R614 to R632): a frame of an UP peer on its port, of a tenant that has not gone, whose tag holds; a sequenced one
with the number that is expected. -/
def Obligations.CausewayFramesComplete : Prop :=
  ∀ (s : State) (port i : Nat) (f : Frame), s.sys.up = true → s.sender port f = some i → s.goneTenant f.tenant = false →
    let s1 := (s.keyReady f.tenant i).heard i f
    exec (.cwyAck port f true) s = .next s1 ∧
    exec (.cwyHello port f true) s = .next s1 ∧
    (f.seq = (s1.peer i).expect →
      let t := s1.setPeer i { s1.peer i with expect := ((s1.peer i).expect + 1) % 2 ^ 32, ackDue := true }
      (1 ≤ f.length → f.length ≤ 4096 → t.serves f.tenant f.arg f.length = true →
        exec (.readReq port f true) s = .next (((List.range (ceilDiv f.length t.maxPayload)).foldl (fun b k =>
          b.send i (t.readDataFrame f (k * t.maxPayload))) (t.noteRead (f.arg % 2 ^ 48) f.length)).ackNow i)) ∧
      (t.serves f.tenant f.arg 32 = true → exec (.sealReq port f true) s = .next (((t.noteRead (f.arg % 2 ^ 48) 32).send i (t.sealDataFrame f)).ackNow i)) ∧
      exec (.cwyKnot port f true) s = .next ((t.remoteKnot f).ackNow i) ∧
      (∀ lane jrnl, (t.peer i).direct = true → exec (.cwyLane port f true lane jrnl) s = .next ((t.laneFrame port lane jrnl).ackNow i)) ∧
      (∀ r, t.cwy.reads.find? (fun r => r.peer == i && r.tag == f.tag) = some r → t.now < r.expiry →
        exec (.readData port f true) s = .next ((t.takeData f r).ackNow i) ∧
        exec (.cwyError port f true) s = .next ((t.failRemote r).ackNow i) ∧
        (r.isSeal = true → exec (.sealData port f true) s = .next ((t.takeSeal f r).ackNow i))))

/-- Causeway peers, ports and lanes (R614 to R635). -/
def Obligations.CausewayLinksComplete : Prop :=
  ∀ s : State, s.sys.up = true →
    (∀ tenant i, (s.peer i).state = 3 → s.hasKey tenant i = false → exec (.linkKeyDerived tenant i) s = .next (s.keyReady tenant i)) ∧
    (∀ i, (s.peer i).state = 3 → (s.peer i).sentAt + 100000 ≤ s.now → s.hasKey 2 i = true →
      exec (.helloTimer i) s = .next (s.wire i { type := 5, tenant := 2, epoch := s.epoch 2 })) ∧
    (∀ i, (s.peer i).state = 3 → (s.peer i).unacked.any (fun h => h.sent) = true →
      (s.peer i).moved + 1000 * max 1 (s.fld Reg.CWY_CFG Fd.CWY_CFG_RETX_US) ≤ s.now →
      (8 ≤ (s.peer i).retries → exec (.retransmit i) s = .next (s.lostPeer i)) ∧
      ((s.peer i).retries < 8 → exec (.retransmit i) s = .next (((s.setPeer i { s.peer i with
        retries := (s.peer i).retries + 1, moved := s.now }).bump Reg.CWY_RETX_CNT noUnit).resend i))) ∧
    (∀ i, (s.peer i).state = 3 → (s.peer i).heardAt + 1000 * max 1 (s.fld Reg.CWY_CFG Fd.CWY_CFG_PEER_TMO_US) ≤ s.now →
      exec (.peerTimeout i) s = .next (s.lostPeer i)) ∧
    (∀ port src cert i, s.peerOf src = some i → s.onPort port i = true → exec (.cwyKey port src cert) s = .next (s.keyCame i cert)) ∧
    (∀ port lanes, s.mayTrain port = true → s.lanesOk port lanes = true → s.holdsGrant (.causewayPort port) = true →
      exec (.cwyLinkUp port lanes) s = .next (
        let t := s.setLanes port lanes
        ((t.peersOf port).filter (fun i => (t.peer i).state != 3 && (t.peer i).state != 5)).foldl (fun a i =>
          (a.setPeer i { a.peer i with state := 2 }).sendKey i) t)) ∧
    (∀ port, port < 4 → s.portUp port = true → exec (.cwyLinkDown port) s = .next (s.portLost port)) ∧
    (∀ o p (v w : Word), s.cwy.hasSection = true → s.writes o (Reg.CWY_PORT (p % 4)) v w →
      exec (.cwyPortEnable o p v) s = .next ((s.landed o (Reg.CWY_PORT (p % 4)) w).portEnabled (p % 4) (s.bit (Reg.CWY_PORT (p % 4)) Fd.CWY_PORT_EN))) ∧
    (∀ port lane jrnl oneLane, port < 4 → lane < 3 → s.portUp port = true → s.fld (Reg.CWY_PORT port) Fd.CWY_PORT_LANES / 2 ^ lane % 2 = 1 →
      exec (.fecUncorr port lane jrnl oneLane) s = .next (
        let r := (s.bump (Reg.CWY_FEC_UNCORR port lane) port).reportLasting 8 (4 * port + lane)
        if r.2 then r.1.laneLasting port lane jrnl oneLane else r.1)) ∧
    (∀ o i, s.granted o (peerSel o) → i % 256 < s.cwy.nPeers →
      exec (.peerRead o i) s = .next (
        let p := s.peer (i % 256)
        s.commandDone o (peerSel o) (((s.indexed (peerSel o) i).setReg (bankKey o Reg.CWY_PEER_D0)
          (BitVec.ofNat 64 (p.state * 2 ^ 61 + p.direct.toNat * 2 ^ 60 + p.ports % 16 * 2 ^ 56 + p.mac % 2 ^ 48))).setReg (bankKey o Reg.CWY_PEER_D1)
          (BitVec.ofNat 64 (p.seq * 2 ^ 32 + p.device))) 0))

/-- Set-up registers at large (R636 to R657): the tail of an event queue, the owner of a UFS unit, a block's LOCK, and a write of any
register whose meaning is its own row's. -/
def Obligations.SetupCommandsComplete : Prop :=
  ∀ s : State, s.sys.up = true →
    (∀ o d (v : Word), d < 3 → setupOrigin o = true → exec (.evqTailWrite o d v) s = .next (s.writeTail o d v)) ∧
    (∀ o u (v w : Word), u < 32 → s.writes o (Reg.GEN_UFS_LU u) v w →
      (s.fld (Reg.GEN_UFS_LU u) Fd.GEN_UFS_LU_OWNER = 0 ∨ Fd.GEN_UFS_LU_OWNER.of v = 0) → (RegMap.find (Reg.GEN_UFS_LU u)).isSome = true →
      exec (.ufsLuWrite o u v) s = .next (s.commitWrite o (Reg.GEN_UFS_LU u) w 0)) ∧
    (∀ o blk, hasLock blk = true → exec (.lockWrite o blk) s =
      .next (s.regWrite o (lockReg blk) (BitVec.ofNat 64 (or64 (s.reg (lockReg blk)).toNat (2 ^ 31))) {})) ∧
    (∀ o off (v : Word) env, setupOrigin o = true → off % 4 = 0 → off < setupEnd →
      (wideAt off = none → exec (.registerWrite o off 4 v env) s = .next (s.regWrite o off (BitVec.ofNat 64 (v.toNat % 2 ^ 32)) env)) ∧
      (off % 8 = 0 → widthAt off = some 64 → exec (.registerWrite o off 8 v env) s = .next (s.regWrite o off v env)))

/-! ### What the commands leave alone -/

/-- The READ commands of the windows change the origin's own window, an access refused in their place its counter, and beside that
only what logging writes: no register, no byte, no other state. -/
def Obligations.WindowReadsFrame : Prop :=
  ∀ (s : State) (o : Origin) (i : Nat), s.Inv →
    let frame := fun (c : Instr) (key d0 n : Nat) =>
      ∀ t, exec c s = .next t → s.Quiet (fun k => k = key ∨ (∃ j, j < n ∧ k = d0 + 8 * j) ∨ counterRegs Reg.MEM_REFUSE_CNT k) t
    frame (.tackRead o i) (bankKey o Reg.TIME_TACK_SEL) (bankKey o Reg.TIME_TACK_D0) 8 ∧
    frame (.hotRead o i) (bankKey o Reg.ARY_HOT_SEL) (bankKey o Reg.ARY_HOT_D0) 5 ∧
    frame (.knotSelRead o i) (bankKey o Reg.KNOT_SEL) (bankKey o Reg.KNOT_DATA) 1 ∧
    frame (.stRead o i) (bankKey o Reg.SAFE_ST_SEL) (bankKey o Reg.SAFE_ST_D0) 2 ∧
    frame (.tenantRead o i) (bankKey o Reg.SEC_TENANT_SEL) (bankKey o Reg.SEC_TENANT_D0) 1 ∧
    frame (.ubrMapRead o i) Reg.UBR_MAP_SEL Reg.UBR_MAP_D0 3 ∧
    frame (.sluPduRead o i) (bankKey o Reg.GWY_SLU_PDU_SEL) (bankKey o Reg.GWY_SLU_PDU_D0) 2 ∧
    frame (.sluMapRead o i) (bankKey o Reg.GWY_SLU_MAP_SEL) (bankKey o Reg.GWY_SLU_MAP_D0) 1 ∧
    frame (.peerRead o i) (bankKey o Reg.CWY_PEER_SEL) (bankKey o Reg.CWY_PEER_D0) 2

/-- Commands whose whole effect is in registers: beside those named only what logging writes changes, and with the floor of the rate monitors
whether RATE_LOW is armed. -/
def Obligations.RegisterCommandsFrame : Prop :=
  ∀ (s : State), s.Inv →
    let frame := fun (c : Instr) (p : Nat → Prop) => ∀ t, exec c s = .next t → s.Quiet (fun k => p k ∨ counterRegs Reg.MEM_REFUSE_CNT k) t
    (∀ g temp, frame (.refreshTierChange g temp) (fun k => k = Reg.MEM_TEMP g)) ∧
    (∀ d, frame (.rimStart d) (fun k => k = Reg.PWR_RIM_ON (d / 64))) ∧
    frame .pinMinExpire (fun k => k = Reg.SAFE_PIN) ∧
    (∀ n, frame (.busOff n) (fun k => k = Reg.GWY_CAN_STATUS n ∨ counterRegs (Reg.GWY_BUSOFF_CNT n) k)) ∧
    (∀ n e, frame (.canBusError n e) (fun k => k = Reg.GWY_CAN_STATUS n ∨ counterRegs (Reg.GWY_BUSOFF_CNT n) k)) ∧
    (∀ n, frame (.busOffRecovery n) (fun k => k = Reg.GWY_CAN_STATUS n)) ∧
    (∀ b, frame (.syncTimeout b) (fun k => k = Reg.TSN_GPTP_STATUS)) ∧
    (∀ o v, frame (.gptpHold o v) (fun k => k = Reg.TSN_GPTP_STATUS ∨ k = Reg.TSN_GPTP_CTRL)) ∧
    (∀ o v, frame (.offsetWrite o v) (fun k => k = Reg.TSN_OFFSET)) ∧
    (∀ o p v, frame (.portEnable o p v) (fun k => k = Reg.TSN_PORT_CFG p)) ∧
    (∀ o v, frame (.timeRateAdjWrite o v) (fun k => k = Reg.TIME_RATE_ADJ ∨ k = Reg.TIME_STATUS)) ∧
    (∀ o v t, exec (.clrMin o v) s = .next t → State.Quiet
      (fun k => k = Reg.PWR_RATE_FLOOR ∨ (∃ i, i < 24 ∧ k = Reg.PWR_RATE i) ∨ counterRegs Reg.MEM_REFUSE_CNT k)
      { s with sys := { s.sys with rateRaised := t.sys.rateRaised } } t) ∧
    (∀ o v, frame (.memStageWrite o v) (fun k => k = Reg.MEM_STAGE)) ∧
    (∀ o u v, frame (.ufsLuWrite o u v) (fun k => k = Reg.GEN_UFS_LU u)) ∧
    (∀ o d v, frame (.evqTailWrite o d v) (fun k => k = Reg.EVQ_TAIL d))

/-- Instructions of a sequencer that move no data change their own core alone, and a free value used: no other core, no register, no byte. On
the main copy of a job, never on the checker, a step may leave a trace record (R446; which steps do is open, log 57). (While a flush is under
way the last step of a halted core may find a fault that joins it, R316.) -/
def Obligations.SequencerFrame : Prop :=
  ∀ (s : State) (n : Nat), Sparse.wf (fun _ => {}) s.cores = true → (s.runs n).isSome = true ∨ s.sched.flush = none →
    let frame := fun (c : Instr) =>
      ∀ t, exec c s = .next t → t = { s with cores := t.cores, free := t.free, out := t.out } ∧ (∀ m, m ≠ n → t.core m = s.core m) ∧
        (t.out = s.out ∨ ∃ j e d, s.runs n = some j ∧ j.isCk n = false ∧ t.out = s.out ++ [.trace (traceRecord s.now (jobTenant j) e d)])
    frame (.fence n) ∧ (∀ tag, frame (.waitTag n tag)) ∧ (∀ d, frame (.branch n d)) ∧ (∀ d, frame (.attributeInterpolation n d)) ∧
    (∀ p b, frame (.interlockAcquire n p b))

/-! ### Registers, locks, counters, events, the audit log -/

/-- R643: a block's LOCK freezes its RWL fields, a write to which is RESULT 0xF1 (R640), and no others; Selvage sets it, and setting one
block's LOCK sets no other's. LOCK itself is such a field, so that writing 0 to it has no effect. -/
def Obligations.LockFreezes : Prop :=
  (∀ (s : State) (o : Origin) (k : Nat) (r : RegSpec) (i : Nat) (f : FieldSpec) (old new : Word),
    s.locked (k / 0x10000 % 0x100) = true → f.acc = .rwl →
      (s.fieldWrite o k r i f old new).1 = f.fld.of old ∧
      (mayWrite o f.writers = true → f.fld.of new ≠ f.fld.of old → (s.fieldWrite o k r i f old new).2 = some resLocked)) ∧
  (∀ (s t : State) (o : Origin) (k : Nat) (r : RegSpec) (i : Nat) (f : FieldSpec) (old new : Word),
    f.acc ≠ .rwl → t.frozen k r i = s.frozen k r i → t.fieldWrite o k r i f old new = s.fieldWrite o k r i f old new) ∧
  (∀ blk, hasLock blk = true → ∃ r i j, RegMap.find (lockReg blk) = some (r, i, j) ∧ (⟨⟨31, 31⟩, .rwl, 0, [.selvage]⟩ : FieldSpec) ∈ r.fields) ∧
  (∀ (s : State) (blk : Nat), s.Inv → s.sys.up = true → hasLock blk = true →
    (blk = 17 → s.domainOn 212 = true) → (blk = 19 → s.domainOn 218 = true) →
    ∃ t, exec (.lockWrite .selvage blk) s = .next t ∧ t.locked blk = true ∧
      ∀ b, hasLock b = true → b ≠ blk → t.locked b = s.locked b)

/-- R484: an event counter counts one, stops at 0xFFFF_FFFF and then sets its SAT bit; at the maximum nothing more happens; nothing but the
counter, its SAT word and logging changes; a 0 written clears the counter and the SAT bit. -/
def Obligations.CounterSaturates : Prop :=
  ∀ (s : State) (k unit : Nat), s.Inv → ¬ logReg k → k < RegMap.bankSize → (∀ b, satOf k = some b → (¬ logReg b.word ∨ k = Reg.PWR_RATE_LOW_CNT) ∧ b.word ≠ k ∧ b.bit < 64) →
    (∀ d, d < 3 → ¬ counterRegs k (Reg.EVQ_CFG d)) →
    let c := s.fld k ⟨31, 0⟩
    (s.bump k unit).fld k ⟨31, 0⟩ = min 0xFFFFFFFF (c + 1) ∧
    (c = 0xFFFFFFFF → s.bump k unit = s) ∧
    (∀ b, satOf k = some b → c + 1 = 0xFFFFFFFF → (s.bump k unit).regBit b.word b.bit = true) ∧
    s.Quiet (counterRegs k) (s.bump k unit) ∧
    (∀ o b, satOf k = some b → (s.landed o k 0).fld k ⟨31, 0⟩ = 0 ∧ (s.landed o k 0).regBit b.word b.bit = false)

/-- R645, R646: an event for a queue with room is written at slot HEAD mod SIZE, TIME and then BLOCK, UNIT, OFFSET and SEQ; HEAD advances, and
the queue's interrupt goes out if it was empty. With no room, or EN clear, the record is lost and counted; where the rim of a channel that it
lies in is stopped the refusal is counted, and the record is not written (R31; log 71). -/
def Obligations.EventIsRecorded : Prop :=
  ∀ (s : State) (n d blk off unit : Nat), s.Inv → d < 3 →
    let t := State.deliver (n + 1) s d blk off unit
    let head := s.fld (Reg.EVQ_HEAD d) Fd.GEN_EVQ_HEAD_0_HEAD
    let slot := s.fld (Reg.EVQ_CFG d) Fd.GEN_EVQ_CFG_0_BASE * 16 +
      16 * (head % sizeOfCode (s.fld (Reg.EVQ_CFG d) Fd.GEN_EVQ_CFG_0_SIZE_CODE))
    (s.evqRoom d = true → s.chanStop slot 16 = none →
      t.readBytes slot 16 = leBytes 8 s.now ++
        leBytes 8 (blk * 2 ^ 56 + unit % 2 ^ 16 * 2 ^ 32 + off % 2 ^ 16 * 2 ^ 16 + head % 2 ^ 16) ∧
      t.fld (Reg.EVQ_HEAD d) Fd.GEN_EVQ_HEAD_0_HEAD = (head + 1) % 2 ^ 32 ∧
      t.out = s.out ++ (if s.evqCount d = 0 then [.evq d (s.fld (Reg.EVQ_TAIL d) Fd.GEN_EVQ_TAIL_0_VEC)] else [])) ∧
    (∀ r, s.evqRoom d = true → s.chanStop slot 16 = some r → s.sys.rimRaised.contains r = true →
      s.fld Reg.PWR_RIM_REFUSE_CNT Fd.PWR_RIM_REFUSE_CNT_COUNT + 1 < 0xFFFFFFFF →
      t = s.setFld Reg.PWR_RIM_REFUSE_CNT Fd.PWR_RIM_REFUSE_CNT_COUNT (s.fld Reg.PWR_RIM_REFUSE_CNT Fd.PWR_RIM_REFUSE_CNT_COUNT + 1)) ∧
    (s.evqRoom d = false → s.fld (Reg.GEN_EVQ_DROP_CNT d) Fd.GEN_EVQ_DROP_CNT_COUNT + 1 < 0xFFFFFFFF →
      t = s.setFld (Reg.GEN_EVQ_DROP_CNT d) Fd.GEN_EVQ_DROP_CNT_COUNT (s.fld (Reg.GEN_EVQ_DROP_CNT d) Fd.GEN_EVQ_DROP_CNT_COUNT + 1))

/-- R526: an audit entry goes to offset 128 × (SEQ mod 524,288) of the ring, its 64 bytes and the CHAIN over them and the CHAIN before;
AUDIT_HEAD advances. (The crossing at which AUDIT_NEAR is raised is left out: its event record could be set up to lie in the ring.) -/
def Obligations.AuditEntryIsChained : Prop :=
  ∀ (s : State) (o : Origin) (kind : AuditKind) (result flags target old new : Nat), s.Inv → s.auditFull = false →
    s.audit.near = true ∨ s.auditOcc + 1 < auditNear →
    let t := s.auditAs o kind result flags target old new
    let seq := (s.reg Reg.AUDIT_HEAD).toNat
    let body := leBytes 8 seq ++ leBytes 8 s.now ++ leBytes 1 o.code ++ leBytes 1 kind.code ++ leBytes 1 result ++ leBytes 1 flags ++
      leBytes 4 0 ++ leBytes 8 target ++ leBytes 8 old ++ leBytes 8 new ++ leBytes 16 0
    let chain := Config.sha512 (body ++ beBytes 64 s.audit.chain.toNat)
    t.readBytes (0xFF0000000 + 128 * (seq % 524288)) 128 = body ++ beBytes 64 chain.toNat ∧
    t.audit.chain = chain ∧ t.reg Reg.AUDIT_HEAD = BitVec.ofNat 64 (seq + 1)

/-- R527: with the ring full a change from any origin but Selvage and the safety pairs is refused, with AUDIT_FULL in STATUS where the
register has one, and counted in AUDIT_REFUSED_CNT; theirs goes on without an entry and is counted in AUDIT_LOST_CNT. -/
def Obligations.FullAuditRefuses : Prop :=
  ∀ (s : State) (o : Origin), s.auditFull = true →
    (auditFree o = false →
      (∀ c idx act, mayWrite o c.writers = true → s.command o c idx act = (match c.full with
        | some code => (s.bump Reg.AUDIT_REFUSED_CNT noUnit).setFld c.key c.status code
        | none => s.bump Reg.AUDIT_REFUSED_CNT noUnit)) ∧
      (∀ k v act, s.writeReg o k v act = s.bump Reg.AUDIT_REFUSED_CNT noUnit)) ∧
    (auditFree o = true → ∀ kind r f target old new, s.auditAs o kind r f target old new =
      { s.bump Reg.AUDIT_LOST_CNT noUnit with audit := { s.audit with lost := s.audit.lost + 1 } })

/-! ### Memory -/

/-- What is written reads back, and no other byte changes; a poisoned 64 B beat stays poisoned until a write covers all of it (R105), and
poison set on purpose is read as poison. -/
def Obligations.MemoryReadsBack : Prop :=
  ∀ (s : State) (a : Nat) (bs : List Byte), s.Inv →
    let t := s.writeBytes a bs
    t.readBytes a bs.length = bs ∧
    (∀ x, x < a ∨ a + bs.length ≤ x → t.readByte x = s.readByte x) ∧
    (∀ b, t.isPoisoned (64 * b) 64 = (s.isPoisoned (64 * b) 64 && !(decide (a ≤ 64 * b) && decide (64 * b + 64 ≤ a + bs.length)))) ∧
    (∀ b, (s.setPoison (64 * b) 64).isPoisoned (64 * b) 64 = true)

/-- R101: the logical channel and the channel-local offset of an address, and with them its bank, row and beat; no two addresses share
them. -/
def Obligations.InterleaveIsOneToOne : Prop :=
  (∀ a, a < 2 ^ 36 →
    dramChan a = (a / 2 ^ 9 % 2 ^ 9) ^^^ (a / 2 ^ 18 % 2 ^ 9) ^^^ (a / 2 ^ 27 % 2 ^ 9) ∧
    dramLocal a = a / 2 ^ 18 % 2 ^ 18 * 2 ^ 9 + a % 2 ^ 9 ∧
    localBank (dramLocal a) = dramLocal a / 2 ^ 11 % 2 ^ 4 ∧ localRow (dramLocal a) = dramLocal a / 2 ^ 15 % 2 ^ 12 ∧
    (∃ beat byte, beat < 2 ^ 5 ∧ byte < 2 ^ 6 ∧
      dramLocal a = localRow (dramLocal a) * 2 ^ 15 + localBank (dramLocal a) * 2 ^ 11 + beat * 2 ^ 6 + byte) ∧
    dramChan a < 512 ∧ dramLocal a < 2 ^ 27) ∧
  (∀ a b, a < 2 ^ 36 → b < 2 ^ 36 → dramChan a = dramChan b → dramLocal a = dramLocal b → a = b)

/-- R98, R521: a read of DRAM that an origin may not reach is refused and counted, and nothing else happens; no origin but the device itself
reaches an enclave's memory, and none what lies beyond DRAM. -/
def Obligations.UnreachableMemoryRefused : Prop :=
  ∀ (s : State) (o : Origin) (addr errs : Nat) (jrnl : Bool), s.Inv → s.sys.up = true →
    (s.mayReadDram o (addr / 64 * 64) = false →
      exec (.beatRead o (.addr addr) errs jrnl) s = .next { s.bump Reg.MEM_REFUSE_CNT noUnit with resp := refusal o } ∧
      (s.bump Reg.MEM_REFUSE_CNT noUnit).fld Reg.MEM_REFUSE_CNT ⟨31, 0⟩ = min 0xFFFFFFFF (s.fld Reg.MEM_REFUSE_CNT ⟨31, 0⟩ + 1)) ∧
    (o ≠ .device → s.enclaved (addr / 64 * 64) 64 = true → s.mayReadDram o (addr / 64 * 64) = false) ∧
    (0x1000000000 ≤ addr → s.mayReadDram o (addr / 64 * 64) = false)

/-! ### The allowance -/

/-- R65, R71, R72, R78: a request that the controller may grant leaves the holdings of both rails within their budgets from the start of its
ramp on, which lasts one µs for each 40 A of what it adds; when the ramp has reached its end the holdings are no larger. Nothing but the
allowance changes. (That a ramp in counts whole from its start is the model's choice, log 67.) A core-rail charge that is given up is taken
down at 40 A/µs: at the instant of its release nothing of it is free, d ns later 40 × d mA, until none is left; the DRAM rail has no ramp. -/
def Obligations.AllowanceNeverExceeded : Prop :=
  (∀ (s : State) (p : Grant → Bool) (d : Nat), s.time.toNat + d * 2 ^ 32 < 2 ^ 96 →
    let t := s.dropGrants p
    s.heldCore ≤ t.heldCore ∧
    (State.heldCore { t with time := t.time + BitVec.ofNat 96 (d * 2 ^ 32) }) + min (40 * d) t.fallLeft = t.heldCore) ∧
  ∀ (s : State) (r : AlwReq), s.mayGrant r = true →
    let t := s.startGrant r
    let room := t.heldCore ≤ 250 * s.fld Reg.ALW_BUDGET Fd.ALW_BUDGET_CORE_QA ∧ t.heldDram ≤ 250 * s.fld Reg.ALW_DRAM_BUDGET Fd.ALW_DRAM_BUDGET_DRAM_QA
    let rise := (s.alw.rise r).1
    t = { s with alw := t.alw } ∧
    (rise ≠ 0 → room ∧ t.alw.ramp = some ⟨some r, s.time.toNat + (rise * 2 ^ 32 + 39) / 40⟩) ∧
    (s.alw.grantOf r.holder = none → r.lift = false → (∀ q, s.alw.ramp.bind (fun x => x.req) = some q → q.holder ≠ r.holder) →
      (rise = 0 → room ∧ t.holdsGrant r.holder = true) ∧
      (rise ≠ 0 →
        let u := State.takeHold { t with alw := { t.alw with ramp := none } } r
        u.heldCore ≤ t.heldCore ∧ u.heldDram ≤ t.heldDram ∧ u.holdsGrant r.holder = true))

/-- R71, R72: a fall in charge goes through at once; any other request starts to ramp in or waits; only the head of the order is granted, on
arrival or later; latency-critical requests go before test, test before best-effort, and within a queue the earliest that does not stand
aside (R73) goes first. -/
def Obligations.RequestsServedInOrder : Prop :=
  ∀ s : State,
    (∀ r, s.alw.onlyFalls r = true → s.alwRequest r = s.takeHold r) ∧
    (∀ r, s.alw.onlyFalls r = false →
      let q := { s with alw := { s.alw with waiting := s.alw.waiting ++ [r] } }
      (q.alwHead = some r → q.mayGrant r = true → s.alwRequest r = q.startGrant r) ∧
      (q.alwHead ≠ some r ∨ q.mayGrant r = false →
        r ∈ (s.alwRequest r).alw.waiting ∧ (s.alwRequest r).alw.grants = s.alw.grants ∧ (s.alwRequest r).alw.ramp = s.alw.ramp)) ∧
    ((∀ r, s.alwHead = some r → s.mayGrant r = false) →
      s.alwServe.alw.waiting = s.alw.waiting ∧ s.alwServe.alw.grants = s.alw.grants ∧ s.alwServe.alw.ramp = s.alw.ramp) ∧
    s.alwActive.Sublist s.alw.waiting ∧
    (∀ r, s.alwHead = some r →
      r ∈ s.alwActive ∧ s.alwActive.find? (fun x => x.cls == r.cls) = some r ∧
      (∀ x ∈ s.alwActive, (x.cls = .lc → r.cls = .lc) ∧ (x.cls = .test → r.cls ≠ .be))) ∧
    (s.alwActive ≠ [] → s.alwHead.isSome = true)

/-! ### Numbers and knots -/

/-- R128, R133: rounding takes the nearest multiple, of two equally near the even one; and a finite code converted to its own format is
itself. -/
def Obligations.FormatsRoundNearest : Prop :=
  (∀ (q e : Int) (m : Nat), e < q →
    let d := 2 ^ (q - e).toNat
    let a := roundAt q m e
    2 * m ≤ 2 * d * a + d ∧ 2 * d * a ≤ 2 * m + d ∧ (2 * m = 2 * d * a + d ∨ 2 * d * a = 2 * m + d → a % 2 = 0)) ∧
  (∀ f ∈ [fp4, e4m3, e5m2, fp16, bf16, fp32], ∀ c k, c < 2 * f.sign → (f.decode c).isFin = true → (f.flush = true → 2 ^ f.mb ≤ c % f.sign) →
    f.convert k (f.decode c) = (c, false))

/-- R277: ADD saturates at 2^64 − 1 and then sets the knot's bit in the saturation record, SET may lower; no other knot changes; a wait is
satisfied exactly when the value has reached its threshold. -/
def Obligations.KnotAddSaturates : Prop :=
  ∀ (s : State) (k v : Nat), s.Inv → k < 16384 → s.knot k < 2 ^ 64 →
    (s.knotAdd k v).knot k = min (2 ^ 64 - 1) (s.knot k + v) ∧
    (s.knotSet k v).knot k = v % 2 ^ 64 ∧
    (∀ j, j ≠ k → (s.knotAdd k v).knot j = s.knot j ∧ (s.knotSet k v).knot j = s.knot j) ∧
    (2 ^ 64 ≤ s.knot k + v → (s.knotAdd k v).regBit (Reg.KNOT_SAT (k / 64)) (k % 64) = true) ∧
    (∀ d, s.waitMet d = true ↔ descWaitValue d ≤ s.knot (descWaitKnot d))

/-! ### Safety -/

/-- R458: a report whose reactions are 0 only counts; otherwise it sets PENDING, a lasting declaration also LASTING, each where its code is 1
or more, and raises SAFE_n; code 2 drives the error pins, too (R456). -/
def Obligations.ReportReactions : Prop :=
  ∀ (s : State) (n : Nat) (lasting : Bool), s.Inv → n < 16 →
    (s.reactEach n = 0 → (lasting = false ∨ s.reactLast n = 0) → s.react n lasting = s) ∧
    (s.reactEach n = 0 → s.reactLast n = 0 → ∀ unit, s.report n unit = (s.bump (Reg.SAFE_SRC_CNT n) n).pushWindow n unit) ∧
    (let each := decide (1 ≤ s.reactEach n)
     let last := lasting && decide (1 ≤ s.reactLast n)
     let p := if each then s.setBit Reg.SAFE_PENDING n true else s
     let t := State.raise (if last then p.setBit Reg.SAFE_PENDING (32 + n) true else p) 12 0x0010 n
     (each || last) = true → s.react n lasting = t ∨ s.react n lasting = t.assertPins.drivePins) ∧
    (1 ≤ s.reactEach n → (s.react n lasting).regBit Reg.SAFE_PENDING n = true) ∧
    (lasting = true → 1 ≤ s.reactLast n → (s.react n lasting).regBit Reg.SAFE_PENDING (32 + n) = true) ∧
    (s.reactEach n = 2 ∨ (lasting = true ∧ s.reactLast n = 2) → (s.react n lasting).bit Reg.SAFE_PIN Fd.SAFE_PIN_LEVEL = true)

/-- R461, R459: the pins show the error level while FORCE is set, injection has not passed, a source with reaction 2 has its PENDING or
LASTING bit set, or the least assertion time runs. In reset every output is as the table of R673 says, without power at high impedance. -/
def Obligations.ErrorPinsFollow : Prop :=
  ∀ s : State, s.Inv →
    let level := s.drivePins.bit Reg.SAFE_PIN Fd.SAFE_PIN_LEVEL
    (s.bit Reg.SAFE_PIN Fd.SAFE_PIN_FORCE = true → level = true) ∧
    (s.safe.injected = false → level = true) ∧
    (∀ n, n < 16 → s.regBit Reg.SAFE_PENDING n = true → s.reactEach n = 2 → level = true) ∧
    (∀ n, n < 16 → s.regBit Reg.SAFE_PENDING (32 + n) = true → s.reactLast n = 2 → level = true) ∧
    (s.now < s.safe.minEnd → level = true) ∧
    (s.pinDemand = false → s.safe.minEnd ≤ s.now → level = false) ∧
    (s.sys.up = true → s.drive true .errOutN = .level (s.bit Reg.SAFE_PIN Fd.SAFE_PIN_LEVEL) ∧
      s.drive true .errOutP = .level (!s.bit Reg.SAFE_PIN Fd.SAFE_PIN_LEVEL)) ∧
    (s.sys.up = false → ∀ b, s.drive true b = b.inReset s.sys.tripped) ∧
    (∀ b, s.drive false b = .highZ)

/-! ### Leases, tenants, worlds, instances -/

/-- R480, R481: an act that names an old generation, or what is no longer held, has no effect and is counted. -/
def Obligations.StaleActsOnlyCount : Prop :=
  ∀ s : State, s.sys.up = true →
    (∀ h g, s.alw.grants.any (fun x => !x.standing && x.req.holder == h && x.req.gen == g) = false →
      exec (.alwRelease h g) s = .next (s.bump Reg.ALW_STALE_CNT noUnit)) ∧
    (∀ n q g, (∀ j, s.job? n q = some j → j.gen ≠ g ∨ s.fld (Reg.RING_CFG j.ring) Fd.RING_CFG_GEN ≠ g) →
      exec (.jobLeaseExpire n q g) s = .next (s.bump Reg.RING_SEQ_BAD_CNT noUnit) ∧
      exec (.knotWaitTimeout n q g) s = .next (s.bump Reg.KNOT_TMO_CNT noUnit)) ∧
    (∀ n q g, (∀ j r, s.job? n q = some j → j.resv = some r → r.gen ≠ g) →
      exec (.reservationExpire n q g) s = .next (s.bump Reg.SPARE_STALE_CNT noUnit)) ∧
    (∀ tag g data ahead, data ≠ .expired → (∀ h ∈ s.bridge.held, h.tag = tag → h.gen ≠ g) →
      exec (.hostCompletion tag g data ahead) s = .next (s.bump Reg.SPARE_STALE_CNT noUnit)) ∧
    (∀ u, s.rooted u = true → s.rootEnd u ≤ s.now → s.renewRoot u = s.bump Reg.SPARE_STALE_CNT noUnit)

/-- R502: a removal that RPMB took leaves the slot GONE with its EPOCH advanced, and no other EPOCH changes; a slot whose EPOCH has reached
0xFFFF_FFFF is not created again, and CREATE answers NO_KEY. -/
def Obligations.RemovalAdvancesEpoch : Prop :=
  ∀ (s : State) (k : Nat), s.Inv → s.sys.up = true → Sparse.wf (fun _ => {}) s.trust.tenants = true →
    (s.trust.removing.contains k = true →
      ∃ t, exec (.removalDone k true) s = .next t ∧ t.epoch k = min 0xFFFFFFFF (s.epoch k + 1) ∧ (t.tenant k).state = 3 ∧
        ∀ j, j ≠ k → t.epoch j = s.epoch j) ∧
    (∀ o, k < 256 → s.granted o (tenantSel o) → isInstance k = true → (s.tenant k).state ≠ 1 → (s.tenant k).state ≠ 2 → s.epoch k = 0xFFFFFFFF →
      exec (.tenantCreate o k) s = .next (s.commandDone o (tenantSel o) (s.indexed (tenantSel o) k) 4))

/-- R519: a gate whose target holds no matching EYE, from a state the table forbids, or onto a full stack raises a gateway fault at the
GATE, in the caller's world; GRET with an empty stack is an illegal instruction. -/
def Obligations.GatewayFaults : Prop :=
  ∀ (s : State) (c n target ret : Nat) (eye : Option Eyelet) (regs : List (Nat × Nat)), s.sys.up = true →
    let h := s.hart c n
    let stays := s.setHart c n { h with regs := regsOf regs, trap := some .gatewayFault }
    ((h.secure = true ∨ h.enclave ≠ 0 ∨ 4 ≤ h.stack.length ∨ (∀ e, eye = some e → e.secure = false ∨ e.tag ≠ 0)) →
      exec (.gateS c n target ret eye regs) s = .next stays) ∧
    ((h.enclave ≠ 0 ∨ 4 ≤ h.stack.length ∨ (∀ e v, eye = some e → e.tag ≠ 0 → s.enclave? e.tag = some v → v.secure ≠ e.secure)) →
      exec (.gateE c n target ret eye regs) s = .next stays) ∧
    (∀ e v, eye = some e → e.resume = true → s.enclave? e.tag = some v → v.frame = none → exec (.gateE c n target ret eye regs) s = .next stays) ∧
    (h.stack = [] → exec (.gret c n regs) s = .next (s.setHart c n { h with regs := regsOf regs, trap := some .illegal }))

/-- R540: a command that an instance's state does not list answers BUSY (2) and changes nothing. -/
def Obligations.InstanceStatesHold : Prop :=
  ∀ (s : State) (o : Origin) (v : Nat), s.sys.up = true → s.granted o viCmd →
    let t := s.indexed viCmd v
    let x := t.viState (v % 64)
    let busy := s.commandDone o viCmd t 2
    (x ≠ 1 → exec (.viQuiesce o v) s = .next busy) ∧
    (x ≠ 1 → x ≠ 2 → exec (.viQuiesceHard o v) s = .next busy) ∧
    (x ≠ 1 → x ≠ 3 → exec (.viFreeze o v) s = .next busy) ∧
    (x ≠ 3 → x ≠ 5 → exec (.viThaw o v) s = .next busy ∧ exec (.viReset o v) s = .next busy) ∧
    (x ≠ 5 → ∀ cert jrnl, exec (.viSave o v cert jrnl) s = .next busy) ∧
    (x ≠ 0 → ∀ img, exec (.viRestore o v img) s = .next busy)

/-! ### Intake, networks, links -/

/-- R352: setting UNORD never leaves more than 4 channels unordered. -/
def Obligations.UnorderedAtMostFour : Prop :=
  ∀ (s t : State) (o : Origin) (n : Nat) (on : Bool), s.Inv → s.unordCount ≤ 4 → exec (.unordWrite o n on) s = .next t → t.unordCount ≤ 4

/-- R583: at bus-off the controller stops transmitting, its transmit entries stay pending, BUSOFF_CNT is incremented. -/
def Obligations.BusOffStops : Prop :=
  ∀ (s : State) (n : Nat), s.Inv → s.sys.up = true → s.canLive n = true →
    ∃ t, exec (.busOff n) s = .next t ∧ t.canState n = 2 ∧ t.canSends n = false ∧ t.nets = s.nets ∧
      t.fld (Reg.GWY_BUSOFF_CNT n) ⟨31, 0⟩ = min 0xFFFFFFFF (s.fld (Reg.GWY_BUSOFF_CNT n) ⟨31, 0⟩ + 1) ∧
      ∀ sof, exec (.canTxDone n sof) t = .next t

/-- R595, with the reference present: a phase error within JUMP_NS is added to TSN_OFFSET; a greater one leaves it, goes to TSN_PEND, sets
REFUSED and is counted; with REFUSED set the error goes to TSN_PEND and TSN_OFFSET stays. -/
def Obligations.SyncServo : Prop :=
  ∀ (s : State) (p : Nat) (e : Word), s.Inv → s.sys.up = true → s.gptpPort p = true → s.bit Reg.TIME_STATUS Fd.TIME_STATUS_REF_LOSS = false →
    ∃ t, exec (.syncRx p e) s = .next t ∧
      (s.gptpIs Fd.TSN_GPTP_STATUS_REFUSED = false → e.toInt.natAbs ≤ s.jumpNs →
        t.reg Reg.TSN_OFFSET = s.reg Reg.TSN_OFFSET + e ∧ t.gptpIs Fd.TSN_GPTP_STATUS_REFUSED = false) ∧
      (s.gptpIs Fd.TSN_GPTP_STATUS_REFUSED = false → s.jumpNs < e.toInt.natAbs →
        t.reg Reg.TSN_OFFSET = s.reg Reg.TSN_OFFSET ∧ t.reg Reg.TSN_PEND = e ∧ t.gptpIs Fd.TSN_GPTP_STATUS_REFUSED = true ∧
        t.fld Reg.GPTP_REFUSE_CNT ⟨31, 0⟩ = min 0xFFFFFFFF (s.fld Reg.GPTP_REFUSE_CNT ⟨31, 0⟩ + 1)) ∧
      (s.gptpIs Fd.TSN_GPTP_STATUS_REFUSED = true →
        t.reg Reg.TSN_PEND = e ∧ t.reg Reg.TSN_OFFSET = s.reg Reg.TSN_OFFSET ∧ t.gptpIs Fd.TSN_GPTP_STATUS_REFUSED = true)

/-- R517, R622, R623: a frame whose tag fails is dropped and counted, one of a removed tenant too; of the sequenced frames only the one expected
has its effect: a duplicate is discarded, any other counted in OOO_DROP. -/
def Obligations.OutOfOrderFramesDropped : Prop :=
  ∀ (s : State) (port i : Nat) (f : Frame) (lane : Nat) (jrnl : Bool), s.sys.up = true → s.sender port f = some i →
    let each := fun (ok : Bool) (t : State) =>
      exec (.readReq port f ok) s = .next t ∧ exec (.sealReq port f ok) s = .next t ∧ exec (.readData port f ok) s = .next t ∧
      exec (.cwyError port f ok) s = .next t ∧ exec (.sealData port f ok) s = .next t ∧ exec (.cwyKnot port f ok) s = .next t ∧
      exec (.cwyLane port f ok lane jrnl) s = .next t
    let s1 := (s.keyReady f.tenant i).heard i f
    (s.goneTenant f.tenant = true → ∀ ok, each ok (s.bump Reg.SEC_GONE_DROP_CNT noUnit)) ∧
    (s.goneTenant f.tenant = false → each false s.tagFail) ∧
    (s.goneTenant f.tenant = false → f.seq ≠ (s1.peer i).expect → seqBefore f.seq (s1.peer i).expect = true →
      each true ((s1.setPeer i { s1.peer i with ackDue := true }).ackNow i)) ∧
    (s.goneTenant f.tenant = false → f.seq ≠ (s1.peer i).expect → seqBefore f.seq (s1.peer i).expect = false →
      each true (s1.bump Reg.CWY_OOO_DROP noUnit))
end

