-- ==== Sys2Proof/Laws/Sparse.lean ====
section
/-! SUPPORT. The laws of sparse tables: read after write, and every write keeps the canonical form. -/

namespace Sys2Proof.Machine

theorem Sparse.get_of_above {α : Type} {d : Nat → α} {k : Nat} {m : Sparse α} (h : Sparse.above k m = true) :
    Sparse.get d k m = d k := by
  cases m with
  | nil => rfl
  | cons e m =>
    obtain ⟨k', v⟩ := e
    have hk : k < k' := by simpa [Sparse.above] using h
    simp [Sparse.get, hk, Nat.ne_of_lt hk]

theorem Sparse.above_of_lt {α : Type} {b c : Nat} {m : Sparse α} (hbc : b ≤ c) (h : Sparse.above c m = true) :
    Sparse.above b m = true := by
  cases m with
  | nil => rfl
  | cons e m => simp [Sparse.above] at *; omega

theorem Sparse.above_put {α : Type} [DecidableEq α] {d : Nat → α} {b k : Nat} {v : α} {m : Sparse α}
    (hw : Sparse.wf d m = true) (hb : Sparse.above b m = true) (hk : b < k) :
    Sparse.above b (Sparse.put d k v m) = true := by
  cases m with
  | nil => simp only [Sparse.put]; split <;> simp [Sparse.above, hk]
  | cons e m =>
    obtain ⟨k', v'⟩ := e
    have hb' : b < k' := by simpa [Sparse.above] using hb
    simp only [Sparse.put]
    split
    · split <;> simp [Sparse.above, hk, hb']
    · split
      · split
        · simp [Sparse.wf] at hw
          exact Sparse.above_of_lt (Nat.le_of_lt hb') hw.1.1
        · simp [Sparse.above, hk]
      · simp [Sparse.above, hb']

/-- Writing keeps the canonical form. -/
theorem Sparse.wf_put {α : Type} [DecidableEq α] {d : Nat → α} {k : Nat} {v : α} {m : Sparse α}
    (h : Sparse.wf d m = true) : Sparse.wf d (Sparse.put d k v m) = true := by
  induction m with
  | nil => simp only [Sparse.put]; split <;> simp_all [Sparse.wf, Sparse.above]
  | cons e m ih =>
    obtain ⟨k', v'⟩ := e
    have hc := h
    simp only [Sparse.wf, Bool.and_eq_true] at hc
    obtain ⟨⟨ha, hv⟩, hm⟩ := hc
    simp only [Sparse.put]
    split
    next hlt =>
      split
      · exact h
      next hne =>
        have h1 : Sparse.above k ((k', v') :: m) = true := by simpa [Sparse.above] using hlt
        rw [Sparse.wf, h1, h]
        simp [hne]
    next hge =>
      split
      next heq =>
        subst heq
        split
        · exact hm
        next hne => simp [Sparse.wf, ha, hm, hne]
      next hne =>
        have hlt : k' < k := by omega
        simp [Sparse.wf, Sparse.above_put hm ha hlt, ih hm]
        simpa using hv

/-- Reading the key just written gives the value written. -/
theorem Sparse.get_put_same {α : Type} [DecidableEq α] {d : Nat → α} {k : Nat} {v : α} {m : Sparse α}
    (h : Sparse.wf d m = true) : Sparse.get d k (Sparse.put d k v m) = v := by
  induction m with
  | nil => simp only [Sparse.put]; split <;> simp_all [Sparse.get]
  | cons e m ih =>
    obtain ⟨k', v'⟩ := e
    simp only [Sparse.wf, Bool.and_eq_true] at h
    obtain ⟨⟨ha, _⟩, hm⟩ := h
    simp only [Sparse.put]
    split
    next hlt =>
      split
      next he => simp [Sparse.get, hlt, Nat.ne_of_lt hlt, he]
      · simp [Sparse.get]
    next hge =>
      split
      next heq =>
        subst heq
        split
        next he => rw [Sparse.get_of_above ha, he]
        · simp [Sparse.get]
      next hne => simp [Sparse.get, hne, hge, ih hm]

/-- Reading any other key gives what it gave before. -/
theorem Sparse.get_put_other {α : Type} [DecidableEq α] {d : Nat → α} {k j : Nat} {v : α} {m : Sparse α}
    (hj : j ≠ k) (h : Sparse.wf d m = true) : Sparse.get d j (Sparse.put d k v m) = Sparse.get d j m := by
  induction m with
  | nil => simp only [Sparse.put]; split <;> simp_all [Sparse.get]
  | cons e m ih =>
    obtain ⟨k', v'⟩ := e
    simp only [Sparse.wf, Bool.and_eq_true] at h
    obtain ⟨⟨ha, _⟩, hm⟩ := h
    simp only [Sparse.put]
    split
    next hlt =>
      split
      · rfl
      · by_cases h1 : j < k
        · have : j < k' := by omega
          simp [Sparse.get, h1, hj, this, Nat.ne_of_lt this]
        · simp [Sparse.get, hj, h1]
    next hge =>
      split
      next heq =>
        subst heq
        split
        · by_cases h1 : j < k
          · simp [Sparse.get, hj, h1, Sparse.get_of_above (Sparse.above_of_lt (Nat.le_of_lt h1) ha)]
          · simp [Sparse.get, hj, h1]
        · simp [Sparse.get, hj]
      next hne => simp [Sparse.get, ih hm]

theorem Sparse.wf_tail {α : Type} [DecidableEq α] {d : Nat → α} {e : Nat × α} {m : Sparse α}
    (h : Sparse.wf d (e :: m) = true) : Sparse.wf d m = true := by
  obtain ⟨k, v⟩ := e
  simp only [Sparse.wf, Bool.and_eq_true] at h
  exact h.2

theorem Sparse.above_filter {α : Type} [DecidableEq α] {d : Nat → α} {b : Nat} {p : Nat × α → Bool} {m : Sparse α}
    (hw : Sparse.wf d m = true) (h : Sparse.above b m = true) : Sparse.above b (m.filter p) = true := by
  induction m with
  | nil => rfl
  | cons e m ih =>
    obtain ⟨k, v⟩ := e
    have hb : b < k := by simpa [Sparse.above] using h
    have hc := hw
    simp only [Sparse.wf, Bool.and_eq_true] at hc
    by_cases hp : p (k, v)
    · simp [List.filter, hp, Sparse.above, hb]
    · simp only [List.filter, hp]
      exact ih hc.2 (Sparse.above_of_lt (Nat.le_of_lt hb) hc.1.1)

/-- Dropping entries keeps the canonical form. -/
theorem Sparse.wf_filter {α : Type} [DecidableEq α] {d : Nat → α} {p : Nat × α → Bool} {m : Sparse α}
    (h : Sparse.wf d m = true) : Sparse.wf d (m.filter p) = true := by
  induction m with
  | nil => rfl
  | cons e m ih =>
    obtain ⟨k, v⟩ := e
    have hc := h
    simp only [Sparse.wf, Bool.and_eq_true] at hc
    obtain ⟨⟨ha, hv⟩, hm⟩ := hc
    by_cases hp : p (k, v)
    · simp only [List.filter, hp, Sparse.wf, Bool.and_eq_true]
      exact ⟨⟨Sparse.above_filter hm ha, hv⟩, ih hm⟩
    · simp only [List.filter, hp]
      exact ih hm

theorem Sparse.wf_drop {α : Type} [DecidableEq α] {d : Nat → α} {p : Nat → Bool} {m : Sparse α}
    (h : Sparse.wf d m = true) : Sparse.wf d (Sparse.drop p m) = true := Sparse.wf_filter h

theorem Sparse.wf_putAll {α : Type} [DecidableEq α] {d : Nat → α} {ks : List Nat} {v : α} {m : Sparse α}
    (h : Sparse.wf d m = true) : Sparse.wf d (Sparse.putAll d ks v m) = true := by
  induction ks generalizing m with
  | nil => exact h
  | cons k ks ih => exact ih (Sparse.wf_put h)

end Sys2Proof.Machine
end

