-- ==== Sys2Proof/Laws/State.lean ====
section
/-! SUPPORT. One lemma per field and update: what each named update of a state leaves as it was. Then what counting, events and audit
entries may change: registers, memory, poison, messages, and for an audit entry the audit state. -/

namespace Sys2Proof.Machine

/-! setReg -/

@[simp] theorem State.setReg_time (s : State) (k : Nat) (w : Word) : (s.setReg k w).time = s.time := rfl
@[simp] theorem State.setReg_mem (s : State) (k : Nat) (w : Word) : (s.setReg k w).mem = s.mem := rfl
@[simp] theorem State.setReg_poison (s : State) (k : Nat) (w : Word) : (s.setReg k w).poison = s.poison := rfl
@[simp] theorem State.setReg_far (s : State) (k : Nat) (w : Word) : (s.setReg k w).far = s.far := rfl
@[simp] theorem State.setReg_free (s : State) (k : Nat) (w : Word) : (s.setReg k w).free = s.free := rfl
@[simp] theorem State.setReg_resp (s : State) (k : Nat) (w : Word) : (s.setReg k w).resp = s.resp := rfl
@[simp] theorem State.setReg_out (s : State) (k : Nat) (w : Word) : (s.setReg k w).out = s.out := rfl
@[simp] theorem State.setReg_sys (s : State) (k : Nat) (w : Word) : (s.setReg k w).sys = s.sys := rfl
@[simp] theorem State.setReg_audit (s : State) (k : Nat) (w : Word) : (s.setReg k w).audit = s.audit := rfl
@[simp] theorem State.setReg_timeLatch (s : State) (k : Nat) (w : Word) : (s.setReg k w).timeLatch = s.timeLatch := rfl
@[simp] theorem State.setReg_tacks (s : State) (k : Nat) (w : Word) : (s.setReg k w).tacks = s.tacks := rfl
@[simp] theorem State.setReg_fsync (s : State) (k : Nat) (w : Word) : (s.setReg k w).fsync = s.fsync := rfl
@[simp] theorem State.setReg_alw (s : State) (k : Nat) (w : Word) : (s.setReg k w).alw = s.alw := rfl
@[simp] theorem State.setReg_memst (s : State) (k : Nat) (w : Word) : (s.setReg k w).memst = s.memst := rfl
@[simp] theorem State.setReg_bridge (s : State) (k : Nat) (w : Word) : (s.setReg k w).bridge = s.bridge := rfl
@[simp] theorem State.setReg_safe (s : State) (k : Nat) (w : Word) : (s.setReg k w).safe = s.safe := rfl
@[simp] theorem State.setReg_knots (s : State) (k : Nat) (w : Word) : (s.setReg k w).knots = s.knots := rfl
@[simp] theorem State.setReg_rings (s : State) (k : Nat) (w : Word) : (s.setReg k w).rings = s.rings := rfl
@[simp] theorem State.setReg_jobs (s : State) (k : Nat) (w : Word) : (s.setReg k w).jobs = s.jobs := rfl
@[simp] theorem State.setReg_cores (s : State) (k : Nat) (w : Word) : (s.setReg k w).cores = s.cores := rfl
@[simp] theorem State.setReg_hot (s : State) (k : Nat) (w : Word) : (s.setReg k w).hot = s.hot := rfl
@[simp] theorem State.setReg_tiles (s : State) (k : Nat) (w : Word) : (s.setReg k w).tiles = s.tiles := rfl
@[simp] theorem State.setReg_sched (s : State) (k : Nat) (w : Word) : (s.setReg k w).sched = s.sched := rfl
@[simp] theorem State.setReg_regions (s : State) (k : Nat) (w : Word) : (s.setReg k w).regions = s.regions := rfl
@[simp] theorem State.setReg_chans (s : State) (k : Nat) (w : Word) : (s.setReg k w).chans = s.chans := rfl
@[simp] theorem State.setReg_encoder (s : State) (k : Nat) (w : Word) : (s.setReg k w).encoder = s.encoder := rfl
@[simp] theorem State.setReg_fusion (s : State) (k : Nat) (w : Word) : (s.setReg k w).fusion = s.fusion := rfl
@[simp] theorem State.setReg_display (s : State) (k : Nat) (w : Word) : (s.setReg k w).display = s.display := rfl
@[simp] theorem State.setReg_seals (s : State) (k : Nat) (w : Word) : (s.setReg k w).seals = s.seals := rfl
@[simp] theorem State.setReg_checkers (s : State) (k : Nat) (w : Word) : (s.setReg k w).checkers = s.checkers := rfl
@[simp] theorem State.setReg_darn (s : State) (k : Nat) (w : Word) : (s.setReg k w).darn = s.darn := rfl
@[simp] theorem State.setReg_watch (s : State) (k : Nat) (w : Word) : (s.setReg k w).watch = s.watch := rfl
@[simp] theorem State.setReg_trust (s : State) (k : Nat) (w : Word) : (s.setReg k w).trust = s.trust := rfl
@[simp] theorem State.setReg_insts (s : State) (k : Nat) (w : Word) : (s.setReg k w).insts = s.insts := rfl
@[simp] theorem State.setReg_journal (s : State) (k : Nat) (w : Word) : (s.setReg k w).journal = s.journal := rfl
@[simp] theorem State.setReg_cwy (s : State) (k : Nat) (w : Word) : (s.setReg k w).cwy = s.cwy := rfl
@[simp] theorem State.setReg_nets (s : State) (k : Nat) (w : Word) : (s.setReg k w).nets = s.nets := rfl
@[simp] theorem State.setReg_epochs (s : State) (k : Nat) (w : Word) : (s.setReg k w).epochs = s.epochs := rfl
@[simp] theorem State.setReg_pending (s : State) (k : Nat) (w : Word) : (s.setReg k w).pending = s.pending := rfl

/-! setFld -/

@[simp] theorem State.setFld_time (s : State) (k : Nat) (f : Fld) (v : Nat) : (s.setFld k f v).time = s.time := rfl
@[simp] theorem State.setFld_mem (s : State) (k : Nat) (f : Fld) (v : Nat) : (s.setFld k f v).mem = s.mem := rfl
@[simp] theorem State.setFld_poison (s : State) (k : Nat) (f : Fld) (v : Nat) : (s.setFld k f v).poison = s.poison := rfl
@[simp] theorem State.setFld_far (s : State) (k : Nat) (f : Fld) (v : Nat) : (s.setFld k f v).far = s.far := rfl
@[simp] theorem State.setFld_free (s : State) (k : Nat) (f : Fld) (v : Nat) : (s.setFld k f v).free = s.free := rfl
@[simp] theorem State.setFld_resp (s : State) (k : Nat) (f : Fld) (v : Nat) : (s.setFld k f v).resp = s.resp := rfl
@[simp] theorem State.setFld_out (s : State) (k : Nat) (f : Fld) (v : Nat) : (s.setFld k f v).out = s.out := rfl
@[simp] theorem State.setFld_sys (s : State) (k : Nat) (f : Fld) (v : Nat) : (s.setFld k f v).sys = s.sys := rfl
@[simp] theorem State.setFld_audit (s : State) (k : Nat) (f : Fld) (v : Nat) : (s.setFld k f v).audit = s.audit := rfl
@[simp] theorem State.setFld_timeLatch (s : State) (k : Nat) (f : Fld) (v : Nat) : (s.setFld k f v).timeLatch = s.timeLatch := rfl
@[simp] theorem State.setFld_tacks (s : State) (k : Nat) (f : Fld) (v : Nat) : (s.setFld k f v).tacks = s.tacks := rfl
@[simp] theorem State.setFld_fsync (s : State) (k : Nat) (f : Fld) (v : Nat) : (s.setFld k f v).fsync = s.fsync := rfl
@[simp] theorem State.setFld_alw (s : State) (k : Nat) (f : Fld) (v : Nat) : (s.setFld k f v).alw = s.alw := rfl
@[simp] theorem State.setFld_memst (s : State) (k : Nat) (f : Fld) (v : Nat) : (s.setFld k f v).memst = s.memst := rfl
@[simp] theorem State.setFld_bridge (s : State) (k : Nat) (f : Fld) (v : Nat) : (s.setFld k f v).bridge = s.bridge := rfl
@[simp] theorem State.setFld_safe (s : State) (k : Nat) (f : Fld) (v : Nat) : (s.setFld k f v).safe = s.safe := rfl
@[simp] theorem State.setFld_knots (s : State) (k : Nat) (f : Fld) (v : Nat) : (s.setFld k f v).knots = s.knots := rfl
@[simp] theorem State.setFld_rings (s : State) (k : Nat) (f : Fld) (v : Nat) : (s.setFld k f v).rings = s.rings := rfl
@[simp] theorem State.setFld_jobs (s : State) (k : Nat) (f : Fld) (v : Nat) : (s.setFld k f v).jobs = s.jobs := rfl
@[simp] theorem State.setFld_cores (s : State) (k : Nat) (f : Fld) (v : Nat) : (s.setFld k f v).cores = s.cores := rfl
@[simp] theorem State.setFld_hot (s : State) (k : Nat) (f : Fld) (v : Nat) : (s.setFld k f v).hot = s.hot := rfl
@[simp] theorem State.setFld_tiles (s : State) (k : Nat) (f : Fld) (v : Nat) : (s.setFld k f v).tiles = s.tiles := rfl
@[simp] theorem State.setFld_sched (s : State) (k : Nat) (f : Fld) (v : Nat) : (s.setFld k f v).sched = s.sched := rfl
@[simp] theorem State.setFld_regions (s : State) (k : Nat) (f : Fld) (v : Nat) : (s.setFld k f v).regions = s.regions := rfl
@[simp] theorem State.setFld_chans (s : State) (k : Nat) (f : Fld) (v : Nat) : (s.setFld k f v).chans = s.chans := rfl
@[simp] theorem State.setFld_encoder (s : State) (k : Nat) (f : Fld) (v : Nat) : (s.setFld k f v).encoder = s.encoder := rfl
@[simp] theorem State.setFld_fusion (s : State) (k : Nat) (f : Fld) (v : Nat) : (s.setFld k f v).fusion = s.fusion := rfl
@[simp] theorem State.setFld_display (s : State) (k : Nat) (f : Fld) (v : Nat) : (s.setFld k f v).display = s.display := rfl
@[simp] theorem State.setFld_seals (s : State) (k : Nat) (f : Fld) (v : Nat) : (s.setFld k f v).seals = s.seals := rfl
@[simp] theorem State.setFld_checkers (s : State) (k : Nat) (f : Fld) (v : Nat) : (s.setFld k f v).checkers = s.checkers := rfl
@[simp] theorem State.setFld_darn (s : State) (k : Nat) (f : Fld) (v : Nat) : (s.setFld k f v).darn = s.darn := rfl
@[simp] theorem State.setFld_watch (s : State) (k : Nat) (f : Fld) (v : Nat) : (s.setFld k f v).watch = s.watch := rfl
@[simp] theorem State.setFld_trust (s : State) (k : Nat) (f : Fld) (v : Nat) : (s.setFld k f v).trust = s.trust := rfl
@[simp] theorem State.setFld_insts (s : State) (k : Nat) (f : Fld) (v : Nat) : (s.setFld k f v).insts = s.insts := rfl
@[simp] theorem State.setFld_journal (s : State) (k : Nat) (f : Fld) (v : Nat) : (s.setFld k f v).journal = s.journal := rfl
@[simp] theorem State.setFld_cwy (s : State) (k : Nat) (f : Fld) (v : Nat) : (s.setFld k f v).cwy = s.cwy := rfl
@[simp] theorem State.setFld_nets (s : State) (k : Nat) (f : Fld) (v : Nat) : (s.setFld k f v).nets = s.nets := rfl
@[simp] theorem State.setFld_epochs (s : State) (k : Nat) (f : Fld) (v : Nat) : (s.setFld k f v).epochs = s.epochs := rfl
@[simp] theorem State.setFld_pending (s : State) (k : Nat) (f : Fld) (v : Nat) : (s.setFld k f v).pending = s.pending := rfl

/-! setBit -/

@[simp] theorem State.setBit_time (s : State) (k b : Nat) (v : Bool) : (s.setBit k b v).time = s.time := rfl
@[simp] theorem State.setBit_mem (s : State) (k b : Nat) (v : Bool) : (s.setBit k b v).mem = s.mem := rfl
@[simp] theorem State.setBit_poison (s : State) (k b : Nat) (v : Bool) : (s.setBit k b v).poison = s.poison := rfl
@[simp] theorem State.setBit_far (s : State) (k b : Nat) (v : Bool) : (s.setBit k b v).far = s.far := rfl
@[simp] theorem State.setBit_free (s : State) (k b : Nat) (v : Bool) : (s.setBit k b v).free = s.free := rfl
@[simp] theorem State.setBit_resp (s : State) (k b : Nat) (v : Bool) : (s.setBit k b v).resp = s.resp := rfl
@[simp] theorem State.setBit_out (s : State) (k b : Nat) (v : Bool) : (s.setBit k b v).out = s.out := rfl
@[simp] theorem State.setBit_sys (s : State) (k b : Nat) (v : Bool) : (s.setBit k b v).sys = s.sys := rfl
@[simp] theorem State.setBit_audit (s : State) (k b : Nat) (v : Bool) : (s.setBit k b v).audit = s.audit := rfl
@[simp] theorem State.setBit_timeLatch (s : State) (k b : Nat) (v : Bool) : (s.setBit k b v).timeLatch = s.timeLatch := rfl
@[simp] theorem State.setBit_tacks (s : State) (k b : Nat) (v : Bool) : (s.setBit k b v).tacks = s.tacks := rfl
@[simp] theorem State.setBit_fsync (s : State) (k b : Nat) (v : Bool) : (s.setBit k b v).fsync = s.fsync := rfl
@[simp] theorem State.setBit_alw (s : State) (k b : Nat) (v : Bool) : (s.setBit k b v).alw = s.alw := rfl
@[simp] theorem State.setBit_memst (s : State) (k b : Nat) (v : Bool) : (s.setBit k b v).memst = s.memst := rfl
@[simp] theorem State.setBit_bridge (s : State) (k b : Nat) (v : Bool) : (s.setBit k b v).bridge = s.bridge := rfl
@[simp] theorem State.setBit_safe (s : State) (k b : Nat) (v : Bool) : (s.setBit k b v).safe = s.safe := rfl
@[simp] theorem State.setBit_knots (s : State) (k b : Nat) (v : Bool) : (s.setBit k b v).knots = s.knots := rfl
@[simp] theorem State.setBit_rings (s : State) (k b : Nat) (v : Bool) : (s.setBit k b v).rings = s.rings := rfl
@[simp] theorem State.setBit_jobs (s : State) (k b : Nat) (v : Bool) : (s.setBit k b v).jobs = s.jobs := rfl
@[simp] theorem State.setBit_cores (s : State) (k b : Nat) (v : Bool) : (s.setBit k b v).cores = s.cores := rfl
@[simp] theorem State.setBit_hot (s : State) (k b : Nat) (v : Bool) : (s.setBit k b v).hot = s.hot := rfl
@[simp] theorem State.setBit_tiles (s : State) (k b : Nat) (v : Bool) : (s.setBit k b v).tiles = s.tiles := rfl
@[simp] theorem State.setBit_sched (s : State) (k b : Nat) (v : Bool) : (s.setBit k b v).sched = s.sched := rfl
@[simp] theorem State.setBit_regions (s : State) (k b : Nat) (v : Bool) : (s.setBit k b v).regions = s.regions := rfl
@[simp] theorem State.setBit_chans (s : State) (k b : Nat) (v : Bool) : (s.setBit k b v).chans = s.chans := rfl
@[simp] theorem State.setBit_encoder (s : State) (k b : Nat) (v : Bool) : (s.setBit k b v).encoder = s.encoder := rfl
@[simp] theorem State.setBit_fusion (s : State) (k b : Nat) (v : Bool) : (s.setBit k b v).fusion = s.fusion := rfl
@[simp] theorem State.setBit_display (s : State) (k b : Nat) (v : Bool) : (s.setBit k b v).display = s.display := rfl
@[simp] theorem State.setBit_seals (s : State) (k b : Nat) (v : Bool) : (s.setBit k b v).seals = s.seals := rfl
@[simp] theorem State.setBit_checkers (s : State) (k b : Nat) (v : Bool) : (s.setBit k b v).checkers = s.checkers := rfl
@[simp] theorem State.setBit_darn (s : State) (k b : Nat) (v : Bool) : (s.setBit k b v).darn = s.darn := rfl
@[simp] theorem State.setBit_watch (s : State) (k b : Nat) (v : Bool) : (s.setBit k b v).watch = s.watch := rfl
@[simp] theorem State.setBit_trust (s : State) (k b : Nat) (v : Bool) : (s.setBit k b v).trust = s.trust := rfl
@[simp] theorem State.setBit_insts (s : State) (k b : Nat) (v : Bool) : (s.setBit k b v).insts = s.insts := rfl
@[simp] theorem State.setBit_journal (s : State) (k b : Nat) (v : Bool) : (s.setBit k b v).journal = s.journal := rfl
@[simp] theorem State.setBit_cwy (s : State) (k b : Nat) (v : Bool) : (s.setBit k b v).cwy = s.cwy := rfl
@[simp] theorem State.setBit_nets (s : State) (k b : Nat) (v : Bool) : (s.setBit k b v).nets = s.nets := rfl
@[simp] theorem State.setBit_epochs (s : State) (k b : Nat) (v : Bool) : (s.setBit k b v).epochs = s.epochs := rfl
@[simp] theorem State.setBit_pending (s : State) (k b : Nat) (v : Bool) : (s.setBit k b v).pending = s.pending := rfl

/-! writeBytes -/

@[simp] theorem State.writeBytes_time (s : State) (a : Nat) (bs : List Byte) : (s.writeBytes a bs).time = s.time := rfl
@[simp] theorem State.writeBytes_regs (s : State) (a : Nat) (bs : List Byte) : (s.writeBytes a bs).regs = s.regs := rfl
@[simp] theorem State.writeBytes_far (s : State) (a : Nat) (bs : List Byte) : (s.writeBytes a bs).far = s.far := rfl
@[simp] theorem State.writeBytes_free (s : State) (a : Nat) (bs : List Byte) : (s.writeBytes a bs).free = s.free := rfl
@[simp] theorem State.writeBytes_resp (s : State) (a : Nat) (bs : List Byte) : (s.writeBytes a bs).resp = s.resp := rfl
@[simp] theorem State.writeBytes_out (s : State) (a : Nat) (bs : List Byte) : (s.writeBytes a bs).out = s.out := rfl
@[simp] theorem State.writeBytes_sys (s : State) (a : Nat) (bs : List Byte) : (s.writeBytes a bs).sys = s.sys := rfl
@[simp] theorem State.writeBytes_audit (s : State) (a : Nat) (bs : List Byte) : (s.writeBytes a bs).audit = s.audit := rfl
@[simp] theorem State.writeBytes_timeLatch (s : State) (a : Nat) (bs : List Byte) : (s.writeBytes a bs).timeLatch = s.timeLatch := rfl
@[simp] theorem State.writeBytes_tacks (s : State) (a : Nat) (bs : List Byte) : (s.writeBytes a bs).tacks = s.tacks := rfl
@[simp] theorem State.writeBytes_fsync (s : State) (a : Nat) (bs : List Byte) : (s.writeBytes a bs).fsync = s.fsync := rfl
@[simp] theorem State.writeBytes_alw (s : State) (a : Nat) (bs : List Byte) : (s.writeBytes a bs).alw = s.alw := rfl
@[simp] theorem State.writeBytes_memst (s : State) (a : Nat) (bs : List Byte) : (s.writeBytes a bs).memst = s.memst := rfl
@[simp] theorem State.writeBytes_bridge (s : State) (a : Nat) (bs : List Byte) : (s.writeBytes a bs).bridge = s.bridge := rfl
@[simp] theorem State.writeBytes_safe (s : State) (a : Nat) (bs : List Byte) : (s.writeBytes a bs).safe = s.safe := rfl
@[simp] theorem State.writeBytes_knots (s : State) (a : Nat) (bs : List Byte) : (s.writeBytes a bs).knots = s.knots := rfl
@[simp] theorem State.writeBytes_rings (s : State) (a : Nat) (bs : List Byte) : (s.writeBytes a bs).rings = s.rings := rfl
@[simp] theorem State.writeBytes_jobs (s : State) (a : Nat) (bs : List Byte) : (s.writeBytes a bs).jobs = s.jobs := rfl
@[simp] theorem State.writeBytes_cores (s : State) (a : Nat) (bs : List Byte) : (s.writeBytes a bs).cores = s.cores := rfl
@[simp] theorem State.writeBytes_hot (s : State) (a : Nat) (bs : List Byte) : (s.writeBytes a bs).hot = s.hot := rfl
@[simp] theorem State.writeBytes_tiles (s : State) (a : Nat) (bs : List Byte) : (s.writeBytes a bs).tiles = s.tiles := rfl
@[simp] theorem State.writeBytes_sched (s : State) (a : Nat) (bs : List Byte) : (s.writeBytes a bs).sched = s.sched := rfl
@[simp] theorem State.writeBytes_regions (s : State) (a : Nat) (bs : List Byte) : (s.writeBytes a bs).regions = s.regions := rfl
@[simp] theorem State.writeBytes_chans (s : State) (a : Nat) (bs : List Byte) : (s.writeBytes a bs).chans = s.chans := rfl
@[simp] theorem State.writeBytes_encoder (s : State) (a : Nat) (bs : List Byte) : (s.writeBytes a bs).encoder = s.encoder := rfl
@[simp] theorem State.writeBytes_fusion (s : State) (a : Nat) (bs : List Byte) : (s.writeBytes a bs).fusion = s.fusion := rfl
@[simp] theorem State.writeBytes_display (s : State) (a : Nat) (bs : List Byte) : (s.writeBytes a bs).display = s.display := rfl
@[simp] theorem State.writeBytes_seals (s : State) (a : Nat) (bs : List Byte) : (s.writeBytes a bs).seals = s.seals := rfl
@[simp] theorem State.writeBytes_checkers (s : State) (a : Nat) (bs : List Byte) : (s.writeBytes a bs).checkers = s.checkers := rfl
@[simp] theorem State.writeBytes_darn (s : State) (a : Nat) (bs : List Byte) : (s.writeBytes a bs).darn = s.darn := rfl
@[simp] theorem State.writeBytes_watch (s : State) (a : Nat) (bs : List Byte) : (s.writeBytes a bs).watch = s.watch := rfl
@[simp] theorem State.writeBytes_trust (s : State) (a : Nat) (bs : List Byte) : (s.writeBytes a bs).trust = s.trust := rfl
@[simp] theorem State.writeBytes_insts (s : State) (a : Nat) (bs : List Byte) : (s.writeBytes a bs).insts = s.insts := rfl
@[simp] theorem State.writeBytes_journal (s : State) (a : Nat) (bs : List Byte) : (s.writeBytes a bs).journal = s.journal := rfl
@[simp] theorem State.writeBytes_cwy (s : State) (a : Nat) (bs : List Byte) : (s.writeBytes a bs).cwy = s.cwy := rfl
@[simp] theorem State.writeBytes_nets (s : State) (a : Nat) (bs : List Byte) : (s.writeBytes a bs).nets = s.nets := rfl
@[simp] theorem State.writeBytes_epochs (s : State) (a : Nat) (bs : List Byte) : (s.writeBytes a bs).epochs = s.epochs := rfl
@[simp] theorem State.writeBytes_pending (s : State) (a : Nat) (bs : List Byte) : (s.writeBytes a bs).pending = s.pending := rfl

/-! setPoison -/

@[simp] theorem State.setPoison_time (s : State) (a n : Nat) : (s.setPoison a n).time = s.time := rfl
@[simp] theorem State.setPoison_regs (s : State) (a n : Nat) : (s.setPoison a n).regs = s.regs := rfl
@[simp] theorem State.setPoison_mem (s : State) (a n : Nat) : (s.setPoison a n).mem = s.mem := rfl
@[simp] theorem State.setPoison_far (s : State) (a n : Nat) : (s.setPoison a n).far = s.far := rfl
@[simp] theorem State.setPoison_free (s : State) (a n : Nat) : (s.setPoison a n).free = s.free := rfl
@[simp] theorem State.setPoison_resp (s : State) (a n : Nat) : (s.setPoison a n).resp = s.resp := rfl
@[simp] theorem State.setPoison_out (s : State) (a n : Nat) : (s.setPoison a n).out = s.out := rfl
@[simp] theorem State.setPoison_sys (s : State) (a n : Nat) : (s.setPoison a n).sys = s.sys := rfl
@[simp] theorem State.setPoison_audit (s : State) (a n : Nat) : (s.setPoison a n).audit = s.audit := rfl
@[simp] theorem State.setPoison_timeLatch (s : State) (a n : Nat) : (s.setPoison a n).timeLatch = s.timeLatch := rfl
@[simp] theorem State.setPoison_tacks (s : State) (a n : Nat) : (s.setPoison a n).tacks = s.tacks := rfl
@[simp] theorem State.setPoison_fsync (s : State) (a n : Nat) : (s.setPoison a n).fsync = s.fsync := rfl
@[simp] theorem State.setPoison_alw (s : State) (a n : Nat) : (s.setPoison a n).alw = s.alw := rfl
@[simp] theorem State.setPoison_memst (s : State) (a n : Nat) : (s.setPoison a n).memst = s.memst := rfl
@[simp] theorem State.setPoison_bridge (s : State) (a n : Nat) : (s.setPoison a n).bridge = s.bridge := rfl
@[simp] theorem State.setPoison_safe (s : State) (a n : Nat) : (s.setPoison a n).safe = s.safe := rfl
@[simp] theorem State.setPoison_knots (s : State) (a n : Nat) : (s.setPoison a n).knots = s.knots := rfl
@[simp] theorem State.setPoison_rings (s : State) (a n : Nat) : (s.setPoison a n).rings = s.rings := rfl
@[simp] theorem State.setPoison_jobs (s : State) (a n : Nat) : (s.setPoison a n).jobs = s.jobs := rfl
@[simp] theorem State.setPoison_cores (s : State) (a n : Nat) : (s.setPoison a n).cores = s.cores := rfl
@[simp] theorem State.setPoison_hot (s : State) (a n : Nat) : (s.setPoison a n).hot = s.hot := rfl
@[simp] theorem State.setPoison_tiles (s : State) (a n : Nat) : (s.setPoison a n).tiles = s.tiles := rfl
@[simp] theorem State.setPoison_sched (s : State) (a n : Nat) : (s.setPoison a n).sched = s.sched := rfl
@[simp] theorem State.setPoison_regions (s : State) (a n : Nat) : (s.setPoison a n).regions = s.regions := rfl
@[simp] theorem State.setPoison_chans (s : State) (a n : Nat) : (s.setPoison a n).chans = s.chans := rfl
@[simp] theorem State.setPoison_encoder (s : State) (a n : Nat) : (s.setPoison a n).encoder = s.encoder := rfl
@[simp] theorem State.setPoison_fusion (s : State) (a n : Nat) : (s.setPoison a n).fusion = s.fusion := rfl
@[simp] theorem State.setPoison_display (s : State) (a n : Nat) : (s.setPoison a n).display = s.display := rfl
@[simp] theorem State.setPoison_seals (s : State) (a n : Nat) : (s.setPoison a n).seals = s.seals := rfl
@[simp] theorem State.setPoison_checkers (s : State) (a n : Nat) : (s.setPoison a n).checkers = s.checkers := rfl
@[simp] theorem State.setPoison_darn (s : State) (a n : Nat) : (s.setPoison a n).darn = s.darn := rfl
@[simp] theorem State.setPoison_watch (s : State) (a n : Nat) : (s.setPoison a n).watch = s.watch := rfl
@[simp] theorem State.setPoison_trust (s : State) (a n : Nat) : (s.setPoison a n).trust = s.trust := rfl
@[simp] theorem State.setPoison_insts (s : State) (a n : Nat) : (s.setPoison a n).insts = s.insts := rfl
@[simp] theorem State.setPoison_journal (s : State) (a n : Nat) : (s.setPoison a n).journal = s.journal := rfl
@[simp] theorem State.setPoison_cwy (s : State) (a n : Nat) : (s.setPoison a n).cwy = s.cwy := rfl
@[simp] theorem State.setPoison_nets (s : State) (a n : Nat) : (s.setPoison a n).nets = s.nets := rfl
@[simp] theorem State.setPoison_epochs (s : State) (a n : Nat) : (s.setPoison a n).epochs = s.epochs := rfl
@[simp] theorem State.setPoison_pending (s : State) (a n : Nat) : (s.setPoison a n).pending = s.pending := rfl

/-! answer -/

@[simp] theorem State.answer_time (s : State) (r : Resp) : (s.answer r).time = s.time := rfl
@[simp] theorem State.answer_regs (s : State) (r : Resp) : (s.answer r).regs = s.regs := rfl
@[simp] theorem State.answer_mem (s : State) (r : Resp) : (s.answer r).mem = s.mem := rfl
@[simp] theorem State.answer_poison (s : State) (r : Resp) : (s.answer r).poison = s.poison := rfl
@[simp] theorem State.answer_far (s : State) (r : Resp) : (s.answer r).far = s.far := rfl
@[simp] theorem State.answer_free (s : State) (r : Resp) : (s.answer r).free = s.free := rfl
@[simp] theorem State.answer_out (s : State) (r : Resp) : (s.answer r).out = s.out := rfl
@[simp] theorem State.answer_sys (s : State) (r : Resp) : (s.answer r).sys = s.sys := rfl
@[simp] theorem State.answer_audit (s : State) (r : Resp) : (s.answer r).audit = s.audit := rfl
@[simp] theorem State.answer_timeLatch (s : State) (r : Resp) : (s.answer r).timeLatch = s.timeLatch := rfl
@[simp] theorem State.answer_tacks (s : State) (r : Resp) : (s.answer r).tacks = s.tacks := rfl
@[simp] theorem State.answer_fsync (s : State) (r : Resp) : (s.answer r).fsync = s.fsync := rfl
@[simp] theorem State.answer_alw (s : State) (r : Resp) : (s.answer r).alw = s.alw := rfl
@[simp] theorem State.answer_memst (s : State) (r : Resp) : (s.answer r).memst = s.memst := rfl
@[simp] theorem State.answer_bridge (s : State) (r : Resp) : (s.answer r).bridge = s.bridge := rfl
@[simp] theorem State.answer_safe (s : State) (r : Resp) : (s.answer r).safe = s.safe := rfl
@[simp] theorem State.answer_knots (s : State) (r : Resp) : (s.answer r).knots = s.knots := rfl
@[simp] theorem State.answer_rings (s : State) (r : Resp) : (s.answer r).rings = s.rings := rfl
@[simp] theorem State.answer_jobs (s : State) (r : Resp) : (s.answer r).jobs = s.jobs := rfl
@[simp] theorem State.answer_cores (s : State) (r : Resp) : (s.answer r).cores = s.cores := rfl
@[simp] theorem State.answer_hot (s : State) (r : Resp) : (s.answer r).hot = s.hot := rfl
@[simp] theorem State.answer_tiles (s : State) (r : Resp) : (s.answer r).tiles = s.tiles := rfl
@[simp] theorem State.answer_sched (s : State) (r : Resp) : (s.answer r).sched = s.sched := rfl
@[simp] theorem State.answer_regions (s : State) (r : Resp) : (s.answer r).regions = s.regions := rfl
@[simp] theorem State.answer_chans (s : State) (r : Resp) : (s.answer r).chans = s.chans := rfl
@[simp] theorem State.answer_encoder (s : State) (r : Resp) : (s.answer r).encoder = s.encoder := rfl
@[simp] theorem State.answer_fusion (s : State) (r : Resp) : (s.answer r).fusion = s.fusion := rfl
@[simp] theorem State.answer_display (s : State) (r : Resp) : (s.answer r).display = s.display := rfl
@[simp] theorem State.answer_seals (s : State) (r : Resp) : (s.answer r).seals = s.seals := rfl
@[simp] theorem State.answer_checkers (s : State) (r : Resp) : (s.answer r).checkers = s.checkers := rfl
@[simp] theorem State.answer_darn (s : State) (r : Resp) : (s.answer r).darn = s.darn := rfl
@[simp] theorem State.answer_watch (s : State) (r : Resp) : (s.answer r).watch = s.watch := rfl
@[simp] theorem State.answer_trust (s : State) (r : Resp) : (s.answer r).trust = s.trust := rfl
@[simp] theorem State.answer_insts (s : State) (r : Resp) : (s.answer r).insts = s.insts := rfl
@[simp] theorem State.answer_journal (s : State) (r : Resp) : (s.answer r).journal = s.journal := rfl
@[simp] theorem State.answer_cwy (s : State) (r : Resp) : (s.answer r).cwy = s.cwy := rfl
@[simp] theorem State.answer_nets (s : State) (r : Resp) : (s.answer r).nets = s.nets := rfl
@[simp] theorem State.answer_epochs (s : State) (r : Resp) : (s.answer r).epochs = s.epochs := rfl
@[simp] theorem State.answer_pending (s : State) (r : Resp) : (s.answer r).pending = s.pending := rfl

/-! emit -/

@[simp] theorem State.emit_time (s : State) (e : Emit) : (s.emit e).time = s.time := rfl
@[simp] theorem State.emit_regs (s : State) (e : Emit) : (s.emit e).regs = s.regs := rfl
@[simp] theorem State.emit_mem (s : State) (e : Emit) : (s.emit e).mem = s.mem := rfl
@[simp] theorem State.emit_poison (s : State) (e : Emit) : (s.emit e).poison = s.poison := rfl
@[simp] theorem State.emit_far (s : State) (e : Emit) : (s.emit e).far = s.far := rfl
@[simp] theorem State.emit_free (s : State) (e : Emit) : (s.emit e).free = s.free := rfl
@[simp] theorem State.emit_resp (s : State) (e : Emit) : (s.emit e).resp = s.resp := rfl
@[simp] theorem State.emit_sys (s : State) (e : Emit) : (s.emit e).sys = s.sys := rfl
@[simp] theorem State.emit_audit (s : State) (e : Emit) : (s.emit e).audit = s.audit := rfl
@[simp] theorem State.emit_timeLatch (s : State) (e : Emit) : (s.emit e).timeLatch = s.timeLatch := rfl
@[simp] theorem State.emit_tacks (s : State) (e : Emit) : (s.emit e).tacks = s.tacks := rfl
@[simp] theorem State.emit_fsync (s : State) (e : Emit) : (s.emit e).fsync = s.fsync := rfl
@[simp] theorem State.emit_alw (s : State) (e : Emit) : (s.emit e).alw = s.alw := rfl
@[simp] theorem State.emit_memst (s : State) (e : Emit) : (s.emit e).memst = s.memst := rfl
@[simp] theorem State.emit_bridge (s : State) (e : Emit) : (s.emit e).bridge = s.bridge := rfl
@[simp] theorem State.emit_safe (s : State) (e : Emit) : (s.emit e).safe = s.safe := rfl
@[simp] theorem State.emit_knots (s : State) (e : Emit) : (s.emit e).knots = s.knots := rfl
@[simp] theorem State.emit_rings (s : State) (e : Emit) : (s.emit e).rings = s.rings := rfl
@[simp] theorem State.emit_jobs (s : State) (e : Emit) : (s.emit e).jobs = s.jobs := rfl
@[simp] theorem State.emit_cores (s : State) (e : Emit) : (s.emit e).cores = s.cores := rfl
@[simp] theorem State.emit_hot (s : State) (e : Emit) : (s.emit e).hot = s.hot := rfl
@[simp] theorem State.emit_tiles (s : State) (e : Emit) : (s.emit e).tiles = s.tiles := rfl
@[simp] theorem State.emit_sched (s : State) (e : Emit) : (s.emit e).sched = s.sched := rfl
@[simp] theorem State.emit_regions (s : State) (e : Emit) : (s.emit e).regions = s.regions := rfl
@[simp] theorem State.emit_chans (s : State) (e : Emit) : (s.emit e).chans = s.chans := rfl
@[simp] theorem State.emit_encoder (s : State) (e : Emit) : (s.emit e).encoder = s.encoder := rfl
@[simp] theorem State.emit_fusion (s : State) (e : Emit) : (s.emit e).fusion = s.fusion := rfl
@[simp] theorem State.emit_display (s : State) (e : Emit) : (s.emit e).display = s.display := rfl
@[simp] theorem State.emit_seals (s : State) (e : Emit) : (s.emit e).seals = s.seals := rfl
@[simp] theorem State.emit_checkers (s : State) (e : Emit) : (s.emit e).checkers = s.checkers := rfl
@[simp] theorem State.emit_darn (s : State) (e : Emit) : (s.emit e).darn = s.darn := rfl
@[simp] theorem State.emit_watch (s : State) (e : Emit) : (s.emit e).watch = s.watch := rfl
@[simp] theorem State.emit_trust (s : State) (e : Emit) : (s.emit e).trust = s.trust := rfl
@[simp] theorem State.emit_insts (s : State) (e : Emit) : (s.emit e).insts = s.insts := rfl
@[simp] theorem State.emit_journal (s : State) (e : Emit) : (s.emit e).journal = s.journal := rfl
@[simp] theorem State.emit_cwy (s : State) (e : Emit) : (s.emit e).cwy = s.cwy := rfl
@[simp] theorem State.emit_nets (s : State) (e : Emit) : (s.emit e).nets = s.nets := rfl
@[simp] theorem State.emit_epochs (s : State) (e : Emit) : (s.emit e).epochs = s.epochs := rfl
@[simp] theorem State.emit_pending (s : State) (e : Emit) : (s.emit e).pending = s.pending := rfl

/-! setTack -/

@[simp] theorem State.setTack_time (s : State) (i : Nat) (t : Tack) : (s.setTack i t).time = s.time := rfl
@[simp] theorem State.setTack_regs (s : State) (i : Nat) (t : Tack) : (s.setTack i t).regs = s.regs := rfl
@[simp] theorem State.setTack_mem (s : State) (i : Nat) (t : Tack) : (s.setTack i t).mem = s.mem := rfl
@[simp] theorem State.setTack_poison (s : State) (i : Nat) (t : Tack) : (s.setTack i t).poison = s.poison := rfl
@[simp] theorem State.setTack_far (s : State) (i : Nat) (t : Tack) : (s.setTack i t).far = s.far := rfl
@[simp] theorem State.setTack_free (s : State) (i : Nat) (t : Tack) : (s.setTack i t).free = s.free := rfl
@[simp] theorem State.setTack_resp (s : State) (i : Nat) (t : Tack) : (s.setTack i t).resp = s.resp := rfl
@[simp] theorem State.setTack_out (s : State) (i : Nat) (t : Tack) : (s.setTack i t).out = s.out := rfl
@[simp] theorem State.setTack_sys (s : State) (i : Nat) (t : Tack) : (s.setTack i t).sys = s.sys := rfl
@[simp] theorem State.setTack_audit (s : State) (i : Nat) (t : Tack) : (s.setTack i t).audit = s.audit := rfl
@[simp] theorem State.setTack_timeLatch (s : State) (i : Nat) (t : Tack) : (s.setTack i t).timeLatch = s.timeLatch := rfl
@[simp] theorem State.setTack_fsync (s : State) (i : Nat) (t : Tack) : (s.setTack i t).fsync = s.fsync := rfl
@[simp] theorem State.setTack_alw (s : State) (i : Nat) (t : Tack) : (s.setTack i t).alw = s.alw := rfl
@[simp] theorem State.setTack_memst (s : State) (i : Nat) (t : Tack) : (s.setTack i t).memst = s.memst := rfl
@[simp] theorem State.setTack_bridge (s : State) (i : Nat) (t : Tack) : (s.setTack i t).bridge = s.bridge := rfl
@[simp] theorem State.setTack_safe (s : State) (i : Nat) (t : Tack) : (s.setTack i t).safe = s.safe := rfl
@[simp] theorem State.setTack_knots (s : State) (i : Nat) (t : Tack) : (s.setTack i t).knots = s.knots := rfl
@[simp] theorem State.setTack_rings (s : State) (i : Nat) (t : Tack) : (s.setTack i t).rings = s.rings := rfl
@[simp] theorem State.setTack_jobs (s : State) (i : Nat) (t : Tack) : (s.setTack i t).jobs = s.jobs := rfl
@[simp] theorem State.setTack_cores (s : State) (i : Nat) (t : Tack) : (s.setTack i t).cores = s.cores := rfl
@[simp] theorem State.setTack_hot (s : State) (i : Nat) (t : Tack) : (s.setTack i t).hot = s.hot := rfl
@[simp] theorem State.setTack_tiles (s : State) (i : Nat) (t : Tack) : (s.setTack i t).tiles = s.tiles := rfl
@[simp] theorem State.setTack_sched (s : State) (i : Nat) (t : Tack) : (s.setTack i t).sched = s.sched := rfl
@[simp] theorem State.setTack_regions (s : State) (i : Nat) (t : Tack) : (s.setTack i t).regions = s.regions := rfl
@[simp] theorem State.setTack_chans (s : State) (i : Nat) (t : Tack) : (s.setTack i t).chans = s.chans := rfl
@[simp] theorem State.setTack_encoder (s : State) (i : Nat) (t : Tack) : (s.setTack i t).encoder = s.encoder := rfl
@[simp] theorem State.setTack_fusion (s : State) (i : Nat) (t : Tack) : (s.setTack i t).fusion = s.fusion := rfl
@[simp] theorem State.setTack_display (s : State) (i : Nat) (t : Tack) : (s.setTack i t).display = s.display := rfl
@[simp] theorem State.setTack_seals (s : State) (i : Nat) (t : Tack) : (s.setTack i t).seals = s.seals := rfl
@[simp] theorem State.setTack_checkers (s : State) (i : Nat) (t : Tack) : (s.setTack i t).checkers = s.checkers := rfl
@[simp] theorem State.setTack_darn (s : State) (i : Nat) (t : Tack) : (s.setTack i t).darn = s.darn := rfl
@[simp] theorem State.setTack_watch (s : State) (i : Nat) (t : Tack) : (s.setTack i t).watch = s.watch := rfl
@[simp] theorem State.setTack_trust (s : State) (i : Nat) (t : Tack) : (s.setTack i t).trust = s.trust := rfl
@[simp] theorem State.setTack_insts (s : State) (i : Nat) (t : Tack) : (s.setTack i t).insts = s.insts := rfl
@[simp] theorem State.setTack_journal (s : State) (i : Nat) (t : Tack) : (s.setTack i t).journal = s.journal := rfl
@[simp] theorem State.setTack_cwy (s : State) (i : Nat) (t : Tack) : (s.setTack i t).cwy = s.cwy := rfl
@[simp] theorem State.setTack_nets (s : State) (i : Nat) (t : Tack) : (s.setTack i t).nets = s.nets := rfl
@[simp] theorem State.setTack_epochs (s : State) (i : Nat) (t : Tack) : (s.setTack i t).epochs = s.epochs := rfl
@[simp] theorem State.setTack_pending (s : State) (i : Nat) (t : Tack) : (s.setTack i t).pending = s.pending := rfl

/-! setCore -/

@[simp] theorem State.setCore_time (s : State) (n : Nat) (c : Core) : (s.setCore n c).time = s.time := rfl
@[simp] theorem State.setCore_regs (s : State) (n : Nat) (c : Core) : (s.setCore n c).regs = s.regs := rfl
@[simp] theorem State.setCore_mem (s : State) (n : Nat) (c : Core) : (s.setCore n c).mem = s.mem := rfl
@[simp] theorem State.setCore_poison (s : State) (n : Nat) (c : Core) : (s.setCore n c).poison = s.poison := rfl
@[simp] theorem State.setCore_far (s : State) (n : Nat) (c : Core) : (s.setCore n c).far = s.far := rfl
@[simp] theorem State.setCore_free (s : State) (n : Nat) (c : Core) : (s.setCore n c).free = s.free := rfl
@[simp] theorem State.setCore_resp (s : State) (n : Nat) (c : Core) : (s.setCore n c).resp = s.resp := rfl
@[simp] theorem State.setCore_out (s : State) (n : Nat) (c : Core) : (s.setCore n c).out = s.out := rfl
@[simp] theorem State.setCore_sys (s : State) (n : Nat) (c : Core) : (s.setCore n c).sys = s.sys := rfl
@[simp] theorem State.setCore_audit (s : State) (n : Nat) (c : Core) : (s.setCore n c).audit = s.audit := rfl
@[simp] theorem State.setCore_timeLatch (s : State) (n : Nat) (c : Core) : (s.setCore n c).timeLatch = s.timeLatch := rfl
@[simp] theorem State.setCore_tacks (s : State) (n : Nat) (c : Core) : (s.setCore n c).tacks = s.tacks := rfl
@[simp] theorem State.setCore_fsync (s : State) (n : Nat) (c : Core) : (s.setCore n c).fsync = s.fsync := rfl
@[simp] theorem State.setCore_alw (s : State) (n : Nat) (c : Core) : (s.setCore n c).alw = s.alw := rfl
@[simp] theorem State.setCore_memst (s : State) (n : Nat) (c : Core) : (s.setCore n c).memst = s.memst := rfl
@[simp] theorem State.setCore_bridge (s : State) (n : Nat) (c : Core) : (s.setCore n c).bridge = s.bridge := rfl
@[simp] theorem State.setCore_safe (s : State) (n : Nat) (c : Core) : (s.setCore n c).safe = s.safe := rfl
@[simp] theorem State.setCore_knots (s : State) (n : Nat) (c : Core) : (s.setCore n c).knots = s.knots := rfl
@[simp] theorem State.setCore_rings (s : State) (n : Nat) (c : Core) : (s.setCore n c).rings = s.rings := rfl
@[simp] theorem State.setCore_jobs (s : State) (n : Nat) (c : Core) : (s.setCore n c).jobs = s.jobs := rfl
@[simp] theorem State.setCore_hot (s : State) (n : Nat) (c : Core) : (s.setCore n c).hot = s.hot := rfl
@[simp] theorem State.setCore_tiles (s : State) (n : Nat) (c : Core) : (s.setCore n c).tiles = s.tiles := rfl
@[simp] theorem State.setCore_sched (s : State) (n : Nat) (c : Core) : (s.setCore n c).sched = s.sched := rfl
@[simp] theorem State.setCore_regions (s : State) (n : Nat) (c : Core) : (s.setCore n c).regions = s.regions := rfl
@[simp] theorem State.setCore_chans (s : State) (n : Nat) (c : Core) : (s.setCore n c).chans = s.chans := rfl
@[simp] theorem State.setCore_encoder (s : State) (n : Nat) (c : Core) : (s.setCore n c).encoder = s.encoder := rfl
@[simp] theorem State.setCore_fusion (s : State) (n : Nat) (c : Core) : (s.setCore n c).fusion = s.fusion := rfl
@[simp] theorem State.setCore_display (s : State) (n : Nat) (c : Core) : (s.setCore n c).display = s.display := rfl
@[simp] theorem State.setCore_seals (s : State) (n : Nat) (c : Core) : (s.setCore n c).seals = s.seals := rfl
@[simp] theorem State.setCore_checkers (s : State) (n : Nat) (c : Core) : (s.setCore n c).checkers = s.checkers := rfl
@[simp] theorem State.setCore_darn (s : State) (n : Nat) (c : Core) : (s.setCore n c).darn = s.darn := rfl
@[simp] theorem State.setCore_watch (s : State) (n : Nat) (c : Core) : (s.setCore n c).watch = s.watch := rfl
@[simp] theorem State.setCore_trust (s : State) (n : Nat) (c : Core) : (s.setCore n c).trust = s.trust := rfl
@[simp] theorem State.setCore_insts (s : State) (n : Nat) (c : Core) : (s.setCore n c).insts = s.insts := rfl
@[simp] theorem State.setCore_journal (s : State) (n : Nat) (c : Core) : (s.setCore n c).journal = s.journal := rfl
@[simp] theorem State.setCore_cwy (s : State) (n : Nat) (c : Core) : (s.setCore n c).cwy = s.cwy := rfl
@[simp] theorem State.setCore_nets (s : State) (n : Nat) (c : Core) : (s.setCore n c).nets = s.nets := rfl
@[simp] theorem State.setCore_epochs (s : State) (n : Nat) (c : Core) : (s.setCore n c).epochs = s.epochs := rfl
@[simp] theorem State.setCore_pending (s : State) (n : Nat) (c : Core) : (s.setCore n c).pending = s.pending := rfl

/-! modCore -/

@[simp] theorem State.modCore_time (s : State) (n : Nat) (f : Core → Core) : (s.modCore n f).time = s.time := rfl
@[simp] theorem State.modCore_regs (s : State) (n : Nat) (f : Core → Core) : (s.modCore n f).regs = s.regs := rfl
@[simp] theorem State.modCore_mem (s : State) (n : Nat) (f : Core → Core) : (s.modCore n f).mem = s.mem := rfl
@[simp] theorem State.modCore_poison (s : State) (n : Nat) (f : Core → Core) : (s.modCore n f).poison = s.poison := rfl
@[simp] theorem State.modCore_far (s : State) (n : Nat) (f : Core → Core) : (s.modCore n f).far = s.far := rfl
@[simp] theorem State.modCore_free (s : State) (n : Nat) (f : Core → Core) : (s.modCore n f).free = s.free := rfl
@[simp] theorem State.modCore_resp (s : State) (n : Nat) (f : Core → Core) : (s.modCore n f).resp = s.resp := rfl
@[simp] theorem State.modCore_out (s : State) (n : Nat) (f : Core → Core) : (s.modCore n f).out = s.out := rfl
@[simp] theorem State.modCore_sys (s : State) (n : Nat) (f : Core → Core) : (s.modCore n f).sys = s.sys := rfl
@[simp] theorem State.modCore_audit (s : State) (n : Nat) (f : Core → Core) : (s.modCore n f).audit = s.audit := rfl
@[simp] theorem State.modCore_timeLatch (s : State) (n : Nat) (f : Core → Core) : (s.modCore n f).timeLatch = s.timeLatch := rfl
@[simp] theorem State.modCore_tacks (s : State) (n : Nat) (f : Core → Core) : (s.modCore n f).tacks = s.tacks := rfl
@[simp] theorem State.modCore_fsync (s : State) (n : Nat) (f : Core → Core) : (s.modCore n f).fsync = s.fsync := rfl
@[simp] theorem State.modCore_alw (s : State) (n : Nat) (f : Core → Core) : (s.modCore n f).alw = s.alw := rfl
@[simp] theorem State.modCore_memst (s : State) (n : Nat) (f : Core → Core) : (s.modCore n f).memst = s.memst := rfl
@[simp] theorem State.modCore_bridge (s : State) (n : Nat) (f : Core → Core) : (s.modCore n f).bridge = s.bridge := rfl
@[simp] theorem State.modCore_safe (s : State) (n : Nat) (f : Core → Core) : (s.modCore n f).safe = s.safe := rfl
@[simp] theorem State.modCore_knots (s : State) (n : Nat) (f : Core → Core) : (s.modCore n f).knots = s.knots := rfl
@[simp] theorem State.modCore_rings (s : State) (n : Nat) (f : Core → Core) : (s.modCore n f).rings = s.rings := rfl
@[simp] theorem State.modCore_jobs (s : State) (n : Nat) (f : Core → Core) : (s.modCore n f).jobs = s.jobs := rfl
@[simp] theorem State.modCore_hot (s : State) (n : Nat) (f : Core → Core) : (s.modCore n f).hot = s.hot := rfl
@[simp] theorem State.modCore_tiles (s : State) (n : Nat) (f : Core → Core) : (s.modCore n f).tiles = s.tiles := rfl
@[simp] theorem State.modCore_sched (s : State) (n : Nat) (f : Core → Core) : (s.modCore n f).sched = s.sched := rfl
@[simp] theorem State.modCore_regions (s : State) (n : Nat) (f : Core → Core) : (s.modCore n f).regions = s.regions := rfl
@[simp] theorem State.modCore_chans (s : State) (n : Nat) (f : Core → Core) : (s.modCore n f).chans = s.chans := rfl
@[simp] theorem State.modCore_encoder (s : State) (n : Nat) (f : Core → Core) : (s.modCore n f).encoder = s.encoder := rfl
@[simp] theorem State.modCore_fusion (s : State) (n : Nat) (f : Core → Core) : (s.modCore n f).fusion = s.fusion := rfl
@[simp] theorem State.modCore_display (s : State) (n : Nat) (f : Core → Core) : (s.modCore n f).display = s.display := rfl
@[simp] theorem State.modCore_seals (s : State) (n : Nat) (f : Core → Core) : (s.modCore n f).seals = s.seals := rfl
@[simp] theorem State.modCore_checkers (s : State) (n : Nat) (f : Core → Core) : (s.modCore n f).checkers = s.checkers := rfl
@[simp] theorem State.modCore_darn (s : State) (n : Nat) (f : Core → Core) : (s.modCore n f).darn = s.darn := rfl
@[simp] theorem State.modCore_watch (s : State) (n : Nat) (f : Core → Core) : (s.modCore n f).watch = s.watch := rfl
@[simp] theorem State.modCore_trust (s : State) (n : Nat) (f : Core → Core) : (s.modCore n f).trust = s.trust := rfl
@[simp] theorem State.modCore_insts (s : State) (n : Nat) (f : Core → Core) : (s.modCore n f).insts = s.insts := rfl
@[simp] theorem State.modCore_journal (s : State) (n : Nat) (f : Core → Core) : (s.modCore n f).journal = s.journal := rfl
@[simp] theorem State.modCore_cwy (s : State) (n : Nat) (f : Core → Core) : (s.modCore n f).cwy = s.cwy := rfl
@[simp] theorem State.modCore_nets (s : State) (n : Nat) (f : Core → Core) : (s.modCore n f).nets = s.nets := rfl
@[simp] theorem State.modCore_epochs (s : State) (n : Nat) (f : Core → Core) : (s.modCore n f).epochs = s.epochs := rfl
@[simp] theorem State.modCore_pending (s : State) (n : Nat) (f : Core → Core) : (s.modCore n f).pending = s.pending := rfl

/-! setRing -/

@[simp] theorem State.setRing_time (s : State) (n : Nat) (r : Ring) : (s.setRing n r).time = s.time := rfl
@[simp] theorem State.setRing_regs (s : State) (n : Nat) (r : Ring) : (s.setRing n r).regs = s.regs := rfl
@[simp] theorem State.setRing_mem (s : State) (n : Nat) (r : Ring) : (s.setRing n r).mem = s.mem := rfl
@[simp] theorem State.setRing_poison (s : State) (n : Nat) (r : Ring) : (s.setRing n r).poison = s.poison := rfl
@[simp] theorem State.setRing_far (s : State) (n : Nat) (r : Ring) : (s.setRing n r).far = s.far := rfl
@[simp] theorem State.setRing_free (s : State) (n : Nat) (r : Ring) : (s.setRing n r).free = s.free := rfl
@[simp] theorem State.setRing_resp (s : State) (n : Nat) (r : Ring) : (s.setRing n r).resp = s.resp := rfl
@[simp] theorem State.setRing_out (s : State) (n : Nat) (r : Ring) : (s.setRing n r).out = s.out := rfl
@[simp] theorem State.setRing_sys (s : State) (n : Nat) (r : Ring) : (s.setRing n r).sys = s.sys := rfl
@[simp] theorem State.setRing_audit (s : State) (n : Nat) (r : Ring) : (s.setRing n r).audit = s.audit := rfl
@[simp] theorem State.setRing_timeLatch (s : State) (n : Nat) (r : Ring) : (s.setRing n r).timeLatch = s.timeLatch := rfl
@[simp] theorem State.setRing_tacks (s : State) (n : Nat) (r : Ring) : (s.setRing n r).tacks = s.tacks := rfl
@[simp] theorem State.setRing_fsync (s : State) (n : Nat) (r : Ring) : (s.setRing n r).fsync = s.fsync := rfl
@[simp] theorem State.setRing_alw (s : State) (n : Nat) (r : Ring) : (s.setRing n r).alw = s.alw := rfl
@[simp] theorem State.setRing_memst (s : State) (n : Nat) (r : Ring) : (s.setRing n r).memst = s.memst := rfl
@[simp] theorem State.setRing_bridge (s : State) (n : Nat) (r : Ring) : (s.setRing n r).bridge = s.bridge := rfl
@[simp] theorem State.setRing_safe (s : State) (n : Nat) (r : Ring) : (s.setRing n r).safe = s.safe := rfl
@[simp] theorem State.setRing_knots (s : State) (n : Nat) (r : Ring) : (s.setRing n r).knots = s.knots := rfl
@[simp] theorem State.setRing_jobs (s : State) (n : Nat) (r : Ring) : (s.setRing n r).jobs = s.jobs := rfl
@[simp] theorem State.setRing_cores (s : State) (n : Nat) (r : Ring) : (s.setRing n r).cores = s.cores := rfl
@[simp] theorem State.setRing_hot (s : State) (n : Nat) (r : Ring) : (s.setRing n r).hot = s.hot := rfl
@[simp] theorem State.setRing_tiles (s : State) (n : Nat) (r : Ring) : (s.setRing n r).tiles = s.tiles := rfl
@[simp] theorem State.setRing_sched (s : State) (n : Nat) (r : Ring) : (s.setRing n r).sched = s.sched := rfl
@[simp] theorem State.setRing_regions (s : State) (n : Nat) (r : Ring) : (s.setRing n r).regions = s.regions := rfl
@[simp] theorem State.setRing_chans (s : State) (n : Nat) (r : Ring) : (s.setRing n r).chans = s.chans := rfl
@[simp] theorem State.setRing_encoder (s : State) (n : Nat) (r : Ring) : (s.setRing n r).encoder = s.encoder := rfl
@[simp] theorem State.setRing_fusion (s : State) (n : Nat) (r : Ring) : (s.setRing n r).fusion = s.fusion := rfl
@[simp] theorem State.setRing_display (s : State) (n : Nat) (r : Ring) : (s.setRing n r).display = s.display := rfl
@[simp] theorem State.setRing_seals (s : State) (n : Nat) (r : Ring) : (s.setRing n r).seals = s.seals := rfl
@[simp] theorem State.setRing_checkers (s : State) (n : Nat) (r : Ring) : (s.setRing n r).checkers = s.checkers := rfl
@[simp] theorem State.setRing_darn (s : State) (n : Nat) (r : Ring) : (s.setRing n r).darn = s.darn := rfl
@[simp] theorem State.setRing_watch (s : State) (n : Nat) (r : Ring) : (s.setRing n r).watch = s.watch := rfl
@[simp] theorem State.setRing_trust (s : State) (n : Nat) (r : Ring) : (s.setRing n r).trust = s.trust := rfl
@[simp] theorem State.setRing_insts (s : State) (n : Nat) (r : Ring) : (s.setRing n r).insts = s.insts := rfl
@[simp] theorem State.setRing_journal (s : State) (n : Nat) (r : Ring) : (s.setRing n r).journal = s.journal := rfl
@[simp] theorem State.setRing_cwy (s : State) (n : Nat) (r : Ring) : (s.setRing n r).cwy = s.cwy := rfl
@[simp] theorem State.setRing_nets (s : State) (n : Nat) (r : Ring) : (s.setRing n r).nets = s.nets := rfl
@[simp] theorem State.setRing_epochs (s : State) (n : Nat) (r : Ring) : (s.setRing n r).epochs = s.epochs := rfl
@[simp] theorem State.setRing_pending (s : State) (n : Nat) (r : Ring) : (s.setRing n r).pending = s.pending := rfl

/-! setHot -/

@[simp] theorem State.setHot_time (s : State) (i : Nat) (e : HotEntry) : (s.setHot i e).time = s.time := rfl
@[simp] theorem State.setHot_regs (s : State) (i : Nat) (e : HotEntry) : (s.setHot i e).regs = s.regs := rfl
@[simp] theorem State.setHot_mem (s : State) (i : Nat) (e : HotEntry) : (s.setHot i e).mem = s.mem := rfl
@[simp] theorem State.setHot_poison (s : State) (i : Nat) (e : HotEntry) : (s.setHot i e).poison = s.poison := rfl
@[simp] theorem State.setHot_far (s : State) (i : Nat) (e : HotEntry) : (s.setHot i e).far = s.far := rfl
@[simp] theorem State.setHot_free (s : State) (i : Nat) (e : HotEntry) : (s.setHot i e).free = s.free := rfl
@[simp] theorem State.setHot_resp (s : State) (i : Nat) (e : HotEntry) : (s.setHot i e).resp = s.resp := rfl
@[simp] theorem State.setHot_out (s : State) (i : Nat) (e : HotEntry) : (s.setHot i e).out = s.out := rfl
@[simp] theorem State.setHot_sys (s : State) (i : Nat) (e : HotEntry) : (s.setHot i e).sys = s.sys := rfl
@[simp] theorem State.setHot_audit (s : State) (i : Nat) (e : HotEntry) : (s.setHot i e).audit = s.audit := rfl
@[simp] theorem State.setHot_timeLatch (s : State) (i : Nat) (e : HotEntry) : (s.setHot i e).timeLatch = s.timeLatch := rfl
@[simp] theorem State.setHot_tacks (s : State) (i : Nat) (e : HotEntry) : (s.setHot i e).tacks = s.tacks := rfl
@[simp] theorem State.setHot_fsync (s : State) (i : Nat) (e : HotEntry) : (s.setHot i e).fsync = s.fsync := rfl
@[simp] theorem State.setHot_alw (s : State) (i : Nat) (e : HotEntry) : (s.setHot i e).alw = s.alw := rfl
@[simp] theorem State.setHot_memst (s : State) (i : Nat) (e : HotEntry) : (s.setHot i e).memst = s.memst := rfl
@[simp] theorem State.setHot_bridge (s : State) (i : Nat) (e : HotEntry) : (s.setHot i e).bridge = s.bridge := rfl
@[simp] theorem State.setHot_safe (s : State) (i : Nat) (e : HotEntry) : (s.setHot i e).safe = s.safe := rfl
@[simp] theorem State.setHot_knots (s : State) (i : Nat) (e : HotEntry) : (s.setHot i e).knots = s.knots := rfl
@[simp] theorem State.setHot_rings (s : State) (i : Nat) (e : HotEntry) : (s.setHot i e).rings = s.rings := rfl
@[simp] theorem State.setHot_jobs (s : State) (i : Nat) (e : HotEntry) : (s.setHot i e).jobs = s.jobs := rfl
@[simp] theorem State.setHot_cores (s : State) (i : Nat) (e : HotEntry) : (s.setHot i e).cores = s.cores := rfl
@[simp] theorem State.setHot_tiles (s : State) (i : Nat) (e : HotEntry) : (s.setHot i e).tiles = s.tiles := rfl
@[simp] theorem State.setHot_sched (s : State) (i : Nat) (e : HotEntry) : (s.setHot i e).sched = s.sched := rfl
@[simp] theorem State.setHot_regions (s : State) (i : Nat) (e : HotEntry) : (s.setHot i e).regions = s.regions := rfl
@[simp] theorem State.setHot_chans (s : State) (i : Nat) (e : HotEntry) : (s.setHot i e).chans = s.chans := rfl
@[simp] theorem State.setHot_encoder (s : State) (i : Nat) (e : HotEntry) : (s.setHot i e).encoder = s.encoder := rfl
@[simp] theorem State.setHot_fusion (s : State) (i : Nat) (e : HotEntry) : (s.setHot i e).fusion = s.fusion := rfl
@[simp] theorem State.setHot_display (s : State) (i : Nat) (e : HotEntry) : (s.setHot i e).display = s.display := rfl
@[simp] theorem State.setHot_seals (s : State) (i : Nat) (e : HotEntry) : (s.setHot i e).seals = s.seals := rfl
@[simp] theorem State.setHot_checkers (s : State) (i : Nat) (e : HotEntry) : (s.setHot i e).checkers = s.checkers := rfl
@[simp] theorem State.setHot_darn (s : State) (i : Nat) (e : HotEntry) : (s.setHot i e).darn = s.darn := rfl
@[simp] theorem State.setHot_watch (s : State) (i : Nat) (e : HotEntry) : (s.setHot i e).watch = s.watch := rfl
@[simp] theorem State.setHot_trust (s : State) (i : Nat) (e : HotEntry) : (s.setHot i e).trust = s.trust := rfl
@[simp] theorem State.setHot_insts (s : State) (i : Nat) (e : HotEntry) : (s.setHot i e).insts = s.insts := rfl
@[simp] theorem State.setHot_journal (s : State) (i : Nat) (e : HotEntry) : (s.setHot i e).journal = s.journal := rfl
@[simp] theorem State.setHot_cwy (s : State) (i : Nat) (e : HotEntry) : (s.setHot i e).cwy = s.cwy := rfl
@[simp] theorem State.setHot_nets (s : State) (i : Nat) (e : HotEntry) : (s.setHot i e).nets = s.nets := rfl
@[simp] theorem State.setHot_epochs (s : State) (i : Nat) (e : HotEntry) : (s.setHot i e).epochs = s.epochs := rfl
@[simp] theorem State.setHot_pending (s : State) (i : Nat) (e : HotEntry) : (s.setHot i e).pending = s.pending := rfl

/-! modJob -/

@[simp] theorem State.modJob_time (s : State) (r q : Nat) (f : Job → Job) : (s.modJob r q f).time = s.time := rfl
@[simp] theorem State.modJob_regs (s : State) (r q : Nat) (f : Job → Job) : (s.modJob r q f).regs = s.regs := rfl
@[simp] theorem State.modJob_mem (s : State) (r q : Nat) (f : Job → Job) : (s.modJob r q f).mem = s.mem := rfl
@[simp] theorem State.modJob_poison (s : State) (r q : Nat) (f : Job → Job) : (s.modJob r q f).poison = s.poison := rfl
@[simp] theorem State.modJob_far (s : State) (r q : Nat) (f : Job → Job) : (s.modJob r q f).far = s.far := rfl
@[simp] theorem State.modJob_free (s : State) (r q : Nat) (f : Job → Job) : (s.modJob r q f).free = s.free := rfl
@[simp] theorem State.modJob_resp (s : State) (r q : Nat) (f : Job → Job) : (s.modJob r q f).resp = s.resp := rfl
@[simp] theorem State.modJob_out (s : State) (r q : Nat) (f : Job → Job) : (s.modJob r q f).out = s.out := rfl
@[simp] theorem State.modJob_sys (s : State) (r q : Nat) (f : Job → Job) : (s.modJob r q f).sys = s.sys := rfl
@[simp] theorem State.modJob_audit (s : State) (r q : Nat) (f : Job → Job) : (s.modJob r q f).audit = s.audit := rfl
@[simp] theorem State.modJob_timeLatch (s : State) (r q : Nat) (f : Job → Job) : (s.modJob r q f).timeLatch = s.timeLatch := rfl
@[simp] theorem State.modJob_tacks (s : State) (r q : Nat) (f : Job → Job) : (s.modJob r q f).tacks = s.tacks := rfl
@[simp] theorem State.modJob_fsync (s : State) (r q : Nat) (f : Job → Job) : (s.modJob r q f).fsync = s.fsync := rfl
@[simp] theorem State.modJob_alw (s : State) (r q : Nat) (f : Job → Job) : (s.modJob r q f).alw = s.alw := rfl
@[simp] theorem State.modJob_memst (s : State) (r q : Nat) (f : Job → Job) : (s.modJob r q f).memst = s.memst := rfl
@[simp] theorem State.modJob_bridge (s : State) (r q : Nat) (f : Job → Job) : (s.modJob r q f).bridge = s.bridge := rfl
@[simp] theorem State.modJob_safe (s : State) (r q : Nat) (f : Job → Job) : (s.modJob r q f).safe = s.safe := rfl
@[simp] theorem State.modJob_knots (s : State) (r q : Nat) (f : Job → Job) : (s.modJob r q f).knots = s.knots := rfl
@[simp] theorem State.modJob_rings (s : State) (r q : Nat) (f : Job → Job) : (s.modJob r q f).rings = s.rings := rfl
@[simp] theorem State.modJob_cores (s : State) (r q : Nat) (f : Job → Job) : (s.modJob r q f).cores = s.cores := rfl
@[simp] theorem State.modJob_hot (s : State) (r q : Nat) (f : Job → Job) : (s.modJob r q f).hot = s.hot := rfl
@[simp] theorem State.modJob_tiles (s : State) (r q : Nat) (f : Job → Job) : (s.modJob r q f).tiles = s.tiles := rfl
@[simp] theorem State.modJob_sched (s : State) (r q : Nat) (f : Job → Job) : (s.modJob r q f).sched = s.sched := rfl
@[simp] theorem State.modJob_regions (s : State) (r q : Nat) (f : Job → Job) : (s.modJob r q f).regions = s.regions := rfl
@[simp] theorem State.modJob_chans (s : State) (r q : Nat) (f : Job → Job) : (s.modJob r q f).chans = s.chans := rfl
@[simp] theorem State.modJob_encoder (s : State) (r q : Nat) (f : Job → Job) : (s.modJob r q f).encoder = s.encoder := rfl
@[simp] theorem State.modJob_fusion (s : State) (r q : Nat) (f : Job → Job) : (s.modJob r q f).fusion = s.fusion := rfl
@[simp] theorem State.modJob_display (s : State) (r q : Nat) (f : Job → Job) : (s.modJob r q f).display = s.display := rfl
@[simp] theorem State.modJob_seals (s : State) (r q : Nat) (f : Job → Job) : (s.modJob r q f).seals = s.seals := rfl
@[simp] theorem State.modJob_checkers (s : State) (r q : Nat) (f : Job → Job) : (s.modJob r q f).checkers = s.checkers := rfl
@[simp] theorem State.modJob_darn (s : State) (r q : Nat) (f : Job → Job) : (s.modJob r q f).darn = s.darn := rfl
@[simp] theorem State.modJob_watch (s : State) (r q : Nat) (f : Job → Job) : (s.modJob r q f).watch = s.watch := rfl
@[simp] theorem State.modJob_trust (s : State) (r q : Nat) (f : Job → Job) : (s.modJob r q f).trust = s.trust := rfl
@[simp] theorem State.modJob_insts (s : State) (r q : Nat) (f : Job → Job) : (s.modJob r q f).insts = s.insts := rfl
@[simp] theorem State.modJob_journal (s : State) (r q : Nat) (f : Job → Job) : (s.modJob r q f).journal = s.journal := rfl
@[simp] theorem State.modJob_cwy (s : State) (r q : Nat) (f : Job → Job) : (s.modJob r q f).cwy = s.cwy := rfl
@[simp] theorem State.modJob_nets (s : State) (r q : Nat) (f : Job → Job) : (s.modJob r q f).nets = s.nets := rfl
@[simp] theorem State.modJob_epochs (s : State) (r q : Nat) (f : Job → Job) : (s.modJob r q f).epochs = s.epochs := rfl
@[simp] theorem State.modJob_pending (s : State) (r q : Nat) (f : Job → Job) : (s.modJob r q f).pending = s.pending := rfl

/-! dropJob -/

@[simp] theorem State.dropJob_time (s : State) (r q : Nat) : (s.dropJob r q).time = s.time := rfl
@[simp] theorem State.dropJob_regs (s : State) (r q : Nat) : (s.dropJob r q).regs = s.regs := rfl
@[simp] theorem State.dropJob_mem (s : State) (r q : Nat) : (s.dropJob r q).mem = s.mem := rfl
@[simp] theorem State.dropJob_poison (s : State) (r q : Nat) : (s.dropJob r q).poison = s.poison := rfl
@[simp] theorem State.dropJob_far (s : State) (r q : Nat) : (s.dropJob r q).far = s.far := rfl
@[simp] theorem State.dropJob_free (s : State) (r q : Nat) : (s.dropJob r q).free = s.free := rfl
@[simp] theorem State.dropJob_resp (s : State) (r q : Nat) : (s.dropJob r q).resp = s.resp := rfl
@[simp] theorem State.dropJob_out (s : State) (r q : Nat) : (s.dropJob r q).out = s.out := rfl
@[simp] theorem State.dropJob_sys (s : State) (r q : Nat) : (s.dropJob r q).sys = s.sys := rfl
@[simp] theorem State.dropJob_audit (s : State) (r q : Nat) : (s.dropJob r q).audit = s.audit := rfl
@[simp] theorem State.dropJob_timeLatch (s : State) (r q : Nat) : (s.dropJob r q).timeLatch = s.timeLatch := rfl
@[simp] theorem State.dropJob_tacks (s : State) (r q : Nat) : (s.dropJob r q).tacks = s.tacks := rfl
@[simp] theorem State.dropJob_fsync (s : State) (r q : Nat) : (s.dropJob r q).fsync = s.fsync := rfl
@[simp] theorem State.dropJob_alw (s : State) (r q : Nat) : (s.dropJob r q).alw = s.alw := rfl
@[simp] theorem State.dropJob_memst (s : State) (r q : Nat) : (s.dropJob r q).memst = s.memst := rfl
@[simp] theorem State.dropJob_bridge (s : State) (r q : Nat) : (s.dropJob r q).bridge = s.bridge := rfl
@[simp] theorem State.dropJob_safe (s : State) (r q : Nat) : (s.dropJob r q).safe = s.safe := rfl
@[simp] theorem State.dropJob_knots (s : State) (r q : Nat) : (s.dropJob r q).knots = s.knots := rfl
@[simp] theorem State.dropJob_rings (s : State) (r q : Nat) : (s.dropJob r q).rings = s.rings := rfl
@[simp] theorem State.dropJob_cores (s : State) (r q : Nat) : (s.dropJob r q).cores = s.cores := rfl
@[simp] theorem State.dropJob_hot (s : State) (r q : Nat) : (s.dropJob r q).hot = s.hot := rfl
@[simp] theorem State.dropJob_tiles (s : State) (r q : Nat) : (s.dropJob r q).tiles = s.tiles := rfl
@[simp] theorem State.dropJob_sched (s : State) (r q : Nat) : (s.dropJob r q).sched = s.sched := rfl
@[simp] theorem State.dropJob_regions (s : State) (r q : Nat) : (s.dropJob r q).regions = s.regions := rfl
@[simp] theorem State.dropJob_chans (s : State) (r q : Nat) : (s.dropJob r q).chans = s.chans := rfl
@[simp] theorem State.dropJob_encoder (s : State) (r q : Nat) : (s.dropJob r q).encoder = s.encoder := rfl
@[simp] theorem State.dropJob_fusion (s : State) (r q : Nat) : (s.dropJob r q).fusion = s.fusion := rfl
@[simp] theorem State.dropJob_display (s : State) (r q : Nat) : (s.dropJob r q).display = s.display := rfl
@[simp] theorem State.dropJob_seals (s : State) (r q : Nat) : (s.dropJob r q).seals = s.seals := rfl
@[simp] theorem State.dropJob_checkers (s : State) (r q : Nat) : (s.dropJob r q).checkers = s.checkers := rfl
@[simp] theorem State.dropJob_darn (s : State) (r q : Nat) : (s.dropJob r q).darn = s.darn := rfl
@[simp] theorem State.dropJob_watch (s : State) (r q : Nat) : (s.dropJob r q).watch = s.watch := rfl
@[simp] theorem State.dropJob_trust (s : State) (r q : Nat) : (s.dropJob r q).trust = s.trust := rfl
@[simp] theorem State.dropJob_insts (s : State) (r q : Nat) : (s.dropJob r q).insts = s.insts := rfl
@[simp] theorem State.dropJob_journal (s : State) (r q : Nat) : (s.dropJob r q).journal = s.journal := rfl
@[simp] theorem State.dropJob_cwy (s : State) (r q : Nat) : (s.dropJob r q).cwy = s.cwy := rfl
@[simp] theorem State.dropJob_nets (s : State) (r q : Nat) : (s.dropJob r q).nets = s.nets := rfl
@[simp] theorem State.dropJob_epochs (s : State) (r q : Nat) : (s.dropJob r q).epochs = s.epochs := rfl
@[simp] theorem State.dropJob_pending (s : State) (r q : Nat) : (s.dropJob r q).pending = s.pending := rfl

/-! takeFree -/

@[simp] theorem State.takeFree_time (s : State) : (s.takeFree).2.time = s.time := rfl
@[simp] theorem State.takeFree_regs (s : State) : (s.takeFree).2.regs = s.regs := rfl
@[simp] theorem State.takeFree_mem (s : State) : (s.takeFree).2.mem = s.mem := rfl
@[simp] theorem State.takeFree_poison (s : State) : (s.takeFree).2.poison = s.poison := rfl
@[simp] theorem State.takeFree_far (s : State) : (s.takeFree).2.far = s.far := rfl
@[simp] theorem State.takeFree_resp (s : State) : (s.takeFree).2.resp = s.resp := rfl
@[simp] theorem State.takeFree_out (s : State) : (s.takeFree).2.out = s.out := rfl
@[simp] theorem State.takeFree_sys (s : State) : (s.takeFree).2.sys = s.sys := rfl
@[simp] theorem State.takeFree_audit (s : State) : (s.takeFree).2.audit = s.audit := rfl
@[simp] theorem State.takeFree_timeLatch (s : State) : (s.takeFree).2.timeLatch = s.timeLatch := rfl
@[simp] theorem State.takeFree_tacks (s : State) : (s.takeFree).2.tacks = s.tacks := rfl
@[simp] theorem State.takeFree_fsync (s : State) : (s.takeFree).2.fsync = s.fsync := rfl
@[simp] theorem State.takeFree_alw (s : State) : (s.takeFree).2.alw = s.alw := rfl
@[simp] theorem State.takeFree_memst (s : State) : (s.takeFree).2.memst = s.memst := rfl
@[simp] theorem State.takeFree_bridge (s : State) : (s.takeFree).2.bridge = s.bridge := rfl
@[simp] theorem State.takeFree_safe (s : State) : (s.takeFree).2.safe = s.safe := rfl
@[simp] theorem State.takeFree_knots (s : State) : (s.takeFree).2.knots = s.knots := rfl
@[simp] theorem State.takeFree_rings (s : State) : (s.takeFree).2.rings = s.rings := rfl
@[simp] theorem State.takeFree_jobs (s : State) : (s.takeFree).2.jobs = s.jobs := rfl
@[simp] theorem State.takeFree_cores (s : State) : (s.takeFree).2.cores = s.cores := rfl
@[simp] theorem State.takeFree_hot (s : State) : (s.takeFree).2.hot = s.hot := rfl
@[simp] theorem State.takeFree_tiles (s : State) : (s.takeFree).2.tiles = s.tiles := rfl
@[simp] theorem State.takeFree_sched (s : State) : (s.takeFree).2.sched = s.sched := rfl
@[simp] theorem State.takeFree_regions (s : State) : (s.takeFree).2.regions = s.regions := rfl
@[simp] theorem State.takeFree_chans (s : State) : (s.takeFree).2.chans = s.chans := rfl
@[simp] theorem State.takeFree_encoder (s : State) : (s.takeFree).2.encoder = s.encoder := rfl
@[simp] theorem State.takeFree_fusion (s : State) : (s.takeFree).2.fusion = s.fusion := rfl
@[simp] theorem State.takeFree_display (s : State) : (s.takeFree).2.display = s.display := rfl
@[simp] theorem State.takeFree_seals (s : State) : (s.takeFree).2.seals = s.seals := rfl
@[simp] theorem State.takeFree_checkers (s : State) : (s.takeFree).2.checkers = s.checkers := rfl
@[simp] theorem State.takeFree_darn (s : State) : (s.takeFree).2.darn = s.darn := rfl
@[simp] theorem State.takeFree_watch (s : State) : (s.takeFree).2.watch = s.watch := rfl
@[simp] theorem State.takeFree_trust (s : State) : (s.takeFree).2.trust = s.trust := rfl
@[simp] theorem State.takeFree_insts (s : State) : (s.takeFree).2.insts = s.insts := rfl
@[simp] theorem State.takeFree_journal (s : State) : (s.takeFree).2.journal = s.journal := rfl
@[simp] theorem State.takeFree_cwy (s : State) : (s.takeFree).2.cwy = s.cwy := rfl
@[simp] theorem State.takeFree_nets (s : State) : (s.takeFree).2.nets = s.nets := rfl
@[simp] theorem State.takeFree_epochs (s : State) : (s.takeFree).2.epochs = s.epochs := rfl
@[simp] theorem State.takeFree_pending (s : State) : (s.takeFree).2.pending = s.pending := rfl

/-! ### What counting, events and audit entries may change -/

/-- Two states that differ at most in registers, memory, poison, messages and the rims whose RIM_STOPPED has been raised. -/
structure State.Noted (s t : State) : Prop where
  rest : t = { s with regs := t.regs, mem := t.mem, poison := t.poison, out := t.out, sys := { s.sys with rimRaised := t.sys.rimRaised } }

theorem State.Noted.refl (s : State) : s.Noted s := ⟨rfl⟩

theorem State.Noted.trans {s t u : State} (h : s.Noted t) (g : t.Noted u) : s.Noted u := by
  constructor
  rw [g.rest, h.rest]

theorem State.Noted.setFld {s t : State} (h : s.Noted t) (k : Nat) (f : Fld) (v : Nat) : s.Noted (t.setFld k f v) :=
  h.trans ⟨rfl⟩
theorem State.Noted.setBit {s t : State} (h : s.Noted t) (k b : Nat) (v : Bool) : s.Noted (t.setBit k b v) := h.trans ⟨rfl⟩
theorem State.Noted.emit {s t : State} (h : s.Noted t) (e : Emit) : s.Noted (t.emit e) := h.trans ⟨rfl⟩
theorem State.Noted.writeBytes {s t : State} (h : s.Noted t) (a : Nat) (bs : List Byte) : s.Noted (t.writeBytes a bs) := h.trans ⟨rfl⟩

theorem State.Noted.foldl {α : Type} {f : State → α → State} (hf : ∀ a x, State.Noted a (f a x)) (l : List α) (s : State) :
    s.Noted (l.foldl f s) := by
  induction l generalizing s with
  | nil => exact .refl s
  | cons x l ih => exact (hf s x).trans (ih (f s x))

theorem State.evqPush_noted (s : State) (d blk off unit : Nat) : s.Noted (s.evqPush d blk off unit) := by
  simp only [State.evqPush]
  split
  · exact ((State.Noted.refl s).writeBytes _ _ |>.setFld _ _ _).emit _
  · exact (State.Noted.refl s).writeBytes _ _ |>.setFld _ _ _

theorem State.countOnly_noted (s : State) (k : Nat) : s.Noted (s.countOnly k).1 := by
  unfold State.countOnly
  dsimp only
  split
  · exact .refl s
  · split
    · dsimp only
      split
      · exact ((State.Noted.refl s).setFld _ _ _).setBit _ _ _
      · exact (State.Noted.refl s).setFld _ _ _
    · exact (State.Noted.refl s).setFld _ _ _

theorem State.noteRim_noted (s : State) (d : Nat) : s.Noted (s.noteRim d) := ⟨rfl⟩

theorem State.deliver_noted (n : Nat) (s : State) (d blk off unit : Nat) : s.Noted (State.deliver n s d blk off unit) := by
  induction n generalizing s d blk off unit with
  | zero => exact .refl s
  | succ n ih =>
    simp only [State.deliver]
    split
    · split
      · have hf : ∀ (t : State) (u : Nat), t.Noted ([0, 1, 2].foldl (fun a q => if a.routed 3 q then State.deliver n a q 3 0x0468 u else a) t) :=
          fun t u => .foldl (fun a x => by
            split
            · exact ih a x 3 _ u
            · exact .refl a) _ _
        have h1 := s.countOnly_noted Reg.PWR_RIM_REFUSE_CNT
        split <;> split
        · exact h1.trans (hf _ _)
        · exact h1
        · exact ((h1.trans (hf _ _)).trans (State.noteRim_noted _ _)).trans (hf _ _)
        · exact (h1.trans (State.noteRim_noted _ _)).trans (hf _ _)
      · exact s.evqPush_noted d blk off unit
    · split
      · exact .refl s
      · split
        · refine (((State.Noted.refl s).setFld _ _ _).setBit _ _ _).trans (.foldl (fun a x => ?_) _ _)
          split
          · exact ih a x 0 _ _
          · exact .refl a
        · exact (State.Noted.refl s).setFld _ _ _

theorem State.raise_noted (s : State) (blk off unit : Nat) : s.Noted (s.raise blk off unit) :=
  .foldl (fun a x => by
    split
    · exact a.deliver_noted 4 x blk off unit
    · exact .refl a) _ s

theorem State.setSat_noted (s : State) (k : Nat) : s.Noted (s.setSat k) := by
  simp only [State.setSat]
  split
  · exact (State.Noted.refl s).setBit _ _ _
  · exact .refl s

theorem State.bump_noted (s : State) (k unit : Nat) : s.Noted (s.bump k unit) := by
  simp only [State.bump]
  split
  · exact .refl s
  · split
    · exact (((State.Noted.refl s).setFld _ _ _).trans (State.setSat_noted _ _)).trans (State.raise_noted _ _ _ _)
    · exact (State.Noted.refl s).setFld _ _ _

/-- Two states that differ at most in registers, memory, poison, messages, the rims whose RIM_STOPPED has been raised and the audit log's chain. -/
structure State.Logged (s t : State) : Prop where
  rest : t = { s with regs := t.regs, mem := t.mem, poison := t.poison, out := t.out, sys := { s.sys with rimRaised := t.sys.rimRaised }, audit := t.audit }

theorem State.Logged.refl (s : State) : s.Logged s := ⟨rfl⟩
theorem State.Noted.logged {s t : State} (h : s.Noted t) : s.Logged t := ⟨by rw [h.rest]⟩

theorem State.Logged.trans {s t u : State} (h : s.Logged t) (g : t.Logged u) : s.Logged u := by
  constructor
  rw [g.rest, h.rest]

theorem State.Logged.setFld {s t : State} (h : s.Logged t) (k : Nat) (f : Fld) (v : Nat) : s.Logged (t.setFld k f v) := h.trans ⟨rfl⟩
theorem State.Logged.setReg {s t : State} (h : s.Logged t) (k : Nat) (w : Word) : s.Logged (t.setReg k w) := h.trans ⟨rfl⟩
theorem State.Logged.writeBytes {s t : State} (h : s.Logged t) (a : Nat) (bs : List Byte) : s.Logged (t.writeBytes a bs) := h.trans ⟨rfl⟩
theorem State.Logged.setChain {s t : State} (h : s.Logged t) (c : BitVec 512) : s.Logged (t.setChain c) := h.trans ⟨rfl⟩
theorem State.Logged.raiseNear {s t : State} (h : s.Logged t) : s.Logged t.raiseNear :=
  (h.trans (u := { t with audit := { t.audit with near := true } }) ⟨rfl⟩).trans (State.raise_noted _ _ _ _).logged
theorem State.Logged.auditRefresh {s t : State} (h : s.Logged t) : s.Logged t.auditRefresh := by
  unfold State.auditRefresh
  exact ((h.setFld _ _ _).setFld _ _ _).setFld _ _ _

theorem State.auditPut_logged (s : State) (o : Origin) (kind : AuditKind) (a b c d e : Nat) : s.Logged (s.auditPut o kind a b c d e) := by
  unfold State.auditPut
  dsimp only
  split
  · exact State.Logged.auditRefresh (((State.Logged.refl s).writeBytes _ _ |>.setChain _).setReg _ _)
  · exact (State.Logged.auditRefresh (((State.Logged.refl s).writeBytes _ _ |>.setChain _).setReg _ _)).raiseNear

theorem State.auditAs_logged (s : State) (o : Origin) (kind : AuditKind) (a b c d e : Nat) : s.Logged (s.auditAs o kind a b c d e) := by
  simp only [State.auditAs]
  split
  · split
    · exact ((s.bump_noted _ _).logged).trans ⟨rfl⟩
    · exact (s.bump_noted _ _).logged
  · exact s.auditPut_logged o kind a b c d e

theorem State.auditLog_logged (s : State) (o : Origin) (kind : AuditKind) (a b c d : Nat) : s.Logged (s.auditLog o kind a b c d) :=
  s.auditAs_logged o kind a _ b c d

/-! deliver -/

@[simp] theorem State.deliver_time (n : Nat) (s : State) (d blk off unit : Nat) : (State.deliver n s d blk off unit).time = s.time := by
  rw [(State.deliver_noted n s d blk off unit).rest]
@[simp] theorem State.deliver_far (n : Nat) (s : State) (d blk off unit : Nat) : (State.deliver n s d blk off unit).far = s.far := by
  rw [(State.deliver_noted n s d blk off unit).rest]
@[simp] theorem State.deliver_free (n : Nat) (s : State) (d blk off unit : Nat) : (State.deliver n s d blk off unit).free = s.free := by
  rw [(State.deliver_noted n s d blk off unit).rest]
@[simp] theorem State.deliver_resp (n : Nat) (s : State) (d blk off unit : Nat) : (State.deliver n s d blk off unit).resp = s.resp := by
  rw [(State.deliver_noted n s d blk off unit).rest]
@[simp] theorem State.deliver_audit (n : Nat) (s : State) (d blk off unit : Nat) : (State.deliver n s d blk off unit).audit = s.audit := by
  rw [(State.deliver_noted n s d blk off unit).rest]
@[simp] theorem State.deliver_timeLatch (n : Nat) (s : State) (d blk off unit : Nat) : (State.deliver n s d blk off unit).timeLatch = s.timeLatch := by
  rw [(State.deliver_noted n s d blk off unit).rest]
@[simp] theorem State.deliver_tacks (n : Nat) (s : State) (d blk off unit : Nat) : (State.deliver n s d blk off unit).tacks = s.tacks := by
  rw [(State.deliver_noted n s d blk off unit).rest]
@[simp] theorem State.deliver_fsync (n : Nat) (s : State) (d blk off unit : Nat) : (State.deliver n s d blk off unit).fsync = s.fsync := by
  rw [(State.deliver_noted n s d blk off unit).rest]
@[simp] theorem State.deliver_alw (n : Nat) (s : State) (d blk off unit : Nat) : (State.deliver n s d blk off unit).alw = s.alw := by
  rw [(State.deliver_noted n s d blk off unit).rest]
@[simp] theorem State.deliver_memst (n : Nat) (s : State) (d blk off unit : Nat) : (State.deliver n s d blk off unit).memst = s.memst := by
  rw [(State.deliver_noted n s d blk off unit).rest]
@[simp] theorem State.deliver_bridge (n : Nat) (s : State) (d blk off unit : Nat) : (State.deliver n s d blk off unit).bridge = s.bridge := by
  rw [(State.deliver_noted n s d blk off unit).rest]
@[simp] theorem State.deliver_safe (n : Nat) (s : State) (d blk off unit : Nat) : (State.deliver n s d blk off unit).safe = s.safe := by
  rw [(State.deliver_noted n s d blk off unit).rest]
@[simp] theorem State.deliver_knots (n : Nat) (s : State) (d blk off unit : Nat) : (State.deliver n s d blk off unit).knots = s.knots := by
  rw [(State.deliver_noted n s d blk off unit).rest]
@[simp] theorem State.deliver_rings (n : Nat) (s : State) (d blk off unit : Nat) : (State.deliver n s d blk off unit).rings = s.rings := by
  rw [(State.deliver_noted n s d blk off unit).rest]
@[simp] theorem State.deliver_jobs (n : Nat) (s : State) (d blk off unit : Nat) : (State.deliver n s d blk off unit).jobs = s.jobs := by
  rw [(State.deliver_noted n s d blk off unit).rest]
@[simp] theorem State.deliver_cores (n : Nat) (s : State) (d blk off unit : Nat) : (State.deliver n s d blk off unit).cores = s.cores := by
  rw [(State.deliver_noted n s d blk off unit).rest]
@[simp] theorem State.deliver_hot (n : Nat) (s : State) (d blk off unit : Nat) : (State.deliver n s d blk off unit).hot = s.hot := by
  rw [(State.deliver_noted n s d blk off unit).rest]
@[simp] theorem State.deliver_tiles (n : Nat) (s : State) (d blk off unit : Nat) : (State.deliver n s d blk off unit).tiles = s.tiles := by
  rw [(State.deliver_noted n s d blk off unit).rest]
@[simp] theorem State.deliver_sched (n : Nat) (s : State) (d blk off unit : Nat) : (State.deliver n s d blk off unit).sched = s.sched := by
  rw [(State.deliver_noted n s d blk off unit).rest]
@[simp] theorem State.deliver_regions (n : Nat) (s : State) (d blk off unit : Nat) : (State.deliver n s d blk off unit).regions = s.regions := by
  rw [(State.deliver_noted n s d blk off unit).rest]
@[simp] theorem State.deliver_chans (n : Nat) (s : State) (d blk off unit : Nat) : (State.deliver n s d blk off unit).chans = s.chans := by
  rw [(State.deliver_noted n s d blk off unit).rest]
@[simp] theorem State.deliver_encoder (n : Nat) (s : State) (d blk off unit : Nat) : (State.deliver n s d blk off unit).encoder = s.encoder := by
  rw [(State.deliver_noted n s d blk off unit).rest]
@[simp] theorem State.deliver_fusion (n : Nat) (s : State) (d blk off unit : Nat) : (State.deliver n s d blk off unit).fusion = s.fusion := by
  rw [(State.deliver_noted n s d blk off unit).rest]
@[simp] theorem State.deliver_display (n : Nat) (s : State) (d blk off unit : Nat) : (State.deliver n s d blk off unit).display = s.display := by
  rw [(State.deliver_noted n s d blk off unit).rest]
@[simp] theorem State.deliver_seals (n : Nat) (s : State) (d blk off unit : Nat) : (State.deliver n s d blk off unit).seals = s.seals := by
  rw [(State.deliver_noted n s d blk off unit).rest]
@[simp] theorem State.deliver_checkers (n : Nat) (s : State) (d blk off unit : Nat) : (State.deliver n s d blk off unit).checkers = s.checkers := by
  rw [(State.deliver_noted n s d blk off unit).rest]
@[simp] theorem State.deliver_darn (n : Nat) (s : State) (d blk off unit : Nat) : (State.deliver n s d blk off unit).darn = s.darn := by
  rw [(State.deliver_noted n s d blk off unit).rest]
@[simp] theorem State.deliver_watch (n : Nat) (s : State) (d blk off unit : Nat) : (State.deliver n s d blk off unit).watch = s.watch := by
  rw [(State.deliver_noted n s d blk off unit).rest]
@[simp] theorem State.deliver_trust (n : Nat) (s : State) (d blk off unit : Nat) : (State.deliver n s d blk off unit).trust = s.trust := by
  rw [(State.deliver_noted n s d blk off unit).rest]
@[simp] theorem State.deliver_insts (n : Nat) (s : State) (d blk off unit : Nat) : (State.deliver n s d blk off unit).insts = s.insts := by
  rw [(State.deliver_noted n s d blk off unit).rest]
@[simp] theorem State.deliver_journal (n : Nat) (s : State) (d blk off unit : Nat) : (State.deliver n s d blk off unit).journal = s.journal := by
  rw [(State.deliver_noted n s d blk off unit).rest]
@[simp] theorem State.deliver_cwy (n : Nat) (s : State) (d blk off unit : Nat) : (State.deliver n s d blk off unit).cwy = s.cwy := by
  rw [(State.deliver_noted n s d blk off unit).rest]
@[simp] theorem State.deliver_nets (n : Nat) (s : State) (d blk off unit : Nat) : (State.deliver n s d blk off unit).nets = s.nets := by
  rw [(State.deliver_noted n s d blk off unit).rest]
@[simp] theorem State.deliver_epochs (n : Nat) (s : State) (d blk off unit : Nat) : (State.deliver n s d blk off unit).epochs = s.epochs := by
  rw [(State.deliver_noted n s d blk off unit).rest]
@[simp] theorem State.deliver_pending (n : Nat) (s : State) (d blk off unit : Nat) : (State.deliver n s d blk off unit).pending = s.pending := by
  rw [(State.deliver_noted n s d blk off unit).rest]
@[simp] theorem State.deliver_sys_up (n : Nat) (s : State) (d blk off unit : Nat) : (State.deliver n s d blk off unit).sys.up = s.sys.up := by
  rw [(State.deliver_noted n s d blk off unit).rest]
@[simp] theorem State.deliver_sys_resetN (n : Nat) (s : State) (d blk off unit : Nat) : (State.deliver n s d blk off unit).sys.resetN = s.sys.resetN := by
  rw [(State.deliver_noted n s d blk off unit).rest]
@[simp] theorem State.deliver_sys_pwrok (n : Nat) (s : State) (d blk off unit : Nat) : (State.deliver n s d blk off unit).sys.pwrok = s.sys.pwrok := by
  rw [(State.deliver_noted n s d blk off unit).rest]
@[simp] theorem State.deliver_sys_coreLow (n : Nat) (s : State) (d blk off unit : Nat) : (State.deliver n s d blk off unit).sys.coreLow = s.sys.coreLow := by
  rw [(State.deliver_noted n s d blk off unit).rest]
@[simp] theorem State.deliver_sys_dramLow (n : Nat) (s : State) (d blk off unit : Nat) : (State.deliver n s d blk off unit).sys.dramLow = s.sys.dramLow := by
  rw [(State.deliver_noted n s d blk off unit).rest]
@[simp] theorem State.deliver_sys_tripped (n : Nat) (s : State) (d blk off unit : Nat) : (State.deliver n s d blk off unit).sys.tripped = s.sys.tripped := by
  rw [(State.deliver_noted n s d blk off unit).rest]
@[simp] theorem State.deliver_sys_alive (n : Nat) (s : State) (d blk off unit : Nat) : (State.deliver n s d blk off unit).sys.alive = s.sys.alive := by
  rw [(State.deliver_noted n s d blk off unit).rest]
@[simp] theorem State.deliver_sys_rateRaised (n : Nat) (s : State) (d blk off unit : Nat) : (State.deliver n s d blk off unit).sys.rateRaised = s.sys.rateRaised := by
  rw [(State.deliver_noted n s d blk off unit).rest]
@[simp] theorem State.deliver_sys_slips (n : Nat) (s : State) (d blk off unit : Nat) : (State.deliver n s d blk off unit).sys.slips = s.sys.slips := by
  rw [(State.deliver_noted n s d blk off unit).rest]

/-! raise -/

@[simp] theorem State.raise_time (s : State) (blk off unit : Nat) : (s.raise blk off unit).time = s.time := by rw [(s.raise_noted blk off unit).rest]
@[simp] theorem State.raise_far (s : State) (blk off unit : Nat) : (s.raise blk off unit).far = s.far := by rw [(s.raise_noted blk off unit).rest]
@[simp] theorem State.raise_free (s : State) (blk off unit : Nat) : (s.raise blk off unit).free = s.free := by rw [(s.raise_noted blk off unit).rest]
@[simp] theorem State.raise_resp (s : State) (blk off unit : Nat) : (s.raise blk off unit).resp = s.resp := by rw [(s.raise_noted blk off unit).rest]
@[simp] theorem State.raise_audit (s : State) (blk off unit : Nat) : (s.raise blk off unit).audit = s.audit := by rw [(s.raise_noted blk off unit).rest]
@[simp] theorem State.raise_timeLatch (s : State) (blk off unit : Nat) : (s.raise blk off unit).timeLatch = s.timeLatch := by rw [(s.raise_noted blk off unit).rest]
@[simp] theorem State.raise_tacks (s : State) (blk off unit : Nat) : (s.raise blk off unit).tacks = s.tacks := by rw [(s.raise_noted blk off unit).rest]
@[simp] theorem State.raise_fsync (s : State) (blk off unit : Nat) : (s.raise blk off unit).fsync = s.fsync := by rw [(s.raise_noted blk off unit).rest]
@[simp] theorem State.raise_alw (s : State) (blk off unit : Nat) : (s.raise blk off unit).alw = s.alw := by rw [(s.raise_noted blk off unit).rest]
@[simp] theorem State.raise_memst (s : State) (blk off unit : Nat) : (s.raise blk off unit).memst = s.memst := by rw [(s.raise_noted blk off unit).rest]
@[simp] theorem State.raise_bridge (s : State) (blk off unit : Nat) : (s.raise blk off unit).bridge = s.bridge := by rw [(s.raise_noted blk off unit).rest]
@[simp] theorem State.raise_safe (s : State) (blk off unit : Nat) : (s.raise blk off unit).safe = s.safe := by rw [(s.raise_noted blk off unit).rest]
@[simp] theorem State.raise_knots (s : State) (blk off unit : Nat) : (s.raise blk off unit).knots = s.knots := by rw [(s.raise_noted blk off unit).rest]
@[simp] theorem State.raise_rings (s : State) (blk off unit : Nat) : (s.raise blk off unit).rings = s.rings := by rw [(s.raise_noted blk off unit).rest]
@[simp] theorem State.raise_jobs (s : State) (blk off unit : Nat) : (s.raise blk off unit).jobs = s.jobs := by rw [(s.raise_noted blk off unit).rest]
@[simp] theorem State.raise_cores (s : State) (blk off unit : Nat) : (s.raise blk off unit).cores = s.cores := by rw [(s.raise_noted blk off unit).rest]
@[simp] theorem State.raise_hot (s : State) (blk off unit : Nat) : (s.raise blk off unit).hot = s.hot := by rw [(s.raise_noted blk off unit).rest]
@[simp] theorem State.raise_tiles (s : State) (blk off unit : Nat) : (s.raise blk off unit).tiles = s.tiles := by rw [(s.raise_noted blk off unit).rest]
@[simp] theorem State.raise_sched (s : State) (blk off unit : Nat) : (s.raise blk off unit).sched = s.sched := by rw [(s.raise_noted blk off unit).rest]
@[simp] theorem State.raise_regions (s : State) (blk off unit : Nat) : (s.raise blk off unit).regions = s.regions := by rw [(s.raise_noted blk off unit).rest]
@[simp] theorem State.raise_chans (s : State) (blk off unit : Nat) : (s.raise blk off unit).chans = s.chans := by rw [(s.raise_noted blk off unit).rest]
@[simp] theorem State.raise_encoder (s : State) (blk off unit : Nat) : (s.raise blk off unit).encoder = s.encoder := by rw [(s.raise_noted blk off unit).rest]
@[simp] theorem State.raise_fusion (s : State) (blk off unit : Nat) : (s.raise blk off unit).fusion = s.fusion := by rw [(s.raise_noted blk off unit).rest]
@[simp] theorem State.raise_display (s : State) (blk off unit : Nat) : (s.raise blk off unit).display = s.display := by rw [(s.raise_noted blk off unit).rest]
@[simp] theorem State.raise_seals (s : State) (blk off unit : Nat) : (s.raise blk off unit).seals = s.seals := by rw [(s.raise_noted blk off unit).rest]
@[simp] theorem State.raise_checkers (s : State) (blk off unit : Nat) : (s.raise blk off unit).checkers = s.checkers := by rw [(s.raise_noted blk off unit).rest]
@[simp] theorem State.raise_darn (s : State) (blk off unit : Nat) : (s.raise blk off unit).darn = s.darn := by rw [(s.raise_noted blk off unit).rest]
@[simp] theorem State.raise_watch (s : State) (blk off unit : Nat) : (s.raise blk off unit).watch = s.watch := by rw [(s.raise_noted blk off unit).rest]
@[simp] theorem State.raise_trust (s : State) (blk off unit : Nat) : (s.raise blk off unit).trust = s.trust := by rw [(s.raise_noted blk off unit).rest]
@[simp] theorem State.raise_insts (s : State) (blk off unit : Nat) : (s.raise blk off unit).insts = s.insts := by rw [(s.raise_noted blk off unit).rest]
@[simp] theorem State.raise_journal (s : State) (blk off unit : Nat) : (s.raise blk off unit).journal = s.journal := by rw [(s.raise_noted blk off unit).rest]
@[simp] theorem State.raise_cwy (s : State) (blk off unit : Nat) : (s.raise blk off unit).cwy = s.cwy := by rw [(s.raise_noted blk off unit).rest]
@[simp] theorem State.raise_nets (s : State) (blk off unit : Nat) : (s.raise blk off unit).nets = s.nets := by rw [(s.raise_noted blk off unit).rest]
@[simp] theorem State.raise_epochs (s : State) (blk off unit : Nat) : (s.raise blk off unit).epochs = s.epochs := by rw [(s.raise_noted blk off unit).rest]
@[simp] theorem State.raise_pending (s : State) (blk off unit : Nat) : (s.raise blk off unit).pending = s.pending := by rw [(s.raise_noted blk off unit).rest]
@[simp] theorem State.raise_sys_up (s : State) (blk off unit : Nat) : (s.raise blk off unit).sys.up = s.sys.up := by rw [(s.raise_noted blk off unit).rest]
@[simp] theorem State.raise_sys_resetN (s : State) (blk off unit : Nat) : (s.raise blk off unit).sys.resetN = s.sys.resetN := by rw [(s.raise_noted blk off unit).rest]
@[simp] theorem State.raise_sys_pwrok (s : State) (blk off unit : Nat) : (s.raise blk off unit).sys.pwrok = s.sys.pwrok := by rw [(s.raise_noted blk off unit).rest]
@[simp] theorem State.raise_sys_coreLow (s : State) (blk off unit : Nat) : (s.raise blk off unit).sys.coreLow = s.sys.coreLow := by rw [(s.raise_noted blk off unit).rest]
@[simp] theorem State.raise_sys_dramLow (s : State) (blk off unit : Nat) : (s.raise blk off unit).sys.dramLow = s.sys.dramLow := by rw [(s.raise_noted blk off unit).rest]
@[simp] theorem State.raise_sys_tripped (s : State) (blk off unit : Nat) : (s.raise blk off unit).sys.tripped = s.sys.tripped := by rw [(s.raise_noted blk off unit).rest]
@[simp] theorem State.raise_sys_alive (s : State) (blk off unit : Nat) : (s.raise blk off unit).sys.alive = s.sys.alive := by rw [(s.raise_noted blk off unit).rest]
@[simp] theorem State.raise_sys_rateRaised (s : State) (blk off unit : Nat) : (s.raise blk off unit).sys.rateRaised = s.sys.rateRaised := by rw [(s.raise_noted blk off unit).rest]
@[simp] theorem State.raise_sys_slips (s : State) (blk off unit : Nat) : (s.raise blk off unit).sys.slips = s.sys.slips := by rw [(s.raise_noted blk off unit).rest]

/-! bump -/

@[simp] theorem State.bump_time (s : State) (k unit : Nat) : (s.bump k unit).time = s.time := by rw [(s.bump_noted k unit).rest]
@[simp] theorem State.bump_far (s : State) (k unit : Nat) : (s.bump k unit).far = s.far := by rw [(s.bump_noted k unit).rest]
@[simp] theorem State.bump_free (s : State) (k unit : Nat) : (s.bump k unit).free = s.free := by rw [(s.bump_noted k unit).rest]
@[simp] theorem State.bump_resp (s : State) (k unit : Nat) : (s.bump k unit).resp = s.resp := by rw [(s.bump_noted k unit).rest]
@[simp] theorem State.bump_audit (s : State) (k unit : Nat) : (s.bump k unit).audit = s.audit := by rw [(s.bump_noted k unit).rest]
@[simp] theorem State.bump_timeLatch (s : State) (k unit : Nat) : (s.bump k unit).timeLatch = s.timeLatch := by rw [(s.bump_noted k unit).rest]
@[simp] theorem State.bump_tacks (s : State) (k unit : Nat) : (s.bump k unit).tacks = s.tacks := by rw [(s.bump_noted k unit).rest]
@[simp] theorem State.bump_fsync (s : State) (k unit : Nat) : (s.bump k unit).fsync = s.fsync := by rw [(s.bump_noted k unit).rest]
@[simp] theorem State.bump_alw (s : State) (k unit : Nat) : (s.bump k unit).alw = s.alw := by rw [(s.bump_noted k unit).rest]
@[simp] theorem State.bump_memst (s : State) (k unit : Nat) : (s.bump k unit).memst = s.memst := by rw [(s.bump_noted k unit).rest]
@[simp] theorem State.bump_bridge (s : State) (k unit : Nat) : (s.bump k unit).bridge = s.bridge := by rw [(s.bump_noted k unit).rest]
@[simp] theorem State.bump_safe (s : State) (k unit : Nat) : (s.bump k unit).safe = s.safe := by rw [(s.bump_noted k unit).rest]
@[simp] theorem State.bump_knots (s : State) (k unit : Nat) : (s.bump k unit).knots = s.knots := by rw [(s.bump_noted k unit).rest]
@[simp] theorem State.bump_rings (s : State) (k unit : Nat) : (s.bump k unit).rings = s.rings := by rw [(s.bump_noted k unit).rest]
@[simp] theorem State.bump_jobs (s : State) (k unit : Nat) : (s.bump k unit).jobs = s.jobs := by rw [(s.bump_noted k unit).rest]
@[simp] theorem State.bump_cores (s : State) (k unit : Nat) : (s.bump k unit).cores = s.cores := by rw [(s.bump_noted k unit).rest]
@[simp] theorem State.bump_hot (s : State) (k unit : Nat) : (s.bump k unit).hot = s.hot := by rw [(s.bump_noted k unit).rest]
@[simp] theorem State.bump_tiles (s : State) (k unit : Nat) : (s.bump k unit).tiles = s.tiles := by rw [(s.bump_noted k unit).rest]
@[simp] theorem State.bump_sched (s : State) (k unit : Nat) : (s.bump k unit).sched = s.sched := by rw [(s.bump_noted k unit).rest]
@[simp] theorem State.bump_regions (s : State) (k unit : Nat) : (s.bump k unit).regions = s.regions := by rw [(s.bump_noted k unit).rest]
@[simp] theorem State.bump_chans (s : State) (k unit : Nat) : (s.bump k unit).chans = s.chans := by rw [(s.bump_noted k unit).rest]
@[simp] theorem State.bump_encoder (s : State) (k unit : Nat) : (s.bump k unit).encoder = s.encoder := by rw [(s.bump_noted k unit).rest]
@[simp] theorem State.bump_fusion (s : State) (k unit : Nat) : (s.bump k unit).fusion = s.fusion := by rw [(s.bump_noted k unit).rest]
@[simp] theorem State.bump_display (s : State) (k unit : Nat) : (s.bump k unit).display = s.display := by rw [(s.bump_noted k unit).rest]
@[simp] theorem State.bump_seals (s : State) (k unit : Nat) : (s.bump k unit).seals = s.seals := by rw [(s.bump_noted k unit).rest]
@[simp] theorem State.bump_checkers (s : State) (k unit : Nat) : (s.bump k unit).checkers = s.checkers := by rw [(s.bump_noted k unit).rest]
@[simp] theorem State.bump_darn (s : State) (k unit : Nat) : (s.bump k unit).darn = s.darn := by rw [(s.bump_noted k unit).rest]
@[simp] theorem State.bump_watch (s : State) (k unit : Nat) : (s.bump k unit).watch = s.watch := by rw [(s.bump_noted k unit).rest]
@[simp] theorem State.bump_trust (s : State) (k unit : Nat) : (s.bump k unit).trust = s.trust := by rw [(s.bump_noted k unit).rest]
@[simp] theorem State.bump_insts (s : State) (k unit : Nat) : (s.bump k unit).insts = s.insts := by rw [(s.bump_noted k unit).rest]
@[simp] theorem State.bump_journal (s : State) (k unit : Nat) : (s.bump k unit).journal = s.journal := by rw [(s.bump_noted k unit).rest]
@[simp] theorem State.bump_cwy (s : State) (k unit : Nat) : (s.bump k unit).cwy = s.cwy := by rw [(s.bump_noted k unit).rest]
@[simp] theorem State.bump_nets (s : State) (k unit : Nat) : (s.bump k unit).nets = s.nets := by rw [(s.bump_noted k unit).rest]
@[simp] theorem State.bump_epochs (s : State) (k unit : Nat) : (s.bump k unit).epochs = s.epochs := by rw [(s.bump_noted k unit).rest]
@[simp] theorem State.bump_pending (s : State) (k unit : Nat) : (s.bump k unit).pending = s.pending := by rw [(s.bump_noted k unit).rest]
@[simp] theorem State.bump_sys_up (s : State) (k unit : Nat) : (s.bump k unit).sys.up = s.sys.up := by rw [(s.bump_noted k unit).rest]
@[simp] theorem State.bump_sys_resetN (s : State) (k unit : Nat) : (s.bump k unit).sys.resetN = s.sys.resetN := by rw [(s.bump_noted k unit).rest]
@[simp] theorem State.bump_sys_pwrok (s : State) (k unit : Nat) : (s.bump k unit).sys.pwrok = s.sys.pwrok := by rw [(s.bump_noted k unit).rest]
@[simp] theorem State.bump_sys_coreLow (s : State) (k unit : Nat) : (s.bump k unit).sys.coreLow = s.sys.coreLow := by rw [(s.bump_noted k unit).rest]
@[simp] theorem State.bump_sys_dramLow (s : State) (k unit : Nat) : (s.bump k unit).sys.dramLow = s.sys.dramLow := by rw [(s.bump_noted k unit).rest]
@[simp] theorem State.bump_sys_tripped (s : State) (k unit : Nat) : (s.bump k unit).sys.tripped = s.sys.tripped := by rw [(s.bump_noted k unit).rest]
@[simp] theorem State.bump_sys_alive (s : State) (k unit : Nat) : (s.bump k unit).sys.alive = s.sys.alive := by rw [(s.bump_noted k unit).rest]
@[simp] theorem State.bump_sys_rateRaised (s : State) (k unit : Nat) : (s.bump k unit).sys.rateRaised = s.sys.rateRaised := by rw [(s.bump_noted k unit).rest]
@[simp] theorem State.bump_sys_slips (s : State) (k unit : Nat) : (s.bump k unit).sys.slips = s.sys.slips := by rw [(s.bump_noted k unit).rest]

/-! auditAs -/

@[simp] theorem State.auditAs_time (s : State) (o : Origin) (kind : AuditKind) (a b c d e : Nat) : (s.auditAs o kind a b c d e).time = s.time := by
  rw [(s.auditAs_logged o kind a b c d e).rest]
@[simp] theorem State.auditAs_far (s : State) (o : Origin) (kind : AuditKind) (a b c d e : Nat) : (s.auditAs o kind a b c d e).far = s.far := by
  rw [(s.auditAs_logged o kind a b c d e).rest]
@[simp] theorem State.auditAs_free (s : State) (o : Origin) (kind : AuditKind) (a b c d e : Nat) : (s.auditAs o kind a b c d e).free = s.free := by
  rw [(s.auditAs_logged o kind a b c d e).rest]
@[simp] theorem State.auditAs_resp (s : State) (o : Origin) (kind : AuditKind) (a b c d e : Nat) : (s.auditAs o kind a b c d e).resp = s.resp := by
  rw [(s.auditAs_logged o kind a b c d e).rest]
@[simp] theorem State.auditAs_timeLatch (s : State) (o : Origin) (kind : AuditKind) (a b c d e : Nat) : (s.auditAs o kind a b c d e).timeLatch = s.timeLatch := by
  rw [(s.auditAs_logged o kind a b c d e).rest]
@[simp] theorem State.auditAs_tacks (s : State) (o : Origin) (kind : AuditKind) (a b c d e : Nat) : (s.auditAs o kind a b c d e).tacks = s.tacks := by
  rw [(s.auditAs_logged o kind a b c d e).rest]
@[simp] theorem State.auditAs_fsync (s : State) (o : Origin) (kind : AuditKind) (a b c d e : Nat) : (s.auditAs o kind a b c d e).fsync = s.fsync := by
  rw [(s.auditAs_logged o kind a b c d e).rest]
@[simp] theorem State.auditAs_alw (s : State) (o : Origin) (kind : AuditKind) (a b c d e : Nat) : (s.auditAs o kind a b c d e).alw = s.alw := by
  rw [(s.auditAs_logged o kind a b c d e).rest]
@[simp] theorem State.auditAs_memst (s : State) (o : Origin) (kind : AuditKind) (a b c d e : Nat) : (s.auditAs o kind a b c d e).memst = s.memst := by
  rw [(s.auditAs_logged o kind a b c d e).rest]
@[simp] theorem State.auditAs_bridge (s : State) (o : Origin) (kind : AuditKind) (a b c d e : Nat) : (s.auditAs o kind a b c d e).bridge = s.bridge := by
  rw [(s.auditAs_logged o kind a b c d e).rest]
@[simp] theorem State.auditAs_safe (s : State) (o : Origin) (kind : AuditKind) (a b c d e : Nat) : (s.auditAs o kind a b c d e).safe = s.safe := by
  rw [(s.auditAs_logged o kind a b c d e).rest]
@[simp] theorem State.auditAs_knots (s : State) (o : Origin) (kind : AuditKind) (a b c d e : Nat) : (s.auditAs o kind a b c d e).knots = s.knots := by
  rw [(s.auditAs_logged o kind a b c d e).rest]
@[simp] theorem State.auditAs_rings (s : State) (o : Origin) (kind : AuditKind) (a b c d e : Nat) : (s.auditAs o kind a b c d e).rings = s.rings := by
  rw [(s.auditAs_logged o kind a b c d e).rest]
@[simp] theorem State.auditAs_jobs (s : State) (o : Origin) (kind : AuditKind) (a b c d e : Nat) : (s.auditAs o kind a b c d e).jobs = s.jobs := by
  rw [(s.auditAs_logged o kind a b c d e).rest]
@[simp] theorem State.auditAs_cores (s : State) (o : Origin) (kind : AuditKind) (a b c d e : Nat) : (s.auditAs o kind a b c d e).cores = s.cores := by
  rw [(s.auditAs_logged o kind a b c d e).rest]
@[simp] theorem State.auditAs_hot (s : State) (o : Origin) (kind : AuditKind) (a b c d e : Nat) : (s.auditAs o kind a b c d e).hot = s.hot := by
  rw [(s.auditAs_logged o kind a b c d e).rest]
@[simp] theorem State.auditAs_tiles (s : State) (o : Origin) (kind : AuditKind) (a b c d e : Nat) : (s.auditAs o kind a b c d e).tiles = s.tiles := by
  rw [(s.auditAs_logged o kind a b c d e).rest]
@[simp] theorem State.auditAs_sched (s : State) (o : Origin) (kind : AuditKind) (a b c d e : Nat) : (s.auditAs o kind a b c d e).sched = s.sched := by
  rw [(s.auditAs_logged o kind a b c d e).rest]
@[simp] theorem State.auditAs_regions (s : State) (o : Origin) (kind : AuditKind) (a b c d e : Nat) : (s.auditAs o kind a b c d e).regions = s.regions := by
  rw [(s.auditAs_logged o kind a b c d e).rest]
@[simp] theorem State.auditAs_chans (s : State) (o : Origin) (kind : AuditKind) (a b c d e : Nat) : (s.auditAs o kind a b c d e).chans = s.chans := by
  rw [(s.auditAs_logged o kind a b c d e).rest]
@[simp] theorem State.auditAs_encoder (s : State) (o : Origin) (kind : AuditKind) (a b c d e : Nat) : (s.auditAs o kind a b c d e).encoder = s.encoder := by
  rw [(s.auditAs_logged o kind a b c d e).rest]
@[simp] theorem State.auditAs_fusion (s : State) (o : Origin) (kind : AuditKind) (a b c d e : Nat) : (s.auditAs o kind a b c d e).fusion = s.fusion := by
  rw [(s.auditAs_logged o kind a b c d e).rest]
@[simp] theorem State.auditAs_display (s : State) (o : Origin) (kind : AuditKind) (a b c d e : Nat) : (s.auditAs o kind a b c d e).display = s.display := by
  rw [(s.auditAs_logged o kind a b c d e).rest]
@[simp] theorem State.auditAs_seals (s : State) (o : Origin) (kind : AuditKind) (a b c d e : Nat) : (s.auditAs o kind a b c d e).seals = s.seals := by
  rw [(s.auditAs_logged o kind a b c d e).rest]
@[simp] theorem State.auditAs_checkers (s : State) (o : Origin) (kind : AuditKind) (a b c d e : Nat) : (s.auditAs o kind a b c d e).checkers = s.checkers := by
  rw [(s.auditAs_logged o kind a b c d e).rest]
@[simp] theorem State.auditAs_darn (s : State) (o : Origin) (kind : AuditKind) (a b c d e : Nat) : (s.auditAs o kind a b c d e).darn = s.darn := by
  rw [(s.auditAs_logged o kind a b c d e).rest]
@[simp] theorem State.auditAs_watch (s : State) (o : Origin) (kind : AuditKind) (a b c d e : Nat) : (s.auditAs o kind a b c d e).watch = s.watch := by
  rw [(s.auditAs_logged o kind a b c d e).rest]
@[simp] theorem State.auditAs_trust (s : State) (o : Origin) (kind : AuditKind) (a b c d e : Nat) : (s.auditAs o kind a b c d e).trust = s.trust := by
  rw [(s.auditAs_logged o kind a b c d e).rest]
@[simp] theorem State.auditAs_insts (s : State) (o : Origin) (kind : AuditKind) (a b c d e : Nat) : (s.auditAs o kind a b c d e).insts = s.insts := by
  rw [(s.auditAs_logged o kind a b c d e).rest]
@[simp] theorem State.auditAs_journal (s : State) (o : Origin) (kind : AuditKind) (a b c d e : Nat) : (s.auditAs o kind a b c d e).journal = s.journal := by
  rw [(s.auditAs_logged o kind a b c d e).rest]
@[simp] theorem State.auditAs_cwy (s : State) (o : Origin) (kind : AuditKind) (a b c d e : Nat) : (s.auditAs o kind a b c d e).cwy = s.cwy := by
  rw [(s.auditAs_logged o kind a b c d e).rest]
@[simp] theorem State.auditAs_nets (s : State) (o : Origin) (kind : AuditKind) (a b c d e : Nat) : (s.auditAs o kind a b c d e).nets = s.nets := by
  rw [(s.auditAs_logged o kind a b c d e).rest]
@[simp] theorem State.auditAs_epochs (s : State) (o : Origin) (kind : AuditKind) (a b c d e : Nat) : (s.auditAs o kind a b c d e).epochs = s.epochs := by
  rw [(s.auditAs_logged o kind a b c d e).rest]
@[simp] theorem State.auditAs_pending (s : State) (o : Origin) (kind : AuditKind) (a b c d e : Nat) : (s.auditAs o kind a b c d e).pending = s.pending := by
  rw [(s.auditAs_logged o kind a b c d e).rest]
@[simp] theorem State.auditAs_sys_up (s : State) (o : Origin) (kind : AuditKind) (a b c d e : Nat) : (s.auditAs o kind a b c d e).sys.up = s.sys.up := by
  rw [(s.auditAs_logged o kind a b c d e).rest]
@[simp] theorem State.auditAs_sys_resetN (s : State) (o : Origin) (kind : AuditKind) (a b c d e : Nat) : (s.auditAs o kind a b c d e).sys.resetN = s.sys.resetN := by
  rw [(s.auditAs_logged o kind a b c d e).rest]
@[simp] theorem State.auditAs_sys_pwrok (s : State) (o : Origin) (kind : AuditKind) (a b c d e : Nat) : (s.auditAs o kind a b c d e).sys.pwrok = s.sys.pwrok := by
  rw [(s.auditAs_logged o kind a b c d e).rest]
@[simp] theorem State.auditAs_sys_coreLow (s : State) (o : Origin) (kind : AuditKind) (a b c d e : Nat) : (s.auditAs o kind a b c d e).sys.coreLow = s.sys.coreLow := by
  rw [(s.auditAs_logged o kind a b c d e).rest]
@[simp] theorem State.auditAs_sys_dramLow (s : State) (o : Origin) (kind : AuditKind) (a b c d e : Nat) : (s.auditAs o kind a b c d e).sys.dramLow = s.sys.dramLow := by
  rw [(s.auditAs_logged o kind a b c d e).rest]
@[simp] theorem State.auditAs_sys_tripped (s : State) (o : Origin) (kind : AuditKind) (a b c d e : Nat) : (s.auditAs o kind a b c d e).sys.tripped = s.sys.tripped := by
  rw [(s.auditAs_logged o kind a b c d e).rest]
@[simp] theorem State.auditAs_sys_alive (s : State) (o : Origin) (kind : AuditKind) (a b c d e : Nat) : (s.auditAs o kind a b c d e).sys.alive = s.sys.alive := by
  rw [(s.auditAs_logged o kind a b c d e).rest]
@[simp] theorem State.auditAs_sys_rateRaised (s : State) (o : Origin) (kind : AuditKind) (a b c d e : Nat) : (s.auditAs o kind a b c d e).sys.rateRaised = s.sys.rateRaised := by
  rw [(s.auditAs_logged o kind a b c d e).rest]
@[simp] theorem State.auditAs_sys_slips (s : State) (o : Origin) (kind : AuditKind) (a b c d e : Nat) : (s.auditAs o kind a b c d e).sys.slips = s.sys.slips := by
  rw [(s.auditAs_logged o kind a b c d e).rest]

/-! auditLog -/

@[simp] theorem State.auditLog_time (s : State) (o : Origin) (kind : AuditKind) (a b c d : Nat) : (s.auditLog o kind a b c d).time = s.time := by
  rw [(s.auditLog_logged o kind a b c d).rest]
@[simp] theorem State.auditLog_far (s : State) (o : Origin) (kind : AuditKind) (a b c d : Nat) : (s.auditLog o kind a b c d).far = s.far := by
  rw [(s.auditLog_logged o kind a b c d).rest]
@[simp] theorem State.auditLog_free (s : State) (o : Origin) (kind : AuditKind) (a b c d : Nat) : (s.auditLog o kind a b c d).free = s.free := by
  rw [(s.auditLog_logged o kind a b c d).rest]
@[simp] theorem State.auditLog_resp (s : State) (o : Origin) (kind : AuditKind) (a b c d : Nat) : (s.auditLog o kind a b c d).resp = s.resp := by
  rw [(s.auditLog_logged o kind a b c d).rest]
@[simp] theorem State.auditLog_timeLatch (s : State) (o : Origin) (kind : AuditKind) (a b c d : Nat) : (s.auditLog o kind a b c d).timeLatch = s.timeLatch := by
  rw [(s.auditLog_logged o kind a b c d).rest]
@[simp] theorem State.auditLog_tacks (s : State) (o : Origin) (kind : AuditKind) (a b c d : Nat) : (s.auditLog o kind a b c d).tacks = s.tacks := by
  rw [(s.auditLog_logged o kind a b c d).rest]
@[simp] theorem State.auditLog_fsync (s : State) (o : Origin) (kind : AuditKind) (a b c d : Nat) : (s.auditLog o kind a b c d).fsync = s.fsync := by
  rw [(s.auditLog_logged o kind a b c d).rest]
@[simp] theorem State.auditLog_alw (s : State) (o : Origin) (kind : AuditKind) (a b c d : Nat) : (s.auditLog o kind a b c d).alw = s.alw := by
  rw [(s.auditLog_logged o kind a b c d).rest]
@[simp] theorem State.auditLog_memst (s : State) (o : Origin) (kind : AuditKind) (a b c d : Nat) : (s.auditLog o kind a b c d).memst = s.memst := by
  rw [(s.auditLog_logged o kind a b c d).rest]
@[simp] theorem State.auditLog_bridge (s : State) (o : Origin) (kind : AuditKind) (a b c d : Nat) : (s.auditLog o kind a b c d).bridge = s.bridge := by
  rw [(s.auditLog_logged o kind a b c d).rest]
@[simp] theorem State.auditLog_safe (s : State) (o : Origin) (kind : AuditKind) (a b c d : Nat) : (s.auditLog o kind a b c d).safe = s.safe := by
  rw [(s.auditLog_logged o kind a b c d).rest]
@[simp] theorem State.auditLog_knots (s : State) (o : Origin) (kind : AuditKind) (a b c d : Nat) : (s.auditLog o kind a b c d).knots = s.knots := by
  rw [(s.auditLog_logged o kind a b c d).rest]
@[simp] theorem State.auditLog_rings (s : State) (o : Origin) (kind : AuditKind) (a b c d : Nat) : (s.auditLog o kind a b c d).rings = s.rings := by
  rw [(s.auditLog_logged o kind a b c d).rest]
@[simp] theorem State.auditLog_jobs (s : State) (o : Origin) (kind : AuditKind) (a b c d : Nat) : (s.auditLog o kind a b c d).jobs = s.jobs := by
  rw [(s.auditLog_logged o kind a b c d).rest]
@[simp] theorem State.auditLog_cores (s : State) (o : Origin) (kind : AuditKind) (a b c d : Nat) : (s.auditLog o kind a b c d).cores = s.cores := by
  rw [(s.auditLog_logged o kind a b c d).rest]
@[simp] theorem State.auditLog_hot (s : State) (o : Origin) (kind : AuditKind) (a b c d : Nat) : (s.auditLog o kind a b c d).hot = s.hot := by
  rw [(s.auditLog_logged o kind a b c d).rest]
@[simp] theorem State.auditLog_tiles (s : State) (o : Origin) (kind : AuditKind) (a b c d : Nat) : (s.auditLog o kind a b c d).tiles = s.tiles := by
  rw [(s.auditLog_logged o kind a b c d).rest]
@[simp] theorem State.auditLog_sched (s : State) (o : Origin) (kind : AuditKind) (a b c d : Nat) : (s.auditLog o kind a b c d).sched = s.sched := by
  rw [(s.auditLog_logged o kind a b c d).rest]
@[simp] theorem State.auditLog_regions (s : State) (o : Origin) (kind : AuditKind) (a b c d : Nat) : (s.auditLog o kind a b c d).regions = s.regions := by
  rw [(s.auditLog_logged o kind a b c d).rest]
@[simp] theorem State.auditLog_chans (s : State) (o : Origin) (kind : AuditKind) (a b c d : Nat) : (s.auditLog o kind a b c d).chans = s.chans := by
  rw [(s.auditLog_logged o kind a b c d).rest]
@[simp] theorem State.auditLog_encoder (s : State) (o : Origin) (kind : AuditKind) (a b c d : Nat) : (s.auditLog o kind a b c d).encoder = s.encoder := by
  rw [(s.auditLog_logged o kind a b c d).rest]
@[simp] theorem State.auditLog_fusion (s : State) (o : Origin) (kind : AuditKind) (a b c d : Nat) : (s.auditLog o kind a b c d).fusion = s.fusion := by
  rw [(s.auditLog_logged o kind a b c d).rest]
@[simp] theorem State.auditLog_display (s : State) (o : Origin) (kind : AuditKind) (a b c d : Nat) : (s.auditLog o kind a b c d).display = s.display := by
  rw [(s.auditLog_logged o kind a b c d).rest]
@[simp] theorem State.auditLog_seals (s : State) (o : Origin) (kind : AuditKind) (a b c d : Nat) : (s.auditLog o kind a b c d).seals = s.seals := by
  rw [(s.auditLog_logged o kind a b c d).rest]
@[simp] theorem State.auditLog_checkers (s : State) (o : Origin) (kind : AuditKind) (a b c d : Nat) : (s.auditLog o kind a b c d).checkers = s.checkers := by
  rw [(s.auditLog_logged o kind a b c d).rest]
@[simp] theorem State.auditLog_darn (s : State) (o : Origin) (kind : AuditKind) (a b c d : Nat) : (s.auditLog o kind a b c d).darn = s.darn := by
  rw [(s.auditLog_logged o kind a b c d).rest]
@[simp] theorem State.auditLog_watch (s : State) (o : Origin) (kind : AuditKind) (a b c d : Nat) : (s.auditLog o kind a b c d).watch = s.watch := by
  rw [(s.auditLog_logged o kind a b c d).rest]
@[simp] theorem State.auditLog_trust (s : State) (o : Origin) (kind : AuditKind) (a b c d : Nat) : (s.auditLog o kind a b c d).trust = s.trust := by
  rw [(s.auditLog_logged o kind a b c d).rest]
@[simp] theorem State.auditLog_insts (s : State) (o : Origin) (kind : AuditKind) (a b c d : Nat) : (s.auditLog o kind a b c d).insts = s.insts := by
  rw [(s.auditLog_logged o kind a b c d).rest]
@[simp] theorem State.auditLog_journal (s : State) (o : Origin) (kind : AuditKind) (a b c d : Nat) : (s.auditLog o kind a b c d).journal = s.journal := by
  rw [(s.auditLog_logged o kind a b c d).rest]
@[simp] theorem State.auditLog_cwy (s : State) (o : Origin) (kind : AuditKind) (a b c d : Nat) : (s.auditLog o kind a b c d).cwy = s.cwy := by
  rw [(s.auditLog_logged o kind a b c d).rest]
@[simp] theorem State.auditLog_nets (s : State) (o : Origin) (kind : AuditKind) (a b c d : Nat) : (s.auditLog o kind a b c d).nets = s.nets := by
  rw [(s.auditLog_logged o kind a b c d).rest]
@[simp] theorem State.auditLog_epochs (s : State) (o : Origin) (kind : AuditKind) (a b c d : Nat) : (s.auditLog o kind a b c d).epochs = s.epochs := by
  rw [(s.auditLog_logged o kind a b c d).rest]
@[simp] theorem State.auditLog_pending (s : State) (o : Origin) (kind : AuditKind) (a b c d : Nat) : (s.auditLog o kind a b c d).pending = s.pending := by
  rw [(s.auditLog_logged o kind a b c d).rest]
@[simp] theorem State.auditLog_sys_up (s : State) (o : Origin) (kind : AuditKind) (a b c d : Nat) : (s.auditLog o kind a b c d).sys.up = s.sys.up := by
  rw [(s.auditLog_logged o kind a b c d).rest]
@[simp] theorem State.auditLog_sys_resetN (s : State) (o : Origin) (kind : AuditKind) (a b c d : Nat) : (s.auditLog o kind a b c d).sys.resetN = s.sys.resetN := by
  rw [(s.auditLog_logged o kind a b c d).rest]
@[simp] theorem State.auditLog_sys_pwrok (s : State) (o : Origin) (kind : AuditKind) (a b c d : Nat) : (s.auditLog o kind a b c d).sys.pwrok = s.sys.pwrok := by
  rw [(s.auditLog_logged o kind a b c d).rest]
@[simp] theorem State.auditLog_sys_coreLow (s : State) (o : Origin) (kind : AuditKind) (a b c d : Nat) : (s.auditLog o kind a b c d).sys.coreLow = s.sys.coreLow := by
  rw [(s.auditLog_logged o kind a b c d).rest]
@[simp] theorem State.auditLog_sys_dramLow (s : State) (o : Origin) (kind : AuditKind) (a b c d : Nat) : (s.auditLog o kind a b c d).sys.dramLow = s.sys.dramLow := by
  rw [(s.auditLog_logged o kind a b c d).rest]
@[simp] theorem State.auditLog_sys_tripped (s : State) (o : Origin) (kind : AuditKind) (a b c d : Nat) : (s.auditLog o kind a b c d).sys.tripped = s.sys.tripped := by
  rw [(s.auditLog_logged o kind a b c d).rest]
@[simp] theorem State.auditLog_sys_alive (s : State) (o : Origin) (kind : AuditKind) (a b c d : Nat) : (s.auditLog o kind a b c d).sys.alive = s.sys.alive := by
  rw [(s.auditLog_logged o kind a b c d).rest]
@[simp] theorem State.auditLog_sys_rateRaised (s : State) (o : Origin) (kind : AuditKind) (a b c d : Nat) : (s.auditLog o kind a b c d).sys.rateRaised = s.sys.rateRaised := by
  rw [(s.auditLog_logged o kind a b c d).rest]
@[simp] theorem State.auditLog_sys_slips (s : State) (o : Origin) (kind : AuditKind) (a b c d : Nat) : (s.auditLog o kind a b c d).sys.slips = s.sys.slips := by
  rw [(s.auditLog_logged o kind a b c d).rest]

end Sys2Proof.Machine
end

