-- ==== Sys2Proof/Laws/Words.lean ====
section
/-! SUPPORT. Reading after writing: fields of words, registers, bytes of memory, poison. -/

namespace Sys2Proof.Machine

/-! ### Fields -/

theorem Fld.of_lt (f : Fld) (w : Word) : f.of w < 2 ^ f.width := Nat.mod_lt _ (Nat.two_pow_pos _)

/-- A number split at a field: what lies above, the field, what lies below. -/
theorem split_at (n lo wd : Nat) :
    n = n / 2 ^ (lo + wd) * 2 ^ (lo + wd) + n / 2 ^ lo % 2 ^ wd * 2 ^ lo + n % 2 ^ lo := by
  have h1 := Nat.div_add_mod n (2 ^ lo)
  have h2 := Nat.div_add_mod (n / 2 ^ lo) (2 ^ wd)
  rw [Nat.div_div_eq_div_mul, ← Nat.pow_add] at h2
  have h3 : n / 2 ^ lo * 2 ^ lo = n / 2 ^ (lo + wd) * 2 ^ (lo + wd) + n / 2 ^ lo % 2 ^ wd * 2 ^ lo := by
    calc n / 2 ^ lo * 2 ^ lo = (2 ^ wd * (n / 2 ^ (lo + wd)) + n / 2 ^ lo % 2 ^ wd) * 2 ^ lo := by rw [h2]
      _ = _ := by rw [Nat.pow_add]; grind
  rw [← h3, Nat.mul_comm]
  exact h1.symm

/-- The number that a replaced field leaves. -/
theorem Fld.put_toNat (f : Fld) (w : Word) (v : Nat) (hf : f.lo + f.width ≤ 64) :
    (f.put w v).toNat = w.toNat / 2 ^ (f.lo + f.width) * 2 ^ (f.lo + f.width) + v % 2 ^ f.width * 2 ^ f.lo + w.toNat % 2 ^ f.lo := by
  have hs := split_at w.toNat f.lo f.width
  have hv : v % 2 ^ f.width * 2 ^ f.lo + w.toNat % 2 ^ f.lo < 2 ^ (f.lo + f.width) := by
    have h1 : v % 2 ^ f.width < 2 ^ f.width := Nat.mod_lt _ (Nat.two_pow_pos _)
    have h2 : w.toNat % 2 ^ f.lo < 2 ^ f.lo := Nat.mod_lt _ (Nat.two_pow_pos _)
    have h3 : (v % 2 ^ f.width + 1) * 2 ^ f.lo ≤ 2 ^ f.width * 2 ^ f.lo := Nat.mul_le_mul_right _ h1
    rw [Nat.add_mul, Nat.one_mul] at h3
    rw [Nat.add_comm f.lo, Nat.pow_add]
    omega
  have hh : w.toNat / 2 ^ (f.lo + f.width) * 2 ^ (f.lo + f.width) + 2 ^ (f.lo + f.width) ≤ 2 ^ 64 := by
    have hw : w.toNat < 2 ^ 64 := w.isLt
    have hp : 2 ^ (64 - (f.lo + f.width)) * 2 ^ (f.lo + f.width) = 2 ^ 64 := by
      rw [← Nat.pow_add]
      congr 1
      omega
    have hq : w.toNat / 2 ^ (f.lo + f.width) < 2 ^ (64 - (f.lo + f.width)) := by
      rw [Nat.div_lt_iff_lt_mul (Nat.two_pow_pos _), hp]
      exact hw
    have h4 : (w.toNat / 2 ^ (f.lo + f.width) + 1) * 2 ^ (f.lo + f.width) ≤ 2 ^ (64 - (f.lo + f.width)) * 2 ^ (f.lo + f.width) :=
      Nat.mul_le_mul_right _ hq
    rw [Nat.add_mul, Nat.one_mul, hp] at h4
    exact h4
  simp only [Fld.put, Fld.of, BitVec.toNat_ofNat]
  rw [Nat.mod_eq_of_lt]
  · omega
  · omega

/-- Reading the field just replaced. -/
theorem Fld.of_put (f : Fld) (w : Word) (v : Nat) (hf : f.lo + f.width ≤ 64) : f.of (f.put w v) = v % 2 ^ f.width := by
  have h2 : w.toNat % 2 ^ f.lo < 2 ^ f.lo := Nat.mod_lt _ (Nat.two_pow_pos _)
  rw [Fld.of, f.put_toNat w v hf, Nat.pow_add]
  have : w.toNat / (2 ^ f.lo * 2 ^ f.width) * (2 ^ f.lo * 2 ^ f.width) + v % 2 ^ f.width * 2 ^ f.lo + w.toNat % 2 ^ f.lo =
      w.toNat % 2 ^ f.lo + 2 ^ f.lo * (w.toNat / (2 ^ f.lo * 2 ^ f.width) * 2 ^ f.width + v % 2 ^ f.width) := by grind
  rw [this, Nat.add_mul_div_left _ _ (Nat.two_pow_pos _), Nat.div_eq_of_lt h2, Nat.zero_add, Nat.mul_add_mod_self_right, Nat.mod_mod]

/-- A field that lies above or below the replaced one reads as before. -/
theorem Fld.of_put_disjoint (f g : Fld) (w : Word) (v : Nat) (hf : f.lo + f.width ≤ 64) (h : g.lo + g.width ≤ f.lo ∨ f.lo + f.width ≤ g.lo) :
    g.of (f.put w v) = g.of w := by
  have hs := split_at w.toNat f.lo f.width
  have h2 : w.toNat % 2 ^ f.lo < 2 ^ f.lo := Nat.mod_lt _ (Nat.two_pow_pos _)
  have hv : v % 2 ^ f.width * 2 ^ f.lo + w.toNat % 2 ^ f.lo < 2 ^ (f.lo + f.width) := by
    have h1 : v % 2 ^ f.width < 2 ^ f.width := Nat.mod_lt _ (Nat.two_pow_pos _)
    have h3 : (v % 2 ^ f.width + 1) * 2 ^ f.lo ≤ 2 ^ f.width * 2 ^ f.lo := Nat.mul_le_mul_right _ h1
    rw [Nat.add_mul, Nat.one_mul] at h3
    rw [Nat.add_comm f.lo, Nat.pow_add]
    omega
  simp only [Fld.of]
  rcases h with h | h
  · have key : (f.put w v).toNat % 2 ^ f.lo = w.toNat % 2 ^ f.lo := by
      rw [f.put_toNat w v hf, Nat.pow_add]
      have : w.toNat / (2 ^ f.lo * 2 ^ f.width) * (2 ^ f.lo * 2 ^ f.width) + v % 2 ^ f.width * 2 ^ f.lo + w.toNat % 2 ^ f.lo =
          w.toNat % 2 ^ f.lo + 2 ^ f.lo * (w.toNat / (2 ^ f.lo * 2 ^ f.width) * 2 ^ f.width + v % 2 ^ f.width) := by grind
      rw [this, Nat.add_mul_mod_self_left, Nat.mod_mod]
    have low : ∀ n : Nat, n / 2 ^ g.lo % 2 ^ g.width = n % 2 ^ f.lo / 2 ^ g.lo % 2 ^ g.width := by
      intro n
      obtain ⟨d, hd⟩ := Nat.exists_eq_add_of_le h
      have e1 : n % 2 ^ f.lo / 2 ^ g.lo = n / 2 ^ g.lo % 2 ^ (g.width + d) := by
        rw [hd, Nat.add_assoc, Nat.pow_add, Nat.mod_mul_right_div_self]
      rw [e1, Nat.pow_add, Nat.mod_mul_right_mod]
    rw [low, key, ← low]
  · have key : (f.put w v).toNat / 2 ^ (f.lo + f.width) = w.toNat / 2 ^ (f.lo + f.width) := by
      rw [f.put_toNat w v hf, Nat.add_assoc, Nat.mul_comm, Nat.mul_add_div (Nat.two_pow_pos _), Nat.div_eq_of_lt hv, Nat.add_zero]
    have hi : ∀ n : Nat, n / 2 ^ g.lo = n / 2 ^ (f.lo + f.width) / 2 ^ (g.lo - (f.lo + f.width)) := by
      intro n
      rw [Nat.div_div_eq_div_mul, ← Nat.pow_add]
      congr 2
      omega
    rw [hi, key, ← hi]

/-! ### Registers -/

theorem State.reg_setReg {s : State} {k : Nat} {w : Word} (h : Sparse.wf RegMap.reset s.regs = true) : (s.setReg k w).reg k = w :=
  Sparse.get_put_same h

theorem State.reg_setReg_other {s : State} {j k : Nat} {w : Word} (h : Sparse.wf RegMap.reset s.regs = true) (hj : j ≠ k) :
    (s.setReg k w).reg j = s.reg j := Sparse.get_put_other hj h

theorem State.regs_wf_setReg {s : State} {k : Nat} {w : Word} (h : Sparse.wf RegMap.reset s.regs = true) :
    Sparse.wf RegMap.reset (s.setReg k w).regs = true := Sparse.wf_put h

theorem State.fld_setFld {s : State} {k : Nat} {f : Fld} {v : Nat} (h : Sparse.wf RegMap.reset s.regs = true) (hf : f.lo + f.width ≤ 64) :
    (s.setFld k f v).fld k f = v % 2 ^ f.width := by
  unfold State.fld State.setFld
  rw [State.reg_setReg h, Fld.of_put f _ v hf]

theorem State.fld_setFld_other {s : State} {j k : Nat} {f g : Fld} {v : Nat} (h : Sparse.wf RegMap.reset s.regs = true) (hj : j ≠ k) :
    (s.setFld k f v).fld j g = s.fld j g := by
  unfold State.fld State.setFld
  rw [State.reg_setReg_other h hj]

theorem State.fld_setFld_disjoint {s : State} {k : Nat} {f g : Fld} {v : Nat} (h : Sparse.wf RegMap.reset s.regs = true)
    (hf : f.lo + f.width ≤ 64) (hd : g.lo + g.width ≤ f.lo ∨ f.lo + f.width ≤ g.lo) : (s.setFld k f v).fld k g = s.fld k g := by
  unfold State.fld State.setFld
  rw [State.reg_setReg h, Fld.of_put_disjoint f g _ v hf hd]

/-! ### Memory and poison -/

theorem Memory.wf_write {m : Memory} {a : Nat} {bs : List Byte} (h : Memory.wf m = true) : Memory.wf (Memory.write m a bs) = true := by
  induction bs generalizing m a with
  | nil => exact h
  | cons b bs ih => exact ih (Sparse.wf_put h)

/-- A byte outside the written range reads as before. -/
theorem Memory.get_write_other {m : Memory} {a x : Nat} {bs : List Byte} (h : Memory.wf m = true) (hx : x < a ∨ a + bs.length ≤ x) :
    Sparse.get Memory.blank x (Memory.write m a bs) = Sparse.get Memory.blank x m := by
  induction bs generalizing m a with
  | nil => rfl
  | cons b bs ih =>
    simp only [List.length_cons] at hx
    rw [Memory.write, ih (Sparse.wf_put h) (by omega), Sparse.get_put_other (by omega) h]

/-- A byte of the written range reads as the byte written. -/
theorem Memory.get_write {m : Memory} {a i : Nat} {bs : List Byte} (h : Memory.wf m = true) (hi : i < bs.length) :
    Sparse.get Memory.blank (a + i) (Memory.write m a bs) = bs[i] := by
  induction bs generalizing m a i with
  | nil => simp at hi
  | cons b bs ih =>
    rw [Memory.write]
    cases i with
    | zero =>
      rw [Memory.get_write_other (Sparse.wf_put h) (by omega)]
      simp [Sparse.get_put_same h]
    | succ i =>
      have e : a + (i + 1) = a + 1 + i := by omega
      rw [e, ih (Sparse.wf_put h) (by simpa using hi)]
      simp

theorem State.readByte_writeBytes {s : State} {a i : Nat} {bs : List Byte} (h : Memory.wf s.mem = true) (hi : i < bs.length) :
    (s.writeBytes a bs).readByte (a + i) = bs[i] := Memory.get_write h hi

theorem State.readByte_writeBytes_other {s : State} {a x : Nat} {bs : List Byte} (h : Memory.wf s.mem = true) (hx : x < a ∨ a + bs.length ≤ x) :
    (s.writeBytes a bs).readByte x = s.readByte x := Memory.get_write_other h hx

/-- Reading back a written range. -/
theorem State.readBytes_writeBytes {s : State} {a : Nat} {bs : List Byte} (h : Memory.wf s.mem = true) :
    (s.writeBytes a bs).readBytes a bs.length = bs := by
  have key : ∀ (t : State) (n b : Nat) (l : List Byte), l.length = n → (∀ i (hi : i < l.length), t.readByte (b + i) = l[i]) →
      t.readBytes b n = l := by
    intro t n
    induction n with
    | zero =>
      intro b l hl _
      rw [List.length_eq_zero_iff.mp hl]
      rfl
    | succ n ih =>
      intro b l hl hb
      cases l with
      | nil => simp at hl
      | cons x l =>
        rw [State.readBytes, ih (b + 1) l (by simpa using hl)]
        · have := hb 0 (by simp)
          simp only [Nat.add_zero, List.getElem_cons_zero] at this
          rw [this]
        · intro i hi
          have := hb (i + 1) (by simpa using hi)
          rw [show b + 1 + i = b + (i + 1) by omega, this]
          simp
  exact key _ _ _ _ rfl (fun i hi => State.readByte_writeBytes h hi)

theorem Sparse.get_putAll {α : Type} [DecidableEq α] {d : Nat → α} {ks : List Nat} {v : α} {m : Sparse α} {j : Nat}
    (h : Sparse.wf d m = true) : Sparse.get d j (Sparse.putAll d ks v m) = if j ∈ ks then v else Sparse.get d j m := by
  induction ks generalizing m with
  | nil => simp [Sparse.putAll]
  | cons k ks ih =>
    have e : Sparse.putAll d (k :: ks) v m = Sparse.putAll d ks v (Sparse.put d k v m) := rfl
    rw [e, ih (Sparse.wf_put h)]
    by_cases hj : j ∈ ks
    · simp [hj]
    · by_cases hk : j = k
      · subst hk
        simp [hj, Sparse.get_put_same h]
      · simp [hj, hk, Sparse.get_put_other hk h]

end Sys2Proof.Machine
end

