-- ==== Sys2Proof/Laws/Advances.lean ====
section
/-! SUPPORT. From a state in which the invariant holds, what advances to: a state in which it holds, with nothing taken back. -/

namespace Sys2Proof.Machine

/-- From a state in which the invariant holds: it holds after, nothing is taken back, and the queue is the same. -/
structure State.Advances (b t : State) : Prop where
  holds : b.Inv → t.Inv ∧ b.Guarded t

/-- The state of a pair advances. -/
structure State.AdvancesP {α : Type} (b : State) (p : State × α) : Prop where
  fst : b.Advances p.1

/-- Every next state advances. -/
structure State.AdvancesR (b : State) (r : Host.Outcome State Fault Refusal) : Prop where
  next : ∀ t, r = .next t → b.Advances t

/-- The state of an option advances. -/
structure State.AdvancesO (b : State) (o : Option State) : Prop where
  get : ∀ t, o = some t → b.Advances t

/-- Every next state of an outcome there is advances. -/
structure State.AdvancesN (b : State) (o : Option (Host.Outcome State Fault Refusal)) : Prop where
  get : ∀ r, o = some r → b.AdvancesR r

variable {α β : Type} {b s t u : State}

theorem State.Guarded.refl (s : State) : s.Guarded s := ⟨fun _ => Nat.le_refl _, fun _ => Nat.le_refl _, Nat.le_refl _, Nat.le_refl _, rfl⟩

theorem State.Guarded.trans (h : s.Guarded t) (g : t.Guarded u) : s.Guarded u :=
  ⟨fun k => Nat.le_trans (h.floors k) (g.floors k), fun k => Nat.le_trans (h.epochs k) (g.epochs k), Nat.le_trans h.boots g.boots,
    Nat.le_trans h.seq g.seq, g.queue.trans h.queue⟩

theorem State.Advances.refl (s : State) : s.Advances s := ⟨fun h => ⟨h, .refl s⟩⟩

theorem State.Advances.trans (h : s.Advances t) (g : t.Advances u) : s.Advances u :=
  ⟨fun i => let ⟨j, x⟩ := h.holds i; let ⟨k, y⟩ := g.holds j; ⟨k, x.trans y⟩⟩

theorem State.Advances.ite {c : Prop} [Decidable c] (h : c → b.Advances s) (g : ¬ c → b.Advances t) : b.Advances (if c then s else t) := by
  split <;> simp [*]

theorem State.AdvancesP.ite {c : Prop} [Decidable c] {p q : State × α} (h : c → b.AdvancesP p) (g : ¬ c → b.AdvancesP q) :
    b.AdvancesP (if c then p else q) := by split <;> simp [*]

theorem State.AdvancesR.ite {c : Prop} [Decidable c] {p q : Host.Outcome State Fault Refusal} (h : c → b.AdvancesR p) (g : ¬ c → b.AdvancesR q) :
    b.AdvancesR (if c then p else q) := by split <;> simp [*]

theorem State.AdvancesP.mk' {x : α} (h : b.Advances s) : b.AdvancesP (s, x) := ⟨h⟩

theorem State.AdvancesR.mk' (h : b.Advances s) : b.AdvancesR (.next s) := ⟨fun _ e => by cases e; exact h⟩

theorem State.AdvancesO.mk' (h : b.Advances s) : b.AdvancesO (some s) := ⟨fun _ e => by cases e; exact h⟩

theorem State.AdvancesO.ofNone : b.AdvancesO none := ⟨fun _ e => by cases e⟩

theorem State.AdvancesO.ite {c : Prop} [Decidable c] {p q : Option State} (h : c → b.AdvancesO p) (g : ¬ c → b.AdvancesO q) :
    b.AdvancesO (if c then p else q) := by split <;> simp [*]

theorem State.AdvancesN.mk' {r : Host.Outcome State Fault Refusal} (h : b.AdvancesR r) : b.AdvancesN (some r) := ⟨fun _ e => by cases e; exact h⟩

theorem State.AdvancesN.ofNone : b.AdvancesN none := ⟨fun _ e => by cases e⟩

theorem State.AdvancesN.ite {c : Prop} [Decidable c] {p q : Option (Host.Outcome State Fault Refusal)} (h : c → b.AdvancesN p)
    (g : ¬ c → b.AdvancesN q) : b.AdvancesN (if c then p else q) := by split <;> simp [*]

theorem State.AdvancesR.of {r : Host.Outcome State Fault Refusal} (h : b.AdvancesR r) (e : r = .next s) : b.Advances s := h.next s e

theorem State.AdvancesR.ofSome {o : Option (Host.Outcome State Fault Refusal)} {r : Host.Outcome State Fault Refusal} (h : b.AdvancesN o)
    (e : o = some r) : b.AdvancesR r := h.get r e

theorem State.AdvancesP.of {p : State × α} {x : α} (h : b.AdvancesP p) (e : p = (s, x)) : b.Advances s := by
  have := h.fst; rwa [e] at this

theorem State.Advances.foldlSnd {f : α × State → β → α × State} {l : List β} {p : α × State} (h : b.Advances p.2)
    (hf : ∀ a x, b.Advances a.2 → b.Advances (f a x).2) : b.Advances (l.foldl f p).2 := by
  induction l generalizing p with
  | nil => exact h
  | cons x l ih => exact ih (hf _ _ h)

theorem State.Advances.ofMk {x : α} (h : b.AdvancesP (s, x)) : b.Advances s := h.fst

theorem State.Advances.ofSnd {p : α × State} {x : α} (h : b.Advances p.2) (e : p = (x, s)) : b.Advances s := by rwa [e] at h

theorem State.AdvancesO.of {o : Option State} (h : b.AdvancesO o) (e : o = Option.some s) : b.Advances s := h.get s e

theorem State.AdvancesO.getD {o : Option State} (h : b.AdvancesO o) (g : b.Advances s) : b.Advances (o.getD s) := by
  cases o with
  | none => exact g
  | some t => exact h.get t rfl

theorem State.AdvancesR.refused (r : Refusal) : b.AdvancesR (.refused r) := ⟨fun _ e => by cases e⟩

theorem State.Advances.foldl {f : State → β → State} {l : List β} (h : b.Advances s) (hf : ∀ a x, b.Advances a → b.Advances (f a x)) :
    b.Advances (l.foldl f s) := by
  induction l generalizing s with
  | nil => exact h
  | cons x l ih => exact ih (hf _ _ h)

theorem State.AdvancesP.foldl {f : State × α → β → State × α} {l : List β} {p : State × α} (h : b.AdvancesP p)
    (hf : ∀ a x, b.AdvancesP a → b.AdvancesP (f a x)) : b.AdvancesP (l.foldl f p) := by
  induction l generalizing p with
  | nil => exact h
  | cons x l ih => exact ih (hf _ _ h)

theorem State.Advances.setReg (h : b.Advances s) (k : Nat) (w : Word) : b.Advances (s.setReg k w) :=
  h.trans ⟨fun i => ⟨⟨State.regs_wf_setReg i.regs, i.mem, i.poison, i.knots, i.epochs, i.floors, i.top⟩, ⟨fun _ => Nat.le_refl _, fun _ => Nat.le_refl _, Nat.le_refl _, Nat.le_refl _, rfl⟩⟩⟩

theorem State.Advances.writeBytes (h : b.Advances s) (a : Nat) (bs : List Byte) : b.Advances (s.writeBytes a bs) :=
  h.trans ⟨fun i => ⟨⟨i.regs, Memory.wf_write i.mem, Sparse.wf_putAll i.poison, i.knots, i.epochs, i.floors, i.top⟩, ⟨fun _ => Nat.le_refl _, fun _ => Nat.le_refl _, Nat.le_refl _, Nat.le_refl _, rfl⟩⟩⟩

theorem State.Advances.setPoison (h : b.Advances s) (a n : Nat) : b.Advances (s.setPoison a n) :=
  h.trans ⟨fun i => ⟨⟨i.regs, i.mem, Sparse.wf_putAll i.poison, i.knots, i.epochs, i.floors, i.top⟩, ⟨fun _ => Nat.le_refl _, fun _ => Nat.le_refl _, Nat.le_refl _, Nat.le_refl _, rfl⟩⟩⟩

theorem State.Advances.putKnot (h : b.Advances s) (k v : Nat) : b.Advances { s with knots := Sparse.put (fun _ => 0) k v s.knots } :=
  h.trans ⟨fun i => ⟨⟨i.regs, i.mem, i.poison, Sparse.wf_put i.knots, i.epochs, i.floors, i.top⟩, ⟨fun _ => Nat.le_refl _, fun _ => Nat.le_refl _, Nat.le_refl _, Nat.le_refl _, rfl⟩⟩⟩

theorem State.Advances.clearPoison (h : b.Advances s) (ks : List Nat) (v : Bool) :
    b.Advances { s with poison := Sparse.putAll (fun _ => false) ks v s.poison } :=
  h.trans ⟨fun i => ⟨⟨i.regs, i.mem, Sparse.wf_putAll i.poison, i.knots, i.epochs, i.floors, i.top⟩, ⟨fun _ => Nat.le_refl _, fun _ => Nat.le_refl _, Nat.le_refl _, Nat.le_refl _, rfl⟩⟩⟩

/-- Poison that is dropped leaves the rest in its canonical form. -/
theorem State.Advances.filterPoison (h : b.Advances s) (p : Nat × Bool → Bool) : b.Advances { s with poison := s.poison.filter p } :=
  h.trans ⟨fun i => ⟨⟨i.regs, i.mem, Sparse.wf_filter i.poison, i.knots, i.epochs, i.floors, i.top⟩, ⟨fun _ => Nat.le_refl _, fun _ => Nat.le_refl _, Nat.le_refl _, Nat.le_refl _, rfl⟩⟩⟩

/-- Fields that hold nothing that the invariant speaks of take any value. -/
theorem State.Advances.upd (h : b.Advances s) (time : BitVec 96) (far : Sparse Byte) (free : Nat) (resp : Resp) (out : List Emit) (sys :
    Sys) (audit : Audit) (timeLatch : Sparse Nat) (tacks : Sparse Tack) (tackTick : TackTick) (fsync : Sparse FsyncPin) (alw : Alw) (memst
    : MemStack) (bridge : Bridge) (safe : Safe) (rings : Sparse Ring) (jobs : List Job) (cores : Sparse Core) (hot : Sparse HotEntry)
    (tiles : List SharedTile) (sched : Sched) (regions : Sparse (List (Nat × List Byte))) (chans : Sparse Chan) (encoder : Encoder)
    (fusion : Fusion) (display : Display) (seals : List SealTask) (checkers : Checkers) (darn : Darn) (watch : Watch) (trust : Trust)
    (insts : Insts) (journal : Journal) (cwy : Cwy) (nets : Nets) (ht : trust.store = s.trust.store) (hj : s.journal.seq ≤ journal.seq) :
    b.Advances (State.mk time s.regs s.mem s.poison far free resp out sys audit timeLatch tacks tackTick fsync alw memst bridge safe
    s.knots rings jobs cores hot tiles sched regions chans encoder fusion display seals checkers darn watch trust insts journal cwy nets
    s.epochs s.pending) := by
  obtain ⟨hh⟩ := h
  refine ⟨fun i => ?_⟩
  obtain ⟨x, y⟩ := hh i
  refine ⟨⟨x.regs, x.mem, x.poison, x.knots, x.epochs, ?_, x.top⟩, ⟨?_, y.epochs, ?_, Nat.le_trans y.seq hj, y.queue⟩⟩
  · show Sparse.wf (fun _ => 0) trust.store.floors = true
    rw [ht]; exact x.floors
  · intro k
    show b.floor k ≤ Sparse.get (fun _ => 0) k trust.store.floors
    rw [ht]; exact y.floors k
  · show b.trust.store.boots ≤ trust.store.boots
    rw [ht]; exact y.boots

end Sys2Proof.Machine
end

