-- ==== Sys2Proof/Laws/AdvancesCore.lean ====
section
/-! SUPPORT. One lemma per function: from a state in which the invariant holds it advances (counting, events, the audit log, register access, the bridge, knots, links and the allowance). -/

namespace Sys2Proof.Machine

/-! ### Ops -/

theorem State.setFld_advances {s₀ s : State} (hs : s₀.Advances s) (k : Nat) (f : Fld) (v : Nat) : s₀.Advances (State.setFld s k f v) := by
  unfold State.setFld
  repeat' with_reducible first | assumption | apply State.Advances.setReg

theorem State.setBit_advances {s₀ s : State} (hs : s₀.Advances s) (k : Nat) (b : Nat) (v : Bool) : s₀.Advances (State.setBit s k b v)
    := by
  unfold State.setBit
  repeat' with_reducible first | assumption | apply State.setFld_advances

theorem State.takeFree_advances {s₀ s : State} (hs : s₀.Advances s) : s₀.Advances (State.takeFree s).2 := by
  unfold State.takeFree
  repeat' with_reducible first | assumption | exact .refl _ | exact Nat.le_refl _ | apply State.Advances.upd

theorem State.tick_advances {s₀ s : State} (hs : s₀.Advances s) : s₀.Advances (State.tick s) := by
  unfold State.tick
  repeat' with_reducible first
    | assumption | exact .refl _ | apply State.Advances.ite | apply State.takeFree_advances
    | (refine State.Advances.ofSnd ?_ (by assumption)) | (intro _) | split | exact Nat.le_refl _ | apply State.Advances.upd

theorem State.answer_advances {s₀ s : State} (hs : s₀.Advances s) (r : Resp) : s₀.Advances (State.answer s r) := by
  unfold State.answer
  repeat' with_reducible first | assumption | exact .refl _ | exact Nat.le_refl _ | apply State.Advances.upd

theorem State.emit_advances {s₀ s : State} (hs : s₀.Advances s) (e : Emit) : s₀.Advances (State.emit s e) := by
  unfold State.emit
  repeat' with_reducible first | assumption | exact .refl _ | exact Nat.le_refl _ | apply State.Advances.upd

theorem State.countOnly_advances {s₀ s : State} (hs : s₀.Advances s) (k : Nat) : s₀.AdvancesP (State.countOnly s k) := by
  unfold State.countOnly
  repeat' with_reducible first
    | assumption | apply State.AdvancesP.ite | apply State.setBit_advances | apply State.setFld_advances | (intro _) | split
    | apply State.AdvancesP.mk'

theorem State.evqPush_advances {s₀ s : State} (hs : s₀.Advances s) (d : Nat) (blk : Nat) (off : Nat) (unit : Nat) : s₀.Advances
    (State.evqPush s d blk off unit) := by
  unfold State.evqPush
  repeat' with_reducible first
    | assumption | apply State.Advances.ite | apply State.Advances.writeBytes | apply State.setFld_advances | apply State.emit_advances
    | (intro _)

theorem State.noteRim_advances {s₀ s : State} (hs : s₀.Advances s) (d : Nat) : s₀.Advances (State.noteRim s d) := by
  unfold State.noteRim
  repeat' with_reducible first | assumption | exact .refl _ | exact Nat.le_refl _ | apply State.Advances.upd

theorem State.deliver_advances {s₀ y1 : State} (hy1 : s₀.Advances y1) (y0 : Nat) (y2 : Nat) (y3 : Nat) (y4 : Nat) (y5 : Nat) : s₀.Advances
    (State.deliver y0 y1 y2 y3 y4 y5) := by
  induction y0 generalizing y1 y2 y3 y4 y5 hy1 with
  | zero =>
    unfold State.deliver
    repeat' with_reducible assumption
  | succ _ ih =>
    unfold State.deliver
    repeat' with_reducible first
      | assumption | apply State.Advances.ite | apply ih | apply State.setBit_advances | apply State.evqPush_advances
      | apply State.setFld_advances | apply State.countOnly_advances | apply State.noteRim_advances | apply State.Advances.foldl
      | apply State.AdvancesP.fst | (intro _) | split

theorem State.raise_advances {s₀ s : State} (hs : s₀.Advances s) (blk : Nat) (off : Nat) (unit : Nat) : s₀.Advances (State.raise s blk off
    unit) := by
  unfold State.raise
  repeat' with_reducible first
    | assumption | apply State.Advances.ite | apply State.deliver_advances | apply State.Advances.foldl | (intro _)

theorem State.setSat_advances {s₀ s : State} (hs : s₀.Advances s) (k : Nat) : s₀.Advances (State.setSat s k) := by
  unfold State.setSat
  repeat' with_reducible first | assumption | apply State.setBit_advances | split

theorem State.bump_advances {s₀ s : State} (hs : s₀.Advances s) (k : Nat) (unit : Nat) : s₀.Advances (State.bump s k unit) := by
  unfold State.bump
  repeat' with_reducible first
    | assumption | apply State.Advances.ite | apply State.setSat_advances | apply State.setFld_advances | apply State.raise_advances
    | (intro _)

theorem State.bumpN_advances {s₀ y1 : State} (hy1 : s₀.Advances y1) (y0 : Nat) (y2 : Nat) (y3 : Nat) : s₀.Advances (State.bumpN y0 y1 y2
    y3) := by
  induction y0 generalizing y1 y2 y3 hy1 with
  | zero =>
    unfold State.bumpN
    repeat' with_reducible assumption
  | succ _ ih =>
    unfold State.bumpN
    repeat' with_reducible first | assumption | apply ih | apply State.bump_advances

theorem State.bumpFld_advances {s₀ s : State} (hs : s₀.Advances s) (k : Nat) (f : Fld) : s₀.Advances (State.bumpFld s k f) := by
  unfold State.bumpFld
  repeat' with_reducible first | assumption | apply State.Advances.ite | apply State.setFld_advances | (intro _)

theorem State.refuse_advances {s₀ s : State} (hs : s₀.Advances s) : s₀.Advances (State.refuse s) := by
  unfold State.refuse
  repeat' with_reducible first | assumption | apply State.bump_advances | apply State.answer_advances

theorem State.refuseTo_advances {s₀ s : State} (hs : s₀.Advances s) (o : Origin) : s₀.Advances (State.refuseTo s o) := by
  unfold State.refuseTo
  repeat' with_reducible first | assumption | apply State.bump_advances | apply State.answer_advances

theorem State.rimRefuse_advances {s₀ s : State} (hs : s₀.Advances s) (d : Nat) : s₀.Advances (State.rimRefuse s d) := by
  unfold State.rimRefuse
  repeat' with_reducible first
    | assumption | apply State.Advances.ite | apply State.bump_advances | apply State.answer_advances | apply State.raise_advances
    | apply State.noteRim_advances | (intro _)

theorem State.dmaGate_advances {s₀ s : State} (hs : s₀.Advances s) (a : Nat) (n : Nat) (f : State → State) (hf : ∀ x0, s₀.Advances x0 →
    s₀.Advances (f x0)) : s₀.Advances (State.dmaGate s a n f) := by
  unfold State.dmaGate
  repeat' with_reducible first
    | assumption | apply State.Advances.ite | apply hf | apply State.refuse_advances | apply State.rimRefuse_advances | (intro _) | split

theorem State.noteSafe_advances {s₀ s : State} (hs : s₀.Advances s) (a : Nat) (n : Nat) : s₀.Advances (State.noteSafe s a n) := by
  unfold State.noteSafe
  repeat' with_reducible first
    | assumption | apply State.Advances.ite | apply State.refuse_advances | apply State.rimRefuse_advances | (intro _) | split

theorem State.noteRead_advances {s₀ s : State} (hs : s₀.Advances s) (p : Nat) (n : Nat) :
    s₀.Advances (State.noteRead s p n) := by
  unfold State.noteRead
  split
  · exact State.dmaGate_advances hs p n id (fun _ h => h)
  · exact hs

theorem State.noteReads_advances {s₀ s : State} (hs : s₀.Advances s) (l : List (Nat × Nat)) : s₀.Advances (State.noteReads s l) := by
  unfold State.noteReads
  repeat' with_reducible first | assumption | apply State.noteRead_advances | apply State.Advances.foldl | (intro _)

theorem State.countSlip_advances {s₀ s : State} (hs : s₀.Advances s) (d : Nat) : s₀.Advances (State.countSlip s d) := by
  unfold State.countSlip
  repeat' with_reducible first | assumption | exact .refl _ | exact Nat.le_refl _ | apply State.Advances.upd

theorem State.auditRefresh_advances {s₀ s : State} (hs : s₀.Advances s) : s₀.Advances (State.auditRefresh s) := by
  unfold State.auditRefresh
  repeat' with_reducible first | assumption | apply State.setFld_advances

theorem State.setChain_advances {s₀ s : State} (hs : s₀.Advances s) (c : BitVec 512) : s₀.Advances (State.setChain s c) := by
  unfold State.setChain
  repeat' with_reducible first | assumption | exact .refl _ | exact Nat.le_refl _ | apply State.Advances.upd

theorem State.raiseNear_advances {s₀ s : State} (hs : s₀.Advances s) : s₀.Advances (State.raiseNear s) := by
  unfold State.raiseNear
  repeat' with_reducible first | assumption | exact .refl _ | apply State.raise_advances | exact Nat.le_refl _ | apply State.Advances.upd

theorem State.auditPut_advances {s₀ s : State} (hs : s₀.Advances s) (o : Origin) (kind : AuditKind) (result : Nat) (flags : Nat)
    (target : Nat) (old : Nat) (new : Nat) : s₀.Advances (State.auditPut s o kind result flags target old new) := by
  unfold State.auditPut
  repeat' with_reducible first
    | assumption | apply State.Advances.ite | apply State.Advances.setReg | apply State.Advances.writeBytes
    | apply State.auditRefresh_advances | apply State.setChain_advances | apply State.raiseNear_advances | (intro _)

theorem State.auditAs_advances {s₀ s : State} (hs : s₀.Advances s) (o : Origin) (kind : AuditKind) (result : Nat) (flags : Nat)
    (target : Nat) (old : Nat) (new : Nat) : s₀.Advances (State.auditAs s o kind result flags target old new) := by
  unfold State.auditAs
  repeat' with_reducible first
    | assumption | exact .refl _ | apply State.Advances.ite | apply State.bump_advances | apply State.auditPut_advances | (intro _)
    | exact Nat.le_refl _ | apply State.Advances.upd

theorem State.auditLog_advances {s₀ s : State} (hs : s₀.Advances s) (o : Origin) (kind : AuditKind) (result : Nat) (target : Nat)
    (old : Nat) (new : Nat) : s₀.Advances (State.auditLog s o kind result target old new) := by
  unfold State.auditLog
  repeat' with_reducible first | assumption | apply State.auditAs_advances

theorem State.setTack_advances {s₀ s : State} (hs : s₀.Advances s) (i : Nat) (t : Tack) : s₀.Advances (State.setTack s i t) := by
  unfold State.setTack
  repeat' with_reducible first | assumption | exact .refl _ | exact Nat.le_refl _ | apply State.Advances.upd

theorem State.setCore_advances {s₀ s : State} (hs : s₀.Advances s) (n : Nat) (c : Core) : s₀.Advances (State.setCore s n c) := by
  unfold State.setCore
  repeat' with_reducible first | assumption | exact .refl _ | exact Nat.le_refl _ | apply State.Advances.upd

theorem State.modCore_advances {s₀ s : State} (hs : s₀.Advances s) (n : Nat) (f : Core → Core) : s₀.Advances (State.modCore s n f) := by
  unfold State.modCore
  repeat' with_reducible first | assumption | apply State.setCore_advances

theorem State.setRing_advances {s₀ s : State} (hs : s₀.Advances s) (n : Nat) (r : Ring) : s₀.Advances (State.setRing s n r) := by
  unfold State.setRing
  repeat' with_reducible first | assumption | exact .refl _ | exact Nat.le_refl _ | apply State.Advances.upd

theorem State.setHot_advances {s₀ s : State} (hs : s₀.Advances s) (i : Nat) (e : HotEntry) : s₀.Advances (State.setHot s i e) := by
  unfold State.setHot
  repeat' with_reducible first | assumption | exact .refl _ | exact Nat.le_refl _ | apply State.Advances.upd

theorem State.modJob_advances {s₀ s : State} (hs : s₀.Advances s) (ring : Nat) (seq : Nat) (f : Job → Job) : s₀.Advances (State.modJob s
    ring seq f) := by
  unfold State.modJob
  repeat' with_reducible first | assumption | exact .refl _ | exact Nat.le_refl _ | apply State.Advances.upd

theorem State.dropJob_advances {s₀ s : State} (hs : s₀.Advances s) (ring : Nat) (seq : Nat) : s₀.Advances (State.dropJob s ring seq) := by
  unfold State.dropJob
  repeat' with_reducible first | assumption | exact .refl _ | exact Nat.le_refl _ | apply State.Advances.upd

theorem State.whenUp_advances {s₀ s : State} (hs : s₀.Advances s) (f : State → State) (hf : ∀ x0, s₀.Advances x0 → s₀.Advances (f x0)) :
    s₀.AdvancesR (State.whenUp s f) := by
  unfold State.whenUp
  repeat' with_reducible first | assumption | apply State.Advances.ite | apply State.AdvancesR.mk' | apply hf | (intro _)

/-! ### Access -/

theorem State.setDomain_advances {s₀ s : State} (hs : s₀.Advances s) (d : Nat) (on : Bool) : s₀.Advances (State.setDomain s d on) := by
  unfold State.setDomain
  repeat' with_reducible first | assumption | apply State.setBit_advances

theorem State.clearSat_advances {s₀ s : State} (hs : s₀.Advances s) (k : Nat) : s₀.Advances (State.clearSat s k) := by
  unfold State.clearSat
  repeat' with_reducible first | assumption | apply State.Advances.ite | apply State.setBit_advances | (intro _) | split

theorem State.commitWrite_advances {s₀ s : State} (hs : s₀.Advances s) (o : Origin) (k : Nat) (w : Word) (result : Nat) : s₀.Advances
    (State.commitWrite s o k w result) := by
  unfold State.commitWrite
  repeat' with_reducible first | assumption | apply State.Advances.setReg | apply State.auditLog_advances

theorem State.auditRefusal_advances {s₀ s : State} (hs : s₀.Advances s) (o : Origin) (k : Nat) (result : Nat) : s₀.Advances
    (State.auditRefusal s o k result) := by
  unfold State.auditRefusal
  repeat' with_reducible first | assumption | apply State.auditLog_advances

theorem State.writeReg_advances {s₀ s : State} (hs : s₀.Advances s) (o : Origin) (k : Nat) (new : Word) (after : State → State → State)
    (hafter : ∀ x0 x1, s₀.Advances x0 → s₀.Advances x1 → s₀.Advances (after x0 x1)) : s₀.Advances (State.writeReg s o k new after) := by
  unfold State.writeReg
  repeat' with_reducible first
    | assumption | apply State.Advances.ite | apply hafter | apply State.commitWrite_advances | apply State.clearSat_advances
    | apply State.auditRefusal_advances | (intro _) | split

theorem State.writePlain_advances {s₀ s : State} (hs : s₀.Advances s) (o : Origin) (k : Nat) (new : Word) : s₀.Advances (State.writePlain
    s o k new) := by
  unfold State.writePlain
  repeat' with_reducible first | assumption | apply State.writeReg_advances | (intro _)

theorem State.command_advances {s₀ s : State} (hs : s₀.Advances s) (o : Origin) (c : CmdReg) (idx : Nat) (act : State → State × Nat) (hact
    : ∀ x0, s₀.Advances x0 → s₀.AdvancesP (act x0)) : s₀.Advances (State.command s o c idx act) := by
  unfold State.command
  repeat' with_reducible first
    | assumption | apply State.Advances.ite | apply hact | apply State.bump_advances | apply State.auditLog_advances
    | apply State.setFld_advances | apply State.refuseTo_advances | apply State.auditRefusal_advances | apply State.AdvancesP.fst
    | (intro _) | split

theorem State.writeBy_advances {s₀ s : State} (hs : s₀.Advances s) (o : Origin) (k : Nat) (new : Word) (after : State → State → State)
    (hafter : ∀ x0 x1, s₀.Advances x0 → s₀.Advances x1 → s₀.Advances (after x0 x1)) : s₀.Advances (State.writeBy s o k new after) := by
  unfold State.writeBy
  repeat' with_reducible first
    | assumption | apply State.Advances.ite | apply State.refuseTo_advances | apply State.writeReg_advances | (intro _)

theorem State.writePlainBy_advances {s₀ s : State} (hs : s₀.Advances s) (o : Origin) (k : Nat) (new : Word) : s₀.Advances
    (State.writePlainBy s o k new) := by
  unfold State.writePlainBy
  repeat' with_reducible first | assumption | apply State.writeBy_advances | (intro _)

/-! ### Bridge -/

theorem State.windowRefuse_advances {s₀ s : State} (hs : s₀.Advances s) : s₀.Advances (State.windowRefuse s) := by
  unfold State.windowRefuse
  repeat' with_reducible first
    | assumption | apply State.Advances.ite | apply State.refuse_advances | apply State.rimRefuse_advances | (intro _)

theorem State.bridgeError_advances {s₀ s : State} (hs : s₀.Advances s) (kind : Nat) (fn : Nat) (addr : Nat) (origin : Nat) (count : Nat) :
    s₀.Advances (State.bridgeError s kind fn addr origin count) := by
  unfold State.bridgeError
  repeat' with_reducible first
    | assumption | exact .refl _ | apply State.Advances.ite | apply State.bump_advances | (intro _) | exact Nat.le_refl _
    | apply State.Advances.upd

theorem State.bridgeEvent_advances {s₀ s : State} (hs : s₀.Advances s) (unit : Nat) : s₀.Advances (State.bridgeEvent s unit) := by
  unfold State.bridgeEvent
  repeat' with_reducible first | assumption | apply State.raise_advances

theorem State.discardPage_advances {s₀ s : State} (hs : s₀.Advances s) (p : PfPage) : s₀.Advances (State.discardPage s p) := by
  unfold State.discardPage
  repeat' with_reducible first
    | assumption | exact .refl _ | apply State.Advances.ite | apply State.bump_advances | apply State.bridgeError_advances | (intro _)
    | exact Nat.le_refl _ | apply State.Advances.upd

theorem State.discardPages_advances {s₀ s : State} (hs : s₀.Advances s) (t : PfPage → Bool) : s₀.Advances (State.discardPages s t) := by
  unfold State.discardPages
  repeat' with_reducible first | assumption | apply State.discardPage_advances | apply State.Advances.foldl | (intro _)

theorem State.discardGranule_advances {s₀ s : State} (hs : s₀.Advances s) (i : Nat) : s₀.Advances (State.discardGranule s i) := by
  unfold State.discardGranule
  repeat' with_reducible first | assumption | apply State.discardPages_advances

theorem State.bridgePost_advances {s₀ s : State} (hs : s₀.Advances s) (a : Nat) (bs : List Byte) : s₀.Advances (State.bridgePost s a bs)
    := by
  unfold State.bridgePost
  repeat' with_reducible first
    | assumption | exact .refl _ | apply State.Advances.ite | apply State.windowRefuse_advances | apply State.discardPages_advances
    | (intro _) | exact Nat.le_refl _ | apply State.Advances.upd

theorem State.bridgeWrite_advances {s₀ s : State} (hs : s₀.Advances s) (a : Nat) (bs : List Byte) : s₀.Advances (State.bridgeWrite s a bs)
    := by
  unfold State.bridgeWrite
  repeat' with_reducible first | assumption | apply State.bridgePost_advances | apply State.Advances.foldl | (intro _)

theorem State.sealPage_advances {s₀ s : State} (hs : s₀.Advances s) (p : Posted) (page : Nat) : s₀.Advances (State.sealPage p s page)
    := by
  unfold State.sealPage
  repeat' with_reducible first
    | assumption | exact .refl _ | apply State.emit_advances | split | exact Nat.le_refl _ | apply State.Advances.upd

theorem State.drainPosted_advances {s₀ s : State} (hs : s₀.Advances s) : s₀.Advances (State.drainPosted s) := by
  unfold State.drainPosted
  repeat' with_reducible first
    | assumption | exact .refl _ | apply State.Advances.ite | apply State.sealPage_advances | apply State.emit_advances
    | apply State.Advances.foldl | (intro _) | split | exact Nat.le_refl _ | apply State.Advances.upd

theorem State.store_advances {s₀ s : State} (hs : s₀.Advances s) (a : Nat) (bs : List Byte) : s₀.Advances (State.store s a bs) := by
  unfold State.store
  repeat' with_reducible first
    | assumption | apply State.Advances.ite | apply State.dmaGate_advances | apply State.Advances.writeBytes
    | apply State.refuse_advances | apply State.bridgeWrite_advances | (intro _)

theorem State.handOver_advances {s₀ s : State} (hs : s₀.Advances s) (issuer : Nat) (a : Nat) (len : Nat) : s₀.AdvancesP (State.handOver s
    issuer a len) := by
  unfold State.handOver
  repeat' with_reducible first
    | assumption | exact .refl _ | split | apply State.AdvancesP.mk' | exact Nat.le_refl _ | apply State.Advances.upd

theorem State.holdRead_advances {s₀ s : State} (hs : s₀.Advances s) (origin : Nat) (a : Nat) (len : Nat) (use : ReadFor) : s₀.Advances
    (State.holdRead s origin a len use) := by
  unfold State.holdRead
  repeat' with_reducible first | assumption | exact .refl _ | exact Nat.le_refl _ | apply State.Advances.upd

theorem State.msix_advances {s₀ s : State} (hs : s₀.Advances s) (fn : Nat) (vec : Nat) : s₀.Advances (State.msix s fn vec) := by
  unfold State.msix
  repeat' with_reducible first
    | assumption | exact .refl _ | apply State.Advances.ite | apply State.bump_advances | (intro _) | exact Nat.le_refl _
    | apply State.Advances.upd

theorem State.ringInterrupt_advances {s₀ s : State} (hs : s₀.Advances s) (v : Nat) (vec : Nat) : s₀.Advances (State.ringInterrupt s v vec)
    := by
  unfold State.ringInterrupt
  repeat' with_reducible first | assumption | apply State.Advances.ite | apply State.msix_advances | apply State.emit_advances | (intro _)

/-! ### Knots -/

theorem State.mirror_advances {s₀ s : State} (hs : s₀.Advances s) (k : Nat) : s₀.Advances (State.mirror s k) := by
  unfold State.mirror
  repeat' with_reducible first | assumption | apply State.Advances.ite | apply State.store_advances | (intro _) | split

theorem State.setKnot_advances {s₀ s : State} (hs : s₀.Advances s) (k : Nat) (v : Nat) : s₀.Advances (State.setKnot s k v) := by
  unfold State.setKnot
  repeat' with_reducible first
    | assumption | apply State.Advances.ite | apply State.Advances.putKnot | apply State.mirror_advances | (intro _)

theorem State.knotSet_advances {s₀ s : State} (hs : s₀.Advances s) (k : Nat) (v : Nat) : s₀.Advances (State.knotSet s k v) := by
  unfold State.knotSet
  repeat' with_reducible first | assumption | apply State.Advances.ite | apply State.setKnot_advances | (intro _)

theorem State.knotSaturated_advances {s₀ s : State} (hs : s₀.Advances s) (k : Nat) : s₀.Advances (State.knotSaturated s k) := by
  unfold State.knotSaturated
  repeat' with_reducible first
    | assumption | apply State.Advances.ite | apply State.setBit_advances | apply State.raise_advances | (intro _)

theorem State.knotAdd_advances {s₀ s : State} (hs : s₀.Advances s) (k : Nat) (v : Nat) : s₀.Advances (State.knotAdd s k v) := by
  unfold State.knotAdd
  repeat' with_reducible first
    | assumption | apply State.Advances.ite | apply State.knotSaturated_advances | apply State.setKnot_advances | (intro _)

/-! ### Links -/

theorem State.setPeer_advances {s₀ s : State} (hs : s₀.Advances s) (i : Nat) (p : Peer) : s₀.Advances (State.setPeer s i p) := by
  unfold State.setPeer
  repeat' with_reducible first | assumption | exact .refl _ | exact Nat.le_refl _ | apply State.Advances.upd

theorem State.touchKey_advances {s₀ s : State} (hs : s₀.Advances s) (tenant : Nat) (i : Nat) : s₀.Advances (State.touchKey s tenant i)
    := by
  unfold State.touchKey
  repeat' with_reducible first
    | assumption | exact .refl _ | apply State.Advances.ite | (intro _) | exact Nat.le_refl _ | apply State.Advances.upd

theorem State.transmit_advances {s₀ s : State} (hs : s₀.Advances s) (i : Nat) (f : Frame) : s₀.Advances (State.transmit s i f) := by
  unfold State.transmit
  repeat' with_reducible first
    | assumption | apply State.Advances.ite | apply State.setPeer_advances | apply State.rimRefuse_advances | apply State.emit_advances
    | (intro _) | split

theorem State.wire_advances {s₀ s : State} (hs : s₀.Advances s) (i : Nat) (f : Frame) : s₀.Advances (State.wire s i f) := by
  unfold State.wire
  repeat' with_reducible first | assumption | apply State.touchKey_advances | apply State.transmit_advances

theorem State.hold_advances {s₀ s : State} (hs : s₀.Advances s) (i : Nat) (f : Frame) : s₀.Advances (State.hold s i f) := by
  unfold State.hold
  repeat' with_reducible first
    | assumption | apply State.Advances.ite | apply State.setPeer_advances | apply State.wire_advances | (intro _)

theorem State.send_advances {s₀ s : State} (hs : s₀.Advances s) (i : Nat) (f : Frame) : s₀.Advances (State.send s i f) := by
  unfold State.send
  repeat' with_reducible first
    | assumption | apply State.Advances.ite | apply State.setPeer_advances | apply State.hold_advances | (intro _)

theorem State.sendKnot_advances {s₀ s : State} (hs : s₀.Advances s) (dev : Nat) (knot : Nat) (op : Nat) (value : Nat) (tenant : Nat) :
    s₀.Advances (State.sendKnot s dev knot op value tenant) := by
  unfold State.sendKnot
  repeat' with_reducible first
    | assumption | apply State.Advances.ite | apply State.bump_advances | apply State.send_advances | (intro _) | split

theorem State.sendRead_advances {s₀ s : State} (hs : s₀.Advances s) (i : Nat) (tenant : Nat) (g : Nat) (len : Nat) (isSeal : Bool) (use :
    ReadFor) : s₀.Advances (State.sendRead s i tenant g len isSeal use) := by
  unfold State.sendRead
  repeat' with_reducible first | assumption | exact .refl _ | apply State.send_advances | exact Nat.le_refl _ | apply State.Advances.upd

theorem State.readRemote_advances {s₀ s : State} (hs : s₀.Advances s) (tenant : Nat) (g : Nat) (len : Nat) (isSeal : Bool) (use : ReadFor)
    : s₀.AdvancesP (State.readRemote s tenant g len isSeal use) := by
  unfold State.readRemote
  repeat' with_reducible first
    | assumption | apply State.AdvancesP.ite | apply State.refuse_advances | apply State.rimRefuse_advances
    | apply State.sendRead_advances | apply State.Advances.foldl | (intro _) | split | apply State.AdvancesP.mk'

/-! ### Allow -/

theorem State.addFall_advances {s₀ s : State} (hs : s₀.Advances s) (ma : Nat) : s₀.Advances (State.addFall s ma) := by
  unfold State.addFall
  repeat' with_reducible first | assumption | exact .refl _ | exact Nat.le_refl _ | apply State.Advances.upd

theorem State.pace_advances {s₀ s : State} (hs : s₀.Advances s) (be : Nat) (test : Nat) : s₀.Advances (State.pace s be test) := by
  unfold State.pace
  repeat' with_reducible first
    | assumption | exact .refl _ | apply State.addFall_advances | exact Nat.le_refl _ | apply State.Advances.upd

theorem State.reclaim_advances {s₀ s : State} (hs : s₀.Advances s) : s₀.Advances (State.reclaim s) := by
  unfold State.reclaim
  repeat' with_reducible first | assumption | apply State.Advances.ite | apply State.bump_advances | apply State.pace_advances | (intro _)

theorem State.reclaimMore_advances {s₀ s : State} (hs : s₀.Advances s) : s₀.Advances (State.reclaimMore s) := by
  unfold State.reclaimMore
  repeat' with_reducible first | assumption | apply State.Advances.ite | apply State.reclaim_advances | (intro _)

theorem State.paceUnder_advances {s₀ s : State} (hs : s₀.Advances s) : s₀.Advances (State.paceUnder s) := by
  unfold State.paceUnder
  try dsimp -iota only
  repeat' first | with_reducible (first | assumption | apply State.Advances.ite | apply State.pace_advances | (intro _)) | split

theorem State.restorePace_advances {s₀ s : State} (hs : s₀.Advances s) : s₀.Advances (State.restorePace s) := by
  unfold State.restorePace
  repeat' with_reducible first
    | assumption | exact .refl _ | apply State.Advances.ite | (intro _) | exact Nat.le_refl _ | apply State.Advances.upd

theorem State.countWait_advances {s₀ s : State} (hs : s₀.Advances s) (r : AlwReq) : s₀.Advances (State.countWait s r) := by
  unfold State.countWait
  repeat' with_reducible first | assumption | apply State.Advances.setReg | apply State.bump_advances

theorem State.takeHold_advances {s₀ s : State} (hs : s₀.Advances s) (r : AlwReq) : s₀.Advances (State.takeHold s r) := by
  unfold State.takeHold
  repeat' with_reducible first
    | assumption | exact .refl _ | apply State.addFall_advances | exact Nat.le_refl _ | apply State.Advances.upd

theorem State.startGrant_advances {s₀ s : State} (hs : s₀.Advances s) (r : AlwReq) : s₀.Advances (State.startGrant s r) := by
  unfold State.startGrant
  repeat' with_reducible first
    | assumption | exact .refl _ | apply State.Advances.ite | apply State.takeHold_advances | (intro _) | exact Nat.le_refl _
    | apply State.Advances.upd

theorem State.queued_advances {s₀ s : State} (hs : s₀.Advances s) (r : AlwReq) : s₀.Advances (State.queued s r) := by
  unfold State.queued
  repeat' with_reducible first | assumption | exact .refl _ | exact Nat.le_refl _ | apply State.Advances.upd

theorem State.alwRequest_advances {s₀ s : State} (hs : s₀.Advances s) (r : AlwReq) : s₀.Advances (State.alwRequest s r) := by
  unfold State.alwRequest
  repeat' with_reducible first
    | assumption | apply State.Advances.ite | apply State.reclaim_advances | apply State.startGrant_advances
    | apply State.takeHold_advances | apply State.queued_advances | (intro _)

theorem State.alwServe_advances {s₀ s : State} (hs : s₀.Advances s) : s₀.Advances (State.alwServe s) := by
  unfold State.alwServe
  repeat' with_reducible first
    | assumption | apply State.Advances.ite | apply State.startGrant_advances | apply State.reclaimMore_advances
    | apply State.countWait_advances | (intro _) | split

theorem State.dropGrants_advances {s₀ s : State} (hs : s₀.Advances s) (p : Grant → Bool) : s₀.Advances (State.dropGrants s p) := by
  unfold State.dropGrants
  repeat' with_reducible first
    | assumption | exact .refl _ | apply State.addFall_advances | split | exact Nat.le_refl _ | apply State.Advances.upd

theorem State.dropRequests_advances {s₀ s : State} (hs : s₀.Advances s) (p : AlwReq → Bool) : s₀.Advances (State.dropRequests s p) := by
  unfold State.dropRequests
  repeat' with_reducible first | assumption | exact .refl _ | exact Nat.le_refl _ | apply State.Advances.upd

theorem State.alwDrop_advances {s₀ s : State} (hs : s₀.Advances s) (h : Holder) : s₀.Advances (State.alwDrop s h) := by
  unfold State.alwDrop
  repeat' with_reducible first | assumption | apply State.dropRequests_advances | apply State.dropGrants_advances

theorem State.domainUp_advances {s₀ s : State} (hs : s₀.Advances s) (d : Nat) : s₀.Advances (State.domainUp s d) := by
  unfold State.domainUp
  repeat' with_reducible first
    | assumption | exact .refl _ | apply State.Advances.ite | apply State.setDomain_advances | (intro _) | exact Nat.le_refl _
    | apply State.Advances.upd

theorem State.domainDown_advances {s₀ s : State} (hs : s₀.Advances s) (d : Nat) : s₀.Advances (State.domainDown s d) := by
  unfold State.domainDown
  repeat' with_reducible first | assumption | apply State.setDomain_advances | apply State.dropGrants_advances

end Sys2Proof.Machine
end

