-- ==== Sys2Proof/Laws/AdvancesJobs.lean ====
section
/-! SUPPORT. One lemma per function: from a state in which the invariant holds it advances (rings, jobs, the hot set, scheduling, the array cores and their transfers). -/

namespace Sys2Proof.Machine

/-! ### Jobs -/

theorem State.writeStatus_advances {s₀ s : State} (hs : s₀.Advances s) (n : Nat) : s₀.Advances (State.writeStatus s n) := by
  unfold State.writeStatus
  repeat' with_reducible first | assumption | apply State.store_advances

theorem State.fetchLoop_advances {s₀ y1 : State} (hy1 : s₀.Advances y1) (y0 : Nat) (y2 : Nat) : s₀.Advances (State.fetchLoop y0 y1 y2)
    := by
  induction y0 generalizing y1 y2 hy1 with
  | zero =>
    unfold State.fetchLoop
    repeat' with_reducible assumption
  | succ _ ih =>
    unfold State.fetchLoop
    repeat' with_reducible first
      | assumption | apply State.Advances.ite | apply ih | apply State.writeStatus_advances | apply State.noteRead_advances
      | apply State.setRing_advances | (intro _)

theorem State.fetch_advances {s₀ s : State} (hs : s₀.Advances s) (n : Nat) : s₀.Advances (State.fetch s n) := by
  unfold State.fetch
  repeat' with_reducible first | assumption | apply State.fetchLoop_advances

theorem State.pickUp_advances {s₀ s : State} (hs : s₀.Advances s) (n : Nat) : s₀.Advances (State.pickUp s n) := by
  unfold State.pickUp
  repeat' with_reducible first
    | assumption | apply State.Advances.ite | apply State.bump_advances | apply State.noteRead_advances | apply State.setRing_advances
    | apply State.fetch_advances | (intro _)

theorem State.retired_advances {s₀ s : State} (hs : s₀.Advances s) (n : Nat) (seq : Nat) : s₀.Advances (State.retired s n seq) := by
  unfold State.retired
  repeat' with_reducible first | assumption | apply State.writeStatus_advances | apply State.setRing_advances

theorem State.signal_advances {s₀ s : State} (hs : s₀.Advances s) (n : Nat) (d : List Nat) : s₀.Advances (State.signal s n d) := by
  unfold State.signal
  repeat' with_reducible first
    | assumption | apply State.Advances.ite | apply State.knotSet_advances | apply State.sendKnot_advances | apply State.knotAdd_advances
    | (intro _)

theorem State.quiesced_advances {s₀ s : State} (hs : s₀.Advances s) (v : Nat) : s₀.Advances (State.quiesced s v) := by
  unfold State.quiesced
  repeat' with_reducible first
    | assumption | apply State.Advances.ite | apply State.setFld_advances | apply State.raise_advances | (intro _)

theorem State.frozenCheck_advances {s₀ s : State} (hs : s₀.Advances s) (v : Nat) : s₀.Advances (State.frozenCheck s v) := by
  unfold State.frozenCheck
  repeat' with_reducible first
    | assumption | apply State.Advances.ite | apply State.setFld_advances | apply State.raise_advances | (intro _)

theorem State.finish_advances {s₀ s : State} (hs : s₀.Advances s) (j : Job) (code : Nat) (detail : Nat) (flags : Nat) : s₀.Advances
    (State.finish s j code detail flags) := by
  unfold State.finish
  repeat' with_reducible first
    | assumption | apply State.Advances.ite | apply State.dropJob_advances | apply State.store_advances | apply State.retired_advances
    | apply State.ringInterrupt_advances | apply State.quiesced_advances | apply State.signal_advances | apply State.fetch_advances
    | apply State.frozenCheck_advances | (intro _)

theorem State.setFair_advances {s₀ s : State} (hs : s₀.Advances s) (v : Nat) (c : Cls) (x : Nat) : s₀.Advances (State.setFair s v c x)
    := by
  unfold State.setFair
  repeat' with_reducible first | assumption | exact .refl _ | exact Nat.le_refl _ | apply State.Advances.upd

theorem State.raiseFair_advances {s₀ s : State} (hs : s₀.Advances s) (v : Nat) (c : Cls) : s₀.Advances (State.raiseFair s v c) := by
  unfold State.raiseFair
  repeat' with_reducible first | assumption | apply State.Advances.ite | apply State.setFair_advances | (intro _) | split

theorem State.enterReady_advances {s₀ s : State} (hs : s₀.Advances s) (j : Job) : s₀.Advances (State.enterReady s j) := by
  unfold State.enterReady
  repeat' with_reducible first
    | assumption | apply State.Advances.ite | apply State.raiseFair_advances | apply State.finish_advances | apply State.modJob_advances
    | (intro _)

theorem State.settleOne_advances {s₀ s : State} (hs : s₀.Advances s) : s₀.AdvancesO (State.settleOne s) := by
  unfold State.settleOne
  repeat' with_reducible first
    | assumption | apply State.AdvancesO.mk' | exact .ofNone | apply State.enterReady_advances | apply State.finish_advances
    | apply State.modJob_advances | split

theorem State.settleLoop_advances {s₀ y1 : State} (hy1 : s₀.Advances y1) (y0 : Nat) : s₀.Advances (State.settleLoop y0 y1) := by
  induction y0 generalizing y1 hy1 with
  | zero =>
    unfold State.settleLoop
    repeat' with_reducible assumption
  | succ _ ih =>
    unfold State.settleLoop
    repeat' with_reducible first
      | assumption | apply ih | apply State.settleOne_advances | (refine State.AdvancesO.of ?_ (by assumption)) | split

theorem State.settle_advances {s₀ s : State} (hs : s₀.Advances s) : s₀.Advances (State.settle s) := by
  unfold State.settle
  repeat' with_reducible first | assumption | apply State.settleLoop_advances

theorem State.addReg_advances {s₀ s : State} (hs : s₀.Advances s) (k : Nat) (n : Nat) : s₀.Advances (State.addReg s k n) := by
  unfold State.addReg
  repeat' with_reducible first | assumption | apply State.Advances.setReg

theorem State.charge_advances {s₀ s : State} (hs : s₀.Advances s) (v : Nat) (c : Cls) (ns : Nat) : s₀.Advances (State.charge s v c ns)
    := by
  unfold State.charge
  repeat' with_reducible first
    | assumption | apply State.Advances.ite | apply State.addReg_advances | apply State.setFair_advances | (intro _)

theorem State.releaseCore_advances {s₀ s : State} (hs : s₀.Advances s) (n : Nat) : s₀.Advances (State.releaseCore s n) := by
  unfold State.releaseCore
  repeat' with_reducible first | assumption | apply State.Advances.ite | apply State.alwDrop_advances | (intro _)

theorem State.stopCore_advances {s₀ s : State} (hs : s₀.Advances s) (j : Job) (n : Nat) : s₀.Advances (State.stopCore s j n) := by
  unfold State.stopCore
  repeat' with_reducible first
    | assumption | apply State.Advances.ite | apply State.modCore_advances | apply State.setFld_advances | apply State.modJob_advances
    | apply State.charge_advances | apply State.releaseCore_advances | (intro _)

theorem State.stopCores_advances {s₀ s : State} (hs : s₀.Advances s) (j : Job) : s₀.Advances (State.stopCores s j) := by
  unfold State.stopCores
  repeat' with_reducible first
    | assumption | apply State.stopCore_advances | apply State.modJob_advances | apply State.Advances.foldl | (intro _)

theorem State.dropChecks_advances {s₀ s : State} (hs : s₀.Advances s) (j : Job) : s₀.Advances (State.dropChecks s j) := by
  unfold State.dropChecks
  repeat' with_reducible first
    | assumption | exact .refl _ | apply State.alwDrop_advances | apply State.Advances.foldl | (intro _) | exact Nat.le_refl _
    | apply State.Advances.upd

theorem State.endJob_advances {s₀ s : State} (hs : s₀.Advances s) (ring : Nat) (seq : Nat) (code : Nat) (detail : Nat) : s₀.Advances
    (State.endJob s ring seq code detail) := by
  unfold State.endJob
  repeat' with_reducible first
    | assumption | apply State.stopCores_advances | apply State.dropChecks_advances | apply State.finish_advances | split

theorem State.yieldCores_advances {s₀ s : State} (hs : s₀.Advances s) (j : Job) : s₀.Advances (State.yieldCores s j) := by
  unfold State.yieldCores
  repeat' with_reducible first | assumption | apply State.setFld_advances | apply State.Advances.foldl | (intro _)

theorem State.withdrawOne_advances {s₀ s : State} (hs : s₀.Advances s) (why : Nat × Nat) (j : Job) : s₀.Advances (State.withdrawOne s why
    j) := by
  unfold State.withdrawOne
  repeat' with_reducible first
    | assumption | apply State.Advances.ite | apply State.yieldCores_advances | apply State.modJob_advances | apply State.endJob_advances
    | (intro _)

theorem State.withdraw_advances {s₀ s : State} (hs : s₀.Advances s) (why : Nat × Nat) (p : Job → Bool) : s₀.Advances (State.withdraw s why
    p) := by
  unfold State.withdraw
  repeat' with_reducible first | assumption | apply State.withdrawOne_advances | apply State.Advances.foldl | (intro _)

theorem State.withdrawFetched_advances {s₀ s : State} (hs : s₀.Advances s) (why : Nat × Nat) (n : Nat) : s₀.Advances
    (State.withdrawFetched s why n) := by
  unfold State.withdrawFetched
  repeat' with_reducible first
    | assumption | apply State.finish_advances | apply State.setRing_advances | apply State.Advances.foldl | (intro _)

/-! ### Hot -/

theorem State.unpin_advances {s₀ s : State} (hs : s₀.Advances s) (i : Nat) : s₀.Advances (State.unpin s i) := by
  unfold State.unpin
  repeat' with_reducible first | assumption | exact .refl _ | exact Nat.le_refl _ | apply State.Advances.upd

theorem State.hotDrop_advances {s₀ s : State} (hs : s₀.Advances s) (i : Nat) : s₀.Advances (State.hotDrop s i) := by
  unfold State.hotDrop
  repeat' with_reducible first | assumption | apply State.unpin_advances | apply State.setHot_advances

theorem State.makeRoom_advances {s₀ y1 : State} (hy1 : s₀.Advances y1) (y0 : Nat) (y2 : Nat) : s₀.AdvancesP (State.makeRoom y0 y1 y2)
    := by
  induction y0 generalizing y1 y2 hy1 with
  | zero =>
    unfold State.makeRoom
    repeat' with_reducible first | assumption | apply State.AdvancesP.mk'
  | succ _ ih =>
    unfold State.makeRoom
    repeat' with_reducible first
      | assumption | apply State.AdvancesP.ite | apply ih | apply State.hotDrop_advances | (intro _) | split | apply State.AdvancesP.mk'

theorem State.startLoad_advances {s₀ s : State} (hs : s₀.Advances s) (i : Nat) : s₀.Advances (State.startLoad s i) := by
  unfold State.startLoad
  repeat' with_reducible first
    | assumption | apply State.Advances.ite | apply State.alwRequest_advances | apply State.makeRoom_advances
    | apply State.setHot_advances | apply State.AdvancesP.fst | (intro _)

theorem State.reclass_advances {s₀ s : State} (hs : s₀.Advances s) (i : Nat) : s₀.Advances (State.reclass s i) := by
  unfold State.reclass
  repeat' with_reducible first | assumption | exact .refl _ | exact Nat.le_refl _ | apply State.Advances.upd

theorem State.hotRetry_advances {s₀ s : State} (hs : s₀.Advances s) : s₀.Advances (State.hotRetry s) := by
  unfold State.hotRetry
  repeat' with_reducible first
    | assumption | apply State.Advances.ite | apply State.reclaimMore_advances | apply State.startLoad_advances
    | apply State.reclass_advances | apply State.Advances.foldl | (intro _)

theorem State.wrapUp_advances {s₀ s : State} (hs : s₀.Advances s) : s₀.Advances (State.wrapUp s) := by
  unfold State.wrapUp
  repeat' with_reducible first | assumption | apply State.hotRetry_advances | apply State.settle_advances

theorem State.dropLines_advances {s₀ s : State} (hs : s₀.Advances s) (p : CacheLine → Bool) : s₀.Advances (State.dropLines s p) := by
  unfold State.dropLines
  repeat' with_reducible first | assumption | exact .refl _ | exact Nat.le_refl _ | apply State.Advances.upd

/-! ### Cores -/

theorem State.setMode_advances {s₀ s : State} (hs : s₀.Advances s) (n : Nat) (m : Nat) : s₀.Advances (State.setMode s n m) := by
  unfold State.setMode
  repeat' with_reducible first | assumption | apply State.setFld_advances

/-! ### Sched -/

theorem State.advance_advances {s₀ s : State} (hs : s₀.Advances s) (j : Job) : s₀.Advances (State.advance s j) := by
  unfold State.advance
  repeat' with_reducible first
    | assumption | exact .refl _ | apply State.Advances.ite | apply State.modJob_advances | (intro _) | split | exact Nat.le_refl _
    | apply State.Advances.upd

theorem State.checkReservations_advances {s₀ s : State} (hs : s₀.Advances s) : s₀.Advances (State.checkReservations s) := by
  unfold State.checkReservations
  repeat' with_reducible first | assumption | apply State.modJob_advances | apply State.Advances.foldl | (intro _)

theorem State.dropResv_advances {s₀ s : State} (hs : s₀.Advances s) (l : List Job) : s₀.Advances (State.dropResv s l) := by
  unfold State.dropResv
  repeat' with_reducible first | assumption | apply State.modJob_advances | apply State.Advances.foldl | (intro _)

theorem State.replace_advances {s₀ s : State} (hs : s₀.Advances s) (l : List Job) : s₀.Advances (State.replace s l) := by
  unfold State.replace
  repeat' with_reducible first | assumption | apply State.advance_advances | apply State.Advances.foldl | (intro _) | split

theorem State.startCore_advances {s₀ s : State} (hs : s₀.Advances s) (j : Job) (n : Nat) : s₀.Advances (State.startCore s j n) := by
  unfold State.startCore
  try dsimp -iota only
  repeat' first
    | with_reducible (first | assumption | apply State.setFld_advances | apply State.setCore_advances | apply State.takeFree_advances)
    | split

theorem State.startSeals_advances {s₀ s : State} (hs : s₀.Advances s) (j : Job) : s₀.Advances (State.startSeals s j) := by
  unfold State.startSeals
  repeat' with_reducible first | assumption | exact .refl _ | exact Nat.le_refl _ | apply State.Advances.upd

theorem State.checkerRead_advances {s₀ s : State} (hs : s₀.Advances s) (k : Nat) (tenant : Nat) (g : Nat) (len : Nat) (isSeal : Bool) :
    s₀.Advances (State.checkerRead s k tenant g len isSeal) := by
  unfold State.checkerRead
  repeat' with_reducible first
    | assumption | apply State.Advances.ite | apply State.Advances.setPoison | apply State.handOver_advances
    | apply State.holdRead_advances | apply State.readRemote_advances | apply State.windowRefuse_advances | apply State.AdvancesP.fst
    | (intro _)

theorem State.sealReads_advances {s₀ s : State} (hs : s₀.Advances s) (k : Nat) : s₀.Advances (State.sealReads s k) := by
  unfold State.sealReads
  repeat' with_reducible first
    | assumption | apply State.Advances.ite | apply State.checkerRead_advances | apply State.Advances.foldl | (intro _) | split

theorem State.sealGranted_advances {s₀ s : State} (hs : s₀.Advances s) (k : Nat) : s₀.Advances (State.sealGranted s k) := by
  unfold State.sealGranted
  repeat' with_reducible first
    | assumption | exact .refl _ | apply State.sealReads_advances | exact Nat.le_refl _ | apply State.Advances.upd

theorem State.assignSeals_advances {s₀ y1 : State} (hy1 : s₀.Advances y1) (y0 : Nat) : s₀.Advances (State.assignSeals y0 y1) := by
  induction y0 generalizing y1 hy1 with
  | zero =>
    unfold State.assignSeals
    repeat' with_reducible assumption
  | succ _ ih =>
    unfold State.assignSeals
    repeat' with_reducible first
      | assumption | exact .refl _ | apply State.Advances.ite | apply ih | apply State.alwRequest_advances
      | apply State.sealGranted_advances | (intro _) | split | exact Nat.le_refl _ | apply State.Advances.upd

theorem State.startRun_advances {s₀ s : State} (hs : s₀.Advances s) (j : Job) : s₀.Advances (State.startRun s j) := by
  unfold State.startRun
  repeat' with_reducible first
    | assumption | apply State.assignSeals_advances | apply State.startCore_advances | apply State.modJob_advances
    | apply State.startSeals_advances | apply State.setHot_advances | apply State.Advances.foldl | (intro _)

theorem State.coreGranted_advances {s₀ s : State} (hs : s₀.Advances s) (n : Nat) : s₀.Advances (State.coreGranted s n) := by
  unfold State.coreGranted
  repeat' with_reducible first
    | assumption | apply State.Advances.ite | apply State.startCore_advances | apply State.startRun_advances
    | apply State.modCore_advances | apply State.modJob_advances | apply State.Advances.foldl | (intro _) | split

theorem State.onGrant_advances {s₀ s : State} (hs : s₀.Advances s) (h : Holder) : s₀.Advances (State.onGrant s h) := by
  unfold State.onGrant
  repeat' with_reducible first
    | assumption | exact .refl _ | apply State.Advances.ite | apply State.coreGranted_advances | apply State.modCore_advances
    | apply State.sealGranted_advances | (intro _) | split | exact Nat.le_refl _ | apply State.Advances.upd

theorem State.ask_advances {s₀ s : State} (hs : s₀.Advances s) (r : AlwReq) : s₀.Advances (State.ask s r) := by
  unfold State.ask
  repeat' with_reducible first
    | assumption | apply State.Advances.ite | apply State.alwRequest_advances | apply State.onGrant_advances | (intro _)

theorem State.obtain_advances {s₀ s : State} (hs : s₀.Advances s) (r : AlwReq) : s₀.Advances (State.obtain s r) := by
  unfold State.obtain
  repeat' with_reducible first | assumption | apply State.Advances.ite | apply State.ask_advances | (intro _)

theorem State.assignCmps_advances {s₀ y1 : State} (hy1 : s₀.Advances y1) (y0 : Nat) : s₀.Advances (State.assignCmps y0 y1) := by
  induction y0 generalizing y1 hy1 with
  | zero =>
    unfold State.assignCmps
    repeat' with_reducible assumption
  | succ _ ih =>
    unfold State.assignCmps
    repeat' with_reducible first
      | assumption | exact .refl _ | apply ih | apply State.ask_advances | split | exact Nat.le_refl _ | apply State.Advances.upd

theorem State.takeForTest_advances {s₀ s : State} (hs : s₀.Advances s) (n : Nat) (slot : Nat) : s₀.Advances (State.takeForTest s n slot)
    := by
  unfold State.takeForTest
  repeat' with_reducible first
    | assumption | apply State.Advances.ite | apply State.ask_advances | apply State.modCore_advances | (intro _)

theorem State.startTests_advances {s₀ s : State} (hs : s₀.Advances s) : s₀.Advances (State.startTests s) := by
  unfold State.startTests
  repeat' with_reducible first
    | assumption | apply State.Advances.ite | apply State.takeForTest_advances | apply State.Advances.foldl | (intro _)

theorem State.liftCore_advances {s₀ s : State} (hs : s₀.Advances s) (rank : Cls) (n : Nat) : s₀.Advances (State.liftCore s rank n) := by
  unfold State.liftCore
  repeat' with_reducible first | assumption | apply State.alwRequest_advances | split

theorem State.preempt_advances {s₀ s : State} (hs : s₀.Advances s) (v : Job) (rank : Cls) : s₀.Advances (State.preempt s v rank) := by
  unfold State.preempt
  repeat' with_reducible first
    | assumption | apply State.yieldCores_advances | apply State.modJob_advances | apply State.liftCore_advances
    | apply State.Advances.foldl | (intro _)

theorem State.freezeMore_advances {s₀ s : State} (hs : s₀.Advances s) : s₀.Advances (State.freezeMore s) := by
  unfold State.freezeMore
  repeat' with_reducible first
    | assumption | apply State.Advances.ite | apply State.preempt_advances | apply State.Advances.foldl | (intro _)

theorem State.conclude_advances {s₀ s : State} (hs : s₀.Advances s) : s₀.Advances (State.conclude s) := by
  unfold State.conclude
  repeat' with_reducible first
    | assumption | apply State.assignSeals_advances | apply State.assignCmps_advances | apply State.startTests_advances
    | apply State.wrapUp_advances | apply State.freezeMore_advances

theorem State.prepCore_advances {s₀ s : State} (hs : s₀.Advances s) (j : Job) (n : Nat) : s₀.Advances (State.prepCore s j n) := by
  unfold State.prepCore
  repeat' with_reducible first
    | assumption | apply State.Advances.ite | apply State.ask_advances | apply State.modCore_advances | apply State.setMode_advances
    | (intro _)

theorem State.assign_advances {s₀ s : State} (hs : s₀.Advances s) (j : Job) (cs : List Nat) (ck : Bool) : s₀.Advances (State.assign s j cs
    ck) := by
  unfold State.assign
  try dsimp -iota only
  repeat' first

    | with_reducible (first | assumption | apply State.prepCore_advances | apply State.modCore_advances | apply State.modJob_advances | apply State.Advances.foldl | (intro _))
    | split

theorem State.backToReady_advances {s₀ s : State} (hs : s₀.Advances s) (j : Job) (f : Job → Job) : s₀.Advances (State.backToReady s j f)
    := by
  unfold State.backToReady
  repeat' with_reducible first | assumption | apply State.raiseFair_advances | apply State.modJob_advances

theorem State.unplace_advances {s₀ s : State} (hs : s₀.Advances s) (j : Job) : s₀.Advances (State.unplace s j) := by
  unfold State.unplace
  repeat' with_reducible first | assumption | apply State.stopCores_advances | apply State.backToReady_advances

theorem State.preemptOne_advances {s₀ s : State} (hs : s₀.Advances s) (v : Job) (rank : Cls) : s₀.AdvancesP (State.preemptOne s v rank)
    := by
  unfold State.preemptOne
  repeat' with_reducible first
    | assumption | apply State.AdvancesP.ite | apply State.preempt_advances | apply State.bump_advances | apply State.unplace_advances
    | (intro _) | apply State.AdvancesP.mk'

theorem State.preemptFor_advances {s₀ s : State} (hs : s₀.Advances s) (j : Job) (cs : List Nat) : s₀.Advances (State.preemptFor s j cs)
    := by
  unfold State.preemptFor
  repeat' with_reducible first
    | assumption | apply State.Advances.ite | apply State.modJob_advances | apply State.preemptOne_advances | apply State.AdvancesP.foldl
    | apply State.AdvancesP.fst | (intro _) | apply State.AdvancesP.mk'

theorem State.placeOn_advances {s₀ s : State} (hs : s₀.Advances s) (j : Job) (cs : List Nat) : s₀.Advances (State.placeOn s j cs) := by
  unfold State.placeOn
  repeat' with_reducible first
    | assumption | apply State.Advances.ite | apply State.preemptFor_advances | apply State.modJob_advances
    | apply State.dropResv_advances | apply State.assign_advances | apply State.replace_advances | (intro _)

theorem State.gatherFor_advances {s₀ s : State} (hs : s₀.Advances s) (l : List Job) : s₀.Advances (State.gatherFor s l) := by
  unfold State.gatherFor
  repeat' with_reducible first
    | assumption | exact .refl _ | apply State.Advances.ite | (intro _) | split | exact Nat.le_refl _ | apply State.Advances.upd

theorem State.checkGather_advances {s₀ s : State} (hs : s₀.Advances s) : s₀.Advances (State.checkGather s) := by
  unfold State.checkGather
  repeat' with_reducible first
    | assumption | exact .refl _ | apply State.Advances.ite | (intro _) | split | exact Nat.le_refl _ | apply State.Advances.upd

theorem State.placeNext_advances {s₀ s : State} (hs : s₀.Advances s) : s₀.Advances (State.placeNext s) := by
  unfold State.placeNext
  try dsimp -iota only
  repeat' first

    | with_reducible (first | assumption | apply State.Advances.ite | apply State.placeOn_advances | apply State.checkReservations_advances | apply State.checkGather_advances | apply State.gatherFor_advances | (intro _))
    | split

theorem State.saveAll_advances {s₀ s : State} (hs : s₀.Advances s) (j : Job) (whole : Bool) : s₀.Advances (State.saveAll s j whole) := by
  unfold State.saveAll
  repeat' with_reducible first | assumption | apply State.modJob_advances

theorem State.endSave_advances {s₀ s : State} (hs : s₀.Advances s) (j : Job) : s₀.Advances (State.endSave s j) := by
  unfold State.endSave
  repeat' with_reducible first
    | assumption | apply State.stopCores_advances | apply State.backToReady_advances | apply State.frozenCheck_advances

theorem State.haltJob_advances {s₀ s : State} (hs : s₀.Advances s) (j : Job) : s₀.Advances (State.haltJob s j) := by
  unfold State.haltJob
  repeat' with_reducible first
    | assumption | apply State.stopCores_advances | apply State.dropChecks_advances | apply State.modJob_advances

theorem State.discardRun_advances {s₀ s : State} (hs : s₀.Advances s) (j : Job) : s₀.Advances (State.discardRun s j) := by
  unfold State.discardRun
  try dsimp -iota only
  repeat' first
    | with_reducible (first | assumption | apply State.addReg_advances | apply State.haltJob_advances | apply State.modJob_advances)
    | split

theorem State.flushCore_advances {s₀ s : State} (hs : s₀.Advances s) (n : Nat) : s₀.Advances (State.flushCore s n) := by
  unfold State.flushCore
  repeat' with_reducible first
    | assumption | apply State.Advances.ite | apply State.modCore_advances | apply State.setMode_advances | (intro _)

theorem State.stopTest_advances {s₀ s : State} (hs : s₀.Advances s) (n : Nat) : s₀.Advances (State.stopTest s n) := by
  unfold State.stopTest
  repeat' with_reducible first
    | assumption | apply State.Advances.ite | apply State.addReg_advances | apply State.alwDrop_advances | (intro _)

theorem State.haltTests_advances {s₀ s : State} (hs : s₀.Advances s) : s₀.Advances (State.haltTests s) := by
  unfold State.haltTests
  repeat' with_reducible first
    | assumption | exact .refl _ | apply State.bump_advances | apply State.stopTest_advances | apply State.Advances.foldl | (intro _)
    | exact Nat.le_refl _ | apply State.Advances.upd

theorem State.startFlush_advances {s₀ s : State} (hs : s₀.Advances s) (origin : Nat) (cause : Nat) (core : Nat) : s₀.Advances
    (State.startFlush s origin cause core) := by
  unfold State.startFlush
  repeat' with_reducible first
    | assumption | exact .refl _ | apply State.flushCore_advances | apply State.haltTests_advances | apply State.unplace_advances
    | apply State.discardRun_advances | apply State.Advances.foldl | (intro _) | exact Nat.le_refl _ | apply State.Advances.upd

theorem State.jobFault_advances {s₀ s : State} (hs : s₀.Advances s) (ring : Nat) (seq : Nat) (cause : Nat) (core : Nat) : s₀.Advances
    (State.jobFault s ring seq cause core) := by
  unfold State.jobFault
  repeat' with_reducible first
    | assumption | apply State.Advances.ite | apply State.modJob_advances | apply State.startFlush_advances
    | apply State.discardRun_advances | apply State.endJob_advances | (intro _) | split

theorem State.lateFault_advances {s₀ s : State} (hs : s₀.Advances s) (n : Nat) (f : State → Job → State) (hf : ∀ x0 x1, s₀.Advances x0 →
    s₀.Advances (f x0 x1)) : s₀.Advances (State.lateFault s n f) := by
  unfold State.lateFault
  repeat' with_reducible first | assumption | apply State.Advances.ite | apply State.modJob_advances | (intro _) | split

/-! ### Admission -/

theorem State.farBytes_advances {s₀ s : State} (hs : s₀.Advances s) (p : Nat) (bs : List Byte) : s₀.Advances (State.farBytes s p bs) := by
  unfold State.farBytes
  refine State.Advances.clearPoison (s := { s with far := Memory.write s.far p bs }) ?_ _ _
  with_reducible apply State.Advances.upd
  · exact hs
  · rfl
  · exact Nat.le_refl _

theorem State.tagFail_advances {s₀ s : State} (hs : s₀.Advances s) : s₀.Advances (State.tagFail s) := by
  unfold State.tagFail
  repeat' with_reducible first | assumption | apply State.bump_advances | apply State.raise_advances

theorem State.readExpired_advances {s₀ s : State} (hs : s₀.Advances s) (fn : Nat) (addr : Nat) (origin : Nat) : s₀.Advances
    (State.readExpired s fn addr origin) := by
  unfold State.readExpired
  repeat' with_reducible first | assumption | apply State.bump_advances | apply State.bridgeError_advances

theorem State.deliverRead_advances {s₀ s : State} (hs : s₀.Advances s) (fn : Nat) (origin : Nat) (a : Nat) (n : Nat) (d : FarData) :
    s₀.Advances (State.deliverRead s fn origin a n d) := by
  unfold State.deliverRead
  repeat' with_reducible first
    | assumption | apply State.Advances.ite | apply State.bump_advances | apply State.Advances.setPoison
    | apply State.bridgeError_advances | apply State.tagFail_advances | apply State.farBytes_advances | apply State.readExpired_advances
    | (intro _) | split

theorem State.learn_advances {s₀ s : State} (hs : s₀.Advances s) (origin : Nat) (l : List FarRead) : s₀.Advances (State.learn s origin l)
    := by
  unfold State.learn
  repeat' with_reducible first
    | assumption | apply State.Advances.ite | apply State.Advances.setPoison | apply State.deliverRead_advances
    | apply State.farBytes_advances | apply State.windowRefuse_advances | apply State.Advances.foldl | (intro _) | split

theorem State.noteBindings_advances {s₀ s : State} (hs : s₀.Advances s) (w : List (Nat × Nat)) (d : List Nat) (ts : List Tensor) :
    s₀.Advances (State.noteBindings s w d ts) := by
  unfold State.noteBindings
  repeat' with_reducible first
    | assumption | apply State.Advances.ite | apply State.noteRead_advances | apply State.noteReads_advances | (intro _)

theorem State.admitResident_advances {s₀ s : State} (hs : s₀.Advances s) (j : Job) : s₀.Advances (State.admitResident s j) := by
  unfold State.admitResident
  repeat' with_reducible first
    | assumption | apply State.Advances.ite | apply State.modJob_advances | apply State.noteBindings_advances
    | apply State.advance_advances | apply State.endJob_advances | (intro _) | split

theorem State.admitJob_advances {s₀ s : State} (hs : s₀.Advances s) (ring : Nat) (seq : Nat) (d : List Nat) : s₀.Advances (State.admitJob
    s ring seq d) := by
  unfold State.admitJob
  repeat' with_reducible first
    | assumption | exact .refl _ | apply State.Advances.ite | apply State.bump_advances | apply State.admitResident_advances
    | apply State.startLoad_advances | apply State.finish_advances | apply State.endJob_advances | (intro _) | split
    | exact Nat.le_refl _ | apply State.Advances.upd

theorem State.admitKnot_advances {s₀ s : State} (hs : s₀.Advances s) (ring : Nat) (seq : Nat) (d : List Nat) : s₀.Advances
    (State.admitKnot s ring seq d) := by
  unfold State.admitKnot
  repeat' with_reducible first
    | assumption | exact .refl _ | apply State.Advances.ite | apply State.bump_advances | apply State.finish_advances | (intro _) | split
    | exact Nat.le_refl _ | apply State.Advances.upd

theorem State.admitCancel_advances {s₀ s : State} (hs : s₀.Advances s) (ring : Nat) (seq : Nat) (d : List Nat) : s₀.Advances
    (State.admitCancel s ring seq d) := by
  unfold State.admitCancel
  repeat' with_reducible first
    | assumption | exact .refl _ | apply State.Advances.ite | apply State.bump_advances | apply State.finish_advances
    | apply State.withdraw_advances | (intro _) | split | exact Nat.le_refl _ | apply State.Advances.upd

/-! ### Fills -/

theorem State.progress_advances {s₀ s : State} (hs : s₀.Advances s) (j : Job) (n : Nat) : s₀.Advances (State.progress s j n) := by
  unfold State.progress
  repeat' with_reducible first
    | assumption | exact .refl _ | apply State.modCore_advances | apply State.Advances.foldl | (intro _) | exact Nat.le_refl _
    | apply State.Advances.upd

/-! ### Report -/

theorem State.drivePins_advances {s₀ s : State} (hs : s₀.Advances s) : s₀.Advances (State.drivePins s) := by
  unfold State.drivePins
  repeat' with_reducible first | assumption | apply State.setFld_advances

theorem State.assertPins_advances {s₀ s : State} (hs : s₀.Advances s) : s₀.Advances (State.assertPins s) := by
  unfold State.assertPins
  repeat' with_reducible first | assumption | exact .refl _ | exact Nat.le_refl _ | apply State.Advances.upd

theorem State.pushWindow_advances {s₀ s : State} (hs : s₀.Advances s) (src : Nat) (unit : Nat) : s₀.Advances (State.pushWindow s src unit)
    := by
  unfold State.pushWindow
  repeat' with_reducible first | assumption | exact .refl _ | exact Nat.le_refl _ | apply State.Advances.upd

theorem State.react_advances {s₀ s : State} (hs : s₀.Advances s) (src : Nat) (lasting : Bool) : s₀.Advances (State.react s src lasting)
    := by
  unfold State.react
  repeat' with_reducible first
    | assumption | apply State.Advances.ite | apply State.drivePins_advances | apply State.setBit_advances | apply State.raise_advances
    | apply State.assertPins_advances | (intro _)

theorem State.reportLasting_advances {s₀ s : State} (hs : s₀.Advances s) (src : Nat) (unit : Nat) : s₀.AdvancesP (State.reportLasting s
    src unit) := by
  unfold State.reportLasting
  repeat' with_reducible first
    | assumption | apply State.bump_advances | apply State.pushWindow_advances | apply State.react_advances | apply State.AdvancesP.mk'

theorem State.reportAs_advances {s₀ s : State} (hs : s₀.Advances s) (src : Nat) (lasting : Bool) : s₀.Advances (State.reportAs s src
    lasting) := by
  unfold State.reportAs
  repeat' with_reducible first | assumption | apply State.bump_advances | apply State.react_advances

theorem State.report_advances {s₀ s : State} (hs : s₀.Advances s) (src : Nat) (unit : Nat) : s₀.Advances (State.report s src unit) := by
  unfold State.report
  repeat' with_reducible first | assumption | apply State.reportLasting_advances | apply State.AdvancesP.fst

/-! ### ArrayCore -/

theorem State.traced_advances {s₀ s : State} (hs : s₀.Advances s) (j : Job) (n : Nat) : s₀.Advances (State.traced s j n) := by
  unfold State.traced
  repeat' with_reducible first | assumption | exact .refl _ | split | exact Nat.le_refl _ | apply State.Advances.upd

theorem State.issue_advances {s₀ s : State} (hs : s₀.Advances s) (n : Nat) (f : State → Job → State) (hf : ∀ x0 x1, s₀.Advances x0 →
    s₀.Advances (f x0 x1)) : s₀.Advances (State.issue s n f) := by
  unfold State.issue
  repeat' with_reducible first
    | assumption | apply State.Advances.ite | apply hf | apply State.lateFault_advances | apply State.modCore_advances
    | apply State.traced_advances | (intro _) | split

theorem State.issueIn_advances {s₀ s : State} (hs : s₀.Advances s) (n : Nat) (graphics : Bool) (f : State → Job → State) (hf : ∀ x0 x1,
    s₀.Advances x0 → s₀.Advances (f x0 x1)) : s₀.Advances (State.issueIn s n graphics f) := by
  unfold State.issueIn
  repeat' with_reducible first
    | assumption | apply State.Advances.ite | apply State.lateFault_advances | apply State.issue_advances | (intro _) | split

theorem State.void_advances {s₀ s : State} (hs : s₀.Advances s) (j : Job) (n : Nat) (v : Bool) : s₀.Advances (State.void s j n v) := by
  unfold State.void
  repeat' with_reducible first | assumption | apply State.Advances.ite | apply State.modJob_advances | (intro _)

theorem State.fault_advances {s₀ s : State} (hs : s₀.Advances s) (j : Job) (n : Nat) (cause : Nat) : s₀.Advances (State.fault s j n cause)
    := by
  unfold State.fault
  repeat' with_reducible first | assumption | apply State.conclude_advances | apply State.jobFault_advances

theorem State.spRowLasting_advances {s₀ s : State} (hs : s₀.Advances s) (r : SpRow) : s₀.Advances (State.spRowLasting s r) := by
  unfold State.spRowLasting
  repeat' with_reducible first
    | assumption | exact .refl _ | apply State.Advances.ite | (intro _) | exact Nat.le_refl _ | apply State.Advances.upd

theorem State.spCorrected_advances {s₀ s : State} (hs : s₀.Advances s) (n : Nat) (at? : Option (Nat × Nat)) : s₀.Advances
    (State.spCorrected s n at?) := by
  unfold State.spCorrected
  repeat' with_reducible first
    | assumption | exact .refl _ | apply State.Advances.ite | apply State.bump_advances | apply State.spRowLasting_advances
    | apply State.reportAs_advances | (intro _) | split | exact Nat.le_refl _ | apply State.Advances.upd

theorem State.withErr_advances {s₀ s : State} (hs : s₀.Advances s) (n : Nat) (j : Job) (e : Option SpErr) (f : State → State) (hf : ∀ x0,
    s₀.Advances x0 → s₀.Advances (f x0)) : s₀.Advances (State.withErr s n j e f) := by
  unfold State.withErr
  repeat' with_reducible first
    | assumption | apply State.Advances.ite | apply hf | apply State.fault_advances | apply State.spCorrected_advances | (intro _)
    | split

theorem State.accesses_advances {s₀ s : State} (hs : s₀.Advances s) (n : Nat) (j : Job) (e : Option SpErr) (f : State → State) (hf : ∀ x0,
    s₀.Advances x0 → s₀.Advances (f x0)) : s₀.Advances (State.accesses s n j e f) := by
  unfold State.accesses
  repeat' with_reducible first | assumption | apply hf | apply State.withErr_advances | apply State.progress_advances | (intro _)

theorem State.mload_advances {s₀ s : State} (hs : s₀.Advances s) (n : Nat) (sp : Nat) (len : Nat) (sc : Nat) (scLen : Nat) : s₀.Advances
    (State.mload s n sp len sc scLen) := by
  unfold State.mload
  repeat' with_reducible first | assumption | apply State.modCore_advances

theorem execMload_advances {s₀ s : State} (hs : s₀.Advances s) (core : Nat) (sp : Nat) (len : Nat) (sc : Nat) (scLen : Nat) (err : Option
    SpErr) : s₀.AdvancesR (execMload core sp len sc scLen err s) := by
  unfold execMload
  repeat' with_reducible first
    | assumption | apply State.issue_advances | apply State.accesses_advances | apply State.mload_advances | apply State.whenUp_advances
    | (intro _)

theorem State.mstep_advances {s₀ s : State} (hs : s₀.Advances s) (n : Nat) (j : Job) (p : MatPair) (b : Nat) (int : Bool) (cnt : Nat)
    (e : Nat) (sp : Nat) (stride : Nat) (sc : Nat) (scStride : Nat) (clear : Bool) (swap : Bool) : s₀.Advances (State.mstep s n j p b int
    cnt e sp stride sc scStride clear swap) := by
  unfold State.mstep
  repeat' with_reducible first
    | assumption | exact .refl _ | apply State.Advances.ite | apply State.fault_advances | apply State.void_advances
    | apply State.addReg_advances | apply State.setCore_advances | (intro _) | exact Nat.le_refl _ | apply State.Advances.upd

theorem execMstep_advances {s₀ s : State} (hs : s₀.Advances s) (core : Nat) (pair : MatPair) (cnt : Nat) (e : Nat) (sp : Nat)
    (stride : Nat) (sc : Nat) (scStride : Nat) (clear : Bool) (swap : Bool) (err : Option SpErr) : s₀.AdvancesR (execMstep core pair cnt e
    sp stride sc scStride clear swap err s) := by
  unfold execMstep
  repeat' with_reducible first
    | assumption | apply State.Advances.ite | apply State.issue_advances | apply State.mstep_advances | apply State.accesses_advances
    | apply State.whenUp_advances | apply State.issueIn_advances | (intro _) | split

theorem State.mdrain_advances {s₀ s : State} (hs : s₀.Advances s) (n : Nat) (j : Job) (e : Nat) (v : Nat) (half : Nat) (clear : Bool) (rq
    : Option Requant) : s₀.Advances (State.mdrain s n j e v half clear rq) := by
  unfold State.mdrain
  repeat' with_reducible first
    | assumption | exact .refl _ | apply State.void_advances | apply State.setCore_advances | exact Nat.le_refl _
    | apply State.Advances.upd

theorem execMdrain_advances {s₀ s : State} (hs : s₀.Advances s) (run : CoreAt) (e : Nat) (v : Nat) (half : Nat) (clear : Bool) (rq :
    Option Requant) : s₀.AdvancesR (execMdrain run e v half clear rq s) := by
  unfold execMdrain
  repeat' with_reducible first
    | assumption | apply State.withErr_advances | apply State.issue_advances | apply State.whenUp_advances | apply State.mdrain_advances
    | (intro _)

theorem State.vload_advances {s₀ s : State} (hs : s₀.Advances s) (n : Nat) (j : Job) (v : Nat) (sp : Nat) (fmt : Nat) (sc : Nat) :
    s₀.Advances (State.vload s n j v sp fmt sc) := by
  unfold State.vload
  repeat' with_reducible first | assumption | apply State.void_advances | apply State.modCore_advances

theorem execVload_advances {s₀ s : State} (hs : s₀.Advances s) (core : Nat) (v : Nat) (sp : Nat) (fmt : Nat) (sc : Nat) (err : Option
    SpErr) : s₀.AdvancesR (execVload core v sp fmt sc err s) := by
  unfold execVload
  repeat' with_reducible first
    | assumption | apply State.issue_advances | apply State.accesses_advances | apply State.whenUp_advances | apply State.vload_advances
    | (intro _)

theorem State.vstore_advances {s₀ s : State} (hs : s₀.Advances s) (n : Nat) (j : Job) (v : Nat) (sp : Nat) (fmt : Nat) (sc : Nat) (raw :
    Bool) : s₀.Advances (State.vstore s n j v sp fmt sc raw) := by
  unfold State.vstore
  repeat' with_reducible first | assumption | apply State.void_advances | apply State.modCore_advances

theorem execVstore_advances {s₀ s : State} (hs : s₀.Advances s) (core : Nat) (v : Nat) (sp : Nat) (fmt : Nat) (sc : Nat) (raw : Bool) (err
    : Option SpErr) : s₀.AdvancesR (execVstore core v sp fmt sc raw err s) := by
  unfold execVstore
  repeat' with_reducible first
    | assumption | apply State.withErr_advances | apply State.issue_advances | apply State.vstore_advances | apply State.whenUp_advances
    | (intro _)

theorem State.vectorOp_advances {s₀ s : State} (hs : s₀.Advances s) (n : Nat) (j : Job) (dst : Nat) (op : VecOp) : s₀.Advances
    (State.vectorOp s n j dst op) := by
  unfold State.vectorOp
  repeat' with_reducible first
    | assumption | exact .refl _ | apply State.void_advances | apply State.modCore_advances | exact Nat.le_refl _
    | apply State.Advances.upd

theorem execVectorOp_advances {s₀ s : State} (hs : s₀.Advances s) (run : CoreAt) (dst : Nat) (op : VecOp) : s₀.AdvancesR (execVectorOp run
    dst op s) := by
  unfold execVectorOp
  repeat' with_reducible first
    | assumption | apply State.withErr_advances | apply State.issue_advances | apply State.whenUp_advances
    | apply State.vectorOp_advances | (intro _)

/-! ### Cache -/

theorem State.evictWay_advances {s₀ s : State} (hs : s₀.Advances s) (line : Nat) : s₀.Advances (State.evictWay s line) := by
  unfold State.evictWay
  repeat' with_reducible first
    | assumption | exact .refl _ | apply State.dropLines_advances | split | exact Nat.le_refl _ | apply State.Advances.upd

theorem State.claimWay_advances {s₀ s : State} (hs : s₀.Advances s) (line : Nat) : s₀.Advances (State.claimWay s line) := by
  unfold State.claimWay
  repeat' with_reducible first | assumption | apply State.Advances.ite | apply State.evictWay_advances | (intro _)

theorem State.allocLine_advances {s₀ s : State} (hs : s₀.Advances s) (origin : Nat) (dirty : Bool) (pin : Option Nat) (line : Nat) :
    s₀.Advances (State.allocLine s origin dirty pin line) := by
  unfold State.allocLine
  repeat' with_reducible first
    | assumption | exact .refl _ | apply State.Advances.ite | apply State.evictWay_advances | (intro _) | split | exact Nat.le_refl _
    | apply State.Advances.upd

theorem State.pinLine_advances {s₀ s : State} (hs : s₀.Advances s) (origin : Nat) (i : Nat) (line : Nat) : s₀.Advances (State.pinLine s
    origin i line) := by
  unfold State.pinLine
  repeat' with_reducible first
    | assumption | apply State.Advances.ite | apply State.bump_advances | apply State.allocLine_advances | (intro _)

theorem State.takeExtent_advances {s₀ s : State} (hs : s₀.Advances s) (ring seq home : Nat) :
    s₀.Advances (State.takeExtent s ring seq home) := by
  have h := (State.modJob_advances hs ring seq (fun j => { j with extents := j.extents ++ [home], places := j.places ++ [s.freeExtent] })).filterPoison
    (fun x => x.1 / 1024 != s.poolAt s.freeExtent / 65536)
  exact h

theorem State.roomLoop_advances {s₀ s : State} (hs : s₀.Advances s) (ring : Nat) (seq : Nat) (ck : Bool) (acc : List Nat) (y5 : List Nat)
    : s₀.AdvancesO (State.roomLoop s ring seq ck acc y5) := by
  induction y5 generalizing s ring seq ck acc hs with
  | nil =>
    unfold State.roomLoop
    repeat' with_reducible first | assumption | apply State.AdvancesO.mk'
  | cons _ _ ih =>
    unfold State.roomLoop
    repeat' with_reducible first
      | assumption | apply State.AdvancesO.ite | apply State.AdvancesO.mk' | exact .ofNone | apply ih | apply State.takeExtent_advances
      | (intro _) | split

theorem State.roomFor_advances {s₀ s : State} (hs : s₀.Advances s) (ring : Nat) (seq : Nat) (ck : Bool) (ls : List Nat) : s₀.AdvancesO
    (State.roomFor s ring seq ck ls) := by
  unfold State.roomFor
  repeat' with_reducible first | assumption | apply State.roomLoop_advances

/-! ### Transfers -/

theorem State.farReads_advances {s₀ s : State} (hs : s₀.Advances s) (j : Job) (n : Nat) (tag : Nat) (src : FillSrc) : s₀.AdvancesP
    (State.farReads s j n tag src) := by
  unfold State.farReads
  repeat' with_reducible first
    | assumption | apply State.AdvancesP.ite | apply State.Advances.setPoison | apply State.handOver_advances
    | apply State.holdRead_advances | apply State.readRemote_advances | apply State.windowRefuse_advances | apply State.AdvancesP.foldl
    | apply State.AdvancesP.fst | (intro _) | apply State.AdvancesP.mk'

theorem State.cacheFill_advances {s₀ s : State} (hs : s₀.Advances s) (j : Job) (n : Nat) (src : FillSrc) : s₀.Advances (State.cacheFill s
    j n src) := by
  unfold State.cacheFill
  repeat' with_reducible first
    | assumption | apply State.Advances.ite | apply State.allocLine_advances | apply State.pinLine_advances | apply State.Advances.foldl
    | (intro _)

theorem State.fill_advances {s₀ s : State} (hs : s₀.Advances s) (n : Nat) (j : Job) (tag : Nat) (src : FillSrc) (sp : Nat) (sc : Nat) :
    s₀.Advances (State.fill s n j tag src sp sc) := by
  unfold State.fill
  repeat' with_reducible first
    | assumption | apply State.Advances.ite | apply State.fault_advances | apply State.bump_advances | apply State.cacheFill_advances
    | apply State.farReads_advances | apply State.modCore_advances | apply State.rimRefuse_advances | apply State.AdvancesP.fst
    | (intro _) | split

theorem execFill_advances {s₀ s : State} (hs : s₀.Advances s) (core : Nat) (tag : Nat) (src : FillSrc) (sp : Nat) (sc : Nat) :
    s₀.AdvancesR (execFill core tag src sp sc s) := by
  unfold execFill
  repeat' with_reducible first
    | assumption | apply State.Advances.ite | apply State.whenUp_advances | apply State.fill_advances | apply State.issueIn_advances
    | (intro _)

theorem State.claimFor_advances {s₀ s s1 : State} (hs : s₀.Advances s) (hs1 : s₀.Advances s1) (j : Job) (n : Nat) (b : Band) : s₀.Advances
    (State.claimFor s j n b s1) := by
  unfold State.claimFor
  repeat' with_reducible first
    | assumption | apply State.Advances.ite | apply State.claimWay_advances | apply State.Advances.foldl | (intro _)

theorem State.drain_advances {s₀ s : State} (hs : s₀.Advances s) (n : Nat) (j : Job) (tag : Nat) (b : Band) (sp : Nat) (sc : Nat) :
    s₀.Advances (State.drain s n j tag b sp sc) := by
  unfold State.drain
  try dsimp -iota only
  repeat' first

    | with_reducible (first | assumption | apply State.Advances.ite | apply State.AdvancesO.ite | apply State.AdvancesO.mk' | apply State.fault_advances | apply State.bump_advances | apply State.claimFor_advances | apply State.modCore_advances | apply State.roomFor_advances | (intro _))
    | (refine State.AdvancesO.of ?_ (by assumption)) | split

theorem execDrain_advances {s₀ s : State} (hs : s₀.Advances s) (run : CoreAt) (tag : Nat) (band : Band) (sp : Nat) (sc : Nat) :
    s₀.AdvancesR (execDrain run tag band sp sc s) := by
  unfold execDrain
  repeat' with_reducible first
    | assumption | apply State.Advances.ite | apply State.withErr_advances | apply State.whenUp_advances | apply State.drain_advances
    | apply State.issueIn_advances | (intro _)

theorem State.drained_advances {s₀ s : State} (hs : s₀.Advances s) (n : Nat) (j : Job) (b : Band) (sp : Nat) (sc : Nat) : s₀.Advances
    (State.drained s n j b sp sc) := by
  unfold State.drained
  repeat' with_reducible first | assumption | apply State.Advances.ite | apply State.modJob_advances | (intro _)

theorem execStageWaitEnd_advances {s₀ s : State} (hs : s₀.Advances s) (core : Nat) : s₀.AdvancesR (execStageWaitEnd core s) := by
  unfold execStageWaitEnd
  repeat' with_reducible first
    | assumption | apply State.claimFor_advances | apply State.modCore_advances | apply State.whenUp_advances
    | apply State.roomFor_advances | (refine State.AdvancesO.of ?_ (by assumption)) | (intro _) | split

theorem State.xchg_advances {s₀ s : State} (hs : s₀.Advances s) (n : Nat) (j : Job) (tag : Nat) (dest : Nat) (dst : Nat) (sp : Nat)
    (len : Nat) : s₀.Advances (State.xchg s n j tag dest dst sp len) := by
  unfold State.xchg
  repeat' with_reducible first
    | assumption | apply State.Advances.ite | apply State.fault_advances | apply State.modCore_advances | (intro _)

theorem execXchg_advances {s₀ s : State} (hs : s₀.Advances s) (run : CoreAt) (tag : Nat) (dest : Nat) (dst : Nat) (sp : Nat) (len : Nat) :
    s₀.AdvancesR (execXchg run tag dest dst sp len s) := by
  unfold execXchg
  repeat' with_reducible first
    | assumption | apply State.Advances.ite | apply State.withErr_advances | apply State.whenUp_advances | apply State.xchg_advances
    | apply State.issueIn_advances | (intro _)

theorem State.fillDone_advances {s₀ s : State} (hs : s₀.Advances s) (n : Nat) (j : Job) (tag : Nat) (src : FillSrc) (sp : Nat) (sc : Nat)
    : s₀.Advances (State.fillDone s n j tag src sp sc) := by
  unfold State.fillDone
  repeat' with_reducible first
    | assumption | apply State.Advances.ite | apply State.fault_advances | apply State.bump_advances | apply State.void_advances
    | apply State.setCore_advances | (intro _)

theorem State.transferDone_advances {s₀ s : State} (hs : s₀.Advances s) (n : Nat) (j : Job) (t : Transfer) : s₀.Advances
    (State.transferDone s n j t) := by
  unfold State.transferDone
  repeat' with_reducible first
    | assumption | apply State.modCore_advances | apply State.fillDone_advances | apply State.progress_advances
    | apply State.drained_advances | split

theorem State.forcedSave_advances {s₀ s : State} (hs : s₀.Advances s) (ring : Nat) (seq : Nat) : s₀.Advances (State.forcedSave s ring seq)
    := by
  unfold State.forcedSave
  repeat' with_reducible first | assumption | apply State.Advances.ite | apply State.saveAll_advances | (intro _) | split

theorem execTransferDone_advances {s₀ s : State} (hs : s₀.Advances s) (core : Nat) (tag : Nat) : s₀.AdvancesR (execTransferDone core tag
    s) := by
  unfold execTransferDone
  repeat' with_reducible first
    | assumption | apply State.Advances.ite | apply State.lateFault_advances | apply State.forcedSave_advances
    | apply State.whenUp_advances | apply State.transferDone_advances | (intro _) | split

theorem execWaitTag_advances {s₀ s : State} (hs : s₀.Advances s) (core : Nat) (tag : Nat) : s₀.AdvancesR (execWaitTag core tag s) := by
  unfold execWaitTag
  repeat' with_reducible first
    | assumption | apply State.Advances.ite | apply State.issue_advances | apply State.modCore_advances | apply State.whenUp_advances
    | (intro _)

theorem execFence_advances {s₀ s : State} (hs : s₀.Advances s) (core : Nat) : s₀.AdvancesR (execFence core s) := by
  unfold execFence
  repeat' with_reducible first | assumption | apply State.issue_advances | apply State.whenUp_advances | (intro _)

theorem execBranch_advances {s₀ s : State} (hs : s₀.Advances s) (core : Nat) (dest : BranchTo) : s₀.AdvancesR (execBranch core dest s)
    := by
  unfold execBranch
  repeat' with_reducible first
    | assumption | apply State.issue_advances | apply State.modCore_advances | apply State.whenUp_advances | apply State.traced_advances
    | (intro _) | split

theorem State.passCheap_advances {s₀ s : State} (hs : s₀.Advances s) (n : Nat) : s₀.Advances (State.passCheap s n) := by
  unfold State.passCheap
  repeat' with_reducible first | assumption | apply State.modCore_advances

theorem State.stopAtCheap_advances {s₀ s : State} (hs : s₀.Advances s) (j : Job) (n : Nat) : s₀.Advances (State.stopAtCheap s j n) := by
  unfold State.stopAtCheap
  repeat' with_reducible first | assumption | apply State.modCore_advances | apply State.setFld_advances | apply State.modJob_advances

theorem State.afterStop_advances {s₀ s : State} (hs : s₀.Advances s) (ring : Nat) (seq : Nat) : s₀.Advances (State.afterStop s ring seq)
    := by
  unfold State.afterStop
  repeat' with_reducible first
    | assumption | apply State.Advances.ite | apply State.conclude_advances | apply State.saveAll_advances | apply State.endJob_advances
    | (intro _) | split

theorem State.markSplit_advances {s₀ s : State} (hs : s₀.Advances s) (j : Job) (n : Nat) : s₀.Advances (State.markSplit s j n) := by
  unfold State.markSplit
  repeat' with_reducible first | assumption | apply State.Advances.ite | apply State.modJob_advances | (intro _) | split

theorem State.cheapOn_advances {s₀ s : State} (hs : s₀.Advances s) (j : Job) (n : Nat) : s₀.Advances (State.cheapOn s j n) := by
  unfold State.cheapOn
  repeat' with_reducible first
    | assumption | apply State.Advances.ite | apply State.passCheap_advances | apply State.stopAtCheap_advances
    | apply State.afterStop_advances | apply State.markSplit_advances | (intro _)

theorem State.cheapBarrier_advances {s₀ s : State} (hs : s₀.Advances s) (j : Job) (n : Nat) : s₀.Advances (State.cheapBarrier s j n) := by
  unfold State.cheapBarrier
  repeat' with_reducible first
    | assumption | apply State.Advances.ite | apply State.modCore_advances | apply State.cheapOn_advances | apply State.Advances.foldl
    | (intro _) | split

theorem execCheap_advances {s₀ s : State} (hs : s₀.Advances s) (core : Nat) : s₀.AdvancesR (execCheap core s) := by
  unfold execCheap
  repeat' with_reducible first
    | assumption | apply State.Advances.ite | apply State.modCore_advances | apply State.whenUp_advances
    | apply State.cheapBarrier_advances | apply State.cheapOn_advances | (intro _) | split

theorem State.qpush_advances {s₀ s : State} (hs : s₀.Advances s) (n : Nat) (j : Job) (dest : Nat) (base : Nat) (size : Nat) (cap : Nat)
    (sp : Nat) : s₀.Advances (State.qpush s n j dest base size cap sp) := by
  unfold State.qpush
  repeat' with_reducible first
    | assumption | apply State.Advances.ite | apply State.fault_advances | apply State.modCore_advances | (intro _)

theorem execQpush_advances {s₀ s : State} (hs : s₀.Advances s) (run : CoreAt) (dest : Nat) (base : Nat) (size : Nat) (cap : Nat)
    (sp : Nat) : s₀.AdvancesR (execQpush run dest base size cap sp s) := by
  unfold execQpush
  repeat' with_reducible first
    | assumption | apply State.issue_advances | apply State.accesses_advances | apply State.whenUp_advances | apply State.qpush_advances
    | (intro _)

theorem State.qpop_advances {s₀ s : State} (hs : s₀.Advances s) (n : Nat) (j : Job) (base : Nat) : s₀.Advances (State.qpop s n j base)
    := by
  unfold State.qpop
  repeat' with_reducible first
    | assumption | apply State.Advances.ite | apply State.fault_advances | apply State.modCore_advances | apply State.Advances.foldl
    | (intro _)

theorem execQpop_advances {s₀ s : State} (hs : s₀.Advances s) (core : Nat) (base : Nat) : s₀.AdvancesR (execQpop core base s) := by
  unfold execQpop
  repeat' with_reducible first
    | assumption | apply State.issue_advances | apply State.qpop_advances | apply State.whenUp_advances | (intro _)

theorem State.spanOverrun_advances {s₀ s : State} (hs : s₀.Advances s) (n : Nat) (j : Job) : s₀.Advances (State.spanOverrun s n j) := by
  unfold State.spanOverrun
  repeat' with_reducible first | assumption | apply State.fault_advances | apply State.bump_advances

theorem execSpanOverrun_advances {s₀ s : State} (hs : s₀.Advances s) (core : Nat) : s₀.AdvancesR (execSpanOverrun core s) := by
  unfold execSpanOverrun
  repeat' with_reducible first
    | assumption | apply State.Advances.ite | apply State.lateFault_advances | apply State.whenUp_advances
    | apply State.spanOverrun_advances | (intro _) | split

theorem State.watchdog_advances {s₀ s : State} (hs : s₀.Advances s) (j : Job) : s₀.Advances (State.watchdog s j) := by
  unfold State.watchdog
  repeat' with_reducible first
    | assumption | apply State.bump_advances | apply State.conclude_advances | apply State.raise_advances | apply State.endJob_advances
    | split

theorem execWatchdogExpire_advances {s₀ s : State} (hs : s₀.Advances s) (core : Nat) : s₀.AdvancesR (execWatchdogExpire core s) := by
  unfold execWatchdogExpire
  repeat' with_reducible first
    | assumption | apply State.Advances.ite | apply State.watchdog_advances | apply State.whenUp_advances
    | apply State.spanOverrun_advances | (intro _) | split

/-! ### Commit -/

theorem State.publish_advances {s₀ s : State} (hs : s₀.Advances s) (j : Job) : s₀.Advances (State.publish s j) := by
  unfold State.publish
  repeat' with_reducible first
    | assumption | exact .refl _ | apply State.Advances.ite | apply State.Advances.writeBytes | apply State.store_advances
    | apply State.Advances.foldl | (intro _) | exact Nat.le_refl _ | apply State.Advances.upd

theorem State.writeBounds_advances {s₀ s : State} (hs : s₀.Advances s) (j : Job) : s₀.Advances (State.writeBounds s j) := by
  unfold State.writeBounds
  repeat' with_reducible first
    | assumption | apply State.Advances.ite | apply State.bump_advances | apply State.store_advances | apply State.Advances.foldl
    | (intro _)

theorem State.addRegion_advances {s₀ s : State} (hs : s₀.Advances s) (r : RegionOut) : s₀.Advances (State.addRegion s r) := by
  unfold State.addRegion
  repeat' with_reducible first
    | assumption | exact .refl _ | apply State.Advances.ite | apply State.bump_advances | (intro _) | exact Nat.le_refl _
    | apply State.Advances.upd

theorem State.askCopyBack_advances {s₀ s : State} (hs : s₀.Advances s) : s₀.Advances (State.askCopyBack s) := by
  unfold State.askCopyBack
  repeat' with_reducible first
    | assumption | apply State.Advances.ite | apply State.obtain_advances | apply State.Advances.foldl | (intro _)

theorem State.commit_advances {s₀ s : State} (hs : s₀.Advances s) (j : Job) : s₀.Advances (State.commit s j) := by
  unfold State.commit
  repeat' with_reducible first
    | assumption | apply State.Advances.ite | apply State.writeBounds_advances | apply State.askCopyBack_advances
    | apply State.addRegion_advances | apply State.stopCores_advances | apply State.dropChecks_advances | apply State.conclude_advances
    | apply State.finish_advances | apply State.publish_advances | apply State.allocLine_advances | apply State.Advances.foldl
    | (intro _)

theorem State.commitRun_advances {s₀ s : State} (hs : s₀.Advances s) (j : Job) : s₀.Advances (State.commitRun s j) := by
  unfold State.commitRun
  repeat' with_reducible first
    | assumption | apply State.Advances.ite | apply State.fault_advances | apply State.commit_advances | (intro _)

theorem State.sealFail_advances {s₀ s : State} (hs : s₀.Advances s) (j : Job) (detail : Nat) : s₀.Advances (State.sealFail s j detail)
    := by
  unfold State.sealFail
  repeat' with_reducible first
    | assumption | apply State.Advances.ite | apply State.conclude_advances | apply State.report_advances | apply State.endJob_advances
    | (intro _)

theorem State.startCompare_advances {s₀ s : State} (hs : s₀.Advances s) (j : Job) : s₀.Advances (State.startCompare s j) := by
  unfold State.startCompare
  repeat' with_reducible first
    | assumption | exact .refl _ | apply State.Advances.ite | apply State.modJob_advances | apply State.assignCmps_advances
    | apply State.takeFree_advances | (intro _) | exact Nat.le_refl _ | apply State.Advances.upd

theorem State.declare_advances {s₀ s : State} (hs : s₀.Advances s) (j : Job) : s₀.Advances (State.declare s j) := by
  unfold State.declare
  repeat' with_reducible first | assumption | apply State.modCore_advances | apply State.Advances.foldl | (intro _)

theorem State.runEnded_advances {s₀ s : State} (hs : s₀.Advances s) (j : Job) : s₀.Advances (State.runEnded s j) := by
  unfold State.runEnded
  try dsimp -iota only
  repeat' first

    | with_reducible (first | assumption | apply State.Advances.ite | apply State.stopCores_advances | apply State.declare_advances | apply State.conclude_advances | apply State.startCompare_advances | apply State.modJob_advances | apply State.sealFail_advances | apply State.commitRun_advances | apply State.takeFree_advances | apply State.endJob_advances | (intro _))
    | split

theorem execJobCommit_advances {s₀ s : State} (hs : s₀.Advances s) (ring : Nat) (seq : Nat) : s₀.AdvancesR (execJobCommit ring seq s)
    := by
  unfold execJobCommit
  repeat' with_reducible first
    | assumption | apply State.Advances.ite | apply State.whenUp_advances | apply State.runEnded_advances
    | apply State.commitRun_advances | (intro _) | split

theorem State.sealDone_advances {s₀ s : State} (hs : s₀.Advances s) (t : SealTask) (k : Nat) (j : Job) : s₀.Advances (State.sealDone s t k
    j) := by
  unfold State.sealDone
  repeat' with_reducible first
    | assumption | exact .refl _ | apply State.Advances.ite | apply State.fault_advances | apply State.conclude_advances
    | apply State.modJob_advances | apply State.alwDrop_advances | apply State.sealFail_advances | apply State.noteReads_advances
    | apply State.endJob_advances | (intro _) | split | exact Nat.le_refl _ | apply State.Advances.upd

theorem execSealCheckDone_advances {s₀ s : State} (hs : s₀.Advances s) (checker : Nat) : s₀.AdvancesR (execSealCheckDone checker s) := by
  unfold execSealCheckDone
  repeat' with_reducible first
    | assumption | apply State.Advances.ite | apply State.whenUp_advances | apply State.sealDone_advances | (intro _) | split

theorem State.movedHome_advances {s₀ s : State} (hs : s₀.Advances s) (extent : Nat) : s₀.Advances (State.movedHome s extent) := by
  unfold State.movedHome
  repeat' with_reducible first
    | assumption | exact .refl _ | apply State.Advances.setPoison | apply State.Advances.foldl | (intro _) | exact Nat.le_refl _
    | apply State.Advances.upd

theorem execCopyBackDone_advances {s₀ s : State} (hs : s₀.Advances s) (extent : Nat) : s₀.AdvancesR (execCopyBackDone extent s) := by
  unfold execCopyBackDone
  repeat' with_reducible first
    | assumption | apply State.Advances.ite | apply State.movedHome_advances | apply State.whenUp_advances | apply State.alwDrop_advances
    | (intro _)

theorem State.writeStage_advances {s₀ s : State} (hs : s₀.Advances s) (o : Origin) (value : Word) : s₀.Advances (State.writeStage s o
    value) := by
  unfold State.writeStage
  repeat' with_reducible first
    | assumption | apply State.Advances.ite | apply State.setFld_advances | apply State.writeBy_advances | (intro _)

theorem execMemStageWrite_advances {s₀ s : State} (hs : s₀.Advances s) (o : Origin) (value : Word) : s₀.AdvancesR (execMemStageWrite o
    value s) := by
  unfold execMemStageWrite
  repeat' with_reducible first | assumption | apply State.writeStage_advances | apply State.whenUp_advances | (intro _)

theorem execStageMove_advances {s₀ s : State} (hs : s₀.Advances s) : s₀.AdvancesR (execStageMove s) := by
  unfold execStageMove
  repeat' with_reducible first
    | assumption | exact .refl _ | apply State.Advances.ite | apply State.setFld_advances | apply State.whenUp_advances | (intro _)
    | exact Nat.le_refl _ | apply State.Advances.upd

/-! ### ArraySched -/

theorem execJobPlace_advances {s₀ s : State} (hs : s₀.Advances s) : s₀.AdvancesR (execJobPlace s) := by
  unfold execJobPlace
  repeat' with_reducible first | assumption | apply State.whenUp_advances | apply State.placeNext_advances

theorem State.haltCores_advances {s₀ s : State} (hs : s₀.Advances s) (j : Job) : s₀.Advances (State.haltCores s j) := by
  unfold State.haltCores
  repeat' with_reducible first | assumption | apply State.modCore_advances | apply State.Advances.foldl | (intro _)

theorem State.force_advances {s₀ s : State} (hs : s₀.Advances s) (j : Job) : s₀.Advances (State.force s j) := by
  unfold State.force
  repeat' with_reducible first
    | assumption | apply State.bump_advances | apply State.haltCores_advances | apply State.forcedSave_advances
    | apply State.modJob_advances

theorem execForcedPreempt_advances {s₀ s : State} (hs : s₀.Advances s) (ring : Nat) (seq : Nat) : s₀.AdvancesR (execForcedPreempt ring seq
    s) := by
  unfold execForcedPreempt
  repeat' with_reducible first
    | assumption | apply State.Advances.ite | apply State.force_advances | apply State.whenUp_advances | (intro _) | split

theorem execSaveDone_advances {s₀ s : State} (hs : s₀.Advances s) (ring : Nat) (seq : Nat) : s₀.AdvancesR (execSaveDone ring seq s) := by
  unfold execSaveDone
  repeat' with_reducible first
    | assumption | apply State.Advances.ite | apply State.conclude_advances | apply State.whenUp_advances | apply State.endSave_advances
    | apply State.endJob_advances | (intro _) | split

theorem execReservationExpire_advances {s₀ s : State} (hs : s₀.Advances s) (ring : Nat) (seq : Nat) (gen : Nat) : s₀.AdvancesR
    (execReservationExpire ring seq gen s) := by
  unfold execReservationExpire
  repeat' with_reducible first
    | assumption | apply State.Advances.ite | apply State.bump_advances | apply State.whenUp_advances | apply State.modJob_advances
    | (intro _) | split

theorem State.prepareOn_advances {s₀ s : State} (hs : s₀.Advances s) (n : Nat) : s₀.Advances (State.prepareOn s n) := by
  unfold State.prepareOn
  repeat' with_reducible first
    | assumption | apply State.Advances.ite | apply State.prepCore_advances | apply State.alwDrop_advances | (intro _) | split

theorem State.switchDone_advances {s₀ s : State} (hs : s₀.Advances s) (n : Nat) : s₀.Advances (State.switchDone s n) := by
  unfold State.switchDone
  repeat' with_reducible first
    | assumption | apply State.modCore_advances | apply State.addReg_advances | apply State.prepareOn_advances
    | apply State.setMode_advances

theorem execModeSwitchDone_advances {s₀ s : State} (hs : s₀.Advances s) (core : Nat) : s₀.AdvancesR (execModeSwitchDone core s) := by
  unfold execModeSwitchDone
  repeat' with_reducible first
    | assumption | apply State.Advances.ite | apply State.conclude_advances | apply State.whenUp_advances
    | apply State.switchDone_advances | (intro _)

theorem State.scrubbed_advances {s₀ s : State} (hs : s₀.Advances s) (n : Nat) : s₀.Advances (State.scrubbed s n) := by
  unfold State.scrubbed
  repeat' with_reducible first
    | assumption | apply State.modCore_advances | apply State.setFld_advances | apply State.alwDrop_advances
    | apply State.prepareOn_advances

theorem execScrubDone_advances {s₀ s : State} (hs : s₀.Advances s) (core : Option Nat) : s₀.AdvancesR (execScrubDone core s) := by
  unfold execScrubDone
  repeat' with_reducible first
    | assumption | apply State.Advances.ite | apply State.dropLines_advances | apply State.conclude_advances
    | apply State.whenUp_advances | apply State.scrubbed_advances | (intro _) | split

theorem State.countFault_advances {s₀ s : State} (hs : s₀.Advances s) (v : Nat) : s₀.Advances (State.countFault s v) := by
  unfold State.countFault
  repeat' with_reducible first
    | assumption | exact .refl _ | apply State.Advances.ite | apply State.setBit_advances | apply State.auditLog_advances
    | apply State.raise_advances | (intro _) | exact Nat.le_refl _ | apply State.Advances.upd

theorem State.faultDone_advances {s₀ s : State} (hs : s₀.Advances s) (j : Job) : s₀.Advances (State.faultDone s j) := by
  unfold State.faultDone
  repeat' with_reducible first | assumption | apply State.countFault_advances | apply State.endJob_advances

theorem State.requeue_advances {s₀ s : State} (hs : s₀.Advances s) (j : Job) : s₀.Advances (State.requeue s j) := by
  unfold State.requeue
  repeat' with_reducible first | assumption | apply State.backToReady_advances | apply State.endJob_advances | split

theorem State.flushRecord_advances {s₀ s : State} (hs : s₀.Advances s) (f : Flush) (requeued : Nat) (faulted : Nat) : s₀.Advances
    (State.flushRecord s f requeued faulted) := by
  unfold State.flushRecord
  repeat' with_reducible first | assumption | apply State.Advances.setReg

theorem State.flushEnd_advances {s₀ s : State} (hs : s₀.Advances s) (f : Flush) : s₀.Advances (State.flushEnd s f) := by
  unfold State.flushEnd
  repeat' with_reducible first
    | assumption | exact .refl _ | apply State.bump_advances | apply State.conclude_advances | apply State.requeue_advances
    | apply State.raise_advances | apply State.frozenCheck_advances | apply State.flushRecord_advances | apply State.faultDone_advances
    | apply State.Advances.foldl | (intro _) | exact Nat.le_refl _ | apply State.Advances.upd

theorem execFlushEnd_advances {s₀ s : State} (hs : s₀.Advances s) : s₀.AdvancesR (execFlushEnd s) := by
  unfold execFlushEnd
  repeat' with_reducible first | assumption | apply State.whenUp_advances | apply State.flushEnd_advances | (intro _) | split

theorem State.resumed_advances {s₀ s t : State} (hs : s₀.Advances s) (ht : s₀.Advances t) : s₀.Advances (State.resumed s t) := by
  unfold State.resumed
  repeat' with_reducible first
    | assumption | exact .refl _ | apply State.conclude_advances | apply State.fetch_advances | apply State.Advances.foldl | (intro _)
    | exact Nat.le_refl _ | apply State.Advances.upd

theorem State.writeSuspend_advances {s₀ s : State} (hs : s₀.Advances s) (o : Origin) (value : Word) : s₀.Advances (State.writeSuspend s o
    value) := by
  unfold State.writeSuspend
  repeat' with_reducible first | assumption | apply State.writeBy_advances | apply State.resumed_advances

theorem execViResume_advances {s₀ s : State} (hs : s₀.Advances s) (o : Origin) (v : Nat) : s₀.AdvancesR (execViResume o v s) := by
  unfold execViResume
  repeat' with_reducible first | assumption | apply State.whenUp_advances | apply State.writeSuspend_advances | (intro _)

theorem State.putWords_advances {s₀ s : State} (hs : s₀.Advances s) (k : Nat) (y2 : List Nat) : s₀.Advances (State.putWords s k y2) := by
  induction y2 generalizing s k hs with
  | nil =>
    unfold State.putWords
    repeat' with_reducible assumption
  | cons _ _ ih =>
    unfold State.putWords
    repeat' with_reducible first | assumption | apply ih | apply State.Advances.setReg

theorem execHotRead_advances {s₀ s : State} (hs : s₀.Advances s) (o : Origin) (idx : Nat) : s₀.AdvancesR (execHotRead o idx s) := by
  unfold execHotRead
  repeat' with_reducible first
    | assumption | apply State.command_advances | apply State.putWords_advances | apply State.whenUp_advances | (intro _)
    | apply State.AdvancesP.mk'

theorem State.hotRegister_advances {s₀ s : State} (hs : s₀.Advances s) (e : HotEntry) (i : Nat) : s₀.AdvancesP (State.hotRegister s e i)
    := by
  unfold State.hotRegister
  repeat' with_reducible first
    | assumption | apply State.AdvancesP.ite | apply State.setHot_advances | (intro _) | apply State.AdvancesP.mk'

theorem execHotRegister_advances {s₀ s : State} (hs : s₀.Advances s) (o : Origin) (idx : Nat) : s₀.AdvancesR (execHotRegister o idx s)
    := by
  unfold execHotRegister
  repeat' with_reducible first
    | assumption | apply State.command_advances | apply State.whenUp_advances | apply State.hotRegister_advances | (intro _)

theorem execHotUnregister_advances {s₀ s : State} (hs : s₀.Advances s) (o : Origin) (idx : Nat) : s₀.AdvancesR (execHotUnregister o idx s)
    := by
  unfold execHotUnregister
  repeat' with_reducible first
    | assumption | apply State.AdvancesP.ite | apply State.command_advances | apply State.hotRetry_advances | apply State.whenUp_advances
    | apply State.unpin_advances | apply State.alwDrop_advances | apply State.setHot_advances | (intro _) | apply State.AdvancesP.mk'

theorem execHotSetFlags_advances {s₀ s : State} (hs : s₀.Advances s) (o : Origin) (idx : Nat) : s₀.AdvancesR (execHotSetFlags o idx s)
    := by
  unfold execHotSetFlags
  repeat' with_reducible first
    | assumption | apply State.AdvancesP.ite | apply State.command_advances | apply State.hotRetry_advances | apply State.whenUp_advances
    | apply State.unpin_advances | apply State.setHot_advances | (intro _) | split | apply State.AdvancesP.mk'

theorem execHotEvict_advances {s₀ s : State} (hs : s₀.Advances s) (o : Origin) (idx : Nat) : s₀.AdvancesR (execHotEvict o idx s) := by
  unfold execHotEvict
  repeat' with_reducible first
    | assumption | apply State.AdvancesP.ite | apply State.command_advances | apply State.hotRetry_advances | apply State.whenUp_advances
    | apply State.hotDrop_advances | (intro _) | apply State.AdvancesP.mk'

theorem State.writeImage_advances {s₀ s : State} (hs : s₀.Advances s) (e : HotEntry) (bs : List Byte) : s₀.Advances (State.writeImage s e
    bs) := by
  unfold State.writeImage
  repeat' with_reducible first | assumption | apply State.store_advances | apply State.Advances.foldl | (intro _)

theorem State.loadFailed_advances {s₀ s : State} (hs : s₀.Advances s) (i : Nat) : s₀.Advances (State.loadFailed s i) := by
  unfold State.loadFailed
  repeat' with_reducible first
    | assumption | apply State.bump_advances | apply State.alwDrop_advances | apply State.raise_advances | apply State.hotDrop_advances
    | apply State.endJob_advances | apply State.Advances.foldl | (intro _)

theorem State.loaded_advances {s₀ s : State} (hs : s₀.Advances s) (i : Nat) (bs : List Byte) : s₀.Advances (State.loaded s i bs) := by
  unfold State.loaded
  repeat' with_reducible first
    | assumption | apply State.admitResident_advances | apply State.raiseFair_advances | apply State.alwDrop_advances
    | apply State.writeImage_advances | apply State.setHot_advances | apply State.Advances.foldl | (intro _) | split

theorem execHotLoadDone_advances {s₀ s : State} (hs : s₀.Advances s) (entry : Nat) (bytes : Option (List Byte)) : s₀.AdvancesR
    (execHotLoadDone entry bytes s) := by
  unfold execHotLoadDone
  repeat' with_reducible first
    | assumption | apply State.Advances.ite | apply State.bump_advances | apply State.loadFailed_advances | apply State.conclude_advances
    | apply State.whenUp_advances | apply State.loaded_advances | (intro _) | split

theorem State.writePool_advances {s₀ s : State} (hs : s₀.Advances s) (o : Origin) (k : Nat) (value : Word) : s₀.Advances (State.writePool
    s o k value) := by
  unfold State.writePool
  repeat' with_reducible first
    | assumption | apply State.Advances.ite | apply State.setFld_advances | apply State.writeBy_advances | (intro _)

theorem execSavePoolMove_advances {s₀ s : State} (hs : s₀.Advances s) : s₀.AdvancesR (execSavePoolMove s) := by
  unfold execSavePoolMove
  repeat' with_reducible first
    | assumption | exact .refl _ | apply State.Advances.ite | apply State.setFld_advances | apply State.whenUp_advances | (intro _)
    | exact Nat.le_refl _ | apply State.Advances.upd

theorem State.moveHot_advances {s₀ s : State} (hs : s₀.Advances s) : s₀.Advances (State.moveHot s) := by
  unfold State.moveHot
  repeat' with_reducible first
    | assumption | exact .refl _ | apply State.setFld_advances | apply State.hotRetry_advances | apply State.startLoad_advances
    | apply State.hotDrop_advances | apply State.Advances.foldl | (intro _) | exact Nat.le_refl _ | apply State.Advances.upd

theorem execHotRegionMove_advances {s₀ s : State} (hs : s₀.Advances s) : s₀.AdvancesR (execHotRegionMove s) := by
  unfold execHotRegionMove
  repeat' with_reducible first
    | assumption | apply State.Advances.ite | apply State.moveHot_advances | apply State.whenUp_advances | (intro _)

/-! ### Assist -/

theorem State.assistSteps_advances {s₀ s : State} (hs : s₀.Advances s) (n : Nat) (work : Nat) : s₀.Advances (State.assistSteps s n work)
    := by
  unfold State.assistSteps
  repeat' with_reducible first | assumption | apply State.modCore_advances

theorem State.assistOp_advances {s₀ s : State} (hs : s₀.Advances s) (n : Nat) (pbOff : Nat) (err : Option SpErr) (extra : List Byte →
    Bool) (f : State → Job → List Byte → State) (hf : ∀ x0 x1 x2, s₀.Advances x0 → s₀.Advances (f x0 x1 x2)) : s₀.Advances (State.assistOp
    s n pbOff err extra f) := by
  unfold State.assistOp
  repeat' with_reducible first
    | assumption | apply State.Advances.ite | apply hf | apply State.fault_advances | apply State.modCore_advances
    | apply State.accesses_advances | apply State.issueIn_advances | (intro _)

theorem State.putArea_advances {s₀ s : State} (hs : s₀.Advances s) (n : Nat) (pb : List Byte) (a : Assist) : s₀.Advances (State.putArea s
    n pb a) := by
  unfold State.putArea
  repeat' with_reducible first
    | assumption | exact .refl _ | apply State.modCore_advances | exact Nat.le_refl _ | apply State.Advances.upd

theorem State.scan_advances {s₀ s : State} (hs : s₀.Advances s) (n : Nat) (j : Job) (a : ScanArgs) (pb : List Byte) : s₀.Advances
    (State.scan s n j a pb) := by
  unfold State.scan
  repeat' with_reducible first
    | assumption | exact .refl _ | apply State.assistSteps_advances | apply State.void_advances | apply State.putArea_advances
    | exact Nat.le_refl _ | apply State.Advances.upd

theorem execScan_advances {s₀ s : State} (hs : s₀.Advances s) (run : CoreAt) (pb : Nat) (score : Nat) (box : Nat) (anch : Nat)
    (first : Nat) (cells : Nat) : s₀.AdvancesR (execScan run pb score box anch first cells s) := by
  unfold execScan
  repeat' with_reducible first
    | assumption | apply State.assistOp_advances | apply State.whenUp_advances | apply State.scan_advances | (intro _)

theorem State.sortAssist_advances {s₀ s : State} (hs : s₀.Advances s) (n : Nat) (pb : List Byte) : s₀.Advances (State.sortAssist s n pb)
    := by
  unfold State.sortAssist
  repeat' with_reducible first
    | assumption | exact .refl _ | apply State.assistSteps_advances | apply State.putArea_advances | exact Nat.le_refl _
    | apply State.Advances.upd

theorem execSort_advances {s₀ s : State} (hs : s₀.Advances s) (run : CoreAt) (pb : Nat) : s₀.AdvancesR (execSort run pb s) := by
  unfold execSort
  repeat' with_reducible first
    | assumption | apply State.assistOp_advances | apply State.sortAssist_advances | apply State.whenUp_advances | (intro _)

theorem State.suppress_advances {s₀ s : State} (hs : s₀.Advances s) (n : Nat) (j : Job) (first : Nat) (rounds : Nat) (pb : List Byte) :
    s₀.Advances (State.suppress s n j first rounds pb) := by
  unfold State.suppress
  repeat' with_reducible first
    | assumption | exact .refl _ | apply State.assistSteps_advances | apply State.void_advances | apply State.putArea_advances
    | exact Nat.le_refl _ | apply State.Advances.upd

theorem execSuppress_advances {s₀ s : State} (hs : s₀.Advances s) (run : CoreAt) (pb : Nat) (first : Nat) (rounds : Nat) : s₀.AdvancesR
    (execSuppress run pb first rounds s) := by
  unfold execSuppress
  repeat' with_reducible first
    | assumption | apply State.assistOp_advances | apply State.whenUp_advances | apply State.suppress_advances | (intro _)

theorem State.emitList_advances {s₀ s : State} (hs : s₀.Advances s) (n : Nat) (j : Job) (pb : List Byte) : s₀.Advances (State.emitList s n
    j pb) := by
  unfold State.emitList
  repeat' with_reducible first
    | assumption | exact .refl _ | apply State.assistSteps_advances | apply State.modCore_advances | apply State.modJob_advances
    | exact Nat.le_refl _ | apply State.Advances.upd

theorem execEmit_advances {s₀ s : State} (hs : s₀.Advances s) (run : CoreAt) (pb : Nat) : s₀.AdvancesR (execEmit run pb s) := by
  unfold execEmit
  repeat' with_reducible first
    | assumption | apply State.assistOp_advances | apply State.whenUp_advances | apply State.emitList_advances | (intro _)

end Sys2Proof.Machine
end

