-- ==== Sys2Proof/Laws/AdvancesStreams.lean ====
section
/-! SUPPORT. One lemma per function: from a state in which the invariant holds it advances (the intake, the media engines, the display and fusion). -/

namespace Sys2Proof.Machine

/-! ### Intake -/

theorem State.setChan_advances {s₀ s : State} (hs : s₀.Advances s) (n : Nat) (c : Chan) : s₀.Advances (State.setChan s n c) := by
  unfold State.setChan
  repeat' with_reducible first | assumption | exact .refl _ | exact Nat.le_refl _ | apply State.Advances.upd

theorem State.modChan_advances {s₀ s : State} (hs : s₀.Advances s) (n : Nat) (f : Chan → Chan) : s₀.Advances (State.modChan s n f) := by
  unfold State.modChan
  repeat' with_reducible first | assumption | apply State.setChan_advances

theorem State.assignQ_advances {s₀ s : State} (hs : s₀.Advances s) (n : Nat) (firing : Option Nat) : s₀.AdvancesP (State.assignQ s n
    firing) := by
  unfold State.assignQ
  repeat' with_reducible first
    | assumption | apply State.AdvancesP.ite | apply State.setChan_advances | (intro _) | apply State.AdvancesP.mk'

theorem State.trigger_advances {s₀ s : State} (hs : s₀.Advances s) (pin : Nat) : s₀.Advances (State.trigger s pin) := by
  unfold State.trigger
  repeat' with_reducible first
    | assumption | apply State.modChan_advances | apply State.assignQ_advances | apply State.Advances.foldl | apply State.AdvancesP.fst
    | (intro _)

theorem State.takeRegions_advances {s₀ s : State} (hs : s₀.Advances s) (n : Nat) (time : Nat) : s₀.AdvancesP (State.takeRegions s n time)
    := by
  unfold State.takeRegions
  repeat' with_reducible first
    | assumption | exact .refl _ | apply State.AdvancesP.ite | apply State.setChan_advances | (intro _) | split
    | apply State.AdvancesP.mk' | exact Nat.le_refl _ | apply State.Advances.upd

theorem State.beginSample_advances {s₀ s : State} (hs : s₀.Advances s) (n : Nat) (q : Nat) (time : Nat) (fc : Nat) (gap : Bool) :
    s₀.Advances (State.beginSample s n q time fc gap) := by
  unfold State.beginSample
  repeat' with_reducible first | assumption | apply State.modChan_advances | apply State.takeRegions_advances | apply State.AdvancesP.fst

theorem State.liveStart_advances {s₀ s : State} (hs : s₀.Advances s) (n : Nat) (fc : Nat) (gap : Bool) : s₀.Advances (State.liveStart s n
    fc gap) := by
  unfold State.liveStart
  try dsimp -iota only
  repeat' first

    | with_reducible (first | assumption | apply State.Advances.ite | apply State.bump_advances | apply State.modChan_advances | apply State.setChan_advances | apply State.beginSample_advances | apply State.assignQ_advances | (intro _))
    | (refine State.AdvancesP.of ?_ (by assumption)) | split

theorem State.storeRows_advances {s₀ s : State} (hs : s₀.Advances s) (y1 : Nat) (y2 : List (List Byte)) : s₀.Advances (State.storeRows s
    y1 y2) := by
  induction y2 generalizing s y1 hs with
  | nil =>
    unfold State.storeRows
    repeat' with_reducible assumption
  | cons _ _ ih =>
    unfold State.storeRows
    repeat' with_reducible first | assumption | apply ih | apply State.store_advances

theorem State.putFrame_advances {s₀ s : State} (hs : s₀.Advances s) (n : Nat) (k : Nat) (i : Nat) (m : Sample) : s₀.AdvancesP
    (State.putFrame s n k i m) := by
  unfold State.putFrame
  repeat' with_reducible first
    | assumption | apply State.bump_advances | apply State.store_advances | apply State.takeFree_advances
    | apply State.storeRows_advances | (refine State.Advances.ofSnd ?_ (by assumption)) | split | apply State.AdvancesP.mk'

theorem State.putCrop_advances {s₀ s : State} (hs : s₀.Advances s) (n : Nat) (k : Nat) (roi : Nat) (j : Nat) (first : Nat) (m : Sample)
    (rec : Option (List Byte)) : s₀.AdvancesP (State.putCrop s n k roi j first m rec) := by
  unfold State.putCrop
  repeat' with_reducible first
    | assumption | apply State.bump_advances | apply State.store_advances | apply State.takeFree_advances
    | apply State.storeRows_advances | (refine State.Advances.ofSnd ?_ (by assumption)) | split | apply State.AdvancesP.mk'

theorem State.putRoi_advances {s₀ s : State} (hs : s₀.Advances s) (n : Nat) (k : Nat) (roi : Nat) (m : Sample) : s₀.Advances (State.putRoi
    s n k roi m) := by
  unfold State.putRoi
  repeat' with_reducible first
    | assumption | apply State.Advances.ite | apply State.store_advances | apply State.putCrop_advances | apply State.AdvancesP.foldl
    | apply State.AdvancesP.fst | exact .ofMk (by assumption) | (intro _) | split | apply State.AdvancesP.mk'

theorem State.deliverSlot_advances {s₀ s : State} (hs : s₀.Advances s) (n : Nat) (place : Nat) (ms : List Sample) : s₀.Advances
    (State.deliverSlot s n place ms) := by
  unfold State.deliverSlot
  repeat' with_reducible first
    | assumption | apply State.Advances.ite | apply State.putRoi_advances | apply State.knotSet_advances | apply State.store_advances
    | apply State.addReg_advances | apply State.putFrame_advances | apply State.knotAdd_advances | apply State.Advances.foldl
    | apply State.AdvancesP.foldl | apply State.AdvancesP.fst | exact .ofMk (by assumption) | (intro _) | split
    | apply State.AdvancesP.mk'

theorem State.deliverReady_advances {s₀ y1 : State} (hy1 : s₀.Advances y1) (y0 : Nat) (y2 : Nat) : s₀.Advances (State.deliverReady y0 y1
    y2) := by
  induction y0 generalizing y1 y2 hy1 with
  | zero =>
    unfold State.deliverReady
    repeat' with_reducible assumption
  | succ _ ih =>
    unfold State.deliverReady
    repeat' with_reducible first
      | assumption | apply State.Advances.ite | apply ih | apply State.deliverSlot_advances | apply State.setChan_advances | (intro _)

theorem State.settleSample_advances {s₀ s : State} (hs : s₀.Advances s) (n : Nat) (q : Nat) (status : Nat) (f : Sample → Sample) :
    s₀.Advances (State.settleSample s n q status f) := by
  unfold State.settleSample
  repeat' with_reducible first | assumption | apply State.modChan_advances | apply State.deliverReady_advances

theorem State.complete_advances {s₀ s : State} (hs : s₀.Advances s) (n : Nat) (q : Nat) : s₀.Advances (State.complete s n q) := by
  unfold State.complete
  repeat' with_reducible first | assumption | apply State.modChan_advances | apply State.settleSample_advances | split

theorem State.lateData_advances {s₀ s : State} (hs : s₀.Advances s) (n : Nat) : s₀.Advances (State.lateData s n) := by
  unfold State.lateData
  repeat' with_reducible first
    | assumption | apply State.Advances.ite | apply State.bump_advances | apply State.modChan_advances | (intro _)

theorem State.onCurrent_advances {s₀ s : State} (hs : s₀.Advances s) (n : Nat) (f : State → Nat → State) (hf : ∀ x0 x1, s₀.Advances x0 →
    s₀.Advances (f x0 x1)) : s₀.Advances (State.onCurrent s n f) := by
  unfold State.onCurrent
  repeat' with_reducible first | assumption | apply State.Advances.ite | apply hf | apply State.lateData_advances | (intro _) | split

theorem State.headerError_advances {s₀ s : State} (hs : s₀.Advances s) (n : Nat) (hdr : Nat) : s₀.Advances (State.headerError s n hdr)
    := by
  unfold State.headerError
  repeat' with_reducible first | assumption | apply State.Advances.ite | apply State.bump_advances | (intro _)

theorem State.linkError_advances {s₀ s : State} (hs : s₀.Advances s) (n : Nat) (hdr : Nat) (crcOk : Bool) : s₀.Advances (State.linkError s
    n hdr crcOk) := by
  unfold State.linkError
  repeat' with_reducible first | assumption | apply State.Advances.ite | apply State.modChan_advances | (intro _) | split

theorem State.checkFc_advances {s₀ s : State} (hs : s₀.Advances s) (n : Nat) (fc : Nat) : s₀.AdvancesP (State.checkFc s n fc) := by
  unfold State.checkFc
  repeat' with_reducible first | assumption | apply State.bump_advances | apply State.modChan_advances | split | apply State.AdvancesP.mk'

theorem execFrameStart_advances {s₀ s : State} (hs : s₀.Advances s) (rx : Nat) (vc : Nat) (fc : Nat) (hdr : Nat) : s₀.AdvancesR
    (execFrameStart rx vc fc hdr s) := by
  unfold execFrameStart
  repeat' with_reducible first
    | assumption | apply State.checkFc_advances | apply State.liveStart_advances | apply State.whenUp_advances
    | apply State.linkError_advances | apply State.headerError_advances | apply State.Advances.foldl | apply State.AdvancesP.fst
    | (intro _)

theorem execLongPacket_advances {s₀ s : State} (hs : s₀.Advances s) (rx : Nat) (vc : Nat) (dt : Nat) (hdr : Nat) (crcOk : Bool) (bytes :
    List Byte) : s₀.AdvancesR (execLongPacket rx vc dt hdr crcOk bytes s) := by
  unfold execLongPacket
  repeat' with_reducible first
    | assumption | apply State.Advances.ite | apply State.onCurrent_advances | apply State.modChan_advances | apply State.whenUp_advances
    | apply State.linkError_advances | apply State.headerError_advances | apply State.Advances.foldl | (intro _)

theorem execFrameEnd_advances {s₀ s : State} (hs : s₀.Advances s) (rx : Nat) (vc : Nat) (hdr : Nat) : s₀.AdvancesR (execFrameEnd rx vc hdr
    s) := by
  unfold execFrameEnd
  repeat' with_reducible first
    | assumption | apply State.onCurrent_advances | apply State.modChan_advances | apply State.conclude_advances
    | apply State.complete_advances | apply State.whenUp_advances | apply State.linkError_advances | apply State.headerError_advances
    | apply State.Advances.foldl | (intro _)

theorem State.tdmFrame_advances {s₀ s : State} (hs : s₀.Advances s) (n : Nat) (slots : List Nat) : s₀.Advances (State.tdmFrame s n slots)
    := by
  unfold State.tdmFrame
  try dsimp -iota only
  repeat' first

    | with_reducible (first | assumption | apply State.Advances.ite | apply State.lateData_advances | apply State.modChan_advances | apply State.setChan_advances | apply State.complete_advances | apply State.liveStart_advances | (intro _))
    | split

theorem State.queueStatus_advances {s₀ s : State} (hs : s₀.Advances s) (a : QueueArea) (r : Ring) : s₀.Advances (State.queueStatus s a r)
    := by
  unfold State.queueStatus
  repeat' with_reducible first | assumption | apply State.store_advances

theorem State.tdmSend_advances {s₀ s : State} (hs : s₀.Advances s) (port : Nat) : s₀.Advances (State.tdmSend s port) := by
  unfold State.tdmSend
  try dsimp -iota only
  repeat' first

    | with_reducible (first | assumption | apply State.Advances.ite | apply State.countSlip_advances | apply State.modChan_advances | apply State.setChan_advances | apply State.queueStatus_advances | apply State.emit_advances | (intro _))
    | split

theorem execTdmFrame_advances {s₀ s : State} (hs : s₀.Advances s) (port : Nat) (slots : List Nat) : s₀.AdvancesR (execTdmFrame port slots
    s) := by
  unfold execTdmFrame
  repeat' with_reducible first
    | assumption | apply State.tdmFrame_advances | apply State.tdmSend_advances | apply State.conclude_advances
    | apply State.whenUp_advances | apply State.Advances.foldl | (intro _)

theorem State.intakeSlip_advances {s₀ s : State} (hs : s₀.Advances s) (kind : Nat) (unit : Nat) : s₀.Advances (State.intakeSlip s kind
    unit) := by
  unfold State.intakeSlip
  repeat' with_reducible first
    | assumption | apply State.Advances.ite | apply State.onCurrent_advances | apply State.modChan_advances
    | apply State.conclude_advances | apply State.settleSample_advances | apply State.Advances.foldl | (intro _)

theorem execLateBudgetExpire_advances {s₀ s : State} (hs : s₀.Advances s) (ch : Nat) (q : Nat) : s₀.AdvancesR (execLateBudgetExpire ch q
    s) := by
  unfold execLateBudgetExpire
  repeat' with_reducible first
    | assumption | apply State.Advances.ite | apply State.conclude_advances | apply State.whenUp_advances
    | apply State.settleSample_advances | (intro _) | split

theorem State.enableChan_advances {s₀ s : State} (hs : s₀.Advances s) (n : Nat) : s₀.Advances (State.enableChan s n) := by
  unfold State.enableChan
  repeat' with_reducible first
    | assumption | apply State.Advances.ite | apply State.modChan_advances | apply State.conclude_advances | apply State.ask_advances
    | apply State.setFld_advances | (intro _)

theorem State.disableChan_advances {s₀ s : State} (hs : s₀.Advances s) (n : Nat) : s₀.Advances (State.disableChan s n) := by
  unfold State.disableChan
  repeat' with_reducible first
    | assumption | apply State.conclude_advances | apply State.setChan_advances | apply State.alwDrop_advances
    | apply State.bumpN_advances

theorem State.writeChan_advances {s₀ s : State} (hs : s₀.Advances s) (o : Origin) (n : Nat) (value : Word) : s₀.Advances (State.writeChan
    s o n value) := by
  unfold State.writeChan
  try dsimp -iota only
  repeat' first

    | with_reducible (first | assumption | apply State.Advances.ite | apply State.modChan_advances | apply State.enableChan_advances | apply State.setFld_advances | apply State.writeBy_advances | apply State.disableChan_advances | (intro _))
    | split

theorem execChannelEnable_advances {s₀ s : State} (hs : s₀.Advances s) (o : Origin) (n : Nat) (value : Word) : s₀.AdvancesR
    (execChannelEnable o n value s) := by
  unfold execChannelEnable
  repeat' with_reducible first
    | assumption | apply State.Advances.ite | apply State.whenUp_advances | apply State.writeChan_advances | (intro _)

theorem execChannelDisable_advances {s₀ s : State} (hs : s₀.Advances s) (o : Origin) (n : Nat) (value : Word) : s₀.AdvancesR
    (execChannelDisable o n value s) := by
  unfold execChannelDisable
  repeat' with_reducible first
    | assumption | apply State.Advances.ite | apply State.whenUp_advances | apply State.writeChan_advances | (intro _)

theorem execUnordWrite_advances {s₀ s : State} (hs : s₀.Advances s) (o : Origin) (n : Nat) (on : Bool) : s₀.AdvancesR (execUnordWrite o n
    on s) := by
  unfold execUnordWrite
  repeat' with_reducible first
    | assumption | apply State.Advances.ite | apply State.whenUp_advances | apply State.writeChan_advances | (intro _)

/-! ### Rings -/

theorem State.takeFetched_advances {s₀ s t : State} {n seq : Nat} {p : Nat → Bool} {d : List Nat} (hs : s₀.Advances s)
    (e : s.takeFetched n p = some (seq, d, t)) : s₀.Advances t := by
  unfold State.takeFetched at e
  split at e
  · cases e
  · split at e
    · cases e
      exact State.setRing_advances hs _ _
    · cases e

theorem execJobDescriptor_advances {s₀ s : State} (hs : s₀.Advances s) (ring : Nat) (far : List FarRead) : s₀.AdvancesR (execJobDescriptor
    ring far s) := by
  unfold execJobDescriptor
  repeat' with_reducible first
    | assumption | apply State.conclude_advances | apply State.whenUp_advances | apply State.learn_advances
    | apply State.admitJob_advances | (refine State.takeFetched_advances ?_ (by assumption)) | (intro _) | split

theorem execKnotDescriptor_advances {s₀ s : State} (hs : s₀.Advances s) (ring : Nat) : s₀.AdvancesR (execKnotDescriptor ring s) := by
  unfold execKnotDescriptor
  repeat' with_reducible first
    | assumption | apply State.conclude_advances | apply State.whenUp_advances | apply State.admitKnot_advances
    | (refine State.takeFetched_advances ?_ (by assumption)) | (intro _) | split

theorem execCancelDescriptor_advances {s₀ s : State} (hs : s₀.Advances s) (ring : Nat) : s₀.AdvancesR (execCancelDescriptor ring s) := by
  unfold execCancelDescriptor
  repeat' with_reducible first
    | assumption | apply State.conclude_advances | apply State.whenUp_advances | apply State.admitCancel_advances
    | (refine State.takeFetched_advances ?_ (by assumption)) | (intro _) | split

theorem execKnotWaitTimeout_advances {s₀ s : State} (hs : s₀.Advances s) (ring : Nat) (seq : Nat) (gen : Nat) : s₀.AdvancesR
    (execKnotWaitTimeout ring seq gen s) := by
  unfold execKnotWaitTimeout
  repeat' with_reducible first
    | assumption | apply State.Advances.ite | apply State.bump_advances | apply State.conclude_advances | apply State.whenUp_advances
    | apply State.endJob_advances | (intro _) | split

theorem execJobLeaseExpire_advances {s₀ s : State} (hs : s₀.Advances s) (ring : Nat) (seq : Nat) (gen : Nat) : s₀.AdvancesR
    (execJobLeaseExpire ring seq gen s) := by
  unfold execJobLeaseExpire
  repeat' with_reducible first
    | assumption | apply State.Advances.ite | apply State.bump_advances | apply State.conclude_advances | apply State.whenUp_advances
    | apply State.endJob_advances | (intro _) | split

theorem State.ringEnabled_advances {s₀ s : State} (hs : s₀.Advances s) (n : Nat) : s₀.Advances (State.ringEnabled s n) := by
  unfold State.ringEnabled
  repeat' with_reducible first
    | assumption | apply State.Advances.ite | apply State.writeStatus_advances | apply State.setFld_advances
    | apply State.noteRead_advances | apply State.setRing_advances | (intro _)

theorem State.ringDisabled_advances {s₀ s : State} (hs : s₀.Advances s) (n : Nat) : s₀.Advances (State.ringDisabled s n) := by
  unfold State.ringDisabled
  repeat' with_reducible first | assumption | apply State.withdraw_advances | apply State.withdrawFetched_advances

theorem State.ringCancelled_advances {s₀ s : State} (hs : s₀.Advances s) (n : Nat) : s₀.Advances (State.ringCancelled s n) := by
  unfold State.ringCancelled
  repeat' with_reducible first
    | assumption | apply State.setFld_advances | apply State.withdraw_advances | apply State.withdrawFetched_advances

theorem State.ringCfgAfter_advances {s₀ s t : State} (hs : s₀.Advances s) (ht : s₀.Advances t) (o : Origin) (n : Nat) (value : Word) :
    s₀.Advances (State.ringCfgAfter o n value s t) := by
  unfold State.ringCfgAfter
  repeat' with_reducible first
    | assumption | apply State.Advances.ite | apply State.conclude_advances | apply State.ringEnabled_advances
    | apply State.ringCancelled_advances | apply State.ringDisabled_advances | (intro _)

theorem State.writeRingCfg_advances {s₀ s : State} (hs : s₀.Advances s) (o : Origin) (n : Nat) (value : Word) : s₀.Advances
    (State.writeRingCfg s o n value) := by
  unfold State.writeRingCfg
  repeat' with_reducible first
    | assumption | apply State.Advances.ite | apply State.writeBy_advances | apply State.refuseTo_advances
    | apply State.ringCfgAfter_advances | (intro _)

theorem execRingEnable_advances {s₀ s : State} (hs : s₀.Advances s) (o : Origin) (n : Nat) (value : Word) (far : List FarRead) :
    s₀.AdvancesR (execRingEnable o n value far s) := by
  unfold execRingEnable
  repeat' with_reducible first
    | assumption | apply State.writeRingCfg_advances | apply State.whenUp_advances | apply State.learn_advances | (intro _)

theorem execRingDisable_advances {s₀ s : State} (hs : s₀.Advances s) (o : Origin) (n : Nat) (value : Word) : s₀.AdvancesR (execRingDisable
    o n value s) := by
  unfold execRingDisable
  repeat' with_reducible first | assumption | apply State.writeRingCfg_advances | apply State.whenUp_advances | (intro _)

theorem execRingCancel_advances {s₀ s : State} (hs : s₀.Advances s) (o : Origin) (n : Nat) (value : Word) : s₀.AdvancesR (execRingCancel o
    n value s) := by
  unfold execRingCancel
  repeat' with_reducible first | assumption | apply State.writeRingCfg_advances | apply State.whenUp_advances | (intro _)

theorem State.knotCommand_advances {s₀ s : State} (hs : s₀.Advances s) (o : Origin) (k : Nat) (act : State → State) (hact : ∀ x0,
    s₀.Advances x0 → s₀.Advances (act x0)) : s₀.Advances (State.knotCommand s o k act) := by
  unfold State.knotCommand
  repeat' with_reducible first
    | assumption | apply State.AdvancesP.ite | apply hact | apply State.command_advances | (intro _) | apply State.AdvancesP.mk'

theorem execKnotSelRead_advances {s₀ s : State} (hs : s₀.Advances s) (o : Origin) (k : Nat) : s₀.AdvancesR (execKnotSelRead o k s) := by
  unfold execKnotSelRead
  repeat' with_reducible first
    | assumption | apply State.Advances.setReg | apply State.whenUp_advances | apply State.knotCommand_advances | (intro _)

theorem execKnotSelSet_advances {s₀ s : State} (hs : s₀.Advances s) (o : Origin) (k : Nat) : s₀.AdvancesR (execKnotSelSet o k s) := by
  unfold execKnotSelSet
  repeat' with_reducible first
    | assumption | apply State.conclude_advances | apply State.knotSet_advances | apply State.whenUp_advances
    | apply State.knotCommand_advances | (intro _)

theorem execKnotSelAdd_advances {s₀ s : State} (hs : s₀.Advances s) (o : Origin) (k : Nat) : s₀.AdvancesR (execKnotSelAdd o k s) := by
  unfold execKnotSelAdd
  repeat' with_reducible first
    | assumption | apply State.conclude_advances | apply State.whenUp_advances | apply State.knotCommand_advances
    | apply State.knotAdd_advances | (intro _)

theorem State.rangeChanged_advances {s₀ s t : State} (hs : s₀.Advances s) (ht : s₀.Advances t) (v : Nat) : s₀.Advances (State.rangeChanged
    v s t) := by
  unfold State.rangeChanged
  repeat' with_reducible first
    | assumption | apply State.conclude_advances | apply State.knotSet_advances | apply State.withdraw_advances
    | apply State.Advances.foldl | (intro _)

theorem State.writeKnotRange_advances {s₀ s : State} (hs : s₀.Advances s) (o : Origin) (v : Nat) (value : Word) : s₀.Advances
    (State.writeKnotRange s o v value) := by
  unfold State.writeKnotRange
  repeat' with_reducible first
    | assumption | apply State.Advances.ite | apply State.setFld_advances | apply State.refuseTo_advances
    | apply State.auditRefusal_advances | apply State.writeReg_advances | apply State.rangeChanged_advances | (intro _)

theorem execKnotRangeWrite_advances {s₀ s : State} (hs : s₀.Advances s) (o : Origin) (v : Nat) (value : Word) : s₀.AdvancesR
    (execKnotRangeWrite o v value s) := by
  unfold execKnotRangeWrite
  repeat' with_reducible first | assumption | apply State.writeKnotRange_advances | apply State.whenUp_advances | (intro _)

/-! ### Media -/

theorem State.replaySample_advances {s₀ s : State} (hs : s₀.Advances s) (n : Nat) (e : SrcEntry) : s₀.Advances (State.replaySample s n e)
    := by
  unfold State.replaySample
  repeat' with_reducible first
    | assumption | apply State.modChan_advances | apply State.complete_advances | apply State.beginSample_advances
    | apply State.noteRead_advances | apply State.assignQ_advances | (refine State.AdvancesP.of ?_ (by assumption)) | split

theorem State.voidSample_advances {s₀ s : State} (hs : s₀.Advances s) (n : Nat) (status : Nat) (time : Nat) (sid : Nat) : s₀.Advances
    (State.voidSample s n status time sid) := by
  unfold State.voidSample
  repeat' with_reducible first
    | assumption | apply State.bump_advances | apply State.beginSample_advances | apply State.assignQ_advances
    | apply State.settleSample_advances | (refine State.AdvancesP.of ?_ (by assumption)) | split

theorem State.takeEntry_advances {s₀ s : State} (hs : s₀.Advances s) (n : Nat) (q : Ring) (e : SrcEntry) : s₀.Advances (State.takeEntry s
    n q e) := by
  unfold State.takeEntry
  repeat' with_reducible first | assumption | apply State.setChan_advances | apply State.queueStatus_advances

theorem State.takePlayback_advances {s₀ s : State} (hs : s₀.Advances s) (n : Nat) (q : Ring) (e : SrcEntry) : s₀.Advances
    (State.takePlayback s n q e) := by
  unfold State.takePlayback
  repeat' with_reducible first
    | assumption | apply State.Advances.ite | apply State.modChan_advances | apply State.noteRead_advances
    | apply State.queueStatus_advances | (intro _)

theorem execSourceEntryFetch_advances {s₀ s : State} (hs : s₀.Advances s) (ch : Nat) (far : List FarRead) : s₀.AdvancesR
    (execSourceEntryFetch ch far s) := by
  unfold execSourceEntryFetch
  repeat' with_reducible first
    | assumption | apply State.Advances.ite | apply State.modChan_advances | apply State.takeEntry_advances
    | apply State.conclude_advances | apply State.whenUp_advances | apply State.noteRead_advances | apply State.queueStatus_advances
    | apply State.learn_advances | apply State.replaySample_advances | apply State.voidSample_advances
    | apply State.takePlayback_advances | (intro _)

theorem State.assignUpTo_advances {s₀ y1 : State} (hy1 : s₀.Advances y1) (y0 : Nat) (y2 : Nat) (y3 : Nat) : s₀.Advances (State.assignUpTo
    y0 y1 y2 y3) := by
  induction y0 generalizing y1 y2 y3 hy1 with
  | zero =>
    unfold State.assignUpTo
    repeat' with_reducible assumption
  | succ _ ih =>
    unfold State.assignUpTo
    repeat' with_reducible first
      | assumption | apply State.Advances.ite | apply ih | apply State.modChan_advances | apply State.assignQ_advances
      | (refine State.AdvancesP.of ?_ (by assumption)) | (intro _) | split

theorem State.entryOut_advances {s₀ s : State} (hs : s₀.Advances s) (n : Nat) (idx : Nat) (e : SrcEntry) (st : Nat) : s₀.Advances
    (State.entryOut s n idx e st) := by
  unfold State.entryOut
  repeat' with_reducible first | assumption | apply State.setChan_advances | apply State.queueStatus_advances

theorem execPictureDecoded_advances {s₀ s : State} (hs : s₀.Advances s) (session : Nat) (idx : Nat) (q : Nat) (dec : Decoded) :
    s₀.AdvancesR (execPictureDecoded session idx q dec s) := by
  unfold execPictureDecoded
  repeat' with_reducible first
    | assumption | apply State.Advances.ite | apply State.bump_advances | apply State.assignUpTo_advances | apply State.modChan_advances
    | apply State.conclude_advances | apply State.complete_advances | apply State.beginSample_advances | apply State.whenUp_advances
    | apply State.noteRead_advances | apply State.entryOut_advances | (intro _) | split

theorem State.mediaCharge_advances {s₀ s : State} (hs : s₀.Advances s) : s₀.Advances (State.mediaCharge s) := by
  unfold State.mediaCharge
  repeat' with_reducible first
    | assumption | apply State.Advances.ite | apply State.alwDrop_advances | apply State.obtain_advances | (intro _)

theorem State.writeDecoder_advances {s₀ s : State} (hs : s₀.Advances s) (o : Origin) (k : Nat) (value : Word) : s₀.Advances
    (State.writeDecoder s o k value) := by
  unfold State.writeDecoder
  repeat' with_reducible first
    | assumption | apply State.Advances.ite | apply State.modChan_advances | apply State.conclude_advances | apply State.setFld_advances
    | apply State.mediaCharge_advances | apply State.writeBy_advances | (intro _) | split

theorem execDecoderEnable_advances {s₀ s : State} (hs : s₀.Advances s) (o : Origin) (session : Nat) (value : Word) : s₀.AdvancesR
    (execDecoderEnable o session value s) := by
  unfold execDecoderEnable
  repeat' with_reducible first
    | assumption | apply State.Advances.ite | apply State.writeDecoder_advances | apply State.whenUp_advances | (intro _)

theorem State.writeEncoder_advances {s₀ s : State} (hs : s₀.Advances s) (o : Origin) (value : Word) : s₀.Advances (State.writeEncoder s o
    value) := by
  unfold State.writeEncoder
  repeat' with_reducible first
    | assumption | exact .refl _ | apply State.Advances.ite | apply State.conclude_advances | apply State.setFld_advances
    | apply State.mediaCharge_advances | apply State.writeBy_advances | (intro _) | split | exact Nat.le_refl _
    | apply State.Advances.upd

theorem execEncoderEnable_advances {s₀ s : State} (hs : s₀.Advances s) (o : Origin) (value : Word) : s₀.AdvancesR (execEncoderEnable o
    value s) := by
  unfold execEncoderEnable
  repeat' with_reducible first | assumption | apply State.writeEncoder_advances | apply State.whenUp_advances | (intro _)

theorem State.encRelease_advances {s₀ s : State} (hs : s₀.Advances s) : s₀.Advances (State.encRelease s) := by
  unfold State.encRelease
  repeat' with_reducible first
    | assumption | exact .refl _ | apply State.Advances.ite | apply State.knotAdd_advances | (intro _) | exact Nat.le_refl _
    | apply State.Advances.upd

theorem execEncodeStart_advances {s₀ s : State} (hs : s₀.Advances s) : s₀.AdvancesR (execEncodeStart s) := by
  unfold execEncodeStart
  repeat' with_reducible first
    | assumption | exact .refl _ | apply State.Advances.ite | apply State.bump_advances | apply State.conclude_advances
    | apply State.encRelease_advances | apply State.whenUp_advances | (intro _) | split | exact Nat.le_refl _ | apply State.Advances.upd

theorem State.unitOut_advances {s₀ s : State} (hs : s₀.Advances s) (bytes : List Byte) : s₀.Advances (State.unitOut s bytes) := by
  unfold State.unitOut
  repeat' with_reducible first
    | assumption | exact .refl _ | apply State.store_advances | apply State.queueStatus_advances | exact Nat.le_refl _
    | apply State.Advances.upd

theorem execAccessUnitDone_advances {s₀ s : State} (hs : s₀.Advances s) (bytes : List Byte) : s₀.AdvancesR (execAccessUnitDone bytes s)
    := by
  unfold execAccessUnitDone
  repeat' with_reducible first
    | assumption | apply State.Advances.ite | apply State.conclude_advances | apply State.encRelease_advances
    | apply State.whenUp_advances | apply State.knotAdd_advances | apply State.unitOut_advances | (intro _)

theorem State.setUnitRing_advances {s₀ s : State} (hs : s₀.Advances s) (u : PollUnit) (r : Ring) : s₀.Advances (State.setUnitRing s u r)
    := by
  unfold State.setUnitRing
  repeat' with_reducible first
    | assumption | exact .refl _ | apply State.modChan_advances | apply State.setRing_advances | split | exact Nat.le_refl _
    | apply State.Advances.upd

theorem State.readUnit_advances {s₀ s : State} (hs : s₀.Advances s) (u : PollUnit) : s₀.Advances (State.readUnit s u) := by
  unfold State.readUnit
  repeat' with_reducible first
    | assumption | exact .refl _ | apply State.pickUp_advances | apply State.modChan_advances | split | exact Nat.le_refl _
    | apply State.Advances.upd

theorem execDoorbellWrite_advances {s₀ s : State} (hs : s₀.Advances s) (u : PollUnit) (value : Word) : s₀.AdvancesR (execDoorbellWrite u
    value s) := by
  unfold execDoorbellWrite
  repeat' with_reducible first
    | assumption | apply State.Advances.ite | apply State.readUnit_advances | apply State.store_advances | apply State.whenUp_advances
    | (intro _)

theorem State.pollTick_advances {s₀ s : State} (hs : s₀.Advances s) (u : PollUnit) : s₀.Advances (State.pollTick s u) := by
  unfold State.pollTick
  repeat' with_reducible first | assumption | apply State.setUnitRing_advances

theorem State.poll_advances {s₀ s : State} (hs : s₀.Advances s) (u : PollUnit) (far : List FarRead) : s₀.Advances (State.poll s u far)
    := by
  unfold State.poll
  repeat' with_reducible first
    | assumption | apply State.Advances.ite | apply State.readUnit_advances | apply State.setUnitRing_advances
    | apply State.learn_advances | (intro _)

theorem execDoorbellPoll_advances {s₀ s : State} (hs : s₀.Advances s) (u : PollUnit) (far : List FarRead) : s₀.AdvancesR (execDoorbellPoll
    u far s) := by
  unfold execDoorbellPoll
  repeat' with_reducible first
    | assumption | apply State.Advances.ite | apply State.pollTick_advances | apply State.whenUp_advances | apply State.poll_advances
    | (intro _)

theorem State.ringWake_advances {s₀ s : State} (hs : s₀.Advances s) (o : Origin) (n : Nat) (far : List FarRead) : s₀.Advances
    (State.ringWake s o n far) := by
  unfold State.ringWake
  repeat' with_reducible first
    | assumption | apply State.Advances.ite | apply State.poll_advances | apply State.setRing_advances | (intro _)

theorem execRingWake_advances {s₀ s : State} (hs : s₀.Advances s) (o : Origin) (n : Nat) (far : List FarRead) : s₀.AdvancesR (execRingWake
    o n far s) := by
  unfold execRingWake
  repeat' with_reducible first | assumption | apply State.ringWake_advances | apply State.whenUp_advances | (intro _)

/-! ### Frames -/

theorem State.setFq_advances {s₀ s : State} (hs : s₀.Advances s) (q : FrameQ) (r : Ring) : s₀.Advances (State.setFq s q r) := by
  unfold State.setFq
  repeat' with_reducible first | assumption | exact .refl _ | exact Nat.le_refl _ | apply State.Advances.upd

theorem State.fqDone_advances {s₀ s : State} (hs : s₀.Advances s) (q : FrameQ) (seq : Nat) (w1 : Nat) (w2 : Nat) (w3 : Nat) : s₀.Advances
    (State.fqDone s q seq w1 w2 w3) := by
  unfold State.fqDone
  repeat' with_reducible first | assumption | apply State.store_advances | apply State.queueStatus_advances | apply State.setFq_advances

theorem State.fqSignal_advances {s₀ s : State} (hs : s₀.Advances s) (q : FrameQ) (n : Nat) : s₀.Advances (State.fqSignal s q n) := by
  unfold State.fqSignal
  repeat' with_reducible first | assumption | apply State.conclude_advances | apply State.knotAdd_advances

theorem State.fqSent_advances {s₀ s : State} (hs : s₀.Advances s) (q : FrameQ) (seq : Nat) (ws : List Nat) (time : Nat) (status : Nat) :
    s₀.Advances (State.fqSent s q seq ws time status) := by
  unfold State.fqSent
  repeat' with_reducible first | assumption | apply State.fqDone_advances | apply State.fqSignal_advances

theorem State.fqSettle_advances {s₀ y1 : State} (hy1 : s₀.Advances y1) (y0 : Nat) (y2 : FrameQ) : s₀.Advances (State.fqSettle y0 y1 y2)
    := by
  induction y0 generalizing y1 y2 hy1 with
  | zero =>
    unfold State.fqSettle
    repeat' with_reducible assumption
  | succ _ ih =>
    unfold State.fqSettle
    repeat' with_reducible first
      | assumption | apply State.Advances.ite | apply ih | apply State.fqSent_advances | apply State.noteRead_advances | (intro _)
      | split

theorem State.fqTake_advances {s₀ y1 : State} (hy1 : s₀.Advances y1) (y0 : Nat) (y2 : FrameQ) : s₀.Advances (State.fqTake y0 y1 y2) := by
  induction y0 generalizing y1 y2 hy1 with
  | zero =>
    unfold State.fqTake
    repeat' with_reducible assumption
  | succ _ ih =>
    unfold State.fqTake
    repeat' with_reducible first
      | assumption | apply State.Advances.ite | apply ih | apply State.queueStatus_advances | apply State.setFq_advances | (intro _)

theorem State.fqObserve_advances {s₀ s : State} (hs : s₀.Advances s) (q : FrameQ) : s₀.Advances (State.fqObserve s q) := by
  unfold State.fqObserve
  repeat' with_reducible first | assumption | apply State.fqSettle_advances | apply State.fqTake_advances | apply State.setFq_advances

theorem execQueueDoorbell_advances {s₀ s : State} (hs : s₀.Advances s) (q : FrameQ) (value : Word) : s₀.AdvancesR (execQueueDoorbell q
    value s) := by
  unfold execQueueDoorbell
  repeat' with_reducible first
    | assumption | apply State.Advances.ite | apply State.fqObserve_advances | apply State.store_advances | apply State.whenUp_advances
    | (intro _)

theorem State.fqReceive_advances {s₀ s : State} (hs : s₀.Advances s) (q : FrameQ) (bs : List Byte) (time : Nat) (low : Nat) (w3 : Nat) :
    s₀.Advances (State.fqReceive s q bs time low w3) := by
  unfold State.fqReceive
  repeat' with_reducible first
    | assumption | apply State.fqSettle_advances | apply State.bump_advances | apply State.store_advances | apply State.fqDone_advances
    | apply State.fqSignal_advances | split

theorem State.fqFlush_advances {s₀ s : State} (hs : s₀.Advances s) (q : FrameQ) : s₀.Advances (State.fqFlush s q) := by
  unfold State.fqFlush
  repeat' with_reducible first
    | assumption | apply State.Advances.ite | apply State.fqDone_advances | apply State.fqSignal_advances | apply State.Advances.foldl
    | (intro _)

theorem State.writeFq_advances {s₀ s : State} (hs : s₀.Advances s) (o : Origin) (q : FrameQ) (value : Word) : s₀.Advances (State.writeFq s
    o q value) := by
  unfold State.writeFq
  repeat' with_reducible first
    | assumption | apply State.Advances.ite | apply State.fqFlush_advances | apply State.setFld_advances | apply State.writeBy_advances
    | apply State.refuseTo_advances | apply State.queueStatus_advances | apply State.setFq_advances | (intro _)

theorem execQueueEnable_advances {s₀ s : State} (hs : s₀.Advances s) (o : Origin) (q : FrameQ) (value : Word) : s₀.AdvancesR
    (execQueueEnable o q value s) := by
  unfold execQueueEnable
  repeat' with_reducible first | assumption | apply State.writeFq_advances | apply State.whenUp_advances | (intro _)

theorem execQueueDisable_advances {s₀ s : State} (hs : s₀.Advances s) (o : Origin) (q : FrameQ) (value : Word) : s₀.AdvancesR
    (execQueueDisable o q value s) := by
  unfold execQueueDisable
  repeat' with_reducible first | assumption | apply State.writeFq_advances | apply State.whenUp_advances | (intro _)

theorem State.flushOwned_advances {s₀ s : State} (hs : s₀.Advances s) (t : Nat) : s₀.Advances (State.flushOwned s t) := by
  unfold State.flushOwned
  repeat' with_reducible first | assumption | apply State.fqFlush_advances | apply State.Advances.foldl | (intro _)

/-! ### Display -/

theorem State.setPipe_advances {s₀ s : State} (hs : s₀.Advances s) (p : Nat) (x : Pipe) : s₀.Advances (State.setPipe s p x) := by
  unfold State.setPipe
  repeat' with_reducible first | assumption | exact .refl _ | exact Nat.le_refl _ | apply State.Advances.upd

theorem State.modPipe_advances {s₀ s : State} (hs : s₀.Advances s) (p : Nat) (f : Pipe → Pipe) : s₀.Advances (State.modPipe s p f) := by
  unfold State.modPipe
  repeat' with_reducible first | assumption | apply State.setPipe_advances

theorem State.setStatus_advances {s₀ s : State} (hs : s₀.Advances s) (p : Nat) (f : Fld) (v : Nat) : s₀.Advances (State.setStatus s p f v)
    := by
  unfold State.setStatus
  repeat' with_reducible first | assumption | apply State.setFld_advances

theorem State.scanned_advances {s₀ s : State} (hs : s₀.Advances s) (p : Nat) : s₀.Advances (State.scanned s p) := by
  unfold State.scanned
  repeat' with_reducible first
    | assumption | apply State.Advances.ite | apply State.bump_advances | apply State.modPipe_advances | apply State.noteReads_advances
    | apply State.emit_advances | (intro _)

theorem State.lineSlip_advances {s₀ s : State} (hs : s₀.Advances s) (p : Nat) : s₀.Advances (State.lineSlip s p) := by
  unfold State.lineSlip
  repeat' with_reducible first
    | assumption | exact .refl _ | apply State.bump_advances | apply State.modPipe_advances | exact Nat.le_refl _
    | apply State.Advances.upd

theorem State.setPlane_advances {s₀ s : State} (hs : s₀.Advances s) (p : Nat) (k : Nat) (pl : Plane) : s₀.Advances (State.setPlane s p k
    pl) := by
  unfold State.setPlane
  repeat' with_reducible first | assumption | apply State.modPipe_advances

theorem State.latchRecord_advances {s₀ s : State} (hs : s₀.Advances s) (p : Nat) (f : Nat) (k : Nat) : s₀.Advances (State.latchRecord s p
    f k) := by
  unfold State.latchRecord
  try dsimp -iota only
  repeat' first

    | with_reducible (first | assumption | apply State.Advances.ite | apply State.setPlane_advances | apply State.bump_advances | apply State.knotSet_advances | apply State.bumpN_advances | (intro _))
    | split

theorem State.latchPlane_advances {s₀ s : State} (hs : s₀.Advances s) (p : Nat) (f : Nat) (k : Nat) : s₀.Advances (State.latchPlane s p f
    k) := by
  unfold State.latchPlane
  repeat' with_reducible first
    | assumption | apply State.Advances.ite | apply State.setPlane_advances | apply State.latchRecord_advances | (intro _) | split

theorem State.takeTable_advances {s₀ s : State} (hs : s₀.Advances s) (p : Nat) : s₀.Advances (State.takeTable s p) := by
  unfold State.takeTable
  repeat' with_reducible first
    | assumption | apply State.Advances.ite | apply State.modPipe_advances | apply State.setFld_advances | apply State.noteSafe_advances
    | (intro _)

theorem State.latchSafety_advances {s₀ s : State} (hs : s₀.Advances s) (p : Nat) : s₀.Advances (State.latchSafety s p) := by
  unfold State.latchSafety
  repeat' with_reducible first
    | assumption | apply State.Advances.ite | apply State.bump_advances | apply State.setFld_advances | apply State.report_advances
    | apply State.takeTable_advances | apply State.noteSafe_advances | (intro _)

theorem State.latch_advances {s₀ s : State} (hs : s₀.Advances s) (p : Nat) : s₀.Advances (State.latch s p) := by
  unfold State.latch
  repeat' with_reducible first
    | assumption | apply State.latchPlane_advances | apply State.latchSafety_advances | apply State.Advances.foldl | (intro _)

theorem State.startFrame_advances {s₀ s : State} (hs : s₀.Advances s) (p : Nat) : s₀.Advances (State.startFrame s p) := by
  unfold State.startFrame
  repeat' with_reducible first | assumption | apply State.modPipe_advances | apply State.setStatus_advances | apply State.latch_advances

theorem State.frameFire_advances {s₀ s : State} (hs : s₀.Advances s) (p : Nat) : s₀.Advances (State.frameFire s p) := by
  unfold State.frameFire
  repeat' with_reducible first
    | assumption | apply State.Advances.ite | apply State.bump_advances | apply State.modPipe_advances | apply State.startFrame_advances
    | (intro _)

theorem execHeldFrameStart_advances {s₀ s : State} (hs : s₀.Advances s) (p : Nat) : s₀.AdvancesR (execHeldFrameStart p s) := by
  unfold execHeldFrameStart
  repeat' with_reducible first
    | assumption | apply State.Advances.ite | apply State.modPipe_advances | apply State.conclude_advances | apply State.whenUp_advances
    | apply State.startFrame_advances | apply State.scanned_advances | (intro _)

theorem execVtotalLineEnd_advances {s₀ s : State} (hs : s₀.Advances s) (p : Nat) : s₀.AdvancesR (execVtotalLineEnd p s) := by
  unfold execVtotalLineEnd
  repeat' with_reducible first
    | assumption | apply State.Advances.ite | apply State.setStatus_advances | apply State.whenUp_advances | apply State.scanned_advances
    | (intro _)

theorem execFreeRun_advances {s₀ s : State} (hs : s₀.Advances s) (p : Nat) : s₀.AdvancesR (execFreeRun p s) := by
  unfold execFreeRun
  repeat' with_reducible first
    | assumption | apply State.Advances.ite | apply State.bump_advances | apply State.modPipe_advances | apply State.conclude_advances
    | apply State.whenUp_advances | apply State.startFrame_advances | apply State.raise_advances | (intro _)

theorem State.enablePipe_advances {s₀ s : State} (hs : s₀.Advances s) (p : Nat) : s₀.Advances (State.enablePipe s p) := by
  unfold State.enablePipe
  repeat' with_reducible first
    | assumption | apply State.Advances.ite | apply State.conclude_advances | apply State.setStatus_advances
    | apply State.setFld_advances | apply State.setPipe_advances | apply State.obtain_advances | (intro _)

theorem State.disablePipe_advances {s₀ s : State} (hs : s₀.Advances s) (p : Nat) : s₀.Advances (State.disablePipe s p) := by
  unfold State.disablePipe
  repeat' with_reducible first
    | assumption | apply State.conclude_advances | apply State.setStatus_advances | apply State.alwDrop_advances
    | apply State.setPipe_advances

theorem State.writePipe_advances {s₀ s : State} (hs : s₀.Advances s) (o : Origin) (p : Nat) (value : Word) : s₀.Advances (State.writePipe
    s o p value) := by
  unfold State.writePipe
  repeat' with_reducible first
    | assumption | apply State.enablePipe_advances | apply State.disablePipe_advances | apply State.writeBy_advances | (intro _) | split

theorem execPipeEnable_advances {s₀ s : State} (hs : s₀.Advances s) (o : Origin) (p : Nat) (value : Word) : s₀.AdvancesR (execPipeEnable o
    p value s) := by
  unfold execPipeEnable
  repeat' with_reducible first
    | assumption | apply State.Advances.ite | apply State.writePipe_advances | apply State.whenUp_advances | (intro _)

theorem execPipeDisable_advances {s₀ s : State} (hs : s₀.Advances s) (o : Origin) (p : Nat) (value : Word) : s₀.AdvancesR (execPipeDisable
    o p value s) := by
  unfold execPipeDisable
  repeat' with_reducible first
    | assumption | apply State.Advances.ite | apply State.writePipe_advances | apply State.whenUp_advances | (intro _)

theorem execLinkTrainingDone_advances {s₀ s : State} (hs : s₀.Advances s) (p : Nat) (ok : Bool) : s₀.AdvancesR (execLinkTrainingDone p ok
    s) := by
  unfold execLinkTrainingDone
  repeat' with_reducible first
    | assumption | apply State.Advances.ite | apply State.modPipe_advances | apply State.setStatus_advances | apply State.whenUp_advances
    | apply State.raise_advances | (intro _)

theorem State.writeSpCfg_advances {s₀ s : State} (hs : s₀.Advances s) (o : Origin) (p : Nat) (value : Word) : s₀.Advances
    (State.writeSpCfg s o p value) := by
  unfold State.writeSpCfg
  repeat' with_reducible first
    | assumption | apply State.Advances.ite | apply State.setFld_advances | apply State.writeBy_advances | apply State.takeTable_advances
    | (intro _)

theorem execSpEnable_advances {s₀ s : State} (hs : s₀.Advances s) (o : Origin) (p : Nat) (value : Word) : s₀.AdvancesR (execSpEnable o p
    value s) := by
  unfold execSpEnable
  repeat' with_reducible first
    | assumption | apply State.Advances.ite | apply State.writeSpCfg_advances | apply State.whenUp_advances | (intro _)

theorem State.writeSpTable_advances {s₀ s : State} (hs : s₀.Advances s) (o : Origin) (p : Nat) (value : Word) : s₀.Advances
    (State.writeSpTable s o p value) := by
  unfold State.writeSpTable
  repeat' with_reducible first
    | assumption | apply State.Advances.ite | apply State.modPipe_advances | apply State.writeBy_advances | (intro _)

theorem execSpTableWrite_advances {s₀ s : State} (hs : s₀.Advances s) (o : Origin) (p : Nat) (value : Word) : s₀.AdvancesR
    (execSpTableWrite o p value s) := by
  unfold execSpTableWrite
  repeat' with_reducible first
    | assumption | apply State.Advances.ite | apply State.writeSpTable_advances | apply State.whenUp_advances | (intro _)

theorem execTelltaleCrc_advances {s₀ s : State} (hs : s₀.Advances s) (p : Nat) (i : Nat) : s₀.AdvancesR (execTelltaleCrc p i s) := by
  unfold execTelltaleCrc
  repeat' with_reducible first
    | assumption | apply State.Advances.ite | apply State.bump_advances | apply State.setFld_advances | apply State.report_advances
    | apply State.whenUp_advances | apply State.noteSafe_advances | (intro _) | split

theorem State.writeEarly_advances {s₀ s : State} (hs : s₀.Advances s) (o : Origin) (value : Word) : s₀.Advances (State.writeEarly s o
    value) := by
  unfold State.writeEarly
  repeat' with_reducible first
    | assumption | exact .refl _ | apply State.Advances.ite | apply State.setFld_advances | apply State.writeBy_advances | (intro _)
    | split | exact Nat.le_refl _ | apply State.Advances.upd

theorem execEarlyViewEnd_advances {s₀ s : State} (hs : s₀.Advances s) (o : Origin) : s₀.AdvancesR (execEarlyViewEnd o s) := by
  unfold execEarlyViewEnd
  repeat' with_reducible first | assumption | apply State.whenUp_advances | apply State.writeEarly_advances | (intro _)

/-! ### Fusion -/

theorem State.setGrid_advances {s₀ s : State} (hs : s₀.Advances s) (g : Nat) (x : Grid) : s₀.Advances (State.setGrid s g x) := by
  unfold State.setGrid
  repeat' with_reducible first | assumption | exact .refl _ | exact Nat.le_refl _ | apply State.Advances.upd

theorem State.trackStep_advances {s₀ s : State} (hs : s₀.Advances s) (g : Nat) (num : Nat) (tg : Nat) (stale : Nat) (dets : Option (List
    Detection)) : s₀.Advances (State.trackStep s g num tg stale dets) := by
  unfold State.trackStep
  repeat' with_reducible first
    | assumption | apply State.setGrid_advances | apply State.setFld_advances | apply State.addReg_advances | apply State.bumpN_advances
    | apply State.Advances.foldlSnd | (intro _)

theorem State.unobserved_advances {s₀ s : State} (hs : s₀.Advances s) (g : Nat) (num : Nat) (tg : Nat) (stale : Nat) : s₀.Advances
    (State.unobserved s g num tg stale) := by
  unfold State.unobserved
  repeat' with_reducible first
    | assumption | apply State.Advances.ite | apply State.bump_advances | apply State.trackStep_advances | (intro _)

theorem State.giveUpList_advances {s₀ s : State} (hs : s₀.Advances s) (g : Nat) : s₀.Advances (State.giveUpList s g) := by
  unfold State.giveUpList
  repeat' with_reducible first | assumption | apply State.unobserved_advances | split

theorem State.nextPass_advances {s₀ y1 : State} (hy1 : s₀.Advances y1) (y0 : Nat) : s₀.Advances (State.nextPass y0 y1) := by
  induction y0 generalizing y1 hy1 with
  | zero =>
    unfold State.nextPass
    repeat' with_reducible assumption
  | succ _ ih =>
    unfold State.nextPass
    repeat' with_reducible first
      | assumption | exact .refl _ | apply State.Advances.ite | apply ih | apply State.bump_advances | apply State.unobserved_advances
      | apply State.setGrid_advances | apply State.giveUpList_advances | (intro _) | split | exact Nat.le_refl _
      | apply State.Advances.upd

theorem State.gridFire_advances {s₀ s : State} (hs : s₀.Advances s) (g : Nat) (tg : Nat) : s₀.Advances (State.gridFire s g tg) := by
  unfold State.gridFire
  repeat' with_reducible first
    | assumption | exact .refl _ | apply State.Advances.ite | apply State.bump_advances | apply State.nextPass_advances | (intro _)
    | exact Nat.le_refl _ | apply State.Advances.upd

theorem State.passEnd_advances {s₀ s : State} (hs : s₀.Advances s) (g : Nat) (p : Pass) (torn : List Nat) : s₀.Advances (State.passEnd s g
    p torn) := by
  unfold State.passEnd
  repeat' with_reducible first
    | assumption | exact .refl _ | apply State.Advances.ite | apply State.bump_advances | apply State.setGrid_advances
    | apply State.knotSet_advances | apply State.store_advances | apply State.noteReads_advances | apply State.Advances.foldl | (intro _)
    | exact Nat.le_refl _ | apply State.Advances.upd

theorem execGridPassDone_advances {s₀ s : State} (hs : s₀.Advances s) (g : Nat) (torn : List Nat) : s₀.AdvancesR (execGridPassDone g torn
    s) := by
  unfold execGridPassDone
  repeat' with_reducible first
    | assumption | exact .refl _ | apply State.Advances.ite | apply State.conclude_advances | apply State.nextPass_advances
    | apply State.passEnd_advances | apply State.whenUp_advances | (intro _) | split | exact Nat.le_refl _ | apply State.Advances.upd

theorem execTrackStep_advances {s₀ s : State} (hs : s₀.Advances s) (g : Nat) : s₀.AdvancesR (execTrackStep g s) := by
  unfold execTrackStep
  repeat' with_reducible first
    | assumption | apply State.Advances.ite | apply State.setGrid_advances | apply State.whenUp_advances | apply State.trackStep_advances
    | (intro _) | split

theorem execTrackStepDone_advances {s₀ s : State} (hs : s₀.Advances s) (g : Nat) : s₀.AdvancesR (execTrackStepDone g s) := by
  unfold execTrackStepDone
  repeat' with_reducible first
    | assumption | apply State.Advances.ite | apply State.setGrid_advances | apply State.conclude_advances | apply State.knotSet_advances
    | apply State.store_advances | apply State.whenUp_advances | (intro _) | split

theorem State.enableGrid_advances {s₀ s : State} (hs : s₀.Advances s) (g : Nat) : s₀.Advances (State.enableGrid s g) := by
  unfold State.enableGrid
  repeat' with_reducible first
    | assumption | apply State.Advances.ite | apply State.setGrid_advances | apply State.conclude_advances | apply State.setFld_advances
    | apply State.obtain_advances | apply State.Advances.foldl | (intro _)

theorem State.disableGrid_advances {s₀ s : State} (hs : s₀.Advances s) (g : Nat) : s₀.Advances (State.disableGrid s g) := by
  unfold State.disableGrid
  repeat' with_reducible first
    | assumption | exact .refl _ | apply State.Advances.ite | apply State.setGrid_advances | apply State.conclude_advances
    | apply State.nextPass_advances | apply State.alwDrop_advances | (intro _) | split | exact Nat.le_refl _ | apply State.Advances.upd

theorem State.writeGrid_advances {s₀ s : State} (hs : s₀.Advances s) (o : Origin) (g : Nat) (value : Word) : s₀.Advances (State.writeGrid
    s o g value) := by
  unfold State.writeGrid
  repeat' with_reducible first
    | assumption | apply State.enableGrid_advances | apply State.writeBy_advances | apply State.disableGrid_advances | (intro _) | split

theorem execGridEnable_advances {s₀ s : State} (hs : s₀.Advances s) (o : Origin) (g : Nat) (value : Word) : s₀.AdvancesR (execGridEnable o
    g value s) := by
  unfold execGridEnable
  repeat' with_reducible first
    | assumption | apply State.Advances.ite | apply State.writeGrid_advances | apply State.whenUp_advances | (intro _)

theorem execGridDisable_advances {s₀ s : State} (hs : s₀.Advances s) (o : Origin) (g : Nat) (value : Word) : s₀.AdvancesR (execGridDisable
    o g value s) := by
  unfold execGridDisable
  repeat' with_reducible first
    | assumption | apply State.Advances.ite | apply State.writeGrid_advances | apply State.whenUp_advances | (intro _)

end Sys2Proof.Machine
end

