-- ==== Sys2Proof/Laws/AdvancesSystem.lean ====
section
/-! SUPPORT. One lemma per function: from a state in which the invariant holds it advances (the journal, memory, darning, safety, power, tacks, reset and the secure element). -/

namespace Sys2Proof.Machine

/-! ### Journal -/

theorem State.refreshFill_advances {s₀ s : State} (hs : s₀.Advances s) : s₀.Advances (State.refreshFill s) := by
  unfold State.refreshFill
  repeat' with_reducible first | assumption | apply State.setFld_advances

theorem State.checkpoint_advances {s₀ s : State} (hs : s₀.Advances s) : s₀.Advances s.checkpoint := by
  unfold State.checkpoint State.takeFree
  dsimp only
  with_reducible apply State.Advances.upd
  · exact hs
  · rfl
  · exact Nat.le_succ _

theorem State.jWrite_advances {s₀ s : State} (hs : s₀.Advances s) (kind : Nat) (phase : Nat) (target : Nat) (spare : Nat) (arg : Nat) :
    s₀.Advances (State.jWrite s kind phase target spare arg) := by
  unfold State.jWrite
  repeat' with_reducible first
    | assumption | exact .refl _ | apply State.checkpoint_advances | apply State.refreshFill_advances | split | exact Nat.le_succ _
    | apply State.Advances.upd

theorem State.jAudit_advances {s₀ s : State} (hs : s₀.Advances s) (result : Nat) (target : Nat) (spare : Nat) : s₀.Advances (State.jAudit
    s result target spare) := by
  unfold State.jAudit
  repeat' with_reducible first | assumption | apply State.auditLog_advances

theorem State.jBeginOp_advances {s₀ s : State} (hs : s₀.Advances s) (kind : Nat) (target : Nat) (spare : Nat) (arg : Nat) (ok : Bool) :
    s₀.AdvancesP (State.jBeginOp s kind target spare arg ok) := by
  unfold State.jBeginOp
  repeat' with_reducible first
    | assumption | apply State.AdvancesP.ite | apply State.bump_advances | apply State.jWrite_advances | apply State.jAudit_advances
    | apply State.raise_advances | (intro _) | apply State.AdvancesP.mk'

theorem State.jSubstituted_advances {s₀ s : State} (hs : s₀.Advances s) (kind : Nat) (target : Nat) (spare : Nat) : s₀.Advances
    (State.jSubstituted s kind target spare) := by
  unfold State.jSubstituted
  repeat' with_reducible first
    | assumption | exact .refl _ | apply State.bump_advances | apply State.jWrite_advances | exact Nat.le_refl _
    | apply State.Advances.upd

/-! ### MemStack -/

theorem State.memError_advances {s₀ s : State} (hs : s₀.Advances s) (kind : Nat) (symbols : Nat) (origin : Nat) (addr : Nat) (r : RowId) :
    s₀.Advances (State.memError s kind symbols origin addr r) := by
  unfold State.memError
  repeat' with_reducible first
    | assumption | exact .refl _ | apply State.Advances.ite | apply State.bump_advances | (intro _) | exact Nat.le_refl _
    | apply State.Advances.upd

theorem State.memNote_advances {s₀ s : State} (hs : s₀.Advances s) (kind : Nat) (read : Option (Nat × Nat)) (r : RowId) : s₀.Advances
    (State.memNote s kind read r) := by
  unfold State.memNote
  repeat' with_reducible first
    | assumption | apply State.memError_advances | apply State.takeFree_advances | (refine State.Advances.ofSnd ?_ (by assumption))
    | split

theorem State.requestChannel_advances {s₀ s : State} (hs : s₀.Advances s) (phys : Nat) (origin : Nat) (addr : Nat) (r : RowId) :
    s₀.Advances (State.requestChannel s phys origin addr r) := by
  unfold State.requestChannel
  repeat' with_reducible first
    | assumption | exact .refl _ | apply State.Advances.ite | apply State.raise_advances | apply State.memNote_advances | (intro _)
    | exact Nat.le_refl _ | apply State.Advances.upd

theorem State.rowLasting_advances {s₀ s : State} (hs : s₀.Advances s) (r : RowId) (origin : Nat) (addr : Nat) (jrnl : Bool) : s₀.Advances
    (State.rowLasting s r origin addr jrnl) := by
  unfold State.rowLasting
  repeat' with_reducible first
    | assumption | exact .refl _ | apply State.Advances.ite | apply State.jBeginOp_advances | apply State.memNote_advances
    | apply State.requestChannel_advances | apply State.AdvancesP.fst | (intro _) | exact Nat.le_refl _ | apply State.Advances.upd

theorem State.untrack_advances {s₀ s : State} (hs : s₀.Advances s) (r : RowId) : s₀.Advances (State.untrack s r) := by
  unfold State.untrack
  repeat' with_reducible first | assumption | exact .refl _ | exact Nat.le_refl _ | apply State.Advances.upd

theorem State.trackRow_advances {s₀ s : State} (hs : s₀.Advances s) (r : RowId) (symbols : Nat) : s₀.AdvancesP (State.trackRow s r
    symbols) := by
  unfold State.trackRow
  repeat' with_reducible first
    | assumption | exact .refl _ | apply State.AdvancesP.ite | apply State.bump_advances | apply State.untrack_advances | (intro _)
    | split | apply State.AdvancesP.mk' | exact Nat.le_refl _ | apply State.Advances.upd

theorem State.correctedBeat_advances {s₀ s : State} (hs : s₀.Advances s) (o : Origin) (r : RowId) (a : Nat) (errs : Nat) (jrnl : Bool) :
    s₀.Advances (State.correctedBeat s o r a errs jrnl) := by
  unfold State.correctedBeat
  repeat' with_reducible first
    | assumption | apply State.Advances.ite | apply State.bump_advances | apply State.trackRow_advances | apply State.memError_advances
    | apply State.rowLasting_advances | apply State.reportAs_advances | apply State.AdvancesP.fst | (intro _)

theorem State.badBeat_advances {s₀ s : State} (hs : s₀.Advances s) (o : Origin) (r : RowId) (a : Nat) (jrnl : Bool) : s₀.Advances
    (State.badBeat s o r a jrnl) := by
  unfold State.badBeat
  repeat' with_reducible first
    | assumption | apply State.bump_advances | apply State.answer_advances | apply State.report_advances | apply State.memError_advances
    | apply State.raise_advances | apply State.rowLasting_advances | apply State.reportAs_advances | apply State.untrack_advances

theorem State.freeBeat_advances {s₀ s : State} (hs : s₀.Advances s) (y1 : Nat) : s₀.AdvancesP (State.freeBeat s y1) := by
  induction y1 generalizing s hs with
  | zero =>
    unfold State.freeBeat
    repeat' with_reducible first | assumption | apply State.AdvancesP.mk'
  | succ _ ih =>
    unfold State.freeBeat
    repeat' with_reducible first
      | assumption | apply ih | apply State.takeFree_advances | (refine State.AdvancesP.of ?_ (by assumption))
      | (refine State.Advances.ofSnd ?_ (by assumption)) | split | apply State.AdvancesP.mk'

theorem State.readBeat_advances {s₀ s : State} (hs : s₀.Advances s) (o : Origin) (addr : Nat) (errs : Nat) (jrnl : Bool) : s₀.Advances
    (State.readBeat s o addr errs jrnl) := by
  unfold State.readBeat
  repeat' with_reducible first
    | assumption | apply State.Advances.ite | apply State.answer_advances | apply State.Advances.setPoison
    | apply State.correctedBeat_advances | apply State.Advances.writeBytes | apply State.freeBeat_advances
    | apply State.refuseTo_advances | apply State.badBeat_advances | apply State.takeFree_advances | apply State.rimRefuse_advances
    | apply State.AdvancesP.fst | (intro _)

theorem State.readSpare_advances {s₀ s : State} (hs : s₀.Advances s) (r : RowId) (errs : Nat) (jrnl : Bool) : s₀.Advances (State.readSpare
    s r errs jrnl) := by
  unfold State.readSpare
  repeat' with_reducible first
    | assumption | apply State.Advances.ite | apply State.correctedBeat_advances | apply State.badBeat_advances
    | apply State.takeFree_advances | apply State.rimRefuse_advances | (intro _)

theorem State.scrubBeat_advances {s₀ s : State} (hs : s₀.Advances s) (chan : Nat) (bank : Nat) (row : Nat) (beat : Nat) (errs : Nat) (jrnl
    : Bool) : s₀.Advances (State.scrubBeat s chan bank row beat errs jrnl) := by
  unfold State.scrubBeat
  repeat' with_reducible first
    | assumption | apply State.Advances.ite | apply State.readSpare_advances | apply State.readBeat_advances | (intro _) | split

theorem execBeatRead_advances {s₀ s : State} (hs : s₀.Advances s) (o : Origin) (at_ : BeatAt) (errs : Nat) (jrnl : Bool) : s₀.AdvancesR
    (execBeatRead o at_ errs jrnl s) := by
  unfold execBeatRead
  repeat' with_reducible first
    | assumption | apply State.readBeat_advances | apply State.whenUp_advances | apply State.scrubBeat_advances | (intro _) | split

theorem execRowWindowExpire_advances {s₀ s : State} (hs : s₀.Advances s) (chan : Nat) (bank : Nat) (row : Nat) : s₀.AdvancesR
    (execRowWindowExpire chan bank row s) := by
  unfold execRowWindowExpire
  repeat' with_reducible first
    | assumption | apply State.Advances.ite | apply State.whenUp_advances | apply State.untrack_advances | (intro _)

theorem State.rowReplaced_advances {s₀ s : State} (hs : s₀.Advances s) (r : RowId) (k : Nat) : s₀.Advances (State.rowReplaced s r k) := by
  unfold State.rowReplaced
  repeat' with_reducible first
    | assumption | exact .refl _ | apply State.jSubstituted_advances | apply State.memNote_advances | exact Nat.le_refl _
    | apply State.Advances.upd

theorem execRowReplaceDone_advances {s₀ s : State} (hs : s₀.Advances s) (chan : Nat) (bank : Nat) (row : Nat) : s₀.AdvancesR
    (execRowReplaceDone chan bank row s) := by
  unfold execRowReplaceDone
  repeat' with_reducible first | assumption | apply State.whenUp_advances | apply State.rowReplaced_advances | (intro _) | split

theorem execRefreshTierChange_advances {s₀ s : State} (hs : s₀.Advances s) (g : Nat) (temp : Int) : s₀.AdvancesR (execRefreshTierChange g
    temp s) := by
  unfold execRefreshTierChange
  repeat' with_reducible first
    | assumption | apply State.Advances.ite | apply State.setFld_advances | apply State.whenUp_advances | (intro _)

theorem State.nextScrub_advances {s₀ s : State} (hs : s₀.Advances s) : s₀.Advances (State.nextScrub s) := by
  unfold State.nextScrub
  repeat' with_reducible first | assumption | exact .refl _ | exact Nat.le_refl _ | apply State.Advances.upd

theorem execScrubPeriodEnd_advances {s₀ s : State} (hs : s₀.Advances s) (finished : Bool) : s₀.AdvancesR (execScrubPeriodEnd finished s)
    := by
  unfold execScrubPeriodEnd
  repeat' with_reducible first
    | assumption | exact .refl _ | apply State.Advances.ite | apply State.bump_advances | apply State.nextScrub_advances
    | apply State.whenUp_advances | (intro _) | exact Nat.le_refl _ | apply State.Advances.upd

theorem State.popMemErr_advances {s₀ s : State} (hs : s₀.Advances s) : s₀.Advances (State.popMemErr s) := by
  unfold State.popMemErr
  repeat' with_reducible first
    | assumption | exact .refl _ | apply State.Advances.setReg | split | exact Nat.le_refl _ | apply State.Advances.upd

theorem execMemErrPop_advances {s₀ s : State} (hs : s₀.Advances s) (o : Origin) : s₀.AdvancesR (execMemErrPop o s) := by
  unfold execMemErrPop
  repeat' with_reducible first
    | assumption | apply State.Advances.ite | apply State.answer_advances | apply State.whenUp_advances | apply State.refuseTo_advances
    | apply State.popMemErr_advances | (intro _)

/-! ### Darn -/

theorem State.pullJob_advances {s₀ s : State} (hs : s₀.Advances s) (j : Job) : s₀.Advances (State.pullJob s j) := by
  unfold State.pullJob
  try dsimp -iota only
  repeat' first

    | with_reducible (first | assumption | apply State.Advances.ite | apply State.haltJob_advances | apply State.requeue_advances | apply State.unplace_advances | (intro _))
    | split

theorem State.clearTest_advances {s₀ s : State} (hs : s₀.Advances s) (n : Nat) : s₀.Advances (State.clearTest s n) := by
  unfold State.clearTest
  repeat' with_reducible first
    | assumption | exact .refl _ | apply State.modCore_advances | apply State.stopTest_advances | split | exact Nat.le_refl _
    | apply State.Advances.upd

theorem State.evacuate_advances {s₀ s : State} (hs : s₀.Advances s) (n : Nat) : s₀.Advances (State.evacuate s n) := by
  unfold State.evacuate
  repeat' with_reducible first
    | assumption | apply State.pullJob_advances | apply State.modCore_advances | apply State.clearTest_advances
    | apply State.checkReservations_advances | split

theorem State.coreOut_advances {s₀ s : State} (hs : s₀.Advances s) (n : Nat) : s₀.Advances (State.coreOut s n) := by
  unfold State.coreOut
  repeat' with_reducible first
    | assumption | apply State.Advances.ite | apply State.setBit_advances | apply State.raise_advances | apply State.setMode_advances
    | (intro _)

theorem State.beginCore_advances {s₀ s : State} (hs : s₀.Advances s) (n : Nat) (jrnl : Bool) : s₀.AdvancesP (State.beginCore s n jrnl)
    := by
  unfold State.beginCore
  repeat' with_reducible first
    | assumption | exact .refl _ | apply State.AdvancesP.ite | apply State.jBeginOp_advances | apply State.ask_advances
    | apply State.coreOut_advances | apply State.AdvancesP.fst | (intro _) | apply State.AdvancesP.mk' | exact Nat.le_refl _
    | apply State.Advances.upd

theorem State.darnCore_advances {s₀ s : State} (hs : s₀.Advances s) (n : Nat) (jrnl : Bool) : s₀.Advances (State.darnCore s n jrnl) := by
  unfold State.darnCore
  repeat' with_reducible first
    | assumption | apply State.Advances.ite | apply State.beginCore_advances | apply State.coreOut_advances
    | apply State.evacuate_advances | apply State.AdvancesP.fst | (intro _)

theorem State.coreSwap_advances {s₀ s : State} (hs : s₀.Advances s) (n : Nat) (k : Nat) : s₀.Advances (State.coreSwap s n k) := by
  unfold State.coreSwap
  repeat' with_reducible first
    | assumption | apply State.Advances.setReg | apply State.setBit_advances | apply State.setFld_advances
    | apply State.jSubstituted_advances | apply State.setCore_advances | apply State.domainDown_advances | apply State.setMode_advances

theorem State.coreDarned_advances {s₀ s : State} (hs : s₀.Advances s) (n : Nat) (k : Nat) (pass : Bool) : s₀.Advances (State.coreDarned s
    n k pass) := by
  unfold State.coreDarned
  repeat' with_reducible first
    | assumption | exact .refl _ | apply State.Advances.ite | apply State.coreSwap_advances | apply State.setBit_advances
    | apply State.coreOut_advances | apply State.alwDrop_advances | (intro _) | exact Nat.le_refl _ | apply State.Advances.upd

theorem execCoreDarnDone_advances {s₀ s : State} (hs : s₀.Advances s) (core : Nat) (pass : Bool) : s₀.AdvancesR (execCoreDarnDone core
    pass s) := by
  unfold execCoreDarnDone
  repeat' with_reducible first
    | assumption | apply State.Advances.ite | apply State.coreDarned_advances | apply State.conclude_advances
    | apply State.whenUp_advances | (intro _) | split

theorem State.unwaitChan_advances {s₀ s : State} (hs : s₀.Advances s) (phys : Nat) : s₀.Advances (State.unwaitChan s phys) := by
  unfold State.unwaitChan
  repeat' with_reducible first | assumption | exact .refl _ | exact Nat.le_refl _ | apply State.Advances.upd

theorem State.beginChan_advances {s₀ s : State} (hs : s₀.Advances s) (phys : Nat) (n : Nat) (sp : Nat) (jrnl : Bool) : s₀.AdvancesP
    (State.beginChan s phys n sp jrnl) := by
  unfold State.beginChan
  repeat' with_reducible first
    | assumption | exact .refl _ | apply State.AdvancesP.ite | apply State.jBeginOp_advances | apply State.unwaitChan_advances
    | apply State.setFld_advances | apply State.raise_advances | apply State.AdvancesP.fst | (intro _) | apply State.AdvancesP.mk'
    | exact Nat.le_refl _ | apply State.Advances.upd

theorem execChannelDarn_advances {s₀ s : State} (hs : s₀.Advances s) (phys : Nat) (jrnl : Bool) : s₀.AdvancesR (execChannelDarn phys jrnl
    s) := by
  unfold execChannelDarn
  repeat' with_reducible first
    | assumption | apply State.Advances.ite | apply State.unwaitChan_advances | apply State.whenUp_advances | apply State.raise_advances
    | apply State.beginChan_advances | apply State.AdvancesP.fst | (intro _) | split

theorem State.chanCopied_advances {s₀ s : State} (hs : s₀.Advances s) (c : ChanCopy) : s₀.Advances (State.chanCopied s c) := by
  unfold State.chanCopied
  repeat' with_reducible first
    | assumption | exact .refl _ | apply State.setFld_advances | apply State.jSubstituted_advances | exact Nat.le_refl _
    | apply State.Advances.upd

theorem execChannelCopyDone_advances {s₀ s : State} (hs : s₀.Advances s) (phys : Nat) : s₀.AdvancesR (execChannelCopyDone phys s) := by
  unfold execChannelCopyDone
  repeat' with_reducible first | assumption | apply State.whenUp_advances | apply State.chanCopied_advances | (intro _) | split

theorem State.unwaitRow_advances {s₀ s : State} (hs : s₀.Advances s) (r : SpRow) : s₀.Advances (State.unwaitRow s r) := by
  unfold State.unwaitRow
  repeat' with_reducible first | assumption | exact .refl _ | exact Nat.le_refl _ | apply State.Advances.upd

theorem State.replaceSpRow_advances {s₀ s : State} (hs : s₀.Advances s) (n : Nat) (r : SpRow) (jrnl : Bool) : s₀.Advances
    (State.replaceSpRow s n r jrnl) := by
  unfold State.replaceSpRow
  repeat' with_reducible first
    | assumption | exact .refl _ | apply State.Advances.ite | apply State.unwaitRow_advances | apply State.jBeginOp_advances
    | apply State.modCore_advances | apply State.jSubstituted_advances | apply State.darnCore_advances | apply State.AdvancesP.fst
    | (intro _) | exact Nat.le_refl _ | apply State.Advances.upd

theorem execSpRowReplace_advances {s₀ s : State} (hs : s₀.Advances s) (phys : Nat) (bank : Nat) (row : Nat) (jrnl : Bool) : s₀.AdvancesR
    (execSpRowReplace phys bank row jrnl s) := by
  unfold execSpRowReplace
  repeat' with_reducible first
    | assumption | apply State.Advances.ite | apply State.conclude_advances | apply State.whenUp_advances
    | apply State.replaceSpRow_advances | (intro _) | split

theorem State.cmdCore_advances {s₀ s : State} (hs : s₀.Advances s) (n : Nat) (jrnl : Bool) : s₀.AdvancesP (State.cmdCore s n jrnl) := by
  unfold State.cmdCore
  repeat' with_reducible first
    | assumption | apply State.AdvancesP.ite | apply State.beginCore_advances | apply State.conclude_advances
    | apply State.evacuate_advances | apply State.AdvancesP.fst | (intro _) | apply State.AdvancesP.mk'

theorem execDarnCore_advances {s₀ s : State} (hs : s₀.Advances s) (o : Origin) (target : Nat) (jrnl : Bool) : s₀.AdvancesR (execDarnCore o
    target jrnl s) := by
  unfold execDarnCore
  repeat' with_reducible first
    | assumption | apply State.command_advances | apply State.cmdCore_advances | apply State.whenUp_advances | (intro _)

theorem State.cmdChan_advances {s₀ s : State} (hs : s₀.Advances s) (phys : Nat) (jrnl : Bool) : s₀.AdvancesP (State.cmdChan s phys jrnl)
    := by
  unfold State.cmdChan
  repeat' with_reducible first
    | assumption | exact .refl _ | apply State.AdvancesP.ite | apply State.beginChan_advances | (intro _) | split
    | apply State.AdvancesP.mk' | exact Nat.le_refl _ | apply State.Advances.upd

theorem execDarnChannel_advances {s₀ s : State} (hs : s₀.Advances s) (o : Origin) (target : Nat) (jrnl : Bool) : s₀.AdvancesR
    (execDarnChannel o target jrnl s) := by
  unfold execDarnChannel
  repeat' with_reducible first
    | assumption | apply State.command_advances | apply State.whenUp_advances | apply State.cmdChan_advances | (intro _)

/-! ### Safe -/

theorem State.lastingCore_advances {s₀ s : State} (hs : s₀.Advances s) (n : Nat) (jrnl : Bool) : s₀.Advances (State.lastingCore s n jrnl)
    := by
  unfold State.lastingCore
  repeat' with_reducible first
    | assumption | exact .refl _ | apply State.Advances.ite | apply State.modCore_advances | apply State.checkReservations_advances
    | apply State.darnCore_advances | (intro _) | split | exact Nat.le_refl _ | apply State.Advances.upd

theorem State.chargeCore_advances {s₀ s : State} (hs : s₀.Advances s) (c : Option Nat) (jrnl : Bool) : s₀.Advances (State.chargeCore s c
    jrnl) := by
  unfold State.chargeCore
  repeat' with_reducible first
    | assumption | apply State.Advances.ite | apply State.lastingCore_advances | apply State.reportLasting_advances
    | apply State.AdvancesP.fst | (intro _) | split

theorem State.mismatch_advances {s₀ s : State} (hs : s₀.Advances s) (j : Job) (b : Nat) (e : Nat × Nat × Nat × Nat) (jrnl : Bool) :
    s₀.Advances (State.mismatch s j b e jrnl) := by
  unfold State.mismatch
  repeat' with_reducible first | assumption | apply State.Advances.setReg | apply State.chargeCore_advances

theorem State.compared_advances {s₀ s : State} (hs : s₀.Advances s) (t : CmpTask) (k : Nat) (j : Job) (jrnl : Bool) : s₀.Advances
    (State.compared s t k j jrnl) := by
  unfold State.compared
  repeat' with_reducible first
    | assumption | exact .refl _ | apply State.Advances.ite | apply State.bump_advances | apply State.conclude_advances
    | apply State.modJob_advances | apply State.alwDrop_advances | apply State.mismatch_advances | (intro _) | split
    | exact Nat.le_refl _ | apply State.Advances.upd

theorem execCompareDone_advances {s₀ s : State} (hs : s₀.Advances s) (comparator : Nat) (jrnl : Bool) : s₀.AdvancesR (execCompareDone
    comparator jrnl s) := by
  unfold execCompareDone
  repeat' with_reducible first | assumption | apply State.whenUp_advances | apply State.compared_advances | (intro _) | split

theorem State.setPair_advances {s₀ s : State} (hs : s₀.Advances s) (p : Nat) (x : Pair) : s₀.Advances (State.setPair s p x) := by
  unfold State.setPair
  repeat' with_reducible first | assumption | exact .refl _ | exact Nat.le_refl _ | apply State.Advances.upd

theorem State.diverge_advances {s₀ s : State} (hs : s₀.Advances s) (p : Nat) : s₀.Advances (State.diverge s p) := by
  unfold State.diverge
  repeat' with_reducible first | assumption | apply State.report_advances | apply State.setPair_advances

theorem execLockstepDivergence_advances {s₀ s : State} (hs : s₀.Advances s) (pair : Nat) : s₀.AdvancesR (execLockstepDivergence pair s)
    := by
  unfold execLockstepDivergence
  repeat' with_reducible first
    | assumption | apply State.Advances.ite | apply State.diverge_advances | apply State.whenUp_advances | (intro _)

theorem execPairRestart_advances {s₀ s : State} (hs : s₀.Advances s) (pair : Nat) : s₀.AdvancesR (execPairRestart pair s) := by
  unfold execPairRestart
  repeat' with_reducible first
    | assumption | exact .refl _ | apply State.Advances.ite | apply State.whenUp_advances | apply State.setPair_advances | (intro _)
    | exact Nat.le_refl _ | apply State.Advances.upd

theorem State.setStSlot_advances {s₀ s : State} (hs : s₀.Advances s) (k : Nat) (x : StSlot) : s₀.Advances (State.setStSlot s k x) := by
  unfold State.setStSlot
  repeat' with_reducible first | assumption | exact .refl _ | exact Nat.le_refl _ | apply State.Advances.upd

theorem State.preemptBe_advances {s₀ s : State} (hs : s₀.Advances s) (n : Nat) : s₀.Advances (State.preemptBe s n) := by
  unfold State.preemptBe
  repeat' with_reducible first
    | assumption | apply State.Advances.ite | apply State.preemptOne_advances | apply State.AdvancesP.fst | (intro _) | split

theorem State.openSlot_advances {s₀ s : State} (hs : s₀.Advances s) (k : Nat) : s₀.Advances (State.openSlot s k) := by
  unfold State.openSlot
  repeat' with_reducible first
    | assumption | exact .refl _ | apply State.Advances.ite | apply State.preemptBe_advances | apply State.startTests_advances
    | apply State.Advances.foldl | (intro _) | exact Nat.le_refl _ | apply State.Advances.upd

theorem State.deferSlot_advances {s₀ s : State} (hs : s₀.Advances s) (o : StOpen) : s₀.Advances (State.deferSlot s o) := by
  unfold State.deferSlot
  repeat' with_reducible first
    | assumption | exact .refl _ | apply State.bump_advances | apply State.conclude_advances | apply State.modCore_advances
    | apply State.alwDrop_advances | apply State.Advances.foldl | (intro _) | exact Nat.le_refl _ | apply State.Advances.upd

theorem State.dropComparator_advances {s₀ s : State} (hs : s₀.Advances s) (k : Nat) : s₀.Advances (State.dropComparator s k) := by
  unfold State.dropComparator
  repeat' with_reducible first | assumption | exact .refl _ | split | exact Nat.le_refl _ | apply State.Advances.upd

theorem State.rotate_advances {s₀ s : State} (hs : s₀.Advances s) (missed : Bool) : s₀.Advances (State.rotate s missed) := by
  unfold State.rotate
  repeat' with_reducible first
    | assumption | exact .refl _ | apply State.Advances.ite | apply State.dropComparator_advances | apply State.report_advances
    | (intro _) | exact Nat.le_refl _ | apply State.Advances.upd

theorem execSelftestStart_advances {s₀ s : State} (hs : s₀.Advances s) (slot : Nat) (missed : Bool) : s₀.AdvancesR (execSelftestStart slot
    missed s) := by
  unfold execSelftestStart
  repeat' with_reducible first
    | assumption | exact .refl _ | apply State.Advances.ite | apply State.whenUp_advances | apply State.deferSlot_advances
    | apply State.rotate_advances | (intro _) | split | exact Nat.le_refl _ | apply State.Advances.upd

theorem State.endGolden_advances {s₀ s : State} (hs : s₀.Advances s) (n : Nat) : s₀.Advances (State.endGolden s n) := by
  unfold State.endGolden
  repeat' with_reducible first
    | assumption | apply State.Advances.ite | apply State.setStSlot_advances | apply State.clearTest_advances | (intro _)

theorem State.goldenPass_advances {s₀ s : State} (hs : s₀.Advances s) (n : Nat) : s₀.Advances (State.goldenPass s n) := by
  unfold State.goldenPass
  repeat' with_reducible first | assumption | apply State.Advances.setReg | apply State.modCore_advances | apply State.endGolden_advances

theorem execGoldenRunDone_advances {s₀ s : State} (hs : s₀.Advances s) (core : Nat) (pass : Bool) (jrnl : Bool) : s₀.AdvancesR
    (execGoldenRunDone core pass jrnl s) := by
  unfold execGoldenRunDone
  repeat' with_reducible first
    | assumption | apply State.Advances.ite | apply State.goldenPass_advances | apply State.conclude_advances
    | apply State.report_advances | apply State.whenUp_advances | apply State.darnCore_advances | apply State.endGolden_advances
    | (intro _)

theorem State.withdrawCore_advances {s₀ s : State} (hs : s₀.Advances s) (n : Nat) : s₀.Advances (State.withdrawCore s n) := by
  unfold State.withdrawCore
  repeat' with_reducible first
    | assumption | exact .refl _ | apply State.bump_advances | apply State.conclude_advances | apply State.modCore_advances
    | apply State.preemptBe_advances | apply State.checkReservations_advances | exact Nat.le_refl _ | apply State.Advances.upd

theorem State.coverMiss_advances {s₀ s : State} (hs : s₀.Advances s) (n : Nat) : s₀.Advances (State.coverMiss s n) := by
  unfold State.coverMiss
  repeat' with_reducible first
    | assumption | exact .refl _ | apply State.Advances.ite | apply State.report_advances | (intro _) | exact Nat.le_refl _
    | apply State.Advances.upd

theorem execCoverDeadline_advances {s₀ s : State} (hs : s₀.Advances s) (core : Nat) : s₀.AdvancesR (execCoverDeadline core s) := by
  unfold execCoverDeadline
  repeat' with_reducible first
    | assumption | apply State.Advances.ite | apply State.coverMiss_advances | apply State.whenUp_advances
    | apply State.withdrawCore_advances | (intro _)

theorem execPinMinExpire_advances {s₀ s : State} (hs : s₀.Advances s) : s₀.AdvancesR (execPinMinExpire s) := by
  unfold execPinMinExpire
  repeat' with_reducible first
    | assumption | apply State.Advances.ite | apply State.drivePins_advances | apply State.whenUp_advances | (intro _)

theorem State.writeSafePin_advances {s₀ s : State} (hs : s₀.Advances s) (o : Origin) (value : Word) : s₀.Advances (State.writeSafePin s o
    value) := by
  unfold State.writeSafePin
  repeat' with_reducible first
    | assumption | apply State.Advances.ite | apply State.drivePins_advances | apply State.writeBy_advances
    | apply State.assertPins_advances | (intro _)

theorem execSafeForce_advances {s₀ s : State} (hs : s₀.Advances s) (o : Origin) (on : Bool) : s₀.AdvancesR (execSafeForce o on s) := by
  unfold execSafeForce
  repeat' with_reducible first | assumption | apply State.writeSafePin_advances | apply State.whenUp_advances | (intro _)

theorem State.writePending_advances {s₀ s : State} (hs : s₀.Advances s) (o : Origin) (value : Word) : s₀.Advances (State.writePending s o
    value) := by
  unfold State.writePending
  repeat' with_reducible first | assumption | apply State.drivePins_advances | apply State.writeBy_advances | (intro _)

theorem State.writeSwErr_advances {s₀ s : State} (hs : s₀.Advances s) (o : Origin) (value : Word) : s₀.Advances (State.writeSwErr s o
    value) := by
  unfold State.writeSwErr
  repeat' with_reducible first
    | assumption | exact .refl _ | apply State.Advances.ite | apply State.writeBy_advances | apply State.report_advances | (intro _)
    | exact Nat.le_refl _ | apply State.Advances.upd

theorem execSwErr_advances {s₀ s : State} (hs : s₀.Advances s) (o : Origin) (code : Word) : s₀.AdvancesR (execSwErr o code s) := by
  unfold execSwErr
  repeat' with_reducible first | assumption | apply State.writeSwErr_advances | apply State.whenUp_advances | (intro _)

theorem execStRead_advances {s₀ s : State} (hs : s₀.Advances s) (o : Origin) (idx : Nat) : s₀.AdvancesR (execStRead o idx s) := by
  unfold execStRead
  repeat' with_reducible first
    | assumption | apply State.command_advances | apply State.putWords_advances | apply State.whenUp_advances | (intro _)
    | apply State.AdvancesP.mk'

theorem State.stWrite_advances {s₀ s : State} (hs : s₀.Advances s) (o : Origin) (k : Nat) : s₀.AdvancesP (State.stWrite s o k) := by
  unfold State.stWrite
  repeat' with_reducible first
    | assumption | apply State.AdvancesP.ite | apply State.setStSlot_advances | (intro _) | apply State.AdvancesP.mk'

theorem execStWrite_advances {s₀ s : State} (hs : s₀.Advances s) (o : Origin) (idx : Nat) : s₀.AdvancesR (execStWrite o idx s) := by
  unfold execStWrite
  repeat' with_reducible first
    | assumption | apply State.command_advances | apply State.whenUp_advances | apply State.stWrite_advances | (intro _)

/-! ### Power -/

theorem State.takeRate_advances {s₀ s : State} (hs : s₀.Advances s) (i : Nat) (count : Nat) : s₀.Advances (State.takeRate s i count) := by
  unfold State.takeRate
  repeat' with_reducible first | assumption | apply State.Advances.ite | apply State.setFld_advances | (intro _)

theorem State.rateRearm_advances {s₀ s : State} (hs : s₀.Advances s) : s₀.Advances (State.rateRearm s) := by
  unfold State.rateRearm
  repeat' with_reducible first
    | assumption | exact .refl _ | apply State.Advances.ite | (intro _) | exact Nat.le_refl _ | apply State.Advances.upd

theorem State.rateWindow_advances {s₀ s : State} (hs : s₀.Advances s) (counts : List Nat) : s₀.Advances (State.rateWindow s counts) := by
  unfold State.rateWindow
  repeat' with_reducible first
    | assumption | exact .refl _ | apply State.Advances.ite | apply State.takeRate_advances | apply State.bump_advances
    | apply State.report_advances | apply State.raise_advances | apply State.rateRearm_advances | apply State.Advances.foldl | (intro _)
    | exact Nat.le_refl _ | apply State.Advances.upd

theorem execRateWindowEnd_advances {s₀ s : State} (hs : s₀.Advances s) (counts : List Nat) : s₀.AdvancesR (execRateWindowEnd counts s)
    := by
  unfold execRateWindowEnd
  repeat' with_reducible first | assumption | apply State.whenUp_advances | apply State.rateWindow_advances | (intro _)

theorem State.clearMins_advances {s₀ s : State} (hs : s₀.Advances s) : s₀.Advances (State.clearMins s) := by
  unfold State.clearMins
  repeat' with_reducible first | assumption | apply State.setFld_advances | apply State.Advances.foldl | (intro _)

theorem State.writeRateFloor_advances {s₀ s : State} (hs : s₀.Advances s) (o : Origin) (value : Word) : s₀.Advances (State.writeRateFloor
    s o value) := by
  unfold State.writeRateFloor
  repeat' with_reducible first
    | assumption | apply State.Advances.ite | apply State.writeBy_advances | apply State.clearMins_advances
    | apply State.rateRearm_advances | (intro _)

theorem execClrMin_advances {s₀ s : State} (hs : s₀.Advances s) (o : Origin) (value : Word) : s₀.AdvancesR (execClrMin o value s) := by
  unfold execClrMin
  repeat' with_reducible first | assumption | apply State.writeRateFloor_advances | apply State.whenUp_advances | (intro _)

theorem execRefLoss_advances {s₀ s : State} (hs : s₀.Advances s) : s₀.AdvancesR (execRefLoss s) := by
  unfold execRefLoss
  repeat' with_reducible first
    | assumption | apply State.Advances.ite | apply State.setFld_advances | apply State.report_advances | apply State.whenUp_advances
    | apply State.raise_advances | (intro _)

theorem State.unitAsk_advances {s₀ s : State} (hs : s₀.Advances s) (h : Holder) (gen : Nat) : s₀.Advances (State.unitAsk s h gen) := by
  unfold State.unitAsk
  repeat' with_reducible first
    | assumption | apply State.Advances.ite | apply State.bump_advances | apply State.ask_advances | (intro _) | split

theorem execAlwRequest_advances {s₀ s : State} (hs : s₀.Advances s) (ask : AlwAsk) : s₀.AdvancesR (execAlwRequest ask s) := by
  unfold execAlwRequest
  repeat' with_reducible first | assumption | apply State.whenUp_advances | apply State.unitAsk_advances | (intro _)

theorem State.serveNext_advances {s₀ s : State} (hs : s₀.Advances s) : s₀.Advances (State.serveNext s) := by
  unfold State.serveNext
  repeat' with_reducible first
    | assumption | apply State.Advances.ite | apply State.alwServe_advances | apply State.onGrant_advances | (intro _) | split

theorem execAlwGrant_advances {s₀ s : State} (hs : s₀.Advances s) : s₀.AdvancesR (execAlwGrant s) := by
  unfold execAlwGrant
  repeat' with_reducible first | assumption | apply State.whenUp_advances | apply State.serveNext_advances

theorem State.afterRelease_advances {s₀ s : State} (hs : s₀.Advances s) : s₀.Advances (State.afterRelease s) := by
  unfold State.afterRelease
  repeat' with_reducible first
    | assumption | apply State.Advances.ite | apply State.restorePace_advances | apply State.reclaimMore_advances | (intro _)

theorem execAlwRelease_advances {s₀ s : State} (hs : s₀.Advances s) (holder : Holder) (gen : Nat) : s₀.AdvancesR (execAlwRelease holder
    gen s) := by
  unfold execAlwRelease
  repeat' with_reducible first
    | assumption | apply State.Advances.ite | apply State.bump_advances | apply State.whenUp_advances | apply State.dropGrants_advances
    | apply State.afterRelease_advances | (intro _)

theorem State.rampEnd_advances {s₀ s : State} (hs : s₀.Advances s) (x : Ramp) : s₀.Advances (State.rampEnd s x) := by
  unfold State.rampEnd
  repeat' with_reducible first
    | assumption | exact .refl _ | apply State.Advances.ite | apply State.afterRelease_advances | apply State.takeHold_advances
    | apply State.onGrant_advances | (intro _) | split | exact Nat.le_refl _ | apply State.Advances.upd

theorem execAlwRampDone_advances {s₀ s : State} (hs : s₀.Advances s) : s₀.AdvancesR (execAlwRampDone s) := by
  unfold execAlwRampDone
  repeat' with_reducible first
    | assumption | apply State.Advances.ite | apply State.rampEnd_advances | apply State.whenUp_advances
    | apply State.afterRelease_advances | (intro _) | split

theorem State.writeBudget_advances {s₀ s : State} (hs : s₀.Advances s) (o : Origin) (dram : Bool) (value : Word) : s₀.Advances
    (State.writeBudget s o dram value) := by
  unfold State.writeBudget
  repeat' with_reducible first
    | assumption | apply State.Advances.ite | apply State.setFld_advances | apply State.writeBy_advances | apply State.paceUnder_advances
    | apply State.afterRelease_advances | (intro _)

theorem execAlwBudgetWrite_advances {s₀ s : State} (hs : s₀.Advances s) (o : Origin) (dram : Bool) (value : Word) : s₀.AdvancesR
    (execAlwBudgetWrite o dram value s) := by
  unfold execAlwBudgetWrite
  repeat' with_reducible first | assumption | apply State.whenUp_advances | apply State.writeBudget_advances | (intro _)

theorem State.requestOn_advances {s₀ s : State} (hs : s₀.Advances s) (o : Origin) (d : Nat) : s₀.AdvancesP (State.requestOn s o d) := by
  unfold State.requestOn
  repeat' with_reducible first | assumption | apply State.AdvancesP.ite | apply State.ask_advances | (intro _) | apply State.AdvancesP.mk'

theorem execPwrDomainOn_advances {s₀ s : State} (hs : s₀.Advances s) (o : Origin) (d : Nat) : s₀.AdvancesR (execPwrDomainOn o d s) := by
  unfold execPwrDomainOn
  repeat' with_reducible first
    | assumption | apply State.command_advances | apply State.requestOn_advances | apply State.whenUp_advances | (intro _)

theorem State.freshPanel_advances {s₀ s : State} (hs : s₀.Advances s) (p : Nat) : s₀.Advances (State.freshPanel s p) := by
  unfold State.freshPanel
  repeat' with_reducible first
    | assumption | apply State.Advances.ite | apply State.modCore_advances | apply State.setFld_advances | apply State.setMode_advances
    | apply State.Advances.foldl | (intro _)

theorem State.powered_advances {s₀ s : State} (hs : s₀.Advances s) (d : Nat) : s₀.Advances (State.powered s d) := by
  unfold State.powered
  repeat' with_reducible first
    | assumption | exact .refl _ | apply State.Advances.ite | apply State.setDomain_advances | apply State.setFld_advances
    | apply State.freshPanel_advances | (intro _) | exact Nat.le_refl _ | apply State.Advances.upd

theorem State.spareTests_advances {s₀ s : State} (hs : s₀.Advances s) (d : Nat) : s₀.Advances (State.spareTests s d) := by
  unfold State.spareTests
  repeat' with_reducible first | assumption | apply State.Advances.ite | apply State.obtain_advances | (intro _)

theorem execPwrDomainPowered_advances {s₀ s : State} (hs : s₀.Advances s) (d : Nat) : s₀.AdvancesR (execPwrDomainPowered d s) := by
  unfold execPwrDomainPowered
  repeat' with_reducible first
    | assumption | apply State.Advances.ite | apply State.powered_advances | apply State.conclude_advances
    | apply State.spareTests_advances | apply State.whenUp_advances | (intro _)

theorem State.powerOff_advances {s₀ s : State} (hs : s₀.Advances s) (d : Nat) : s₀.Advances (State.powerOff s d) := by
  unfold State.powerOff
  repeat' with_reducible first
    | assumption | apply State.Advances.ite | apply State.dropLines_advances | apply State.setFld_advances
    | apply State.rateRearm_advances | apply State.domainDown_advances | (intro _)

theorem State.requestOff_advances {s₀ s : State} (hs : s₀.Advances s) (o : Origin) (d : Nat) : s₀.AdvancesP (State.requestOff s o d) := by
  unfold State.requestOff
  repeat' with_reducible first
    | assumption | apply State.AdvancesP.ite | apply State.powerOff_advances | apply State.alwDrop_advances | (intro _)
    | apply State.AdvancesP.mk'

theorem execPwrDomainOff_advances {s₀ s : State} (hs : s₀.Advances s) (o : Origin) (d : Nat) : s₀.AdvancesR (execPwrDomainOff o d s) := by
  unfold execPwrDomainOff
  repeat' with_reducible first
    | assumption | apply State.command_advances | apply State.requestOff_advances | apply State.whenUp_advances | (intro _)

theorem execRimStart_advances {s₀ s : State} (hs : s₀.Advances s) (d : Nat) : s₀.AdvancesR (execRimStart d s) := by
  unfold execRimStart
  repeat' with_reducible first
    | assumption | apply State.Advances.ite | apply State.setBit_advances | apply State.whenUp_advances | (intro _)

theorem execRimStop_advances {s₀ s : State} (hs : s₀.Advances s) (d : Nat) : s₀.AdvancesR (execRimStop d s) := by
  unfold execRimStop
  repeat' with_reducible first
    | assumption | exact .refl _ | apply State.Advances.ite | apply State.setBit_advances | apply State.whenUp_advances | (intro _)
    | exact Nat.le_refl _ | apply State.Advances.upd

theorem State.slipEnds_advances {s₀ s : State} (hs : s₀.Advances s) (d : Nat) : s₀.Advances (State.slipEnds s d) := by
  unfold State.slipEnds
  repeat' with_reducible first
    | assumption | apply State.Advances.ite | apply State.bump_advances | apply State.intakeSlip_advances | apply State.lineSlip_advances
    | (intro _)

theorem State.rimSlip_advances {s₀ s : State} (hs : s₀.Advances s) (d : Nat) : s₀.Advances (State.rimSlip s d) := by
  unfold State.rimSlip
  repeat' with_reducible first
    | assumption | apply State.Advances.ite | apply State.countSlip_advances | apply State.slipEnds_advances | (intro _)

theorem execRimSlip_advances {s₀ s : State} (hs : s₀.Advances s) (d : Nat) : s₀.AdvancesR (execRimSlip d s) := by
  unfold execRimSlip
  repeat' with_reducible first
    | assumption | apply State.Advances.ite | apply State.whenUp_advances | apply State.rimSlip_advances | (intro _)

/-! ### Tack -/

theorem State.tackCount_advances {s₀ s : State} (hs : s₀.Advances s) (i : Nat) (c : TackCnt) : s₀.Advances (State.tackCount s i c) := by
  unfold State.tackCount
  repeat' with_reducible first
    | assumption | apply State.Advances.ite | apply State.setTack_advances | apply State.raise_advances | (intro _)

theorem State.releaseOne_advances {s₀ s : State} (hs : s₀.Advances s) (at_ : Nat) (j : Job) : s₀.Advances (State.releaseOne s at_ j) := by
  unfold State.releaseOne
  repeat' with_reducible first | assumption | apply State.modJob_advances

theorem State.ringSlot_advances {s₀ s : State} (hs : s₀.Advances s) (ring : Nat) (n : Nat) (at_ : Nat) : s₀.Advances (State.ringSlot s
    ring n at_) := by
  unfold State.ringSlot
  repeat' with_reducible first
    | assumption | apply State.releaseOne_advances | apply State.bumpN_advances | apply State.Advances.foldl | (intro _)

theorem State.renewFor_advances {s₀ s : State} (hs : s₀.Advances s) (i : Nat) : s₀.Advances (State.renewFor s i) := by
  unfold State.renewFor
  repeat' with_reducible first
    | assumption | exact .refl _ | apply State.Advances.ite | (intro _) | exact Nat.le_refl _ | apply State.Advances.upd

theorem State.setFsync_advances {s₀ s : State} (hs : s₀.Advances s) (n : Nat) (p : FsyncPin) : s₀.Advances (State.setFsync s n p) := by
  unfold State.setFsync
  repeat' with_reducible first | assumption | exact .refl _ | exact Nat.le_refl _ | apply State.Advances.upd

theorem State.pulse_advances {s₀ s : State} (hs : s₀.Advances s) (n : Nat) : s₀.Advances (State.pulse s n) := by
  unfold State.pulse
  repeat' with_reducible first
    | assumption | apply State.Advances.ite | apply State.bumpFld_advances | apply State.setFsync_advances | (intro _)

theorem State.act_advances {s₀ s : State} (hs : s₀.Advances s) (t : Tack) (at_ : Nat) (fires : Nat) : s₀.Advances (State.act s t at_
    fires) := by
  unfold State.act
  repeat' with_reducible first
    | assumption | apply State.pulse_advances | apply State.ringSlot_advances | apply State.gridFire_advances
    | apply State.knotSet_advances | apply State.trigger_advances | apply State.openSlot_advances | apply State.frameFire_advances
    | apply State.knotAdd_advances | split

theorem State.issueTack_advances {s₀ s : State} (hs : s₀.Advances s) (i : Nat) (at_ : Nat) : s₀.Advances (State.issueTack s i at_) := by
  unfold State.issueTack
  try dsimp -iota only
  repeat' first

    | with_reducible (first | assumption | apply State.setTack_advances | apply State.tackCount_advances | apply State.act_advances | apply State.rimRefuse_advances)
    | split

theorem State.lateFire_advances {s₀ s : State} (hs : s₀.Advances s) (i : Nat) (w : TackWait) : s₀.Advances (State.lateFire s i w) := by
  unfold State.lateFire
  repeat' with_reducible first
    | assumption | apply State.Advances.ite | apply State.setTack_advances | apply State.issueTack_advances
    | apply State.tackCount_advances | apply State.renewFor_advances | (intro _)

theorem State.dropWait_advances {s₀ s : State} (hs : s₀.Advances s) (i : Nat) (c : TackCnt) : s₀.Advances (State.dropWait s i c) := by
  unfold State.dropWait
  repeat' with_reducible first
    | assumption | apply State.setTack_advances | apply State.tackCount_advances | apply State.renewFor_advances
    | apply State.raise_advances | split

theorem State.evaluate_advances {s₀ s : State} (hs : s₀.Advances s) (i : Nat) (past : Bool) : s₀.Advances (State.evaluate s i past) := by
  unfold State.evaluate
  repeat' with_reducible first
    | assumption | apply State.Advances.ite | apply State.setTack_advances | apply State.bump_advances | apply State.issueTack_advances
    | apply State.tackCount_advances | (intro _)

theorem State.retireWait_advances {s₀ s : State} (hs : s₀.Advances s) (i : Nat) : s₀.Advances (State.retireWait s i) := by
  unfold State.retireWait
  try dsimp -iota only
  repeat' first

    | with_reducible (first | assumption | apply State.Advances.ite | apply State.dropWait_advances | apply State.lateFire_advances | (intro _))
    | split

theorem State.fireDue_advances {s₀ s : State} (hs : s₀.Advances s) (i : Nat) : s₀.Advances (State.fireDue s i) := by
  unfold State.fireDue
  repeat' with_reducible first
    | assumption | apply State.Advances.ite | apply State.setTack_advances | apply State.retireWait_advances
    | apply State.renewFor_advances | apply State.evaluate_advances | (intro _)

theorem State.tackDone_advances {s₀ s : State} (hs : s₀.Advances s) (i : Nat) : s₀.Advances (State.tackDone s i) := by
  unfold State.tackDone
  repeat' with_reducible first | assumption | exact .refl _ | split | exact Nat.le_refl _ | apply State.Advances.upd

theorem execTackFire_advances {s₀ s : State} (hs : s₀.Advances s) (i : Nat) : s₀.AdvancesR (execTackFire i s) := by
  unfold execTackFire
  repeat' with_reducible first
    | assumption | apply State.Advances.ite | apply State.fireDue_advances | apply State.tackDone_advances
    | apply State.conclude_advances | apply State.whenUp_advances | (intro _)

theorem execTackLateFire_advances {s₀ s : State} (hs : s₀.Advances s) (i : Nat) : s₀.AdvancesR (execTackLateFire i s) := by
  unfold execTackLateFire
  try dsimp -iota only
  repeat' first

    | with_reducible (first | assumption | apply State.Advances.ite | apply State.tackDone_advances | apply State.lateFire_advances | apply State.conclude_advances | apply State.whenUp_advances | (intro _))
    | split

theorem execTackTimeout_advances {s₀ s : State} (hs : s₀.Advances s) (i : Nat) : s₀.AdvancesR (execTackTimeout i s) := by
  unfold execTackTimeout
  try dsimp -iota only
  repeat' first

    | with_reducible (first | assumption | apply State.Advances.ite | apply State.dropWait_advances | apply State.conclude_advances | apply State.whenUp_advances | (intro _))
    | split

theorem execTackRead_advances {s₀ s : State} (hs : s₀.Advances s) (o : Origin) (i : Nat) : s₀.AdvancesR (execTackRead o i s) := by
  unfold execTackRead
  repeat' with_reducible first
    | assumption | apply State.command_advances | apply State.putWords_advances | apply State.whenUp_advances | (intro _)
    | apply State.AdvancesP.mk'

theorem State.passOver_advances {s₀ y1 : State} (hy1 : s₀.Advances y1) (y0 : Nat) (y2 : Nat) : s₀.Advances (State.passOver y0 y1 y2) := by
  induction y0 generalizing y1 y2 hy1 with
  | zero =>
    unfold State.passOver
    repeat' with_reducible assumption
  | succ _ ih =>
    unfold State.passOver
    repeat' with_reducible first
      | assumption | apply State.Advances.ite | apply ih | apply State.setTack_advances | apply State.tackCount_advances | (intro _)

theorem State.writtenPast_advances {s₀ s : State} (hs : s₀.Advances s) (i : Nat) : s₀.Advances (State.writtenPast s i) := by
  unfold State.writtenPast
  repeat' with_reducible first
    | assumption | apply State.Advances.ite | apply State.setTack_advances | apply State.passOver_advances
    | apply State.evaluate_advances | (intro _)

theorem State.dropForWrite_advances {s₀ s : State} (hs : s₀.Advances s) (i : Nat) : s₀.Advances (State.dropForWrite s i) := by
  unfold State.dropForWrite
  repeat' with_reducible first
    | assumption | apply State.Advances.ite | apply State.setTack_advances | apply State.tackCount_advances | (intro _)

theorem State.retarget_advances {s₀ s : State} (hs : s₀.Advances s) (i : Nat) : s₀.Advances (State.retarget s i) := by
  unfold State.retarget
  repeat' with_reducible first
    | assumption | exact .refl _ | apply State.Advances.ite | apply State.advance_advances | apply State.Advances.foldl | (intro _)
    | exact Nat.le_refl _ | apply State.Advances.upd

theorem State.tackWrite_advances {s₀ s : State} (hs : s₀.Advances s) (o : Origin) (i : Nat) : s₀.AdvancesP (State.tackWrite s o i) := by
  unfold State.tackWrite
  repeat' with_reducible first
    | assumption | apply State.AdvancesP.ite | apply State.setTack_advances | apply State.dropForWrite_advances
    | apply State.writtenPast_advances | apply State.conclude_advances | apply State.retarget_advances | (intro _) | split
    | apply State.AdvancesP.mk'

theorem execTackWrite_advances {s₀ s : State} (hs : s₀.Advances s) (o : Origin) (i : Nat) : s₀.AdvancesR (execTackWrite o i s) := by
  unfold execTackWrite
  repeat' with_reducible first
    | assumption | apply State.command_advances | apply State.tackWrite_advances | apply State.whenUp_advances | (intro _)

theorem State.tackDisable_advances {s₀ s : State} (hs : s₀.Advances s) (o : Origin) (i : Nat) : s₀.AdvancesP (State.tackDisable s o i)
    := by
  unfold State.tackDisable
  repeat' with_reducible first
    | assumption | apply State.AdvancesP.ite | apply State.setTack_advances | apply State.dropForWrite_advances
    | apply State.retarget_advances | (intro _) | apply State.AdvancesP.mk'

theorem execTackDisable_advances {s₀ s : State} (hs : s₀.Advances s) (o : Origin) (i : Nat) : s₀.AdvancesR (execTackDisable o i s) := by
  unfold execTackDisable
  repeat' with_reducible first
    | assumption | apply State.command_advances | apply State.tackDisable_advances | apply State.whenUp_advances | (intro _)

theorem execTackClear_advances {s₀ s : State} (hs : s₀.Advances s) (o : Origin) (i : Nat) : s₀.AdvancesR (execTackClear o i s) := by
  unfold execTackClear
  repeat' with_reducible first
    | assumption | apply State.setTack_advances | apply State.command_advances | apply State.whenUp_advances | (intro _)
    | apply State.AdvancesP.mk'

theorem State.orphan_advances {s₀ s : State} (hs : s₀.Advances s) (ownsRing : Nat → Bool) (ownsKnot : Nat → Bool) : s₀.Advances
    (State.orphan s ownsRing ownsKnot) := by
  unfold State.orphan
  repeat' with_reducible first
    | assumption | apply State.setTack_advances | apply State.dropForWrite_advances | apply State.retarget_advances
    | apply State.raise_advances | apply State.Advances.foldl | (intro _)

theorem execFsyncPulseEnd_advances {s₀ s : State} (hs : s₀.Advances s) (n : Nat) : s₀.AdvancesR (execFsyncPulseEnd n s) := by
  unfold execFsyncPulseEnd
  repeat' with_reducible first
    | assumption | apply State.Advances.ite | apply State.whenUp_advances | apply State.setFsync_advances | (intro _) | split

theorem State.writeFsync_advances {s₀ s : State} (hs : s₀.Advances s) (o : Origin) (n : Nat) (value : Word) : s₀.Advances
    (State.writeFsync s o n value) := by
  unfold State.writeFsync
  repeat' with_reducible first | assumption | apply State.writeBy_advances | apply State.setFsync_advances | (intro _)

theorem execFsyncCfgWrite_advances {s₀ s : State} (hs : s₀.Advances s) (o : Origin) (n : Nat) (value : Word) : s₀.AdvancesR
    (execFsyncCfgWrite o n value s) := by
  unfold execFsyncCfgWrite
  repeat' with_reducible first
    | assumption | apply State.Advances.ite | apply State.writeFsync_advances | apply State.whenUp_advances | (intro _)

theorem State.readTimeLo_advances {s₀ s : State} (hs : s₀.Advances s) (o : Origin) : s₀.Advances (State.readTimeLo s o) := by
  unfold State.readTimeLo
  repeat' with_reducible first | assumption | exact .refl _ | apply State.answer_advances | exact Nat.le_refl _ | apply State.Advances.upd

theorem State.readTimeHi_advances {s₀ s : State} (hs : s₀.Advances s) (o : Origin) : s₀.Advances (State.readTimeHi s o) := by
  unfold State.readTimeHi
  repeat' with_reducible first | assumption | apply State.answer_advances

theorem execTimeNowLoRead_advances {s₀ s : State} (hs : s₀.Advances s) (o : Origin) : s₀.AdvancesR (execTimeNowLoRead o s) := by
  unfold execTimeNowLoRead
  repeat' with_reducible first
    | assumption | apply State.Advances.ite | apply State.whenUp_advances | apply State.readTimeLo_advances
    | apply State.refuseTo_advances | (intro _)

theorem State.setAdj_advances {s₀ s : State} (hs : s₀.Advances s) (v : Nat) : s₀.Advances (State.setAdj s v) := by
  unfold State.setAdj
  repeat' with_reducible first | assumption | apply State.Advances.ite | apply State.setFld_advances | (intro _)

theorem State.writeAdj_advances {s₀ s : State} (hs : s₀.Advances s) (o : Origin) (value : Word) : s₀.Advances (State.writeAdj s o value)
    := by
  unfold State.writeAdj
  repeat' with_reducible first
    | assumption | apply State.Advances.ite | apply State.setFld_advances | apply State.writeBy_advances
    | apply State.auditRefusal_advances | (intro _)

theorem execTimeRateAdjWrite_advances {s₀ s : State} (hs : s₀.Advances s) (o : Origin) (value : Word) : s₀.AdvancesR (execTimeRateAdjWrite
    o value s) := by
  unfold execTimeRateAdjWrite
  repeat' with_reducible first | assumption | apply State.writeAdj_advances | apply State.whenUp_advances | (intro _)

/-! ### Reset -/

theorem State.enterReset_advances {s₀ s : State} (hs : s₀.Advances s) : s₀.Advances s.enterReset :=
  hs.trans ⟨fun i => ⟨⟨rfl, rfl, rfl, rfl, i.epochs, i.floors, i.top⟩,
    ⟨fun _ => Nat.le_refl _, fun _ => Nat.le_refl _, Nat.le_refl _, Nat.le_refl _, rfl⟩⟩⟩

theorem execResetNLow_advances {s₀ s : State} (hs : s₀.Advances s) : s₀.AdvancesR (execResetNLow s) := by
  unfold execResetNLow
  repeat' with_reducible first
    | assumption | exact .refl _ | apply State.AdvancesR.mk' | apply State.enterReset_advances | exact Nat.le_refl _
    | apply State.Advances.upd

theorem execPwrokFall_advances {s₀ s : State} (hs : s₀.Advances s) : s₀.AdvancesR (execPwrokFall s) := by
  unfold execPwrokFall
  repeat' with_reducible first
    | assumption | exact .refl _ | apply State.AdvancesR.mk' | apply State.enterReset_advances | exact Nat.le_refl _
    | apply State.Advances.upd

theorem execPwrokRise_advances {s₀ s : State} (hs : s₀.Advances s) : s₀.AdvancesR (execPwrokRise s) := by
  unfold execPwrokRise
  repeat' with_reducible first | assumption | exact .refl _ | apply State.AdvancesR.mk' | exact Nat.le_refl _ | apply State.Advances.upd

theorem execSupplyUndervolt_advances {s₀ s : State} (hs : s₀.Advances s) (dram : Bool) : s₀.AdvancesR (execSupplyUndervolt dram s) := by
  unfold execSupplyUndervolt
  repeat' with_reducible first
    | assumption | exact .refl _ | apply State.AdvancesR.mk' | apply State.enterReset_advances | exact Nat.le_refl _
    | apply State.Advances.upd

theorem execThermalTrip_advances {s₀ s : State} (hs : s₀.Advances s) : s₀.AdvancesR (execThermalTrip s) := by
  unfold execThermalTrip
  repeat' with_reducible first
    | assumption | exact .refl _ | apply State.Advances.ite | apply State.AdvancesR.mk' | apply State.enterReset_advances | (intro _)
    | exact Nat.le_refl _ | apply State.Advances.upd

/-! ### Secure -/

theorem State.modStore_advances {s₀ s : State} (hs : s₀.Advances s) {f : Store → Store} (hf : (f s.trust.store).floors = s.trust.store.floors)
    (hb : s.trust.store.boots ≤ (f s.trust.store).boots) : s₀.Advances (s.modStore f) := by
  refine hs.trans ⟨fun i => ⟨⟨i.regs, i.mem, i.poison, i.knots, i.epochs, ?_, i.top⟩, ⟨fun k => Nat.le_of_eq ?_, fun _ => Nat.le_refl _, hb, Nat.le_refl _, rfl⟩⟩⟩
  · exact hf ▸ i.floors
  · show Sparse.get (fun _ => 0) k s.trust.store.floors = Sparse.get (fun _ => 0) k (f s.trust.store).floors
    rw [hf]

theorem State.raiseFloor_advances {s₀ s : State} (hs : s₀.Advances s) (k n : Nat) :
    s₀.Advances (s.modStore (fun t => { t with floors := Sparse.put (fun _ => 0) k (max n (s.floor k)) t.floors })) := by
  refine hs.trans ⟨fun i => ⟨⟨i.regs, i.mem, i.poison, i.knots, i.epochs, Sparse.wf_put i.floors, i.top⟩,
    ⟨fun j => ?_, fun _ => Nat.le_refl _, Nat.le_refl _, Nat.le_refl _, rfl⟩⟩⟩
  show s.floor j ≤ Sparse.get (fun _ => 0) j (Sparse.put (fun _ => 0) k (max n (s.floor k)) s.trust.store.floors)
  by_cases h : j = k
  · subst h
    rw [Sparse.get_put_same i.floors]
    exact Nat.le_max_right _ _
  · rw [Sparse.get_put_other h i.floors]
    exact Nat.le_refl _

theorem State.stageImage_advances {s₀ s : State} (hs : s₀.Advances s) (kind : Nat) : s₀.AdvancesP (State.stageImage s kind) := by
  unfold State.stageImage
  repeat' with_reducible first
    | assumption | exact .refl _ | apply State.AdvancesP.ite | apply State.noteRead_advances | apply State.modStore_advances | (intro _)
    | apply State.AdvancesP.mk' | exact Nat.le_refl _ | apply State.Advances.upd

theorem execFwStage_advances {s₀ s : State} (hs : s₀.Advances s) (o : Origin) (kind : Nat) : s₀.AdvancesR (execFwStage o kind s) := by
  unfold execFwStage
  repeat' with_reducible first
    | assumption | apply State.command_advances | apply State.stageImage_advances | apply State.whenUp_advances | (intro _)

theorem State.fwStatus_advances {s₀ s : State} (hs : s₀.Advances s) (kind : Nat) (code : Nat) : s₀.Advances (State.fwStatus s kind code)
    := by
  unfold State.fwStatus
  repeat' with_reducible first | assumption | apply State.Advances.ite | apply State.setFld_advances | (intro _)

theorem State.staged_advances {s₀ s : State} (hs : s₀.Advances s) (kind : Nat) (bs : List Byte) (ok : Bool) : s₀.Advances (State.staged s
    kind bs ok) := by
  unfold State.staged
  repeat' with_reducible first
    | assumption | exact .refl _ | apply State.Advances.ite | apply State.fwStatus_advances | apply State.modStore_advances | (intro _)
    | exact Nat.le_refl _ | apply State.Advances.upd

theorem execStageDone_advances {s₀ s : State} (hs : s₀.Advances s) (kind : Nat) (ok : Bool) : s₀.AdvancesR (execStageDone kind ok s) := by
  unfold execStageDone
  repeat' with_reducible first | assumption | apply State.staged_advances | apply State.whenUp_advances | (intro _) | split

theorem State.switchSlot_advances {s₀ s : State} (hs : s₀.Advances s) (kind : Nat) (jrnl : Bool) : s₀.AdvancesP (State.switchSlot s kind
    jrnl) := by
  unfold State.switchSlot
  repeat' with_reducible first
    | assumption | exact .refl _ | apply State.AdvancesP.ite | apply State.jBeginOp_advances | apply State.jWrite_advances
    | apply State.modStore_advances | apply State.AdvancesP.fst | (intro _) | apply State.AdvancesP.mk' | exact Nat.le_refl _
    | apply State.Advances.upd

theorem execFwSwitch_advances {s₀ s : State} (hs : s₀.Advances s) (o : Origin) (kind : Nat) (jrnl : Bool) : s₀.AdvancesR (execFwSwitch o
    kind jrnl s) := by
  unfold execFwSwitch
  repeat' with_reducible first
    | assumption | apply State.command_advances | apply State.switchSlot_advances | apply State.whenUp_advances | (intro _)

theorem execFwDiscard_advances {s₀ s : State} (hs : s₀.Advances s) (o : Origin) (kind : Nat) : s₀.AdvancesR (execFwDiscard o kind s) := by
  unfold execFwDiscard
  repeat' with_reducible first
    | assumption | exact .refl _ | apply State.AdvancesP.ite | apply State.command_advances | apply State.whenUp_advances | (intro _)
    | apply State.AdvancesP.mk' | exact Nat.le_refl _ | apply State.Advances.upd

theorem State.setTenant_advances {s₀ s : State} (hs : s₀.Advances s) (t : Nat) (x : Tenant) : s₀.Advances (State.setTenant s t x) := by
  unfold State.setTenant
  repeat' with_reducible first | assumption | exact .refl _ | exact Nat.le_refl _ | apply State.Advances.upd

theorem State.setEpoch_advances {s₀ s : State} (hs : s₀.Advances s) (t n : Nat) (hn : n = s.epoch t) :
    s₀.Advances (s.setEpoch t (min 0xFFFFFFFF (n + 1))) := by
  subst hn
  have hk : ∀ (i : s.Inv) k, (s.setEpoch t (min 0xFFFFFFFF (s.epoch t + 1))).epoch k = if k = t then min 0xFFFFFFFF (s.epoch t + 1) else s.epoch k := by
    intro i k
    show Sparse.get (fun _ => 0) k (Sparse.put (fun _ => 0) t _ s.epochs) = _
    split
    next h => subst h; exact Sparse.get_put_same i.epochs
    next h => exact Sparse.get_put_other h i.epochs
  refine hs.trans ⟨fun i => ⟨⟨i.regs, i.mem, i.poison, i.knots, Sparse.wf_put i.epochs, i.floors, fun k => ?_⟩,
    ⟨fun _ => Nat.le_refl _, fun k => ?_, Nat.le_refl _, Nat.le_refl _, rfl⟩⟩⟩
  · rw [hk i]
    split
    · exact Nat.min_le_left _ _
    · exact i.top k
  · rw [hk i]
    split
    next h => subst h; exact Nat.le_min.2 ⟨i.top k, Nat.le_succ _⟩
    · exact Nat.le_refl _

theorem execTenantRead_advances {s₀ s : State} (hs : s₀.Advances s) (o : Origin) (t : Nat) : s₀.AdvancesR (execTenantRead o t s) := by
  unfold execTenantRead
  repeat' with_reducible first
    | assumption | apply State.AdvancesP.ite | apply State.Advances.setReg | apply State.command_advances | apply State.whenUp_advances
    | (intro _) | apply State.AdvancesP.mk'

theorem State.createTenant_advances {s₀ s : State} (hs : s₀.Advances s) (o : Origin) (t : Nat) : s₀.AdvancesP (State.createTenant s o t)
    := by
  unfold State.createTenant
  repeat' with_reducible first
    | assumption | apply State.AdvancesP.ite | apply State.setTenant_advances | apply State.auditLog_advances | (intro _)
    | apply State.AdvancesP.mk'

theorem execTenantCreate_advances {s₀ s : State} (hs : s₀.Advances s) (o : Origin) (t : Nat) : s₀.AdvancesR (execTenantCreate o t s) := by
  unfold execTenantCreate
  repeat' with_reducible first
    | assumption | apply State.command_advances | apply State.createTenant_advances | apply State.whenUp_advances | (intro _)

theorem State.goneFetched_advances {s₀ s : State} (hs : s₀.Advances s) (n : Nat) : s₀.Advances (State.goneFetched s n) := by
  unfold State.goneFetched
  repeat' with_reducible first
    | assumption | apply State.finish_advances | apply State.setRing_advances | apply State.Advances.foldl | (intro _)

theorem State.goneJobs_advances {s₀ s : State} (hs : s₀.Advances s) (v : Nat) : s₀.Advances (State.goneJobs s v) := by
  unfold State.goneJobs
  repeat' with_reducible first
    | assumption | apply State.setFld_advances | apply State.goneFetched_advances | apply State.endJob_advances
    | apply State.Advances.foldl | (intro _)

theorem State.scrubTenant_advances {s₀ s : State} (hs : s₀.Advances s) (t : Nat) : s₀.Advances (State.scrubTenant s t) := by
  unfold State.scrubTenant
  repeat' with_reducible first
    | assumption | apply State.dropLines_advances | apply State.modCore_advances | apply State.setFld_advances
    | apply State.Advances.foldl | (intro _)

theorem State.freeHot_advances {s₀ s : State} (hs : s₀.Advances s) (t : Nat) : s₀.Advances (State.freeHot s t) := by
  unfold State.freeHot
  repeat' with_reducible first
    | assumption | apply State.unpin_advances | apply State.alwDrop_advances | apply State.setHot_advances | apply State.Advances.foldl
    | (intro _)

theorem State.freeUnits_advances {s₀ s : State} (hs : s₀.Advances s) (t : Nat) : s₀.Advances (State.freeUnits s t) := by
  unfold State.freeUnits
  repeat' with_reducible first
    | assumption | apply State.Advances.ite | apply State.setFld_advances | apply State.Advances.foldl | (intro _)

theorem State.freeMaps_advances {s₀ s : State} (hs : s₀.Advances s) (t : Nat) : s₀.Advances (State.freeMaps s t) := by
  unfold State.freeMaps
  repeat' with_reducible first | assumption | exact .refl _ | exact Nat.le_refl _ | apply State.Advances.upd

theorem State.dropKeys_advances {s₀ s : State} (hs : s₀.Advances s) (t : Nat) : s₀.Advances (State.dropKeys s t) := by
  unfold State.dropKeys
  repeat' with_reducible first | assumption | exact .refl _ | exact Nat.le_refl _ | apply State.Advances.upd

theorem State.releaseTenant_advances {s₀ s : State} (hs : s₀.Advances s) (v : Nat) : s₀.Advances (State.releaseTenant s v) := by
  unfold State.releaseTenant
  repeat' with_reducible first
    | assumption | apply State.freeUnits_advances | apply State.Advances.setReg | apply State.dropKeys_advances
    | apply State.freeMaps_advances | apply State.orphan_advances | apply State.setFld_advances | apply State.freeHot_advances
    | apply State.flushOwned_advances | apply State.Advances.foldl | (intro _)

theorem State.dropImages_advances {s₀ s : State} (hs : s₀.Advances s) (v : Nat) : s₀.Advances (State.dropImages s v) := by
  unfold State.dropImages
  repeat' with_reducible first
    | assumption | exact .refl _ | apply State.jWrite_advances | apply State.Advances.foldl | (intro _) | exact Nat.le_refl _
    | apply State.Advances.upd

theorem State.removeTenant_advances {s₀ s : State} (hs : s₀.Advances s) (t : Nat) (jrnl : Bool) : s₀.AdvancesP (State.removeTenant s t
    jrnl) := by
  unfold State.removeTenant
  repeat' with_reducible first
    | assumption | exact .refl _ | apply State.AdvancesP.ite | apply State.setTenant_advances | apply State.jBeginOp_advances
    | apply State.scrubTenant_advances | apply State.auditLog_advances | apply State.conclude_advances
    | apply State.releaseTenant_advances | apply State.dropImages_advances | apply State.goneJobs_advances | apply State.AdvancesP.fst
    | (intro _) | apply State.AdvancesP.mk' | exact Nat.le_refl _ | apply State.Advances.upd

theorem State.remove_advances {s₀ s : State} (hs : s₀.Advances s) (t : Nat) (force : Bool) (jrnl : Bool) : s₀.AdvancesP (State.remove s t
    force jrnl) := by
  unfold State.remove
  repeat' with_reducible first
    | assumption | apply State.AdvancesP.ite | apply State.removeTenant_advances | (intro _) | apply State.AdvancesP.mk'

theorem execTenantRemove_advances {s₀ s : State} (hs : s₀.Advances s) (o : Origin) (t : Nat) (jrnl : Bool) : s₀.AdvancesR
    (execTenantRemove o t jrnl s) := by
  unfold execTenantRemove
  repeat' with_reducible first
    | assumption | apply State.command_advances | apply State.whenUp_advances | apply State.remove_advances | (intro _)

theorem execTenantForceRemove_advances {s₀ s : State} (hs : s₀.Advances s) (o : Origin) (t : Nat) (jrnl : Bool) : s₀.AdvancesR
    (execTenantForceRemove o t jrnl s) := by
  unfold execTenantForceRemove
  repeat' with_reducible first
    | assumption | apply State.command_advances | apply State.whenUp_advances | apply State.remove_advances | (intro _)

theorem State.tenantStatus_advances {s₀ s : State} (hs : s₀.Advances s) (t : Nat) (code : Nat) : s₀.Advances (State.tenantStatus s t code)
    := by
  unfold State.tenantStatus
  repeat' with_reducible first | assumption | apply State.Advances.ite | apply State.setFld_advances | (intro _)

theorem execRemovalDone_advances {s₀ s : State} (hs : s₀.Advances s) (t : Nat) (rpmb : Bool) : s₀.AdvancesR (execRemovalDone t rpmb s)
    := by
  unfold execRemovalDone
  repeat' first

    | with_reducible (first | assumption | exact .refl _ | apply State.Advances.ite | apply State.setTenant_advances | apply State.jWrite_advances | apply State.auditLog_advances | apply State.setEpoch_advances | apply State.whenUp_advances | apply State.tenantStatus_advances | (intro _) | apply State.Advances.upd)
    | exact rfl | exact Nat.le_refl _

theorem State.request_advances {s₀ s : State} (hs : s₀.Advances s) (o : Origin) (enclave : Nat) (tenant : Nat) (wrap : Bool) :
    s₀.AdvancesP (State.request s o enclave tenant wrap) := by
  unfold State.request
  repeat' with_reducible first
    | assumption | exact .refl _ | apply State.AdvancesP.ite | apply State.noteRead_advances | (intro _) | split
    | apply State.AdvancesP.mk' | exact Nat.le_refl _ | apply State.Advances.upd

theorem State.attReport_advances {s₀ s : State} (hs : s₀.Advances s) (o : Origin) (enclave : Nat) (tenant : Nat) (wrap : Bool) :
    s₀.Advances (State.attReport s o enclave tenant wrap) := by
  unfold State.attReport
  repeat' with_reducible first | assumption | apply State.command_advances | apply State.request_advances | (intro _)

theorem execAttReport_advances {s₀ s : State} (hs : s₀.Advances s) (o : Origin) (enclave : Nat) (tenant : Nat) (wrap : Bool) (far : List
    FarRead) : s₀.AdvancesR (execAttReport o enclave tenant wrap far s) := by
  unfold execAttReport
  repeat' with_reducible first
    | assumption | apply State.whenUp_advances | apply State.learn_advances | apply State.attReport_advances | (intro _)

theorem execReportDone_advances {s₀ s : State} (hs : s₀.Advances s) (o : Origin) : s₀.AdvancesR (execReportDone o s) := by
  unfold execReportDone
  repeat' with_reducible first
    | assumption | exact .refl _ | apply State.setFld_advances | apply State.store_advances | apply State.whenUp_advances | (intro _)
    | split | exact Nat.le_refl _ | apply State.Advances.upd

theorem State.startExport_advances {s₀ s : State} (hs : s₀.Advances s) (count : Nat) : s₀.Advances (State.startExport s count) := by
  unfold State.startExport
  repeat' with_reducible first
    | assumption | exact .refl _ | apply State.Advances.ite | apply State.setFld_advances | (intro _) | exact Nat.le_refl _
    | apply State.Advances.upd

theorem execAuditExport_advances {s₀ s : State} (hs : s₀.Advances s) (o : Origin) (count : Nat) : s₀.AdvancesR (execAuditExport o count s)
    := by
  unfold execAuditExport
  repeat' with_reducible first
    | assumption | apply State.Advances.ite | apply State.setFld_advances | apply State.whenUp_advances | apply State.refuseTo_advances
    | apply State.startExport_advances | (intro _)

theorem execExportDone_advances {s₀ s : State} (hs : s₀.Advances s) : s₀.AdvancesR (execExportDone s) := by
  unfold execExportDone
  repeat' with_reducible first
    | assumption | exact .refl _ | apply State.Advances.setReg | apply State.auditLog_advances | apply State.setFld_advances
    | apply State.store_advances | apply State.whenUp_advances | (intro _) | split | exact Nat.le_refl _ | apply State.Advances.upd

theorem State.auditSpace_advances {s₀ s : State} (hs : s₀.Advances s) : s₀.Advances (State.auditSpace s) := by
  unfold State.auditSpace
  repeat' with_reducible first
    | assumption | exact .refl _ | apply State.Advances.ite | apply State.auditRefresh_advances | apply State.auditPut_advances
    | (intro _) | split | exact Nat.le_refl _ | apply State.Advances.upd

theorem State.ackAudit_advances {s₀ s : State} (hs : s₀.Advances s) (o : Origin) (value : Word) : s₀.Advances (State.ackAudit s o value)
    := by
  unfold State.ackAudit
  repeat' with_reducible first
    | assumption | apply State.Advances.ite | apply State.Advances.setReg | apply State.setFld_advances | apply State.auditSpace_advances
    | apply State.refuseTo_advances | (intro _)

theorem execAuditAck_advances {s₀ s : State} (hs : s₀.Advances s) (o : Origin) (value : Word) : s₀.AdvancesR (execAuditAck o value s)
    := by
  unfold execAuditAck
  repeat' with_reducible first | assumption | apply State.ackAudit_advances | apply State.whenUp_advances | (intro _)

end Sys2Proof.Machine
end

