-- ==== Sys2Proof/Laws/AdvancesLinks.lean ====
section
/-! SUPPORT. One lemma per function: from a state in which the invariant holds it advances (the host bridge, the causeway, debug, the gateway, virtual machines, the vehicle networks, leases and graphics). -/

namespace Sys2Proof.Machine

/-! ### Usb4 -/

theorem State.readAnswered_advances {s₀ s : State} (hs : s₀.Advances s) (u : ReadFor) : s₀.Advances (State.readAnswered s u) := by
  unfold State.readAnswered
  repeat' with_reducible first | assumption | apply State.Advances.ite | apply State.modCore_advances | (intro _) | split

theorem State.grantTag_advances {s₀ s : State} (hs : s₀.Advances s) : s₀.Advances (State.grantTag s) := by
  unfold State.grantTag
  repeat' with_reducible first | assumption | exact .refl _ | split | exact Nat.le_refl _ | apply State.Advances.upd

theorem State.endRead_advances {s₀ s : State} (hs : s₀.Advances s) (h : HeldRead) : s₀.Advances (State.endRead s h) := by
  unfold State.endRead
  repeat' with_reducible first
    | assumption | exact .refl _ | apply State.grantTag_advances | apply State.readAnswered_advances | exact Nat.le_refl _
    | apply State.Advances.upd

theorem State.retireTag_advances {s₀ s : State} (hs : s₀.Advances s) (t : Nat) : s₀.Advances (State.retireTag s t) := by
  unfold State.retireTag
  repeat' with_reducible first
    | assumption | exact .refl _ | apply State.Advances.ite | (intro _) | exact Nat.le_refl _ | apply State.Advances.upd

theorem State.failRead_advances {s₀ s : State} (hs : s₀.Advances s) (h : HeldRead) : s₀.Advances (State.failRead s h) := by
  unfold State.failRead
  repeat' with_reducible first
    | assumption | apply State.Advances.setPoison | apply State.endRead_advances | apply State.retireTag_advances

theorem State.expireRead_advances {s₀ s : State} (hs : s₀.Advances s) (h : HeldRead) : s₀.Advances (State.expireRead s h) := by
  unfold State.expireRead
  repeat' with_reducible first | assumption | apply State.failRead_advances | apply State.readExpired_advances

theorem State.pageAhead_advances {s₀ s : State} (hs : s₀.Advances s) (h : HeldRead) (page : Nat) (bs : List Byte) : s₀.Advances
    (State.pageAhead s h page bs) := by
  unfold State.pageAhead
  repeat' with_reducible first
    | assumption | exact .refl _ | apply State.Advances.ite | apply State.farBytes_advances | (intro _) | exact Nat.le_refl _
    | apply State.Advances.upd

theorem State.readAhead_advances {s₀ s : State} (hs : s₀.Advances s) (h : HeldRead) (ahead : List (List Byte)) : s₀.Advances
    (State.readAhead s h ahead) := by
  unfold State.readAhead
  repeat' with_reducible first
    | assumption | exact .refl _ | apply State.Advances.ite | apply State.pageAhead_advances | apply State.Advances.foldl | (intro _)
    | split | exact Nat.le_refl _ | apply State.Advances.upd

theorem State.completeRead_advances {s₀ s : State} (hs : s₀.Advances s) (h : HeldRead) (d : FarData) (ahead : List (List Byte)) :
    s₀.Advances (State.completeRead s h d ahead) := by
  unfold State.completeRead
  repeat' with_reducible first
    | assumption | apply State.endRead_advances | apply State.readAhead_advances | apply State.deliverRead_advances | split

theorem execHostCompletion_advances {s₀ s : State} (hs : s₀.Advances s) (tag : Nat) (gen : Nat) (data : FarData) (ahead : List (List
    Byte)) : s₀.AdvancesR (execHostCompletion tag gen data ahead s) := by
  unfold execHostCompletion
  repeat' with_reducible first
    | assumption | apply State.Advances.ite | apply State.bump_advances | apply State.whenUp_advances | apply State.completeRead_advances
    | apply State.expireRead_advances | (intro _) | split

theorem execBridgeReadExpire_advances {s₀ s : State} (hs : s₀.Advances s) (tag : Nat) (gen : Nat) : s₀.AdvancesR (execBridgeReadExpire tag
    gen s) := by
  unfold execBridgeReadExpire
  repeat' with_reducible first | assumption | apply State.whenUp_advances | apply State.expireRead_advances | (intro _) | split

theorem execPrefetchExpire_advances {s₀ s : State} (hs : s₀.Advances s) (page : Nat) : s₀.AdvancesR (execPrefetchExpire page s) := by
  unfold execPrefetchExpire
  repeat' with_reducible first | assumption | apply State.whenUp_advances | apply State.discardPages_advances | (intro _)

theorem State.bridgeSignal_advances {s₀ s : State} (hs : s₀.Advances s) (unit : Nat) : s₀.Advances (State.bridgeSignal s unit) := by
  unfold State.bridgeSignal
  repeat' with_reducible first | assumption | apply State.msix_advances | apply State.bridgeEvent_advances

theorem State.usbTrained_advances {s₀ s : State} (hs : s₀.Advances s) (mode : Nat) : s₀.Advances (State.usbTrained s mode) := by
  unfold State.usbTrained
  repeat' with_reducible first
    | assumption | apply State.Advances.ite | apply State.bridgeSignal_advances | apply State.setFld_advances
    | apply State.obtain_advances | (intro _)

theorem execUsb4LinkUp_advances {s₀ s : State} (hs : s₀.Advances s) (mode : Nat) : s₀.AdvancesR (execUsb4LinkUp mode s) := by
  unfold execUsb4LinkUp
  repeat' with_reducible first
    | assumption | apply State.Advances.ite | apply State.usbTrained_advances | apply State.whenUp_advances | (intro _)

theorem State.dropPosted_advances {s₀ s : State} (hs : s₀.Advances s) (t : Posted → Bool) : s₀.Advances (State.dropPosted s t) := by
  unfold State.dropPosted
  repeat' with_reducible first
    | assumption | exact .refl _ | apply State.Advances.ite | apply State.bridgeError_advances | apply State.msix_advances
    | apply State.bumpN_advances | apply State.bridgeEvent_advances | (intro _) | split | exact Nat.le_refl _ | apply State.Advances.upd

theorem State.linkLost_advances {s₀ s : State} (hs : s₀.Advances s) : s₀.Advances (State.linkLost s) := by
  unfold State.linkLost
  repeat' with_reducible first
    | assumption | exact .refl _ | apply State.failRead_advances | apply State.dropPosted_advances | apply State.setFld_advances
    | apply State.alwDrop_advances | apply State.bridgeEvent_advances | apply State.Advances.foldl | (intro _) | exact Nat.le_refl _
    | apply State.Advances.upd

theorem execUsb4LinkDown_advances {s₀ s : State} (hs : s₀.Advances s) : s₀.AdvancesR (execUsb4LinkDown s) := by
  unfold execUsb4LinkDown
  repeat' with_reducible first
    | assumption | apply State.Advances.ite | apply State.linkLost_advances | apply State.whenUp_advances | (intro _)

theorem State.resetFunction_advances {s₀ s : State} (hs : s₀.Advances s) (fn : Nat) : s₀.Advances (State.resetFunction s fn) := by
  unfold State.resetFunction
  repeat' with_reducible first
    | assumption | exact .refl _ | apply State.failRead_advances | apply State.dropPosted_advances | apply State.bridgeEvent_advances
    | apply State.Advances.foldl | (intro _) | exact Nat.le_refl _ | apply State.Advances.upd

theorem execFunctionLevelReset_advances {s₀ s : State} (hs : s₀.Advances s) (fn : Nat) : s₀.AdvancesR (execFunctionLevelReset fn s) := by
  unfold execFunctionLevelReset
  repeat' with_reducible first
    | assumption | apply State.Advances.ite | apply State.whenUp_advances | apply State.resetFunction_advances
    | apply State.msix_advances | apply State.Advances.foldl | (intro _)

theorem execBusMasteringEnable_advances {s₀ s : State} (hs : s₀.Advances s) (fn : Nat) : s₀.AdvancesR (execBusMasteringEnable fn s) := by
  unfold execBusMasteringEnable
  repeat' with_reducible first
    | assumption | exact .refl _ | apply State.Advances.ite | apply State.whenUp_advances | (intro _) | exact Nat.le_refl _
    | apply State.Advances.upd

theorem State.setVector_advances {s₀ s : State} (hs : s₀.Advances s) (fn : Nat) (vec : Nat) (v : MsixVec) : s₀.Advances (State.setVector s
    fn vec v) := by
  unfold State.setVector
  repeat' with_reducible first
    | assumption | exact .refl _ | apply State.Advances.ite | apply State.msix_advances | (intro _) | exact Nat.le_refl _
    | apply State.Advances.upd

theorem execMsixUnmask_advances {s₀ s : State} (hs : s₀.Advances s) (fn : Nat) (vec : Nat) : s₀.AdvancesR (execMsixUnmask fn vec s) := by
  unfold execMsixUnmask
  repeat' with_reducible first
    | assumption | apply State.Advances.ite | apply State.whenUp_advances | apply State.setVector_advances | (intro _)

theorem State.tableWrite_advances {s₀ s : State} (hs : s₀.Advances s) (fn : Nat) (off : Nat) (bytes : Nat) (w : Nat) : s₀.Advances
    (State.tableWrite s fn off bytes w) := by
  unfold State.tableWrite
  repeat' with_reducible first | assumption | apply State.Advances.ite | apply State.setVector_advances | (intro _)

theorem State.popBridgeErr_advances {s₀ s : State} (hs : s₀.Advances s) : s₀.Advances (State.popBridgeErr s) := by
  unfold State.popBridgeErr
  repeat' with_reducible first
    | assumption | exact .refl _ | apply State.Advances.setReg | split | exact Nat.le_refl _ | apply State.Advances.upd

theorem State.popBridgeErrAs_advances {s₀ s : State} (hs : s₀.Advances s) : s₀.Advances (State.popBridgeErrAs s) := by
  unfold State.popBridgeErrAs
  repeat' with_reducible first | assumption | apply State.answer_advances | apply State.popBridgeErr_advances

theorem execUbrErrPop_advances {s₀ s : State} (hs : s₀.Advances s) (o : Origin) : s₀.AdvancesR (execUbrErrPop o s) := by
  unfold execUbrErrPop
  repeat' with_reducible first
    | assumption | apply State.Advances.ite | apply State.popBridgeErrAs_advances | apply State.whenUp_advances
    | apply State.refuseTo_advances | (intro _)

theorem State.barRead_advances {s₀ s : State} (hs : s₀.Advances s) (fn : Nat) (off : Nat) (bytes : Nat) : s₀.Advances (State.barRead s fn
    off bytes) := by
  unfold State.barRead
  repeat' with_reducible first
    | assumption | apply State.Advances.ite | apply State.answer_advances | apply State.readTimeHi_advances
    | apply State.readTimeLo_advances | apply State.popBridgeErr_advances | (intro _) | split

theorem State.attestWrite_advances {s₀ s : State} (hs : s₀.Advances s) (o : Origin) (at_ : Nat) (bytes : Nat) (w : Nat) : s₀.Advances
    (State.attestWrite s o at_ bytes w) := by
  unfold State.attestWrite
  repeat' with_reducible first
    | assumption | apply State.Advances.ite | apply State.writePlain_advances | apply State.auditRefusal_advances
    | apply State.attReport_advances | (intro _)

theorem State.barWrite_advances {s₀ s : State} (hs : s₀.Advances s) (fn : Nat) (off : Nat) (bytes : Nat) (w : Nat) (far : List FarRead) :
    s₀.Advances (State.barWrite s fn off bytes w far) := by
  unfold State.barWrite
  repeat' with_reducible first
    | assumption | apply State.ringWake_advances | apply State.attestWrite_advances | apply State.tableWrite_advances
    | apply State.learn_advances | split

theorem State.barError_advances {s₀ s : State} (hs : s₀.Advances s) (kind : Nat) (fn : Nat) (off : Nat) : s₀.Advances (State.barError s
    kind fn off) := by
  unfold State.barError
  repeat' with_reducible first | assumption | apply State.bridgeSignal_advances | apply State.bridgeError_advances

theorem State.barRequest_advances {s₀ s : State} (hs : s₀.Advances s) (r : BarReq) (far : List FarRead) : s₀.Advances (State.barRequest s
    r far) := by
  unfold State.barRequest
  repeat' with_reducible first
    | assumption | apply State.Advances.ite | apply State.answer_advances | apply State.barError_advances | apply State.barWrite_advances
    | apply State.barRead_advances | (intro _)

theorem execHostBarRequest_advances {s₀ s : State} (hs : s₀.Advances s) (req : BarReq) (far : List FarRead) : s₀.AdvancesR
    (execHostBarRequest req far s) := by
  unfold execHostBarRequest
  repeat' with_reducible first
    | assumption | apply State.Advances.ite | apply State.whenUp_advances | apply State.barRequest_advances | (intro _)

theorem execUbrMapRead_advances {s₀ s : State} (hs : s₀.Advances s) (o : Origin) (idx : Nat) : s₀.AdvancesR (execUbrMapRead o idx s) := by
  unfold execUbrMapRead
  repeat' with_reducible first
    | assumption | apply State.Advances.setReg | apply State.command_advances | apply State.whenUp_advances | (intro _)
    | apply State.AdvancesP.mk'

theorem State.setMap_advances {s₀ s : State} (hs : s₀.Advances s) (i : Nat) (e : MapEntry) : s₀.Advances (State.setMap s i e) := by
  unfold State.setMap
  repeat' with_reducible first
    | assumption | exact .refl _ | apply State.discardGranule_advances | exact Nat.le_refl _ | apply State.Advances.upd

theorem execUbrMapWrite_advances {s₀ s : State} (hs : s₀.Advances s) (o : Origin) (idx : Nat) : s₀.AdvancesR (execUbrMapWrite o idx s)
    := by
  unfold execUbrMapWrite
  repeat' with_reducible first
    | assumption | apply State.AdvancesP.ite | apply State.command_advances | apply State.whenUp_advances | apply State.setMap_advances
    | (intro _) | apply State.AdvancesP.mk'

theorem execUbrMapDisable_advances {s₀ s : State} (hs : s₀.Advances s) (o : Origin) (idx : Nat) : s₀.AdvancesR (execUbrMapDisable o idx s)
    := by
  unfold execUbrMapDisable
  repeat' with_reducible first
    | assumption | apply State.AdvancesP.ite | apply State.command_advances | apply State.whenUp_advances | apply State.setMap_advances
    | (intro _) | apply State.AdvancesP.mk'

/-! ### Causeway -/

theorem State.sendHeld_advances {s₀ y1 : State} (hy1 : s₀.Advances y1) (y0 : Nat) (y2 : Nat) : s₀.Advances (State.sendHeld y0 y1 y2) := by
  induction y0 generalizing y1 y2 hy1 with
  | zero =>
    unfold State.sendHeld
    try dsimp -iota only
    repeat' with_reducible (first | assumption)
  | succ _ ih =>
    unfold State.sendHeld
    try dsimp -iota only
    repeat' first

      | with_reducible (first | assumption | apply State.Advances.ite | apply ih | apply State.setPeer_advances | apply State.wire_advances | (intro _))
      | split

theorem State.promote_advances {s₀ y1 : State} (hy1 : s₀.Advances y1) (y0 : Nat) (y2 : Nat) : s₀.Advances (State.promote y0 y1 y2) := by
  induction y0 generalizing y1 y2 hy1 with
  | zero =>
    unfold State.promote
    try dsimp -iota only
    repeat' with_reducible (first | assumption)
  | succ _ ih =>
    unfold State.promote
    try dsimp -iota only
    repeat' first

      | with_reducible (first | assumption | apply State.Advances.ite | apply ih | apply State.setPeer_advances | apply State.hold_advances | (intro _))
      | split

theorem State.ackNow_advances {s₀ s : State} (hs : s₀.Advances s) (i : Nat) : s₀.Advances (State.ackNow s i) := by
  unfold State.ackNow
  repeat' with_reducible first | assumption | apply State.Advances.ite | apply State.wire_advances | (intro _)

theorem State.keyReady_advances {s₀ s : State} (hs : s₀.Advances s) (tenant : Nat) (i : Nat) : s₀.Advances (State.keyReady s tenant i)
    := by
  unfold State.keyReady
  repeat' with_reducible first | assumption | apply State.sendHeld_advances | apply State.ackNow_advances | apply State.touchKey_advances

theorem execLinkKeyDerived_advances {s₀ s : State} (hs : s₀.Advances s) (tenant : Nat) (peer : Nat) : s₀.AdvancesR (execLinkKeyDerived
    tenant peer s) := by
  unfold execLinkKeyDerived
  repeat' with_reducible first
    | assumption | apply State.Advances.ite | apply State.whenUp_advances | apply State.keyReady_advances | (intro _)

theorem State.resend_advances {s₀ s : State} (hs : s₀.Advances s) (i : Nat) : s₀.Advances (State.resend s i) := by
  unfold State.resend
  repeat' with_reducible first | assumption | apply State.wire_advances | apply State.Advances.foldl | (intro _)

theorem State.endRemote_advances {s₀ s : State} (hs : s₀.Advances s) (r : RemoteRead) : s₀.Advances (State.endRemote s r) := by
  unfold State.endRemote
  repeat' with_reducible first
    | assumption | exact .refl _ | apply State.readAnswered_advances | exact Nat.le_refl _ | apply State.Advances.upd

theorem State.failRemote_advances {s₀ s : State} (hs : s₀.Advances s) (r : RemoteRead) : s₀.Advances (State.failRemote s r) := by
  unfold State.failRemote
  repeat' with_reducible first | assumption | apply State.Advances.setPoison | apply State.endRemote_advances

theorem State.lostPeer_advances {s₀ s : State} (hs : s₀.Advances s) (i : Nat) : s₀.Advances (State.lostPeer s i) := by
  unfold State.lostPeer
  repeat' with_reducible first
    | assumption | apply State.bump_advances | apply State.failRemote_advances | apply State.raise_advances
    | apply State.setPeer_advances | apply State.bumpN_advances | apply State.Advances.foldl | (intro _)

theorem State.heard_advances {s₀ s : State} (hs : s₀.Advances s) (i : Nat) (f : Frame) : s₀.Advances (State.heard s i f) := by
  unfold State.heard
  repeat' with_reducible first | assumption | apply State.promote_advances | apply State.setPeer_advances

theorem State.receive_advances {s₀ s : State} (hs : s₀.Advances s) (port : Nat) (f : Frame) (tagOk : Bool) (sequenced : Bool) (effect :
    State → Nat → State) (heffect : ∀ x0 x1, s₀.Advances x0 → s₀.Advances (effect x0 x1)) : s₀.Advances (State.receive s port f tagOk
    sequenced effect) := by
  unfold State.receive
  repeat' with_reducible first
    | assumption | apply State.Advances.ite | apply heffect | apply State.bump_advances | apply State.ackNow_advances
    | apply State.heard_advances | apply State.tagFail_advances | apply State.keyReady_advances | apply State.setPeer_advances
    | (intro _) | split

theorem execCwyAck_advances {s₀ s : State} (hs : s₀.Advances s) (port : Nat) (f : Frame) (tagOk : Bool) : s₀.AdvancesR (execCwyAck port f
    tagOk s) := by
  unfold execCwyAck
  repeat' with_reducible first | assumption | apply State.receive_advances | apply State.whenUp_advances | (intro _)

theorem execCwyHello_advances {s₀ s : State} (hs : s₀.Advances s) (port : Nat) (f : Frame) (tagOk : Bool) : s₀.AdvancesR (execCwyHello
    port f tagOk s) := by
  unfold execCwyHello
  repeat' with_reducible first | assumption | apply State.receive_advances | apply State.whenUp_advances | (intro _)

theorem State.refuseRemote_advances {s₀ s : State} (hs : s₀.Advances s) (i : Nat) (f : Frame) : s₀.Advances (State.refuseRemote s i f)
    := by
  unfold State.refuseRemote
  repeat' with_reducible first | assumption | apply State.bump_advances | apply State.takeFree_advances | apply State.send_advances

theorem execReadReq_advances {s₀ s : State} (hs : s₀.Advances s) (port : Nat) (f : Frame) (tagOk : Bool) : s₀.AdvancesR (execReadReq port
    f tagOk s) := by
  unfold execReadReq
  repeat' with_reducible first
    | assumption | apply State.Advances.ite | apply State.receive_advances | apply State.whenUp_advances | apply State.noteRead_advances
    | apply State.refuseRemote_advances | apply State.send_advances | apply State.Advances.foldl | (intro _)

theorem execSealReq_advances {s₀ s : State} (hs : s₀.Advances s) (port : Nat) (f : Frame) (tagOk : Bool) : s₀.AdvancesR (execSealReq port
    f tagOk s) := by
  unfold execSealReq
  repeat' with_reducible first
    | assumption | apply State.Advances.ite | apply State.receive_advances | apply State.whenUp_advances | apply State.noteRead_advances
    | apply State.refuseRemote_advances | apply State.send_advances | (intro _)

theorem State.answered_advances {s₀ s : State} (hs : s₀.Advances s) (i : Nat) (f : Frame) (use : State → RemoteRead → State) (huse : ∀ x0
    x1, s₀.Advances x0 → s₀.Advances (use x0 x1)) : s₀.Advances (State.answered s i f use) := by
  unfold State.answered
  repeat' with_reducible first
    | assumption | apply State.Advances.ite | apply huse | apply State.bump_advances | apply State.failRemote_advances | (intro _)
    | split

theorem State.takeData_advances {s₀ s : State} (hs : s₀.Advances s) (f : Frame) (r : RemoteRead) : s₀.Advances (State.takeData s f r)
    := by
  unfold State.takeData
  repeat' with_reducible first
    | assumption | exact .refl _ | apply State.Advances.ite | apply State.failRemote_advances | apply State.farBytes_advances
    | apply State.endRemote_advances | (intro _) | exact Nat.le_refl _ | apply State.Advances.upd

theorem execReadData_advances {s₀ s : State} (hs : s₀.Advances s) (port : Nat) (f : Frame) (tagOk : Bool) : s₀.AdvancesR (execReadData
    port f tagOk s) := by
  unfold execReadData
  repeat' with_reducible first
    | assumption | apply State.receive_advances | apply State.whenUp_advances | apply State.answered_advances
    | apply State.takeData_advances | (intro _)

theorem execCwyError_advances {s₀ s : State} (hs : s₀.Advances s) (port : Nat) (f : Frame) (tagOk : Bool) : s₀.AdvancesR (execCwyError
    port f tagOk s) := by
  unfold execCwyError
  repeat' with_reducible first
    | assumption | apply State.receive_advances | apply State.failRemote_advances | apply State.whenUp_advances
    | apply State.answered_advances | (intro _)

theorem State.takeSeal_advances {s₀ s : State} (hs : s₀.Advances s) (f : Frame) (r : RemoteRead) : s₀.Advances (State.takeSeal s f r)
    := by
  unfold State.takeSeal
  repeat' with_reducible first
    | assumption | exact .refl _ | apply State.Advances.ite | apply State.failRemote_advances | apply State.farBytes_advances
    | apply State.endRemote_advances | (intro _) | split | exact Nat.le_refl _ | apply State.Advances.upd

theorem execSealData_advances {s₀ s : State} (hs : s₀.Advances s) (port : Nat) (f : Frame) (tagOk : Bool) : s₀.AdvancesR (execSealData
    port f tagOk s) := by
  unfold execSealData
  repeat' with_reducible first
    | assumption | apply State.Advances.ite | apply State.bump_advances | apply State.receive_advances | apply State.whenUp_advances
    | apply State.answered_advances | apply State.takeSeal_advances | (intro _)

theorem State.remoteKnot_advances {s₀ s : State} (hs : s₀.Advances s) (f : Frame) : s₀.Advances (State.remoteKnot s f) := by
  unfold State.remoteKnot
  repeat' with_reducible first
    | assumption | apply State.Advances.ite | apply State.bump_advances | apply State.conclude_advances | apply State.knotSet_advances
    | apply State.knotAdd_advances | (intro _)

theorem execCwyKnot_advances {s₀ s : State} (hs : s₀.Advances s) (port : Nat) (f : Frame) (tagOk : Bool) : s₀.AdvancesR (execCwyKnot port
    f tagOk s) := by
  unfold execCwyKnot
  repeat' with_reducible first
    | assumption | apply State.remoteKnot_advances | apply State.receive_advances | apply State.whenUp_advances | (intro _)

theorem execHelloTimer_advances {s₀ s : State} (hs : s₀.Advances s) (peer : Nat) : s₀.AdvancesR (execHelloTimer peer s) := by
  unfold execHelloTimer
  repeat' with_reducible first
    | assumption | apply State.Advances.ite | apply State.whenUp_advances | apply State.wire_advances | (intro _)

theorem execRetransmit_advances {s₀ s : State} (hs : s₀.Advances s) (peer : Nat) : s₀.AdvancesR (execRetransmit peer s) := by
  unfold execRetransmit
  repeat' with_reducible first
    | assumption | apply State.Advances.ite | apply State.bump_advances | apply State.resend_advances | apply State.whenUp_advances
    | apply State.setPeer_advances | apply State.lostPeer_advances | (intro _)

theorem execPeerTimeout_advances {s₀ s : State} (hs : s₀.Advances s) (peer : Nat) : s₀.AdvancesR (execPeerTimeout peer s) := by
  unfold execPeerTimeout
  repeat' with_reducible first
    | assumption | apply State.Advances.ite | apply State.whenUp_advances | apply State.lostPeer_advances | (intro _)

theorem State.sendKey_advances {s₀ s : State} (hs : s₀.Advances s) (i : Nat) : s₀.Advances (State.sendKey s i) := by
  unfold State.sendKey
  repeat' with_reducible first | assumption | apply State.transmit_advances | apply State.Advances.foldl | (intro _)

theorem State.pairUp_advances {s₀ s : State} (hs : s₀.Advances s) (i : Nat) : s₀.Advances (State.pairUp s i) := by
  unfold State.pairUp
  repeat' with_reducible first | assumption | apply State.setPeer_advances

theorem State.keyCame_advances {s₀ s : State} (hs : s₀.Advances s) (i : Nat) (cert : List Byte) : s₀.Advances (State.keyCame s i cert)
    := by
  unfold State.keyCame
  repeat' with_reducible first
    | assumption | apply State.Advances.ite | apply State.sendKey_advances | apply State.raise_advances | apply State.setPeer_advances
    | apply State.lostPeer_advances | apply State.pairUp_advances | (intro _)

theorem execCwyKey_advances {s₀ s : State} (hs : s₀.Advances s) (port : Nat) (src : Nat) (cert : List Byte) : s₀.AdvancesR (execCwyKey
    port src cert s) := by
  unfold execCwyKey
  repeat' with_reducible first
    | assumption | apply State.Advances.ite | apply State.whenUp_advances | apply State.keyCame_advances | (intro _) | split

theorem State.setLanes_advances {s₀ s : State} (hs : s₀.Advances s) (p : Nat) (lanes : Nat) : s₀.Advances (State.setLanes s p lanes) := by
  unfold State.setLanes
  repeat' with_reducible first | assumption | apply State.setFld_advances

theorem State.portTrained_advances {s₀ s : State} (hs : s₀.Advances s) (port : Nat) (lanes : Nat) : s₀.Advances (State.portTrained s port
    lanes) := by
  unfold State.portTrained
  repeat' with_reducible first
    | assumption | apply State.setLanes_advances | apply State.sendKey_advances | apply State.setPeer_advances
    | apply State.Advances.foldl | (intro _)

theorem execCwyLinkUp_advances {s₀ s : State} (hs : s₀.Advances s) (port : Nat) (lanes : Nat) : s₀.AdvancesR (execCwyLinkUp port lanes s)
    := by
  unfold execCwyLinkUp
  repeat' with_reducible first
    | assumption | apply State.Advances.ite | apply State.whenUp_advances | apply State.portTrained_advances
    | apply State.obtain_advances | (intro _)

theorem State.portLost_advances {s₀ s : State} (hs : s₀.Advances s) (p : Nat) : s₀.Advances (State.portLost s p) := by
  unfold State.portLost
  repeat' with_reducible first
    | assumption | apply State.Advances.ite | apply State.resend_advances | apply State.setFld_advances | apply State.alwDrop_advances
    | apply State.setPeer_advances | apply State.lostPeer_advances | apply State.Advances.foldl | (intro _)

theorem execCwyLinkDown_advances {s₀ s : State} (hs : s₀.Advances s) (port : Nat) : s₀.AdvancesR (execCwyLinkDown port s) := by
  unfold execCwyLinkDown
  repeat' with_reducible first
    | assumption | apply State.Advances.ite | apply State.whenUp_advances | apply State.portLost_advances | (intro _)

theorem State.portEnabled_advances {s₀ s : State} (hs : s₀.Advances s) (p : Nat) (was : Bool) : s₀.Advances (State.portEnabled s p was)
    := by
  unfold State.portEnabled
  repeat' with_reducible first
    | assumption | apply State.Advances.ite | apply State.setFld_advances | apply State.setPeer_advances | apply State.portLost_advances
    | apply State.Advances.foldl | (intro _)

theorem State.writeCwyPort_advances {s₀ s : State} (hs : s₀.Advances s) (o : Origin) (p : Nat) (value : Word) : s₀.Advances
    (State.writeCwyPort s o p value) := by
  unfold State.writeCwyPort
  repeat' with_reducible first | assumption | apply State.portEnabled_advances | apply State.writeBy_advances | (intro _)

theorem execCwyPortEnable_advances {s₀ s : State} (hs : s₀.Advances s) (o : Origin) (p : Nat) (value : Word) : s₀.AdvancesR
    (execCwyPortEnable o p value s) := by
  unfold execCwyPortEnable
  repeat' with_reducible first | assumption | apply State.whenUp_advances | apply State.writeCwyPort_advances | (intro _)

theorem State.dropLane_advances {s₀ s : State} (hs : s₀.Advances s) (p : Nat) (l : Nat) : s₀.Advances (State.dropLane s p l) := by
  unfold State.dropLane
  repeat' with_reducible first
    | assumption | exact .refl _ | apply State.Advances.ite | apply State.setLanes_advances | (intro _) | split | exact Nat.le_refl _
    | apply State.Advances.upd

theorem State.laneChanged_advances {s₀ s : State} (hs : s₀.Advances s) (p : Nat) (l : Nat) : s₀.Advances (State.laneChanged s p l) := by
  unfold State.laneChanged
  repeat' with_reducible first
    | assumption | exact .refl _ | apply State.Advances.ite | apply State.setLanes_advances | apply State.setFld_advances
    | apply State.jSubstituted_advances | (intro _) | exact Nat.le_refl _ | apply State.Advances.upd

theorem State.sendLane_advances {s₀ s : State} (hs : s₀.Advances s) (p : Nat) : s₀.Advances (State.sendLane s p) := by
  unfold State.sendLane
  repeat' with_reducible first
    | assumption | apply State.Advances.ite | apply State.takeFree_advances | apply State.send_advances | (intro _) | split

theorem State.beginLane_advances {s₀ s : State} (hs : s₀.Advances s) (p : Nat) (l : Nat) (jrnl : Bool) : s₀.AdvancesP (State.beginLane s p
    l jrnl) := by
  unfold State.beginLane
  repeat' with_reducible first
    | assumption | exact .refl _ | apply State.AdvancesP.ite | apply State.sendLane_advances | apply State.jBeginOp_advances
    | apply State.dropLane_advances | apply State.laneChanged_advances | apply State.AdvancesP.fst | (intro _)
    | apply State.AdvancesP.mk' | exact Nat.le_refl _ | apply State.Advances.upd

theorem State.laneLasting_advances {s₀ s : State} (hs : s₀.Advances s) (p : Nat) (l : Nat) (jrnl : Bool) (oneLane : Bool) : s₀.Advances
    (State.laneLasting s p l jrnl oneLane) := by
  unfold State.laneLasting
  repeat' with_reducible first
    | assumption | apply State.Advances.ite | apply State.dropLane_advances | apply State.beginLane_advances
    | apply State.portLost_advances | apply State.AdvancesP.fst | (intro _)

theorem execFecUncorr_advances {s₀ s : State} (hs : s₀.Advances s) (port : Nat) (lane : Nat) (jrnl : Bool) (oneLane : Bool) : s₀.AdvancesR
    (execFecUncorr port lane jrnl oneLane s) := by
  unfold execFecUncorr
  repeat' with_reducible first
    | assumption | apply State.Advances.ite | apply State.bump_advances | apply State.whenUp_advances | apply State.laneLasting_advances
    | apply State.reportLasting_advances | apply State.AdvancesP.fst | (intro _)

theorem State.laneFrame_advances {s₀ s : State} (hs : s₀.Advances s) (p : Nat) (l : Nat) (jrnl : Bool) : s₀.Advances (State.laneFrame s p
    l jrnl) := by
  unfold State.laneFrame
  repeat' with_reducible first
    | assumption | apply State.Advances.ite | apply State.sendLane_advances | apply State.jBeginOp_advances
    | apply State.dropLane_advances | apply State.laneChanged_advances | apply State.AdvancesP.fst | (intro _)

theorem execCwyLane_advances {s₀ s : State} (hs : s₀.Advances s) (port : Nat) (f : Frame) (tagOk : Bool) (lane : Nat) (jrnl : Bool) :
    s₀.AdvancesR (execCwyLane port f tagOk lane jrnl s) := by
  unfold execCwyLane
  repeat' with_reducible first
    | assumption | apply State.Advances.ite | apply State.receive_advances | apply State.whenUp_advances | apply State.laneFrame_advances
    | (intro _)

theorem State.cmdLane_advances {s₀ s : State} (hs : s₀.Advances s) (target : Nat) (jrnl : Bool) : s₀.AdvancesP (State.cmdLane s target
    jrnl) := by
  unfold State.cmdLane
  repeat' with_reducible first
    | assumption | apply State.AdvancesP.ite | apply State.dropLane_advances | apply State.beginLane_advances | (intro _)
    | apply State.AdvancesP.mk'

theorem execDarnLane_advances {s₀ s : State} (hs : s₀.Advances s) (o : Origin) (target : Nat) (jrnl : Bool) : s₀.AdvancesR (execDarnLane o
    target jrnl s) := by
  unfold execDarnLane
  repeat' with_reducible first
    | assumption | apply State.cmdLane_advances | apply State.command_advances | apply State.whenUp_advances | (intro _)

theorem execPeerRead_advances {s₀ s : State} (hs : s₀.Advances s) (o : Origin) (idx : Nat) : s₀.AdvancesR (execPeerRead o idx s) := by
  unfold execPeerRead
  repeat' with_reducible first
    | assumption | apply State.AdvancesP.ite | apply State.Advances.setReg | apply State.command_advances | apply State.whenUp_advances
    | (intro _) | apply State.AdvancesP.mk'

/-! ### Debug -/

theorem State.auditDebug_advances {s₀ s : State} (hs : s₀.Advances s) (ok : Bool) (old : Nat) (new : Nat) : s₀.Advances (State.auditDebug
    s ok old new) := by
  unfold State.auditDebug
  repeat' with_reducible first
    | assumption | apply State.Advances.ite | apply State.auditLog_advances | apply State.takeFree_advances | (intro _)

theorem execDebugAttach_advances {s₀ s : State} (hs : s₀.Advances s) (targets : List DebugTarget) (sigOk : Bool) : s₀.AdvancesR
    (execDebugAttach targets sigOk s) := by
  unfold execDebugAttach
  repeat' with_reducible first
    | assumption | exact .refl _ | apply State.Advances.ite | apply State.bump_advances | apply State.answer_advances
    | apply State.whenUp_advances | apply State.auditDebug_advances | (intro _) | split | exact Nat.le_refl _ | apply State.Advances.upd

theorem State.debugHalt_advances {s₀ s : State} (hs : s₀.Advances s) (n : Nat) : s₀.Advances (State.debugHalt s n) := by
  unfold State.debugHalt
  repeat' with_reducible first | assumption | apply State.modCore_advances

theorem State.debugGo_advances {s₀ s : State} (hs : s₀.Advances s) (n : Nat) : s₀.Advances (State.debugGo s n) := by
  unfold State.debugGo
  repeat' with_reducible first | assumption | apply State.modCore_advances

theorem State.unholdChecker_advances {s₀ s : State} (hs : s₀.Advances s) (j : Job) : s₀.Advances (State.unholdChecker s j) := by
  unfold State.unholdChecker
  repeat' with_reducible first | assumption | apply State.modCore_advances | apply State.Advances.foldl | (intro _)

theorem State.halt_advances {s₀ s : State} (hs : s₀.Advances s) (t : DebugTarget) (on : Bool) : s₀.Advances (State.halt s t on) := by
  unfold State.halt
  repeat' with_reducible first
    | assumption | apply State.Advances.ite | apply State.debugGo_advances | apply State.unholdChecker_advances
    | apply State.debugHalt_advances | apply State.modJob_advances | apply State.setPair_advances | apply State.Advances.foldl
    | (intro _) | split

theorem execDebugHalt_advances {s₀ s : State} (hs : s₀.Advances s) (t : DebugTarget) (on : Bool) : s₀.AdvancesR (execDebugHalt t on s)
    := by
  unfold execDebugHalt
  repeat' with_reducible first
    | assumption | apply State.Advances.ite | apply State.answer_advances | apply State.halt_advances | apply State.whenUp_advances
    | (intro _)

theorem execDebugDetach_advances {s₀ s : State} (hs : s₀.Advances s) : s₀.AdvancesR (execDebugDetach s) := by
  unfold execDebugDetach
  repeat' with_reducible first
    | assumption | exact .refl _ | apply State.Advances.ite | apply State.halt_advances | apply State.whenUp_advances
    | apply State.auditDebug_advances | apply State.Advances.foldl | (intro _) | exact Nat.le_refl _ | apply State.Advances.upd

theorem execDebugStep_advances {s₀ s : State} (hs : s₀.Advances s) (t : DebugTarget) : s₀.AdvancesR (execDebugStep t s) := by
  unfold execDebugStep
  repeat' with_reducible first
    | assumption | exact .refl _ | apply State.Advances.ite | apply State.answer_advances | apply State.modCore_advances
    | apply State.whenUp_advances | apply State.setPair_advances | apply State.Advances.foldl | (intro _) | split | exact Nat.le_refl _
    | apply State.Advances.upd

theorem State.freeRead_advances {s₀ s : State} (hs : s₀.Advances s) : s₀.Advances (State.freeRead s) := by
  unfold State.freeRead
  repeat' with_reducible first | assumption | apply State.answer_advances | apply State.takeFree_advances

theorem execDebugRead_advances {s₀ s : State} (hs : s₀.Advances s) (t : DebugTarget) (core : Nat) (r : DebugRead) : s₀.AdvancesR
    (execDebugRead t core r s) := by
  unfold execDebugRead
  repeat' with_reducible first
    | assumption | apply State.Advances.ite | apply State.answer_advances | apply State.freeRead_advances | apply State.whenUp_advances
    | (intro _) | split

theorem State.writeInput_advances {s₀ s : State} (hs : s₀.Advances s) (t : Tensor) (e : Nat × Nat × Nat × Nat) (code : Nat) : s₀.Advances
    (State.writeInput s t e code) := by
  unfold State.writeInput
  repeat' with_reducible first | assumption | apply State.store_advances | apply State.Advances.foldl | (intro _)

theorem State.writeOutput_advances {s₀ s : State} (hs : s₀.Advances s) (j : Job) (t : Tensor) (e : Nat × Nat × Nat × Nat) (code : Nat) :
    s₀.Advances (State.writeOutput s j t e code) := by
  unfold State.writeOutput
  repeat' with_reducible first | assumption | apply State.modJob_advances

theorem execDebugWrite_advances {s₀ s : State} (hs : s₀.Advances s) (t : DebugTarget) (w : DebugWrite) : s₀.AdvancesR (execDebugWrite t w
    s) := by
  unfold execDebugWrite
  repeat' with_reducible first
    | assumption | apply State.Advances.ite | apply State.answer_advances | apply State.writeOutput_advances
    | apply State.whenUp_advances | apply State.writeInput_advances | (intro _) | split

/-! ### Gateway -/

theorem State.setSlot_advances {s₀ s : State} (hs : s₀.Advances s) (i : Nat) (x : Slot) : s₀.Advances (State.setSlot s i x) := by
  unfold State.setSlot
  repeat' with_reducible first | assumption | exact .refl _ | exact Nat.le_refl _ | apply State.Advances.upd

theorem State.sluiceIn_advances {s₀ s : State} (hs : s₀.Advances s) (i : Nat) (bs : List Byte) : s₀.Advances (State.sluiceIn s i bs) := by
  unfold State.sluiceIn
  repeat' with_reducible first | assumption | exact .refl _ | exact Nat.le_refl _ | apply State.Advances.upd

theorem State.setCan_advances {s₀ s : State} (hs : s₀.Advances s) (n : Nat) (state : Nat) (tec : Nat) (rec_ : Nat) : s₀.Advances
    (State.setCan s n state tec rec_) := by
  unfold State.setCan
  repeat' with_reducible first | assumption | apply State.setFld_advances

theorem State.busOff_advances {s₀ s : State} (hs : s₀.Advances s) (n : Nat) : s₀.Advances (State.busOff s n) := by
  unfold State.busOff
  repeat' with_reducible first | assumption | apply State.bump_advances | apply State.setFld_advances

theorem execBusOff_advances {s₀ s : State} (hs : s₀.Advances s) (n : Nat) : s₀.AdvancesR (execBusOff n s) := by
  unfold execBusOff
  repeat' with_reducible first
    | assumption | apply State.Advances.ite | apply State.busOff_advances | apply State.whenUp_advances | (intro _)

theorem execBusOffRecovery_advances {s₀ s : State} (hs : s₀.Advances s) (n : Nat) : s₀.AdvancesR (execBusOffRecovery n s) := by
  unfold execBusOffRecovery
  repeat' with_reducible first
    | assumption | apply State.Advances.ite | apply State.setCan_advances | apply State.whenUp_advances | (intro _)

theorem State.canError_advances {s₀ s : State} (hs : s₀.Advances s) (n : Nat) (e : CanErr) : s₀.Advances (State.canError s n e) := by
  unfold State.canError
  repeat' with_reducible first
    | assumption | apply State.Advances.ite | apply State.setCan_advances | apply State.busOff_advances | (intro _)

theorem execCanBusError_advances {s₀ s : State} (hs : s₀.Advances s) (n : Nat) (e : CanErr) : s₀.AdvancesR (execCanBusError n e s) := by
  unfold execCanBusError
  repeat' with_reducible first
    | assumption | apply State.Advances.ite | apply State.canError_advances | apply State.whenUp_advances | (intro _)

theorem State.writeCan_advances {s₀ s : State} (hs : s₀.Advances s) (o : Origin) (n : Nat) (value : Word) : s₀.Advances (State.writeCan s
    o n value) := by
  unfold State.writeCan
  repeat' with_reducible first
    | assumption | apply State.Advances.ite | apply State.setCan_advances | apply State.setFld_advances | apply State.writeBy_advances
    | apply State.refuseTo_advances | (intro _) | split

theorem execCanEnable_advances {s₀ s : State} (hs : s₀.Advances s) (o : Origin) (n : Nat) (value : Word) : s₀.AdvancesR (execCanEnable o n
    value s) := by
  unfold execCanEnable
  repeat' with_reducible first | assumption | apply State.whenUp_advances | apply State.writeCan_advances | (intro _)

theorem State.canRoute_advances {s₀ s : State} (hs : s₀.Advances s) (n : Nat) (f : CanFrame) (sof : Nat) : s₀.Advances (State.canRoute s n
    f sof) := by
  unfold State.canRoute
  repeat' with_reducible first
    | assumption | apply State.Advances.ite | apply State.sluiceIn_advances | apply State.fqReceive_advances | (intro _) | split

theorem State.recDown_advances {s₀ s : State} (hs : s₀.Advances s) (n : Nat) : s₀.Advances (State.recDown s n) := by
  unfold State.recDown
  repeat' with_reducible first
    | assumption | apply State.Advances.ite | apply State.setCan_advances | apply State.takeFree_advances | (intro _)

theorem execCanFrameRx_advances {s₀ s : State} (hs : s₀.Advances s) (n : Nat) (f : CanFrame) (sof : Nat) : s₀.AdvancesR (execCanFrameRx n
    f sof s) := by
  unfold execCanFrameRx
  repeat' with_reducible first
    | assumption | apply State.Advances.ite | apply State.canRoute_advances | apply State.whenUp_advances | apply State.recDown_advances
    | (intro _)

theorem State.canSent_advances {s₀ s : State} (hs : s₀.Advances s) (n : Nat) (f : CanFrame) (sof : Nat) : s₀.Advances (State.canSent s n f
    sof) := by
  unfold State.canSent
  repeat' with_reducible first
    | assumption | apply State.Advances.ite | apply State.canRoute_advances | apply State.setCan_advances | apply State.emit_advances
    | (intro _)

theorem execCanTxDone_advances {s₀ s : State} (hs : s₀.Advances s) (n : Nat) (sof : Nat) : s₀.AdvancesR (execCanTxDone n sof s) := by
  unfold execCanTxDone
  repeat' with_reducible first
    | assumption | apply State.Advances.ite | apply State.fqSettle_advances | apply State.fqSent_advances | apply State.canSent_advances
    | apply State.whenUp_advances | apply State.rimRefuse_advances | (intro _) | split

theorem execSluPduRead_advances {s₀ s : State} (hs : s₀.Advances s) (o : Origin) (idx : Nat) : s₀.AdvancesR (execSluPduRead o idx s) := by
  unfold execSluPduRead
  repeat' with_reducible first
    | assumption | apply State.Advances.setReg | apply State.command_advances | apply State.whenUp_advances | (intro _)
    | apply State.AdvancesP.mk'

theorem State.setPdu_advances {s₀ s : State} (hs : s₀.Advances s) (i : Nat) (p : Pdu) : s₀.Advances (State.setPdu s i p) := by
  unfold State.setPdu
  repeat' with_reducible first | assumption | exact .refl _ | exact Nat.le_refl _ | apply State.Advances.upd

theorem State.setSigMap_advances {s₀ s : State} (hs : s₀.Advances s) (i : Nat) (m : SigMap) : s₀.Advances (State.setSigMap s i m) := by
  unfold State.setSigMap
  repeat' with_reducible first | assumption | exact .refl _ | exact Nat.le_refl _ | apply State.Advances.upd

theorem execSluPduWrite_advances {s₀ s : State} (hs : s₀.Advances s) (o : Origin) (idx : Nat) : s₀.AdvancesR (execSluPduWrite o idx s)
    := by
  unfold execSluPduWrite
  repeat' with_reducible first
    | assumption | apply State.AdvancesP.ite | apply State.command_advances | apply State.setPdu_advances | apply State.whenUp_advances
    | (intro _) | apply State.AdvancesP.mk'

theorem execSluPduClear_advances {s₀ s : State} (hs : s₀.Advances s) (o : Origin) (idx : Nat) : s₀.AdvancesR (execSluPduClear o idx s)
    := by
  unfold execSluPduClear
  repeat' with_reducible first
    | assumption | apply State.AdvancesP.ite | apply State.command_advances | apply State.setPdu_advances | apply State.whenUp_advances
    | (intro _) | apply State.AdvancesP.mk'

theorem execSluMapRead_advances {s₀ s : State} (hs : s₀.Advances s) (o : Origin) (idx : Nat) : s₀.AdvancesR (execSluMapRead o idx s) := by
  unfold execSluMapRead
  repeat' with_reducible first
    | assumption | apply State.Advances.setReg | apply State.command_advances | apply State.whenUp_advances | (intro _)
    | apply State.AdvancesP.mk'

theorem execSluMapWrite_advances {s₀ s : State} (hs : s₀.Advances s) (o : Origin) (idx : Nat) : s₀.AdvancesR (execSluMapWrite o idx s)
    := by
  unfold execSluMapWrite
  repeat' with_reducible first
    | assumption | apply State.AdvancesP.ite | apply State.command_advances | apply State.whenUp_advances
    | apply State.setSigMap_advances | (intro _) | apply State.AdvancesP.mk'

theorem execSluMapClear_advances {s₀ s : State} (hs : s₀.Advances s) (o : Origin) (idx : Nat) : s₀.AdvancesR (execSluMapClear o idx s)
    := by
  unfold execSluMapClear
  repeat' with_reducible first
    | assumption | apply State.AdvancesP.ite | apply State.command_advances | apply State.whenUp_advances
    | apply State.setSigMap_advances | (intro _) | apply State.AdvancesP.mk'

/-! ### Instances -/

theorem State.setVi_advances {s₀ s : State} (hs : s₀.Advances s) (v : Nat) (x : Nat) : s₀.Advances (State.setVi s v x) := by
  unfold State.setVi
  repeat' with_reducible first | assumption | apply State.setFld_advances

theorem State.viCommand_advances {s₀ s : State} (hs : s₀.Advances s) (o : Origin) (v : Nat) (states : List Nat) (act : State → Nat → State
    × Nat) (hact : ∀ x0 x1, s₀.Advances x0 → s₀.AdvancesP (act x0 x1)) : s₀.Advances (State.viCommand s o v states act) := by
  unfold State.viCommand
  repeat' with_reducible first
    | assumption | apply State.AdvancesP.ite | apply hact | apply State.command_advances | (intro _) | apply State.AdvancesP.mk'

theorem State.withdrawVi_advances {s₀ s : State} (hs : s₀.Advances s) (v : Nat) (p : Job → Bool) : s₀.Advances (State.withdrawVi s v p)
    := by
  unfold State.withdrawVi
  repeat' with_reducible first
    | assumption | apply State.withdraw_advances | apply State.withdrawFetched_advances | apply State.Advances.foldl | (intro _)

theorem execViQuiesce_advances {s₀ s : State} (hs : s₀.Advances s) (o : Origin) (v : Nat) : s₀.AdvancesR (execViQuiesce o v s) := by
  unfold execViQuiesce
  repeat' with_reducible first
    | assumption | apply State.withdrawVi_advances | apply State.conclude_advances | apply State.setVi_advances
    | apply State.whenUp_advances | apply State.viCommand_advances | apply State.quiesced_advances | (intro _)
    | apply State.AdvancesP.mk'

theorem execViQuiesceHard_advances {s₀ s : State} (hs : s₀.Advances s) (o : Origin) (v : Nat) : s₀.AdvancesR (execViQuiesceHard o v s)
    := by
  unfold execViQuiesceHard
  repeat' with_reducible first
    | assumption | apply State.withdrawVi_advances | apply State.conclude_advances | apply State.setVi_advances
    | apply State.whenUp_advances | apply State.viCommand_advances | apply State.quiesced_advances | (intro _)
    | apply State.AdvancesP.mk'

theorem State.freezeVi_advances {s₀ s : State} (hs : s₀.Advances s) (v : Nat) : s₀.Advances (State.freezeVi s v) := by
  unfold State.freezeVi
  repeat' with_reducible first
    | assumption | exact .refl _ | apply State.conclude_advances | apply State.setVi_advances | apply State.unplace_advances
    | apply State.frozenCheck_advances | apply State.Advances.foldl | (intro _) | exact Nat.le_refl _ | apply State.Advances.upd

theorem execViFreeze_advances {s₀ s : State} (hs : s₀.Advances s) (o : Origin) (v : Nat) : s₀.AdvancesR (execViFreeze o v s) := by
  unfold execViFreeze
  repeat' with_reducible first
    | assumption | apply State.whenUp_advances | apply State.viCommand_advances | apply State.freezeVi_advances | (intro _)
    | apply State.AdvancesP.mk'

theorem State.thawVi_advances {s₀ s : State} (hs : s₀.Advances s) (v : Nat) : s₀.Advances (State.thawVi s v) := by
  unfold State.thawVi
  repeat' with_reducible first
    | assumption | exact .refl _ | apply State.Advances.ite | apply State.conclude_advances | apply State.setVi_advances
    | apply State.fetch_advances | apply State.Advances.foldl | (intro _) | exact Nat.le_refl _ | apply State.Advances.upd

theorem execViThaw_advances {s₀ s : State} (hs : s₀.Advances s) (o : Origin) (v : Nat) : s₀.AdvancesR (execViThaw o v s) := by
  unfold execViThaw
  repeat' with_reducible first
    | assumption | apply State.whenUp_advances | apply State.viCommand_advances | apply State.thawVi_advances | (intro _)
    | apply State.AdvancesP.mk'

theorem State.resetVi_advances {s₀ s : State} (hs : s₀.Advances s) (v : Nat) : s₀.Advances (State.resetVi s v) := by
  unfold State.resetVi
  repeat' with_reducible first
    | assumption | exact .refl _ | apply State.setBit_advances | apply State.conclude_advances | apply State.setVi_advances
    | apply State.knotSet_advances | apply State.setFld_advances | apply State.ringCancelled_advances | apply State.setFair_advances
    | apply State.Advances.foldl | (intro _) | exact Nat.le_refl _ | apply State.Advances.upd

theorem execViReset_advances {s₀ s : State} (hs : s₀.Advances s) (o : Origin) (v : Nat) : s₀.AdvancesR (execViReset o v s) := by
  unfold execViReset
  repeat' with_reducible first
    | assumption | apply State.resetVi_advances | apply State.whenUp_advances | apply State.viCommand_advances | (intro _)
    | apply State.AdvancesP.mk'

theorem State.setImgLen_advances {s₀ s : State} (hs : s₀.Advances s) (fixed : Nat) (job : Nat) : s₀.Advances (State.setImgLen s fixed job)
    := by
  unfold State.setImgLen
  repeat' with_reducible first | assumption | apply State.Advances.setReg

theorem State.saveVi_advances {s₀ s : State} (hs : s₀.Advances s) (v : Nat) (cert : Bool) (jrnl : Bool) : s₀.AdvancesP (State.saveVi s v
    cert jrnl) := by
  unfold State.saveVi
  repeat' with_reducible first
    | assumption | exact .refl _ | apply State.AdvancesP.ite | apply State.jBeginOp_advances | apply State.setVi_advances
    | apply State.AdvancesP.fst | (intro _) | apply State.AdvancesP.mk' | exact Nat.le_refl _ | apply State.Advances.upd

theorem execViSave_advances {s₀ s : State} (hs : s₀.Advances s) (o : Origin) (v : Nat) (cert : Bool) (jrnl : Bool) : s₀.AdvancesR
    (execViSave o v cert jrnl s) := by
  unfold execViSave
  repeat' with_reducible first
    | assumption | apply State.saveVi_advances | apply State.whenUp_advances | apply State.viCommand_advances | (intro _)

theorem State.viDone_advances {s₀ s : State} (hs : s₀.Advances s) (v : Nat) : s₀.Advances (State.viDone s v) := by
  unfold State.viDone
  repeat' with_reducible first | assumption | apply State.Advances.ite | apply State.setFld_advances | (intro _)

theorem State.saved_advances {s₀ s : State} (hs : s₀.Advances s) (x : Saving) : s₀.Advances (State.saved s x) := by
  unfold State.saved
  repeat' with_reducible first
    | assumption | exact .refl _ | apply State.setImgLen_advances | apply State.jWrite_advances | apply State.setVi_advances
    | apply State.store_advances | apply State.takeFree_advances | apply State.viDone_advances | exact Nat.le_refl _
    | apply State.Advances.upd

theorem execSaveImageDone_advances {s₀ s : State} (hs : s₀.Advances s) (v : Nat) : s₀.AdvancesR (execSaveImageDone v s) := by
  unfold execSaveImageDone
  repeat' with_reducible first | assumption | apply State.whenUp_advances | apply State.saved_advances | (intro _) | split

theorem State.installConfig_advances {s₀ s : State} (hs : s₀.Advances s) (v : Nat) (m : ViImage) : s₀.Advances (State.installConfig s v m)
    := by
  unfold State.installConfig
  repeat' with_reducible first | assumption | apply State.Advances.setReg | apply State.Advances.foldl | (intro _)

theorem State.installRings_advances {s₀ s : State} (hs : s₀.Advances s) (v : Nat) (m : ViImage) : s₀.Advances (State.installRings s v m)
    := by
  unfold State.installRings
  repeat' with_reducible first
    | assumption | apply State.Advances.setReg | apply State.setRing_advances | apply State.Advances.foldl | (intro _) | split

theorem State.installKnots_advances {s₀ s : State} (hs : s₀.Advances s) (v : Nat) (m : ViImage) : s₀.Advances (State.installKnots s v m)
    := by
  unfold State.installKnots
  repeat' with_reducible first | assumption | apply State.knotSet_advances | apply State.Advances.foldl | (intro _)

theorem State.installHot_advances {s₀ s : State} (hs : s₀.Advances s) (v : Nat) (m : ViImage) : s₀.Advances (State.installHot s v m) := by
  unfold State.installHot
  repeat' with_reducible first
    | assumption | apply State.hotRegister_advances | apply State.Advances.foldl | apply State.AdvancesP.fst | (intro _) | split

theorem State.installPending_advances {s₀ s : State} (hs : s₀.Advances s) (j : Job) :
    s₀.Advances (State.installPending s j) := by
  unfold State.installPending
  have h0 : s₀.Advances { s with jobs := s.jobs ++ [{ j with pend := [], pendCk := [], extents := [], places := [] }] } := by
    with_reducible apply State.Advances.upd
    · exact hs
    · rfl
    · exact Nat.le_refl _
  have h1 := State.Advances.foldl (l := j.extents) (f := fun a h => a.takeExtent j.ring j.seq h) h0
    (fun a x h => State.takeExtent_advances h _ _ _)
  have h2 := (State.roomFor_advances h1 j.ring j.seq false (j.heldLines false)).getD h1
  have h3 := (State.roomFor_advances h2 j.ring j.seq true (j.heldLines true)).getD h2
  exact State.modJob_advances h3 _ _ _

theorem State.installJob_advances {s₀ s : State} (hs : s₀.Advances s) (v : Nat) (m : ViImage) (j : Job) : s₀.Advances (State.installJob s
    v m j) := by
  unfold State.installJob
  repeat' with_reducible first
    | assumption | exact .refl _ | apply State.Advances.ite | apply State.installPending_advances | apply State.startLoad_advances
    | apply State.finish_advances | (intro _) | split | exact Nat.le_refl _ | apply State.Advances.upd

theorem State.restoreVi_advances {s₀ s : State} (hs : s₀.Advances s) (v : Nat) (img : Option ViImage) : s₀.AdvancesP (State.restoreVi s v
    img) := by
  unfold State.restoreVi
  repeat' with_reducible first
    | assumption | exact .refl _ | apply State.AdvancesP.ite | apply State.setTenant_advances | apply State.setVi_advances
    | apply State.installJob_advances | apply State.installHot_advances | apply State.installConfig_advances
    | apply State.installKnots_advances | apply State.installRings_advances | apply State.Advances.foldl | (intro _) | split
    | apply State.AdvancesP.mk' | exact Nat.le_refl _ | apply State.Advances.upd

theorem execViRestore_advances {s₀ s : State} (hs : s₀.Advances s) (o : Origin) (v : Nat) (img : Option ViImage) : s₀.AdvancesR
    (execViRestore o v img s) := by
  unfold execViRestore
  repeat' with_reducible first
    | assumption | apply State.whenUp_advances | apply State.viCommand_advances | apply State.restoreVi_advances | (intro _)

theorem execRestoreDone_advances {s₀ s : State} (hs : s₀.Advances s) (v : Nat) : s₀.AdvancesR (execRestoreDone v s) := by
  unfold execRestoreDone
  repeat' with_reducible first
    | assumption | exact .refl _ | apply State.setImgLen_advances | apply State.setVi_advances | apply State.whenUp_advances
    | apply State.viDone_advances | (intro _) | split | exact Nat.le_refl _ | apply State.Advances.upd

/-! ### Tsn -/

theorem State.setTsnPort_advances {s₀ s : State} (hs : s₀.Advances s) (p : Nat) (x : TsnPort) : s₀.Advances (State.setTsnPort s p x) := by
  unfold State.setTsnPort
  repeat' with_reducible first | assumption | exact .refl _ | exact Nat.le_refl _ | apply State.Advances.upd

theorem State.corrected_advances {s₀ s : State} (hs : s₀.Advances s) (p : Nat) (w : WaitFrame) : s₀.AdvancesP (State.corrected s p w)
    := by
  unfold State.corrected
  repeat' with_reducible first
    | assumption | exact .refl _ | apply State.AdvancesP.ite | apply State.takeFree_advances
    | (refine State.Advances.ofSnd ?_ (by assumption)) | (intro _) | split | apply State.AdvancesP.mk' | exact Nat.le_refl _
    | apply State.Advances.upd

theorem State.ethOut_advances {s₀ s : State} (hs : s₀.Advances s) (p : Nat) (w : WaitFrame) : s₀.Advances (State.ethOut s p w) := by
  unfold State.ethOut
  repeat' with_reducible first
    | assumption | apply State.Advances.ite | apply State.corrected_advances | apply State.rimRefuse_advances | apply State.emit_advances
    | apply State.AdvancesP.fst | (intro _)

theorem State.entryEnd_advances {s₀ s : State} (hs : s₀.Advances s) (e : Nat × Nat) (status : Nat) : s₀.Advances (State.entryEnd s e
    status) := by
  unfold State.entryEnd
  repeat' with_reducible first
    | assumption | apply State.Advances.ite | apply State.fqSettle_advances | apply State.fqSent_advances | (intro _) | split

theorem State.ethEgress_advances {s₀ s : State} (hs : s₀.Advances s) (p : Nat) (w : WaitFrame) : s₀.Advances (State.ethEgress s p w) := by
  unfold State.ethEgress
  repeat' with_reducible first
    | assumption | apply State.Advances.ite | apply State.setTsnPort_advances | apply State.ethOut_advances | (intro _)

theorem State.releaseFrames_advances {s₀ s : State} (hs : s₀.Advances s) (p : Nat) : s₀.Advances (State.releaseFrames s p) := by
  unfold State.releaseFrames
  repeat' with_reducible first
    | assumption | apply State.AdvancesP.ite | apply State.entryEnd_advances | apply State.setTsnPort_advances
    | apply State.ethOut_advances | apply State.AdvancesP.foldl | apply State.AdvancesP.fst | (intro _) | split
    | apply State.AdvancesP.mk'

theorem State.cycleEnds_advances {s₀ s : State} (hs : s₀.Advances s) (p : Nat) : s₀.Advances (State.cycleEnds s p) := by
  unfold State.cycleEnds
  repeat' with_reducible first
    | assumption | apply State.bump_advances | apply State.entryEnd_advances | apply State.setTsnPort_advances
    | apply State.Advances.foldl | (intro _) | split

theorem execGateIntervalEnd_advances {s₀ s : State} (hs : s₀.Advances s) (p : Nat) : s₀.AdvancesR (execGateIntervalEnd p s) := by
  unfold execGateIntervalEnd
  try dsimp -iota only
  repeat' first

    | with_reducible (first | assumption | apply State.Advances.ite | apply State.releaseFrames_advances | apply State.cycleEnds_advances | apply State.setTsnPort_advances | apply State.whenUp_advances | (intro _))
    | split

theorem execGateBankTakeover_advances {s₀ s : State} (hs : s₀.Advances s) (p : Nat) : s₀.AdvancesR (execGateBankTakeover p s) := by
  unfold execGateBankTakeover
  repeat' with_reducible first
    | assumption | apply State.Advances.ite | apply State.releaseFrames_advances | apply State.setTsnPort_advances
    | apply State.whenUp_advances | (intro _)

theorem State.splitPdus_advances {s₀ y1 : State} (hy1 : s₀.Advances y1) (y0 : Nat) (y2 : List Byte) : s₀.Advances (State.splitPdus y0 y1
    y2) := by
  induction y0 generalizing y1 y2 hy1 with
  | zero =>
    unfold State.splitPdus
    repeat' with_reducible assumption
  | succ _ ih =>
    unfold State.splitPdus
    repeat' with_reducible first
      | assumption | apply State.Advances.ite | apply ih | apply State.bump_advances | apply State.sluiceIn_advances | (intro _) | split

theorem State.ethSluice_advances {s₀ s : State} (hs : s₀.Advances s) (bs : List Byte) : s₀.Advances (State.ethSluice s bs) := by
  unfold State.ethSluice
  repeat' with_reducible first
    | assumption | apply State.Advances.ite | apply State.bump_advances | apply State.splitPdus_advances | (intro _) | split

theorem State.learnMac_advances {s₀ s : State} (hs : s₀.Advances s) (p : Nat) (bs : List Byte) : s₀.Advances (State.learnMac s p bs) := by
  unfold State.learnMac
  repeat' with_reducible first
    | assumption | exact .refl _ | apply State.Advances.ite | (intro _) | exact Nat.le_refl _ | apply State.Advances.upd

theorem State.ethDeliver_advances {s₀ s : State} (hs : s₀.Advances s) (ingress : Nat) (cls : Nat) (bs : List Byte) (sfd : Nat) (entry :
    Option (Nat × Nat)) (p : Nat) : s₀.Advances (State.ethDeliver s ingress cls bs sfd entry p) := by
  unfold State.ethDeliver
  repeat' with_reducible first
    | assumption | apply State.Advances.ite | apply State.bump_advances | apply State.ethEgress_advances | apply State.ethSluice_advances
    | apply State.fqReceive_advances | (intro _)

theorem State.ethIn_advances {s₀ s : State} (hs : s₀.Advances s) (p : Nat) (cls : Nat) (bs : List Byte) (sfd : Nat) (entry : Option (Nat ×
    Nat)) : s₀.Advances (State.ethIn s p cls bs sfd entry) := by
  unfold State.ethIn
  repeat' with_reducible first
    | assumption | apply State.Advances.ite | apply State.bump_advances | apply State.ethDeliver_advances | apply State.learnMac_advances
    | apply State.Advances.foldl | (intro _)

theorem execEthFrameRx_advances {s₀ s : State} (hs : s₀.Advances s) (p : Nat) (bytes : List Byte) (fcsOk : Bool) (sfd : Nat) :
    s₀.AdvancesR (execEthFrameRx p bytes fcsOk sfd s) := by
  unfold execEthFrameRx
  repeat' with_reducible first
    | assumption | apply State.Advances.ite | apply State.bump_advances | apply State.whenUp_advances | apply State.ethIn_advances
    | (intro _)

theorem execEthTxDone_advances {s₀ s : State} (hs : s₀.Advances s) (k : Nat) : s₀.AdvancesR (execEthTxDone k s) := by
  unfold execEthTxDone
  repeat' with_reducible first
    | assumption | apply State.Advances.ite | apply State.entryEnd_advances | apply State.whenUp_advances | apply State.ethIn_advances
    | (intro _) | split

theorem execLearnedEntryAgeing_advances {s₀ s : State} (hs : s₀.Advances s) (mac : Nat) (vid : Nat) : s₀.AdvancesR (execLearnedEntryAgeing
    mac vid s) := by
  unfold execLearnedEntryAgeing
  repeat' with_reducible first
    | assumption | exact .refl _ | apply State.Advances.ite | apply State.whenUp_advances | (intro _) | exact Nat.le_refl _
    | apply State.Advances.upd

theorem State.writePort_advances {s₀ s : State} (hs : s₀.Advances s) (o : Origin) (p : Nat) (value : Word) : s₀.Advances (State.writePort
    s o p value) := by
  unfold State.writePort
  repeat' with_reducible first
    | assumption | apply State.Advances.ite | apply State.writePlainBy_advances | apply State.refuseTo_advances | (intro _)

theorem execPortEnable_advances {s₀ s : State} (hs : s₀.Advances s) (o : Origin) (p : Nat) (value : Word) : s₀.AdvancesR (execPortEnable o
    p value s) := by
  unfold execPortEnable
  repeat' with_reducible first | assumption | apply State.whenUp_advances | apply State.writePort_advances | (intro _)

theorem State.gptpFlag_advances {s₀ s : State} (hs : s₀.Advances s) (f : Fld) (v : Nat) : s₀.Advances (State.gptpFlag s f v) := by
  unfold State.gptpFlag
  repeat' with_reducible first | assumption | apply State.setFld_advances

theorem State.rateFilter_advances {s₀ s : State} (hs : s₀.Advances s) : s₀.Advances (State.rateFilter s) := by
  unfold State.rateFilter
  repeat' with_reducible first
    | assumption | exact .refl _ | apply State.Advances.ite | apply State.setAdj_advances | apply State.takeFree_advances | (intro _)
    | exact Nat.le_refl _ | apply State.Advances.upd

theorem State.refuseSync_advances {s₀ s : State} (hs : s₀.Advances s) (e : Word) : s₀.Advances (State.refuseSync s e) := by
  unfold State.refuseSync
  repeat' with_reducible first
    | assumption | apply State.Advances.setReg | apply State.bump_advances | apply State.gptpFlag_advances | apply State.raise_advances

theorem State.takeSync_advances {s₀ s : State} (hs : s₀.Advances s) (e : Word) : s₀.Advances (State.takeSync s e) := by
  unfold State.takeSync
  repeat' with_reducible first
    | assumption | apply State.Advances.ite | apply State.Advances.setReg | apply State.rateFilter_advances
    | apply State.gptpFlag_advances | apply State.refuseSync_advances | (intro _)

theorem execSyncRx_advances {s₀ s : State} (hs : s₀.Advances s) (p : Nat) (e : Word) : s₀.AdvancesR (execSyncRx p e s) := by
  unfold execSyncRx
  repeat' with_reducible first
    | assumption | apply State.Advances.ite | apply State.takeSync_advances | apply State.whenUp_advances | (intro _)

theorem execSyncTimeout_advances {s₀ s : State} (hs : s₀.Advances s) (elected : Bool) : s₀.AdvancesR (execSyncTimeout elected s) := by
  unfold execSyncTimeout
  repeat' with_reducible first
    | assumption | apply State.Advances.ite | apply State.whenUp_advances | apply State.gptpFlag_advances | (intro _)

theorem State.gptpAccept_advances {s₀ s : State} (hs : s₀.Advances s) : s₀.Advances (State.gptpAccept s) := by
  unfold State.gptpAccept
  repeat' with_reducible first
    | assumption | exact .refl _ | apply State.Advances.ite | apply State.Advances.setReg | apply State.gptpFlag_advances | (intro _)
    | exact Nat.le_refl _ | apply State.Advances.upd

theorem State.gptpHold_advances {s₀ s : State} (hs : s₀.Advances s) : s₀.Advances (State.gptpHold s) := by
  unfold State.gptpHold
  repeat' with_reducible first | assumption | apply State.Advances.ite | apply State.gptpFlag_advances | (intro _)

theorem State.writeGptp_advances {s₀ s : State} (hs : s₀.Advances s) (o : Origin) (value : Word) : s₀.Advances (State.writeGptp s o value)
    := by
  unfold State.writeGptp
  repeat' with_reducible first
    | assumption | apply State.Advances.ite | apply State.writeBy_advances | apply State.gptpAccept_advances
    | apply State.gptpHold_advances | (intro _) | split

theorem execGptpAccept_advances {s₀ s : State} (hs : s₀.Advances s) (o : Origin) (value : Word) : s₀.AdvancesR (execGptpAccept o value s)
    := by
  unfold execGptpAccept
  repeat' with_reducible first | assumption | apply State.writeGptp_advances | apply State.whenUp_advances | (intro _)

theorem execGptpHold_advances {s₀ s : State} (hs : s₀.Advances s) (o : Origin) (value : Word) : s₀.AdvancesR (execGptpHold o value s)
    := by
  unfold execGptpHold
  repeat' with_reducible first | assumption | apply State.writeGptp_advances | apply State.whenUp_advances | (intro _)

theorem State.writeOffset_advances {s₀ s : State} (hs : s₀.Advances s) (o : Origin) (value : Word) : s₀.Advances (State.writeOffset s o
    value) := by
  unfold State.writeOffset
  repeat' with_reducible first | assumption | apply State.Advances.ite | apply State.writePlainBy_advances | (intro _)

theorem execOffsetWrite_advances {s₀ s : State} (hs : s₀.Advances s) (o : Origin) (value : Word) : s₀.AdvancesR (execOffsetWrite o value
    s) := by
  unfold execOffsetWrite
  repeat' with_reducible first | assumption | apply State.whenUp_advances | apply State.writeOffset_advances | (intro _)

/-! ### Leases -/

theorem State.setRootEnd_advances {s₀ s : State} (hs : s₀.Advances s) (u : Nat) (t : Nat) : s₀.Advances (State.setRootEnd s u t) := by
  unfold State.setRootEnd
  repeat' with_reducible first | assumption | exact .refl _ | exact Nat.le_refl _ | apply State.Advances.upd

theorem State.renewRoot_advances {s₀ s : State} (hs : s₀.Advances s) (u : Nat) : s₀.Advances (State.renewRoot s u) := by
  unfold State.renewRoot
  repeat' with_reducible first
    | assumption | apply State.Advances.ite | apply State.bump_advances | apply State.setRootEnd_advances | (intro _)

theorem execRootLeaseRenew_advances {s₀ s : State} (hs : s₀.Advances s) (units : List Nat) : s₀.AdvancesR (execRootLeaseRenew units s)
    := by
  unfold execRootLeaseRenew
  repeat' with_reducible first
    | assumption | exact .refl _ | apply State.Advances.ite | apply State.whenUp_advances | apply State.renewRoot_advances
    | apply State.Advances.foldl | (intro _) | exact Nat.le_refl _ | apply State.Advances.upd

theorem State.voidOpen_advances {s₀ s : State} (hs : s₀.Advances s) (n : Nat) : s₀.Advances (State.voidOpen s n) := by
  unfold State.voidOpen
  repeat' with_reducible first
    | assumption | apply State.modChan_advances | apply State.settleSample_advances | apply State.Advances.foldl | (intro _)

theorem State.dropPasses_advances {s₀ s : State} (hs : s₀.Advances s) : s₀.Advances (State.dropPasses s) := by
  unfold State.dropPasses
  repeat' with_reducible first
    | assumption | exact .refl _ | apply State.bump_advances | apply State.unobserved_advances | apply State.Advances.foldl | (intro _)
    | exact Nat.le_refl _ | apply State.Advances.upd

theorem State.dropUnit_advances {s₀ s : State} (hs : s₀.Advances s) (u : Nat) : s₀.Advances (State.dropUnit s u) := by
  unfold State.dropUnit
  repeat' with_reducible first
    | assumption | exact .refl _ | apply State.Advances.ite | apply State.disablePipe_advances | apply State.linkLost_advances
    | apply State.dropPasses_advances | apply State.alwDrop_advances | apply State.voidOpen_advances | apply State.portLost_advances
    | apply State.Advances.foldl | (intro _) | exact Nat.le_refl _ | apply State.Advances.upd

theorem State.resetUnit_advances {s₀ s : State} (hs : s₀.Advances s) (u : Nat) : s₀.Advances (State.resetUnit s u) := by
  unfold State.resetUnit
  repeat' with_reducible first
    | assumption | exact .refl _ | apply State.setDomain_advances | apply State.conclude_advances | apply State.dropUnit_advances
    | apply State.Advances.foldl | (intro _) | exact Nat.le_refl _ | apply State.Advances.upd

theorem State.nameRoot_advances {s₀ s : State} (hs : s₀.Advances s) (u : Nat) : s₀.Advances (State.nameRoot s u) := by
  unfold State.nameRoot
  repeat' with_reducible first | assumption | apply State.Advances.ite | apply State.setFld_advances | (intro _)

theorem State.rootExpired_advances {s₀ s : State} (hs : s₀.Advances s) (u : Nat) : s₀.Advances (State.rootExpired s u) := by
  unfold State.rootExpired
  repeat' with_reducible first
    | assumption | exact .refl _ | apply State.Advances.ite | apply State.resetUnit_advances | apply State.enterReset_advances
    | apply State.nameRoot_advances | apply State.diverge_advances | apply State.report_advances | (intro _) | exact Nat.le_refl _
    | apply State.Advances.upd

theorem execRootLeaseExpire_advances {s₀ s : State} (hs : s₀.Advances s) (unit : Nat) : s₀.AdvancesR (execRootLeaseExpire unit s) := by
  unfold execRootLeaseExpire
  repeat' with_reducible first
    | assumption | apply State.Advances.ite | apply State.rootExpired_advances | apply State.whenUp_advances | (intro _)

theorem State.resumeUnit_advances {s₀ s : State} (hs : s₀.Advances s) (u : Nat) : s₀.Advances (State.resumeUnit s u) := by
  unfold State.resumeUnit
  repeat' with_reducible first
    | assumption | apply State.Advances.ite | apply State.setCan_advances | apply State.enablePipe_advances
    | apply State.mediaCharge_advances | apply State.obtain_advances | apply State.Advances.foldl | (intro _)

theorem execUnitRestored_advances {s₀ s : State} (hs : s₀.Advances s) (unit : Nat) : s₀.AdvancesR (execUnitRestored unit s) := by
  unfold execUnitRestored
  repeat' with_reducible first
    | assumption | exact .refl _ | apply State.Advances.ite | apply State.setDomain_advances | apply State.conclude_advances
    | apply State.resumeUnit_advances | apply State.setRootEnd_advances | apply State.whenUp_advances | apply State.Advances.foldl
    | (intro _) | exact Nat.le_refl _ | apply State.Advances.upd

theorem State.abandon_advances {s₀ s : State} (hs : s₀.Advances s) (d : DmaStream) : s₀.Advances (State.abandon s d) := by
  unfold State.abandon
  repeat' with_reducible first
    | assumption | apply State.Advances.ite | apply State.onCurrent_advances | apply State.loadFailed_advances
    | apply State.askCopyBack_advances | apply State.modChan_advances | apply State.failRemote_advances | apply State.alwDrop_advances
    | apply State.settleSample_advances | (intro _) | split

theorem execDmaStreamExpire_advances {s₀ s : State} (hs : s₀.Advances s) (stream : DmaStream) : s₀.AdvancesR (execDmaStreamExpire stream
    s) := by
  unfold execDmaStreamExpire
  repeat' with_reducible first
    | assumption | apply State.conclude_advances | apply State.whenUp_advances | apply State.abandon_advances | (intro _)

theorem execPanelTimerExpire_advances {s₀ s : State} (hs : s₀.Advances s) (core : Nat) (jrnl : Bool) : s₀.AdvancesR (execPanelTimerExpire
    core jrnl s) := by
  unfold execPanelTimerExpire
  repeat' with_reducible first
    | assumption | apply State.Advances.ite | apply State.conclude_advances | apply State.whenUp_advances | apply State.darnCore_advances
    | apply State.domainDown_advances | (intro _)

theorem State.resetPanel_advances {s₀ s : State} (hs : s₀.Advances s) (p : Nat) : s₀.Advances (State.resetPanel s p) := by
  unfold State.resetPanel
  repeat' with_reducible first
    | assumption | exact .refl _ | apply State.conclude_advances | apply State.pullJob_advances | apply State.report_advances
    | apply State.clearTest_advances | apply State.checkReservations_advances | apply State.Advances.foldl | (intro _) | split
    | exact Nat.le_refl _ | apply State.Advances.upd

theorem execArrayTimerExpire_advances {s₀ s : State} (hs : s₀.Advances s) (panel : Nat) : s₀.AdvancesR (execArrayTimerExpire panel s)
    := by
  unfold execArrayTimerExpire
  repeat' with_reducible first
    | assumption | apply State.Advances.ite | apply State.whenUp_advances | apply State.resetPanel_advances | (intro _)

theorem execPanelResume_advances {s₀ s : State} (hs : s₀.Advances s) (panel : Nat) : s₀.AdvancesR (execPanelResume panel s) := by
  unfold execPanelResume
  repeat' with_reducible first
    | assumption | exact .refl _ | apply State.Advances.ite | apply State.conclude_advances | apply State.whenUp_advances
    | apply State.freshPanel_advances | (intro _) | exact Nat.le_refl _ | apply State.Advances.upd

theorem execHwTimerExpire_advances {s₀ s : State} (hs : s₀.Advances s) : s₀.AdvancesR (execHwTimerExpire s) := by
  unfold execHwTimerExpire
  repeat' with_reducible first
    | assumption | exact .refl _ | apply State.Advances.ite | apply State.drivePins_advances | apply State.whenUp_advances
    | apply State.assertPins_advances | (intro _) | exact Nat.le_refl _ | apply State.Advances.upd

theorem execSelfReset_advances {s₀ s : State} (hs : s₀.Advances s) : s₀.AdvancesR (execSelfReset s) := by
  unfold execSelfReset
  repeat' with_reducible first
    | assumption | apply State.Advances.ite | apply State.enterReset_advances | apply State.whenUp_advances | (intro _) | split

theorem execAliveEdge_advances {s₀ s : State} (hs : s₀.Advances s) : s₀.AdvancesR (execAliveEdge s) := by
  unfold execAliveEdge
  repeat' with_reducible first
    | assumption | exact .refl _ | apply State.Advances.ite | apply State.whenUp_advances | (intro _) | exact Nat.le_refl _
    | apply State.Advances.upd

/-! ### Raster -/

theorem State.tilePass_advances {s₀ s : State} (hs : s₀.Advances s) (n : Nat) (x : Nat) (y : Nat) (split : Bool) (spill : Bool) :
    s₀.Advances (State.tilePass s n x y split spill) := by
  unfold State.tilePass
  repeat' with_reducible first
    | assumption | apply State.Advances.ite | apply State.bump_advances | apply State.modCore_advances | (intro _)

theorem State.tileGiven_advances {s₀ s : State} (hs : s₀.Advances s) (j : Job) (x : Nat) (y : Nat) (split : Bool) (spill : Bool) :
    s₀.Advances (State.tileGiven s j x y split spill) := by
  unfold State.tileGiven
  repeat' with_reducible first | assumption | apply State.modJob_advances

theorem execTileSetup_advances {s₀ s : State} (hs : s₀.Advances s) (core : Nat) (x : Nat) (y : Nat) (prims : List (List Nat)) (shared :
    Bool) (split : Bool) (spill : Bool) : s₀.AdvancesR (execTileSetup core x y prims shared split spill s) := by
  unfold execTileSetup
  repeat' with_reducible first
    | assumption | exact .refl _ | apply State.Advances.ite | apply State.tileGiven_advances | apply State.tilePass_advances
    | apply State.whenUp_advances | apply State.issueIn_advances | (intro _) | split | exact Nat.le_refl _ | apply State.Advances.upd

theorem execInterlockAcquire_advances {s₀ s : State} (hs : s₀.Advances s) (core : Nat) (prim : Nat) (block : Nat) : s₀.AdvancesR
    (execInterlockAcquire core prim block s) := by
  unfold execInterlockAcquire
  repeat' with_reducible first
    | assumption | apply State.Advances.ite | apply State.whenUp_advances | apply State.issueIn_advances | (intro _) | split

theorem execInterlockRelease_advances {s₀ s : State} (hs : s₀.Advances s) (core : Nat) (prim : Nat) (block : Nat) : s₀.AdvancesR
    (execInterlockRelease core prim block s) := by
  unfold execInterlockRelease
  repeat' with_reducible first
    | assumption | exact .refl _ | apply State.whenUp_advances | apply State.issueIn_advances | (intro _) | split | exact Nat.le_refl _
    | apply State.Advances.upd

theorem execAttributeInterpolation_advances {s₀ s : State} (hs : s₀.Advances s) (core : Nat) (dst : Nat) : s₀.AdvancesR
    (execAttributeInterpolation core dst s) := by
  unfold execAttributeInterpolation
  repeat' with_reducible first
    | assumption | apply State.modCore_advances | apply State.whenUp_advances | apply State.takeFree_advances
    | apply State.issueIn_advances | (intro _)

/-! ### Sluice -/

theorem State.updateSlot_advances {s₀ s : State} (hs : s₀.Advances s) (src : Nat) (bs : List Byte) (d : Nat) : s₀.Advances
    (State.updateSlot s src bs d) := by
  unfold State.updateSlot
  repeat' with_reducible first
    | assumption | apply State.Advances.ite | apply State.bump_advances | apply State.setSlot_advances | (intro _)

theorem State.applyPdu_advances {s₀ s : State} (hs : s₀.Advances s) (src : Nat) (bs : List Byte) : s₀.Advances (State.applyPdu s src bs)
    := by
  unfold State.applyPdu
  repeat' with_reducible first | assumption | apply State.updateSlot_advances | apply State.Advances.foldl | (intro _)

theorem execSluiceUpdate_advances {s₀ s : State} (hs : s₀.Advances s) : s₀.AdvancesR (execSluiceUpdate s) := by
  unfold execSluiceUpdate
  repeat' with_reducible first
    | assumption | exact .refl _ | apply State.Advances.ite | apply State.applyPdu_advances | apply State.whenUp_advances | (intro _)
    | split | exact Nat.le_refl _ | apply State.Advances.upd

theorem State.slotSent_advances {s₀ s : State} (hs : s₀.Advances s) (d : Nat) : s₀.Advances (State.slotSent s d) := by
  unfold State.slotSent
  repeat' with_reducible first | assumption | apply State.setSlot_advances

theorem State.sendSlot_advances {s₀ s : State} (hs : s₀.Advances s) (d : Nat) : s₀.Advances (State.sendSlot s d) := by
  unfold State.sendSlot
  repeat' with_reducible first
    | assumption | apply State.Advances.ite | apply State.slotSent_advances | apply State.canSent_advances
    | apply State.rimRefuse_advances | apply State.ethIn_advances | (intro _)

theorem execSluiceSend_advances {s₀ s : State} (hs : s₀.Advances s) (d : Nat) : s₀.AdvancesR (execSluiceSend d s) := by
  unfold execSluiceSend
  repeat' with_reducible first
    | assumption | apply State.Advances.ite | apply State.whenUp_advances | apply State.sendSlot_advances | (intro _)

theorem State.writeSluice_advances {s₀ s : State} (hs : s₀.Advances s) (o : Origin) (value : Word) : s₀.Advances (State.writeSluice s o
    value) := by
  unfold State.writeSluice
  repeat' with_reducible first
    | assumption | exact .refl _ | apply State.Advances.ite | apply State.setFld_advances | apply State.writeBy_advances | (intro _)
    | exact Nat.le_refl _ | apply State.Advances.upd

theorem execSluiceEnable_advances {s₀ s : State} (hs : s₀.Advances s) (o : Origin) (value : Word) : s₀.AdvancesR (execSluiceEnable o value
    s) := by
  unfold execSluiceEnable
  repeat' with_reducible first | assumption | apply State.whenUp_advances | apply State.writeSluice_advances | (intro _)

end Sys2Proof.Machine
end

