-- ==== Sys2Proof/Laws/AdvancesSetup.lean ====
section
/-! SUPPORT. One lemma per function: from a state in which the invariant holds it advances (set-up writes, worlds, the start and the idle tick). -/

namespace Sys2Proof.Machine

/-! ### Setup -/

theorem State.writeRanged_advances {s₀ s : State} (hs : s₀.Advances s) (o : Origin) (k : Nat) (v : Word) (bad : Bool) : s₀.Advances
    (State.writeRanged s o k v bad) := by
  unfold State.writeRanged
  repeat' with_reducible first
    | assumption | apply State.Advances.ite | apply State.commitWrite_advances | apply State.refuseTo_advances
    | apply State.auditRefusal_advances | (intro _) | split

theorem State.writeEvq_advances {s₀ s : State} (hs : s₀.Advances s) (o : Origin) (d : Nat) (value : Word) : s₀.Advances (State.writeEvq s
    o d value) := by
  unfold State.writeEvq
  repeat' with_reducible first | assumption | apply State.writeRanged_advances

theorem State.writeTail_advances {s₀ s : State} (hs : s₀.Advances s) (o : Origin) (d : Nat) (value : Word) : s₀.Advances (State.writeTail
    s o d value) := by
  unfold State.writeTail
  repeat' with_reducible first
    | assumption | apply State.Advances.ite | apply State.Advances.setReg | apply State.refuseTo_advances | apply State.emit_advances
    | (intro _) | split

theorem execEvqTailWrite_advances {s₀ s : State} (hs : s₀.Advances s) (o : Origin) (d : Nat) (value : Word) : s₀.AdvancesR
    (execEvqTailWrite o d value s) := by
  unfold execEvqTailWrite
  repeat' with_reducible first
    | assumption | apply State.Advances.ite | apply State.whenUp_advances | apply State.writeTail_advances | (intro _)

theorem State.writeUfs_advances {s₀ s : State} (hs : s₀.Advances s) (o : Origin) (u : Nat) (value : Word) : s₀.Advances (State.writeUfs s
    o u value) := by
  unfold State.writeUfs
  repeat' with_reducible first | assumption | apply State.writeRanged_advances

theorem execUfsLuWrite_advances {s₀ s : State} (hs : s₀.Advances s) (o : Origin) (u : Nat) (value : Word) : s₀.AdvancesR (execUfsLuWrite o
    u value s) := by
  unfold execUfsLuWrite
  repeat' with_reducible first
    | assumption | apply State.Advances.ite | apply State.whenUp_advances | apply State.writeUfs_advances | (intro _)

theorem State.writeJournal_advances {s₀ s : State} (hs : s₀.Advances s) (o : Origin) (value : Word) : s₀.Advances (State.writeJournal s o
    value) := by
  unfold State.writeJournal
  repeat' with_reducible first | assumption | apply State.writeRanged_advances

theorem State.writeSilent_advances {s₀ s : State} (hs : s₀.Advances s) (o : Origin) (k : Nat) (value : Word) : s₀.Advances
    (State.writeSilent s o k value) := by
  unfold State.writeSilent
  repeat' with_reducible first
    | assumption | apply State.Advances.ite | apply State.Advances.setReg | apply State.clearSat_advances | apply State.refuseTo_advances
    | (intro _) | split

theorem State.after_advances {s₀ s : State} (hs : s₀.Advances s) (r : Host.Outcome State Fault Refusal) (hr : s₀.AdvancesR r) :
    s₀.Advances (State.after s r) := by
  unfold State.after
  split
  · exact hr.next _ rfl
  · exact hs

theorem State.commandAt_advances {s₀ s : State} (hs : s₀.Advances s) (o : Origin) (b : Nat) (v : Word) (e : WriteEnv) : s₀.AdvancesN
    (State.commandAt s o b v e) := by
  unfold State.commandAt
  repeat' with_reducible first
    | assumption | apply State.AdvancesN.ite | apply State.AdvancesN.mk' | exact State.AdvancesN.ofNone | apply execStRead_advances
    | apply execDarnChannel_advances | apply execFwSwitch_advances | apply execViThaw_advances | apply execHotUnregister_advances
    | apply execViFreeze_advances | apply execViSave_advances | apply execFwDiscard_advances | apply execPwrDomainOn_advances
    | apply execViRestore_advances | apply execTenantCreate_advances | apply execUbrMapWrite_advances | apply execKnotSelAdd_advances
    | apply execSluPduWrite_advances | apply execDarnCore_advances | apply execTackClear_advances | apply execViQuiesceHard_advances
    | apply execPwrDomainOff_advances | apply execTackRead_advances | apply execTackWrite_advances | apply execSluMapClear_advances
    | apply execTenantForceRemove_advances | apply execKnotSelSet_advances | apply execKnotSelRead_advances
    | apply execSluPduClear_advances | apply execViQuiesce_advances | apply execStWrite_advances | apply execAuditExport_advances
    | apply execAttReport_advances | apply execViReset_advances | apply execDarnLane_advances | apply execPeerRead_advances
    | apply execTenantRead_advances | apply execSluPduRead_advances | apply execUbrMapDisable_advances | apply execHotSetFlags_advances
    | apply execHotRead_advances | apply execHotRegister_advances | apply execUbrMapRead_advances | apply execSluMapRead_advances
    | apply execTackDisable_advances | apply execSluMapWrite_advances | apply execTenantRemove_advances | apply execHotEvict_advances
    | apply execFwStage_advances | (intro _) | split

theorem State.regWriteAt_advances {s₀ s : State} (hs : s₀.Advances s) (o : Origin) (k : Nat) (b : Nat) (i : Nat) (j : Nat) (v : Word) (e :
    WriteEnv) : s₀.Advances (State.regWriteAt s o k b i j v e) := by
  unfold State.regWriteAt
  repeat' with_reducible first
    | assumption | exact .refl _ | apply State.Advances.ite | (refine State.AdvancesR.ofSome ?_ (by assumption))
    | apply State.writeRateFloor_advances | apply State.writeEncoder_advances | apply State.writeGrid_advances
    | apply State.writeDecoder_advances | apply State.writeStage_advances | apply State.writeAdj_advances
    | apply State.drivePins_advances | apply State.writeSpCfg_advances | apply State.writeSwErr_advances | apply State.writeGptp_advances
    | apply State.writeSilent_advances | apply State.ringWake_advances | apply State.writeBy_advances | apply State.writePool_advances
    | apply State.writeJournal_advances | apply State.writeSafePin_advances | apply State.ackAudit_advances
    | apply State.writePending_advances | apply State.writeFsync_advances | apply State.writeSpTable_advances
    | apply State.writeRingCfg_advances | apply State.writePipe_advances | apply State.writeKnotRange_advances
    | apply State.writeFq_advances | apply State.writeBudget_advances | apply State.writeOffset_advances
    | apply State.writeCwyPort_advances | apply State.writeChan_advances | apply State.writePlainBy_advances
    | apply State.writeCan_advances | apply State.writeEarly_advances | apply State.learn_advances | apply State.writeTail_advances
    | apply State.after_advances | apply State.writeEvq_advances | apply State.commandAt_advances | apply State.writeUfs_advances
    | apply State.writePort_advances | apply State.writeSluice_advances | apply State.writeSuspend_advances | (intro _) | split
    | exact Nat.le_refl _ | apply State.Advances.upd

theorem State.regWrite_advances {s₀ s : State} (hs : s₀.Advances s) (o : Origin) (k : Nat) (v : Word) (e : WriteEnv) : s₀.Advances
    (State.regWrite s o k v e) := by
  unfold State.regWrite
  repeat' with_reducible first | assumption | apply State.regWriteAt_advances | split

theorem State.write4_advances {s₀ s : State} (hs : s₀.Advances s) (o : Origin) (k : Nat) (v : Word) (e : WriteEnv) : s₀.Advances
    (State.write4 s o k v e) := by
  unfold State.write4
  repeat' with_reducible first
    | assumption | apply State.Advances.ite | apply State.regWrite_advances | apply State.auditRefusal_advances | (intro _) | split

theorem State.write8_advances {s₀ s : State} (hs : s₀.Advances s) (o : Origin) (k : Nat) (v : Word) (e : WriteEnv) : s₀.Advances
    (State.write8 s o k v e) := by
  unfold State.write8
  repeat' with_reducible first | assumption | apply State.Advances.ite | apply State.regWrite_advances | (intro _)

theorem State.setupWrite_advances {s₀ s : State} (hs : s₀.Advances s) (o : Origin) (off : Nat) (bytes : Nat) (v : Word) (e : WriteEnv) :
    s₀.Advances (State.setupWrite s o off bytes v e) := by
  unfold State.setupWrite
  repeat' with_reducible first
    | assumption | apply State.Advances.ite | apply State.write4_advances | apply State.refuseTo_advances | apply State.write8_advances
    | (intro _)

theorem execRegisterWrite_advances {s₀ s : State} (hs : s₀.Advances s) (o : Origin) (off : Nat) (bytes : Nat) (value : Word) (env :
    WriteEnv) : s₀.AdvancesR (execRegisterWrite o off bytes value env s) := by
  unfold execRegisterWrite
  repeat' with_reducible first | assumption | apply State.setupWrite_advances | apply State.whenUp_advances | (intro _)

theorem execLockWrite_advances {s₀ s : State} (hs : s₀.Advances s) (o : Origin) (blk : Nat) : s₀.AdvancesR (execLockWrite o blk s) := by
  unfold execLockWrite
  repeat' with_reducible first
    | assumption | apply State.Advances.ite | apply State.whenUp_advances | apply State.regWrite_advances | (intro _)

/-! ### Worlds -/

theorem State.setHart_advances {s₀ s : State} (hs : s₀.Advances s) (core : Nat) (hart : Nat) (h : Hart) : s₀.Advances (State.setHart s
    core hart h) := by
  unfold State.setHart
  repeat' with_reducible first | assumption | exact .refl _ | exact Nat.le_refl _ | apply State.Advances.upd

theorem State.gatewayFault_advances {s₀ s : State} (hs : s₀.Advances s) (core : Nat) (hart : Nat) (h : Hart) : s₀.Advances
    (State.gatewayFault s core hart h) := by
  unfold State.gatewayFault
  repeat' with_reducible first | assumption | apply State.setHart_advances

theorem State.setEnclave_advances {s₀ s : State} (hs : s₀.Advances s) (t : Nat) (e : Enclave) : s₀.Advances (State.setEnclave s t e) := by
  unfold State.setEnclave
  repeat' with_reducible first | assumption | exact .refl _ | exact Nat.le_refl _ | apply State.Advances.upd

theorem execEye_advances {s₀ s : State} (hs : s₀.Advances s) : s₀.AdvancesR (execEye s) := by
  unfold execEye
  repeat' with_reducible first | assumption | apply State.whenUp_advances | (intro _)

theorem State.gateS_advances {s₀ s : State} (hs : s₀.Advances s) (core : Nat) (hart : Nat) (target : Nat) (ret : Nat) (eye : Option
    Eyelet) (h : Hart) : s₀.Advances (State.gateS s core hart target ret eye h) := by
  unfold State.gateS
  repeat' with_reducible first
    | assumption | apply State.Advances.ite | apply State.setHart_advances | apply State.gatewayFault_advances | (intro _) | split

theorem execGateS_advances {s₀ s : State} (hs : s₀.Advances s) (core : Nat) (hart : Nat) (target : Nat) (ret : Nat) (eye : Option Eyelet)
    (regs : List (Nat × Nat)) : s₀.AdvancesR (execGateS core hart target ret eye regs s) := by
  unfold execGateS
  repeat' with_reducible first | assumption | apply State.gateS_advances | apply State.whenUp_advances | (intro _)

theorem State.enterEnclave_advances {s₀ s : State} (hs : s₀.Advances s) (core : Nat) (hart : Nat) (target : Nat) (ret : Nat) (e : Eyelet)
    (v : Enclave) (h : Hart) : s₀.Advances (State.enterEnclave s core hart target ret e v h) := by
  unfold State.enterEnclave
  repeat' with_reducible first
    | assumption | apply State.Advances.ite | apply State.setEnclave_advances | apply State.setHart_advances
    | apply State.gatewayFault_advances | (intro _) | split

theorem State.gateE_advances {s₀ s : State} (hs : s₀.Advances s) (core : Nat) (hart : Nat) (target : Nat) (ret : Nat) (eye : Option
    Eyelet) (h : Hart) : s₀.Advances (State.gateE s core hart target ret eye h) := by
  unfold State.gateE
  repeat' with_reducible first
    | assumption | apply State.Advances.ite | apply State.enterEnclave_advances | apply State.gatewayFault_advances | (intro _) | split

theorem execGateE_advances {s₀ s : State} (hs : s₀.Advances s) (core : Nat) (hart : Nat) (target : Nat) (ret : Nat) (eye : Option Eyelet)
    (regs : List (Nat × Nat)) : s₀.AdvancesR (execGateE core hart target ret eye regs s) := by
  unfold execGateE
  repeat' with_reducible first | assumption | apply State.whenUp_advances | apply State.gateE_advances | (intro _)

theorem State.gret_advances {s₀ s : State} (hs : s₀.Advances s) (core : Nat) (hart : Nat) (h : Hart) : s₀.Advances (State.gret s core hart
    h) := by
  unfold State.gret
  repeat' with_reducible first | assumption | apply State.setHart_advances | split

theorem execGret_advances {s₀ s : State} (hs : s₀.Advances s) (core : Nat) (hart : Nat) (regs : List (Nat × Nat)) : s₀.AdvancesR (execGret
    core hart regs s) := by
  unfold execGret
  repeat' with_reducible first | assumption | apply State.gret_advances | apply State.whenUp_advances | (intro _)

theorem State.leaveEnclave_advances {s₀ s : State} (hs : s₀.Advances s) (core : Nat) (hart : Nat) (pc : Nat) (h : Hart) (v : Enclave) :
    s₀.Advances (State.leaveEnclave s core hart pc h v) := by
  unfold State.leaveEnclave
  repeat' with_reducible first | assumption | apply State.setEnclave_advances | apply State.setHart_advances | split

theorem execEnclaveTrap_advances {s₀ s : State} (hs : s₀.Advances s) (core : Nat) (hart : Nat) (pc : Nat) (regs : List (Nat × Nat)) :
    s₀.AdvancesR (execEnclaveTrap core hart pc regs s) := by
  unfold execEnclaveTrap
  try dsimp -iota only
  repeat' first

    | with_reducible (first | assumption | apply State.Advances.ite | apply State.leaveEnclave_advances | apply State.whenUp_advances | (intro _))
    | split

theorem State.newEnclave_advances {s₀ s : State} (hs : s₀.Advances s) (secure : Bool) (rs : List (Nat × Nat)) (tag : Nat) : s₀.Advances
    (State.newEnclave s secure rs tag) := by
  unfold State.newEnclave
  repeat' with_reducible first | assumption | apply State.answer_advances | apply State.setEnclave_advances

theorem execEnclaveRegister_advances {s₀ s : State} (hs : s₀.Advances s) (secure : Bool) (ranges : List (Nat × Nat)) : s₀.AdvancesR
    (execEnclaveRegister secure ranges s) := by
  unfold execEnclaveRegister
  repeat' with_reducible first
    | assumption | exact .refl _ | apply State.Advances.ite | apply State.answer_advances | apply State.newEnclave_advances
    | apply State.whenUp_advances | (intro _) | split | exact Nat.le_refl _ | apply State.Advances.upd

theorem State.zeroRange_advances {s₀ s : State} (hs : s₀.Advances s) (r : Nat × Nat) : s₀.Advances (s.zeroRange r) :=
  hs.trans ⟨fun i => ⟨⟨i.regs, Sparse.wf_filter i.mem, Sparse.wf_filter i.poison, i.knots, i.epochs, i.floors, i.top⟩,
    ⟨fun _ => Nat.le_refl _, fun _ => Nat.le_refl _, Nat.le_refl _, Nat.le_refl _, rfl⟩⟩⟩

theorem execEnclaveDestroy_advances {s₀ s : State} (hs : s₀.Advances s) (tag : Nat) : s₀.AdvancesR (execEnclaveDestroy tag s) := by
  unfold execEnclaveDestroy
  repeat' with_reducible first
    | assumption | exact .refl _ | apply State.answer_advances | apply State.zeroRange_advances | apply State.whenUp_advances
    | apply State.Advances.foldl | (intro _) | split | exact Nat.le_refl _ | apply State.Advances.upd

theorem execSecureLeaseTake_advances {s₀ s : State} (hs : s₀.Advances s) (h : SecHolder) (d : Nat) : s₀.AdvancesR (execSecureLeaseTake h d
    s) := by
  unfold execSecureLeaseTake
  repeat' with_reducible first
    | assumption | exact .refl _ | apply State.Advances.ite | apply State.answer_advances | apply State.whenUp_advances
    | apply State.auditAs_advances | (intro _) | exact Nat.le_refl _ | apply State.Advances.upd

theorem execSecureLeaseRelease_advances {s₀ s : State} (hs : s₀.Advances s) (h : SecHolder) (d : Nat) : s₀.AdvancesR
    (execSecureLeaseRelease h d s) := by
  unfold execSecureLeaseRelease
  repeat' with_reducible first
    | assumption | exact .refl _ | apply State.Advances.ite | apply State.answer_advances | apply State.whenUp_advances
    | apply State.auditAs_advances | (intro _) | exact Nat.le_refl _ | apply State.Advances.upd

/-! ### ResetSeq -/

theorem State.runKind_advances {s₀ s : State} (hs : s₀.Advances s) (kind : Nat) (x : Nat × List Byte) : s₀.Advances (State.runKind s kind
    x) := by
  unfold State.runKind
  repeat' with_reducible first | assumption | exact .refl _ | apply State.setFld_advances | exact Nat.le_refl _ | apply State.Advances.upd

theorem State.auditFallback_advances {s₀ s : State} (hs : s₀.Advances s) (kind : Nat) (slot : Nat) : s₀.Advances (State.auditFallback s
    kind slot) := by
  unfold State.auditFallback
  repeat' with_reducible first | assumption | apply State.Advances.ite | apply State.auditLog_advances | (intro _)

theorem State.startRecord_advances {s₀ s : State} (hs : s₀.Advances s) (b : BootRead) : s₀.Advances (State.startRecord s b) := by
  unfold State.startRecord
  repeat' with_reducible first
    | assumption | exact .refl _ | apply State.auditFallback_advances | apply State.setFld_advances | apply State.runKind_advances
    | split | exact Nat.le_refl _ | apply State.Advances.upd

theorem State.startCount_advances {s₀ s : State} (hs : s₀.Advances s) (b : BootRead) : s₀.Advances (State.startCount s b) := by
  unfold State.startCount
  repeat' with_reducible first
    | assumption | exact .refl _ | apply State.Advances.setReg | apply State.auditLog_advances | apply State.setFld_advances
    | apply State.modStore_advances | apply State.takeFree_advances | split | exact Nat.le_refl _ | exact Nat.le_succ _
    | apply State.Advances.upd

theorem State.applySubst_advances {s₀ s : State} (hs : s₀.Advances s) (x : Subst) : s₀.Advances (State.applySubst s x) := by
  unfold State.applySubst
  repeat' with_reducible first
    | assumption | exact .refl _ | apply State.Advances.ite | apply State.setBit_advances | apply State.setFld_advances | (intro _)
    | split | exact Nat.le_refl _ | apply State.Advances.upd

theorem State.completeSubst_advances {s₀ s : State} (hs : s₀.Advances s) (r : JRec) : s₀.Advances (State.completeSubst s r) := by
  unfold State.completeSubst
  repeat' with_reducible first
    | assumption | exact .refl _ | apply State.bump_advances | apply State.jWrite_advances | apply State.applySubst_advances
    | exact Nat.le_refl _ | apply State.Advances.upd

theorem State.unswitch_advances {s₀ s : State} (hs : s₀.Advances s) (r : JRec) : s₀.Advances (State.unswitch s r) := by
  unfold State.unswitch
  repeat' with_reducible first
    | assumption | exact .refl _ | apply State.jWrite_advances | apply State.modStore_advances | exact Nat.le_refl _

theorem State.completeSwitch_advances {s₀ s : State} (hs : s₀.Advances s) (b : BootRead) (r : JRec) : s₀.Advances (State.completeSwitch s
    b r) := by
  unfold State.completeSwitch
  repeat' with_reducible first | assumption | apply State.raiseFloor_advances | apply State.jWrite_advances

theorem State.resolveOp_advances {s₀ s : State} (hs : s₀.Advances s) (b : BootRead) (r : JRec) : s₀.Advances (State.resolveOp s b r) := by
  unfold State.resolveOp
  repeat' with_reducible first
    | assumption | exact .refl _ | apply State.Advances.ite | apply State.setTenant_advances | apply State.completeSubst_advances
    | apply State.jWrite_advances | apply State.unswitch_advances | apply State.auditLog_advances | apply State.completeSwitch_advances
    | apply State.setEpoch_advances | (intro _)

theorem State.startJournal_advances {s₀ s : State} (hs : s₀.Advances s) (b : BootRead) : s₀.Advances (State.startJournal s b) := by
  unfold State.startJournal
  repeat' with_reducible first
    | assumption | exact .refl _ | apply State.Advances.ite | apply State.applySubst_advances | apply State.refreshFill_advances
    | apply State.resolveOp_advances | apply State.Advances.foldl | (intro _) | exact Nat.le_refl _ | apply State.Advances.upd

theorem State.setRimOn_advances {s₀ s : State} (hs : s₀.Advances s) (d : Nat) : s₀.Advances (State.setRimOn s d) := by
  unfold State.setRimOn
  repeat' with_reducible first | assumption | apply State.setBit_advances

theorem State.startPower_advances {s₀ s : State} (hs : s₀.Advances s) : s₀.Advances (State.startPower s) := by
  unfold State.startPower
  repeat' with_reducible first
    | assumption | exact .refl _ | apply State.setTenant_advances | apply State.domainUp_advances | apply State.setFld_advances
    | apply State.setRootEnd_advances | apply State.setRimOn_advances | apply State.obtain_advances | apply State.Advances.foldl
    | (intro _) | exact Nat.le_refl _ | apply State.Advances.upd

theorem State.startCauseway_advances {s₀ s : State} (hs : s₀.Advances s) : s₀.Advances (State.startCauseway s) := by
  unfold State.startCauseway
  repeat' with_reducible first
    | assumption | exact .refl _ | apply State.setFld_advances | apply State.Advances.foldl | (intro _) | split | exact Nat.le_refl _
    | apply State.Advances.upd

theorem State.earlyRegs_advances {s₀ s : State} (hs : s₀.Advances s) (c : List Byte) : s₀.Advances (State.earlyRegs s c) := by
  unfold State.earlyRegs
  repeat' with_reducible first | assumption | apply State.Advances.setReg | apply State.setFld_advances

theorem State.standCharge_advances {s₀ s : State} (hs : s₀.Advances s) (h : Holder) : s₀.Advances (State.standCharge s h) := by
  unfold State.standCharge
  repeat' with_reducible first | assumption | exact .refl _ | split | exact Nat.le_refl _ | apply State.Advances.upd

theorem State.startEarly_advances {s₀ s : State} (hs : s₀.Advances s) : s₀.Advances (State.startEarly s) := by
  unfold State.startEarly
  repeat' with_reducible first
    | assumption | exact .refl _ | apply State.Advances.ite | apply State.modChan_advances | apply State.enablePipe_advances
    | apply State.enableChan_advances | apply State.domainUp_advances | apply State.setFld_advances | apply State.earlyRegs_advances
    | apply State.setRimOn_advances | apply State.standCharge_advances | apply State.Advances.foldl | (intro _) | split
    | exact Nat.le_refl _ | apply State.Advances.upd

theorem State.failCore_advances {s₀ s : State} (hs : s₀.Advances s) (phys : Nat) (jrnl : Bool) : s₀.Advances (State.failCore s phys jrnl)
    := by
  unfold State.failCore
  repeat' with_reducible first
    | assumption | apply State.Advances.ite | apply State.setBit_advances | apply State.darnCore_advances | (intro _) | split

theorem State.failInjected_advances {s₀ s : State} (hs : s₀.Advances s) (jrnl : Bool) (u : InjUnit) : s₀.Advances (State.failInjected s
    jrnl u) := by
  unfold State.failInjected
  repeat' with_reducible first
    | assumption | exact .refl _ | apply State.failCore_advances | apply State.report_advances | apply State.requestChannel_advances
    | split | exact Nat.le_refl _ | apply State.Advances.upd

theorem State.startInjection_advances {s₀ s : State} (hs : s₀.Advances s) (b : BootRead) : s₀.Advances (State.startInjection s b) := by
  unfold State.startInjection
  repeat' with_reducible first
    | assumption | exact .refl _ | apply State.setFld_advances | apply State.failInjected_advances | apply State.Advances.foldl
    | (intro _) | exact Nat.le_refl _ | apply State.Advances.upd

theorem State.startKind_advances {s₀ s : State} (hs : s₀.Advances s) (b : BootRead) (kind : Nat) : s₀.Advances (State.startKind s b kind)
    := by
  unfold State.startKind
  repeat' with_reducible first
    | assumption | apply State.auditFallback_advances | apply State.Advances.writeBytes | apply State.runKind_advances | split

theorem State.startPairs_advances {s₀ s : State} (hs : s₀.Advances s) (b : BootRead) : s₀.Advances (State.startPairs s b) := by
  unfold State.startPairs
  repeat' with_reducible first
    | assumption | apply State.Advances.ite | apply State.setPair_advances | apply State.Advances.foldl | (intro _)

theorem State.runCore0_advances {s₀ s : State} (hs : s₀.Advances s) (h : Hart) : s₀.Advances (State.runCore0 s h) := by
  unfold State.runCore0
  repeat' with_reducible first | assumption | apply State.setHart_advances | apply State.obtain_advances

theorem State.startHart_advances {s₀ s : State} (hs : s₀.Advances s) (b : BootRead) : s₀.Advances (State.startHart s b) := by
  unfold State.startHart
  repeat' with_reducible first | assumption | apply State.Advances.ite | apply State.runCore0_advances | (intro _)

theorem State.startImages_advances {s₀ s : State} (hs : s₀.Advances s) (b : BootRead) : s₀.Advances (State.startImages s b) := by
  unfold State.startImages
  repeat' with_reducible first
    | assumption | exact .refl _ | apply State.Advances.ite | apply State.startKind_advances | apply State.startHart_advances
    | apply State.startPairs_advances | apply State.Advances.foldl | (intro _) | split | exact Nat.le_refl _ | apply State.Advances.upd

theorem State.startRest_advances {s₀ s : State} (hs : s₀.Advances s) (b : BootRead) : s₀.Advances (State.startRest s b) := by
  unfold State.startRest
  repeat' with_reducible first
    | assumption | exact .refl _ | apply State.startInjection_advances | apply State.startRecord_advances
    | apply State.drivePins_advances | apply State.conclude_advances | apply State.startImages_advances
    | apply State.startCauseway_advances | apply State.startJournal_advances | apply State.startPower_advances
    | apply State.startEarly_advances | apply State.startCount_advances | exact Nat.le_refl _ | apply State.Advances.upd

theorem State.start_advances {s₀ s : State} (hs : s₀.Advances s) (b : BootRead) : s₀.Advances (State.start s b) := by
  unfold State.start
  repeat' with_reducible first
    | assumption | exact .refl _ | apply State.Advances.ite | apply State.runKind_advances | apply State.startRest_advances
    | apply State.modStore_advances | (intro _) | split | exact Nat.le_succ _

theorem execResetRelease_advances {s₀ s : State} (hs : s₀.Advances s) (boot : BootRead) : s₀.AdvancesR (execResetRelease boot s) := by
  unfold execResetRelease
  repeat' with_reducible first
    | assumption | exact .refl _ | apply State.Advances.ite | apply State.AdvancesR.mk' | apply State.start_advances | (intro _)
    | exact Nat.le_refl _ | apply State.Advances.upd

/-! ### Step -/

theorem State.idle_advances {s₀ s : State} (hs : s₀.Advances s) : s₀.Advances (State.idle s) := by
  unfold State.idle
  repeat' with_reducible first
    | assumption | apply State.Advances.ite | apply State.drainPosted_advances | apply State.tick_advances | (intro _)

end Sys2Proof.Machine
end

