-- ==== Sys2Proof/Laws/Commands.lean ====
section
/-! SUPPORT. What a granted command of a command register and an applied write of a register are, said once. -/

namespace Sys2Proof.Machine

/-- A granted command. -/
theorem State.command_granted {s : State} {o : Origin} {c : CmdReg} (h : s.granted o c) (idx : Nat) (act : State → State × Nat) :
    s.command o c idx act = s.commanded o c idx act := by
  unfold State.command
  rw [if_neg (by simp [h.1]), if_neg (by simp [h.2])]
  rfl

/-- A granted command whose act answers a known state and code. -/
theorem State.commanded_of {s : State} {c : CmdReg} {idx code : Nat} {act : State → State × Nat} {t : State}
    (h : act (s.indexed c idx) = (t, code)) (o : Origin) : s.commanded o c idx act = s.commandDone o c t code := by
  unfold State.commanded
  rw [h]

/-- A command by an origin outside the register's writers. -/
theorem State.command_foreign {s : State} {o : Origin} {c : CmdReg} (h : mayWrite o c.writers = false) (idx : Nat) (act : State → State × Nat) :
    s.command o c idx act = if setupOrigin o then s.auditRefusal o c.key resOrigin else s.refuseTo o := by
  unfold State.command
  rw [if_pos (by simp [h])]

/-- A command refused because the audit log is full. -/
theorem State.command_full {s : State} {o : Origin} {c : CmdReg} (h : mayWrite o c.writers = true) (hf : s.auditOpen o = false) (idx : Nat)
    (act : State → State × Nat) :
    s.command o c idx act = match c.full with
      | some code => (s.bump Reg.AUDIT_REFUSED_CNT noUnit).setFld c.key c.status code
      | none => s.bump Reg.AUDIT_REFUSED_CNT noUnit := by
  unfold State.command
  rw [if_neg (by simp [h]), if_pos (by simp [hf])]
  all_goals rfl

/-- A write that is applied whole. -/
theorem State.writeReg_writes {s : State} {o : Origin} {k : Nat} {v w : Word} (h : s.writes o k v w) (act : State → State → State) :
    s.writeReg o k v act = act s (s.landed o k w) := by
  obtain ⟨_, h1, r, i, j, h2, h3, h4⟩ := h
  unfold State.writeReg
  rw [if_neg (by simp [h1]), h2]
  simp only [h3, h4]
  rfl

theorem State.writeBy_writes {s : State} {o : Origin} {k : Nat} {v w : Word} (h : s.writes o k v w) (act : State → State → State) :
    s.writeBy o k v act = act s (s.landed o k w) := by
  unfold State.writeBy
  rw [if_pos h.1, State.writeReg_writes h]

theorem State.writePlainBy_writes {s : State} {o : Origin} {k : Nat} {v w : Word} (h : s.writes o k v w) :
    s.writePlainBy o k v = s.landed o k w := State.writeBy_writes h _

/-- While the device is up a command is its effect. -/
theorem State.whenUp_up {s : State} (h : s.sys.up = true) (f : State → State) : s.whenUp f = .next (f s) := by
  unfold State.whenUp
  rw [if_pos h]

/-- In reset a command has no effect. -/
theorem State.whenUp_down {s : State} (h : s.sys.up = false) (f : State → State) : s.whenUp f = .next s := by
  unfold State.whenUp
  rw [if_neg (by simp [h])]

end Sys2Proof.Machine
end

