-- ==== Sys2Proof/Laws/Quiet.lean ====
section
/-! SUPPORT. What counting, raising events and auditing leave alone: every register but the named ones and those of logging, every byte
that no log holds, every other field. -/

namespace Sys2Proof.Machine

/-- Registers that p names hold no setting of an event queue. -/
def SparesQueues (p : Nat → Prop) : Prop := ∀ d, d < 3 → ¬ p (Reg.EVQ_CFG d)

/-- From a state in which the invariant holds: it holds after, and all is quiet but for p. -/
def State.Keeps (p : Nat → Prop) (s t : State) : Prop := s.Inv → t.Inv ∧ s.Quiet p t

theorem evqCfg_not_log (d : Nat) (hd : d < 3) : ¬ logReg (Reg.EVQ_CFG d) := by
  unfold logReg Reg.EVQ_CFG Reg.EVQ_HEAD Reg.GEN_EVQ_DROP_CNT Reg.GEN_SAT Reg.PWR_RIM_REFUSE_CNT Reg.PWR_SAT
  rintro (h | h | h | h | ⟨e, he, h | h⟩) <;> omega

theorem State.Keeps.refl (p : Nat → Prop) (s : State) : s.Keeps p s := fun h => ⟨h, rfl, fun _ _ _ => rfl, fun _ _ => rfl⟩

theorem State.Quiet.logByte {p : Nat → Prop} {s t : State} (hp : SparesQueues p) (h : s.Quiet p t) (a : Nat) : t.logByte a ↔ s.logByte a := by
  have e : ∀ d, d < 3 → t.reg (Reg.EVQ_CFG d) = s.reg (Reg.EVQ_CFG d) := fun d hd => h.regs _ (hp d hd) (evqCfg_not_log d hd)
  unfold State.logByte
  constructor
  · rintro (h | ⟨d, hd, h1, h2, h3⟩)
    · exact .inl h
    · refine .inr ⟨d, hd, ?_, ?_, ?_⟩
      · simpa only [State.bit, State.fld, e d hd] using h1
      · simpa only [State.fld, e d hd] using h2
      · simpa only [State.fld, e d hd] using h3
  · rintro (h | ⟨d, hd, h1, h2, h3⟩)
    · exact .inl h
    · refine .inr ⟨d, hd, ?_, ?_, ?_⟩
      · simpa only [State.bit, State.fld, e d hd] using h1
      · simpa only [State.fld, e d hd] using h2
      · simpa only [State.fld, e d hd] using h3

theorem State.Keeps.trans {p : Nat → Prop} (hp : SparesQueues p) {s t u : State} (h : s.Keeps p t) (g : t.Keeps p u) : s.Keeps p u := by
  intro hs
  obtain ⟨ht, hq⟩ := h hs
  obtain ⟨hu, gq⟩ := g ht
  refine ⟨hu, ?_, fun k h1 h2 => (gq.regs k h1 h2).trans (hq.regs k h1 h2), fun a ha => ?_⟩
  · rw [gq.rest, hq.rest]
  · exact (gq.mem a (fun hl => ha ((hq.logByte hp a).1 hl))).trans (hq.mem a ha)

theorem State.Keeps.mono {p q : Nat → Prop} (hpq : ∀ k, p k → q k) {s t : State} (h : s.Keeps p t) : s.Keeps q t :=
  fun hs => ⟨(h hs).1, (h hs).2.rest, fun k h1 h2 => (h hs).2.regs k (fun hk => h1 (hpq k hk)) h2, (h hs).2.mem⟩

theorem State.Inv.setReg {s : State} (h : s.Inv) (k : Nat) (w : Word) : (s.setReg k w).Inv :=
  ⟨State.regs_wf_setReg h.regs, h.mem, h.poison, h.knots, h.epochs, h.floors, h.top⟩

theorem State.Inv.writeBytes {s : State} (h : s.Inv) (a : Nat) (bs : List Byte) : (s.writeBytes a bs).Inv :=
  ⟨h.regs, Memory.wf_write h.mem, Sparse.wf_putAll h.poison, h.knots, h.epochs, h.floors, h.top⟩

theorem State.Inv.setPoison {s : State} (h : s.Inv) (a n : Nat) : (s.setPoison a n).Inv :=
  ⟨h.regs, h.mem, Sparse.wf_putAll h.poison, h.knots, h.epochs, h.floors, h.top⟩

/-- A register that p or logging names is set. -/
theorem State.setReg_keeps {p : Nat → Prop} (s : State) (k : Nat) (w : Word) (hk : p k ∨ logReg k) : s.Keeps p (s.setReg k w) := by
  refine fun h => ⟨h.setReg k w, rfl, fun j h1 h2 => State.reg_setReg_other h.regs ?_, fun _ _ => rfl⟩
  rintro rfl
  exact hk.elim h1 h2

theorem State.setFld_keeps {p : Nat → Prop} (s : State) (k : Nat) (f : Fld) (v : Nat) (hk : p k ∨ logReg k) : s.Keeps p (s.setFld k f v) :=
  s.setReg_keeps k _ hk

theorem State.setBit_keeps {p : Nat → Prop} (s : State) (k b : Nat) (v : Bool) (hk : p k ∨ logReg k) : s.Keeps p (s.setBit k b v) :=
  s.setFld_keeps k _ _ hk

theorem State.emit_keeps {p : Nat → Prop} (s : State) (e : Emit) : s.Keeps p (s.emit e) := by
  exact fun h => ⟨⟨h.regs, h.mem, h.poison, h.knots, h.epochs, h.floors, h.top⟩, rfl, fun _ _ _ => rfl, fun _ _ => rfl⟩

theorem State.answer_keeps {p : Nat → Prop} (s : State) (r : Resp) : s.Keeps p (s.answer r) := by
  exact fun h => ⟨⟨h.regs, h.mem, h.poison, h.knots, h.epochs, h.floors, h.top⟩, rfl, fun _ _ _ => rfl, fun _ _ => rfl⟩

theorem State.withAudit_keeps {p : Nat → Prop} (s : State) (a : Audit) : s.Keeps p { s with audit := a } := by
  exact fun h => ⟨⟨h.regs, h.mem, h.poison, h.knots, h.epochs, h.floors, h.top⟩, rfl, fun _ _ _ => rfl, fun _ _ => rfl⟩

/-- Bytes of a log are written. -/
theorem State.writeBytes_keeps {p : Nat → Prop} (s : State) (a : Nat) (bs : List Byte)
    (hb : ∀ x, a ≤ x → x < a + bs.length → s.logByte x) : s.Keeps p (s.writeBytes a bs) := by
  refine fun h => ⟨h.writeBytes a bs, rfl, fun _ _ _ => rfl, fun x hx => State.readByte_writeBytes_other h.mem ?_⟩
  by_cases h1 : a ≤ x
  · by_cases h2 : x < a + bs.length
    · exact absurd (hb x h1 h2) hx
    · omega
  · omega

theorem State.Keeps.foldl {p : Nat → Prop} (hp : SparesQueues p) {α : Type} {f : State → α → State} (l : List α)
    (hf : ∀ a, ∀ x ∈ l, State.Keeps p a (f a x)) (s : State) : s.Keeps p (l.foldl f s) := by
  induction l generalizing s with
  | nil => exact .refl p s
  | cons x l ih => exact (hf s x (by simp)).trans hp (ih (fun a y hy => hf a y (by simp [hy])) (f s x))

@[simp] theorem leBytes_length (n v : Nat) : (leBytes n v).length = n := by
  induction n generalizing v with
  | zero => rfl
  | succ n ih => simp [leBytes, ih]

@[simp] theorem beBytes_length (n v : Nat) : (beBytes n v).length = n := by simp [beBytes]

theorem logReg_head (d : Nat) (hd : d < 3) : logReg (Reg.EVQ_HEAD d) := .inr (.inr (.inr (.inr ⟨d, hd, .inl rfl⟩)))
theorem logReg_drop (d : Nat) (hd : d < 3) : logReg (Reg.GEN_EVQ_DROP_CNT d) := .inr (.inr (.inr (.inr ⟨d, hd, .inr rfl⟩)))
theorem logReg_sat : logReg Reg.GEN_SAT := .inr (.inl rfl)
theorem logReg_rim : logReg Reg.PWR_RIM_REFUSE_CNT := .inr (.inr (.inl rfl))
theorem logReg_pwrSat : logReg Reg.PWR_SAT := .inr (.inr (.inr (.inl rfl)))
theorem satOf_rimRefuse : satOf Reg.PWR_RIM_REFUSE_CNT = some ⟨Reg.PWR_SAT, 1⟩ := by decide

theorem State.noteRim_keeps {p : Nat → Prop} (s : State) (r : Nat) : s.Keeps p (s.noteRim r) :=
  fun h => ⟨⟨h.regs, h.mem, h.poison, h.knots, h.epochs, h.floors, h.top⟩, rfl, fun _ _ _ => rfl, fun _ _ => rfl⟩

/-- A refusal at a stopped rim is counted in registers of logging. -/
theorem State.countRim_keeps {p : Nat → Prop} (hp : SparesQueues p) (s : State) : s.Keeps p (s.countOnly Reg.PWR_RIM_REFUSE_CNT).1 := by
  simp only [State.countOnly]
  split
  · exact .refl p s
  · have h1 := s.setFld_keeps (p := p) Reg.PWR_RIM_REFUSE_CNT ⟨31, 0⟩ (s.fld Reg.PWR_RIM_REFUSE_CNT ⟨31, 0⟩ + 1) (.inr logReg_rim)
    split
    · rw [satOf_rimRefuse]
      exact h1.trans hp (State.setBit_keeps _ _ _ _ (.inr logReg_pwrSat))
    · exact h1

theorem sizeOfCode_pos (c : Nat) : 0 < sizeOfCode c := Nat.two_pow_pos _

/-- A record goes into an enabled queue. -/
theorem State.evqPush_keeps {p : Nat → Prop} (hp : SparesQueues p) (s : State) (d blk off unit : Nat) (hd : d < 3)
    (he : s.bit (Reg.EVQ_CFG d) Fd.GEN_EVQ_CFG_0_EN = true) : s.Keeps p (s.evqPush d blk off unit) := by
  have hw : s.Keeps p (s.writeBytes (s.fld (Reg.EVQ_CFG d) Fd.GEN_EVQ_CFG_0_BASE * 16 + 16 *
      (s.fld (Reg.EVQ_HEAD d) Fd.GEN_EVQ_HEAD_0_HEAD % sizeOfCode (s.fld (Reg.EVQ_CFG d) Fd.GEN_EVQ_CFG_0_SIZE_CODE)))
      (leBytes 8 s.now ++ leBytes 8 (eventW1 blk off unit (s.fld (Reg.EVQ_HEAD d) Fd.GEN_EVQ_HEAD_0_HEAD)))) := by
    refine s.writeBytes_keeps _ _ (fun x h1 h2 => .inr ⟨d, hd, he, ?_, ?_⟩)
    · omega
    · have := Nat.mod_lt (s.fld (Reg.EVQ_HEAD d) Fd.GEN_EVQ_HEAD_0_HEAD) (sizeOfCode_pos (s.fld (Reg.EVQ_CFG d) Fd.GEN_EVQ_CFG_0_SIZE_CODE))
      simp only [List.length_append, leBytes_length] at h2
      omega
  have hh := hw.trans hp (State.setFld_keeps _ (Reg.EVQ_HEAD d) Fd.GEN_EVQ_HEAD_0_HEAD (s.fld (Reg.EVQ_HEAD d) Fd.GEN_EVQ_HEAD_0_HEAD + 1)
    (.inr (logReg_head d hd)))
  simp only [State.evqPush]
  split
  · exact hh.trans hp (State.emit_keeps _ _)
  · exact hh

theorem State.deliver_keeps {p : Nat → Prop} (hp : SparesQueues p) (n : Nat) (s : State) (d blk off unit : Nat) (hd : d < 3) :
    s.Keeps p (State.deliver n s d blk off unit) := by
  induction n generalizing s d blk off unit with
  | zero => exact .refl p s
  | succ n ih =>
    simp only [State.deliver]
    split
    next hr =>
      simp only [State.evqRoom, Bool.and_eq_true] at hr
      have each : ∀ (u : Nat) (t : State), t.Keeps p ([0, 1, 2].foldl (fun a q => if a.routed 3 q then State.deliver n a q 3 0x0468 u else a) t) := by
        refine fun u t => .foldl hp _ (fun a x hx => ?_) t
        have hx3 : x < 3 := by simp at hx; omega
        split
        · exact ih a x 3 _ _ hx3
        · exact .refl p a
      have h1 := s.countRim_keeps hp
      split
      · have h2 : s.Keeps p (if (s.countOnly Reg.PWR_RIM_REFUSE_CNT).2 then [0, 1, 2].foldl (fun a q =>
            if a.routed 3 q then State.deliver n a q 3 0x0468 noUnit else a) (s.countOnly Reg.PWR_RIM_REFUSE_CNT).1
            else (s.countOnly Reg.PWR_RIM_REFUSE_CNT).1) := by
          split
          · exact h1.trans hp (each _ _)
          · exact h1
        split
        · exact h2
        · exact (h2.trans hp (State.noteRim_keeps _ _)).trans hp (each _ _)
      · exact s.evqPush_keeps hp d blk off unit hd hr.1
    · split
      · exact .refl p s
      · have h1 := s.setFld_keeps (p := p) (Reg.GEN_EVQ_DROP_CNT d) Fd.GEN_EVQ_DROP_CNT_COUNT
          (s.fld (Reg.GEN_EVQ_DROP_CNT d) Fd.GEN_EVQ_DROP_CNT_COUNT + 1) (.inr (logReg_drop d hd))
        split
        · refine (h1.trans hp (State.setBit_keeps _ _ _ _ (.inr logReg_sat))).trans hp (.foldl hp _ (fun a x hx => ?_) _)
          have hx3 : x < 3 := by simp at hx; omega
          split
          · exact ih a x 0 _ _ hx3
          · exact .refl p a
        · exact h1

theorem State.raise_keeps {p : Nat → Prop} (hp : SparesQueues p) (s : State) (blk off unit : Nat) : s.Keeps p (s.raise blk off unit) := by
  refine .foldl hp _ (fun a x hx => ?_) s
  have hx3 : x < 3 := by simp at hx; omega
  split
  · exact State.deliver_keeps hp 4 a x blk off unit hx3
  · exact .refl p a

/-- Counting touches the counter and its SAT word. -/
theorem State.bump_keeps {p : Nat → Prop} (hp : SparesQueues p) (s : State) (k unit : Nat) (hk : p k ∨ logReg k)
    (hs : ∀ b, satOf k = some b → p b.word ∨ logReg b.word) : s.Keeps p (s.bump k unit) := by
  simp only [State.bump]
  split
  · exact .refl p s
  · have h1 := s.setFld_keeps k ⟨31, 0⟩ (s.fld k ⟨31, 0⟩ + 1) hk
    split
    · refine (h1.trans hp ?_).trans hp (State.raise_keeps hp _ _ _ _)
      simp only [State.setSat]
      split
      next b hb => exact State.setBit_keeps _ _ _ _ (hs b hb)
      · exact .refl p _
    · exact h1

theorem logReg_audit (k : Nat) (h : k / 0x10000 = 15) : logReg k := .inl h

theorem State.auditRefresh_keeps {p : Nat → Prop} (hp : SparesQueues p) (s : State) : s.Keeps p s.auditRefresh := by
  have hk : p Reg.AUDIT_STATUS ∨ logReg Reg.AUDIT_STATUS := .inr (logReg_audit _ rfl)
  unfold State.auditRefresh
  exact ((s.setFld_keeps _ _ _ hk).trans hp (State.setFld_keeps _ _ _ _ hk)).trans hp (State.setFld_keeps _ _ _ _ hk)

theorem auditBody_length (seq time : Nat) (o : Origin) (kind : AuditKind) (a b c d e : Nat) : (auditBody seq time o kind a b c d e).length = 64 := by
  simp [auditBody]

/-- An audit entry goes into its slot of the ring. -/
theorem State.auditPut_keeps {p : Nat → Prop} (hp : SparesQueues p) (s : State) (o : Origin) (kind : AuditKind) (a b c d e : Nat) :
    s.Keeps p (s.auditPut o kind a b c d e) := by
  have hl : ∀ bs : List Byte, bs.length = 128 →
      s.Keeps p (s.writeBytes (reservedBase + 128 * ((s.reg Reg.AUDIT_HEAD).toNat % auditSize)) bs) := by
    refine fun bs hb => s.writeBytes_keeps _ _ (fun x h1 h2 => .inl ?_)
    have := Nat.mod_lt (s.reg Reg.AUDIT_HEAD).toNat (show 0 < auditSize by decide)
    omega
  have h1 := fun (bs : List Byte) (hb : bs.length = 128) (ch : BitVec 512) (w : Word) =>
    (((hl bs hb).trans hp (State.withAudit_keeps _ { (s.writeBytes (reservedBase + 128 * ((s.reg Reg.AUDIT_HEAD).toNat % auditSize)) bs).audit with
      chain := ch })).trans hp (State.setReg_keeps _ Reg.AUDIT_HEAD w (.inr (logReg_audit _ rfl)))).trans hp (State.auditRefresh_keeps hp _)
  unfold State.auditPut
  dsimp only
  split
  · exact h1 _ (by simp [auditBody_length]) _ _
  · exact ((h1 _ (by simp [auditBody_length]) _ _).trans hp (State.withAudit_keeps _ _)).trans hp (State.raise_keeps hp _ _ _ _)

theorem satOf_auditLost : satOf Reg.AUDIT_LOST_CNT = some ⟨Reg.AUDIT_SAT, 0⟩ := by decide
theorem satOf_auditRefused : satOf Reg.AUDIT_REFUSED_CNT = some ⟨Reg.AUDIT_SAT, 1⟩ := by decide

theorem State.auditAs_keeps {p : Nat → Prop} (hp : SparesQueues p) (s : State) (o : Origin) (kind : AuditKind) (a b c d e : Nat) :
    s.Keeps p (s.auditAs o kind a b c d e) := by
  have hsat : logReg Reg.AUDIT_SAT := logReg_audit _ rfl
  simp only [State.auditAs]
  split
  · split
    · refine (s.bump_keeps hp _ _ (.inr (logReg_audit _ rfl)) (fun x hx => ?_)).trans hp (State.withAudit_keeps _ _)
      rw [satOf_auditLost, Option.some.injEq] at hx
      subst hx
      exact .inr hsat
    · refine s.bump_keeps hp _ _ (.inr (logReg_audit _ rfl)) (fun x hx => ?_)
      rw [satOf_auditRefused, Option.some.injEq] at hx
      subst hx
      exact .inr hsat
  · exact s.auditPut_keeps hp o kind a b c d e

/-- An audited act leaves everything but the log as it was. -/
theorem State.auditLog_keeps {p : Nat → Prop} (hp : SparesQueues p) (s : State) (o : Origin) (kind : AuditKind) (a b c d : Nat) :
    s.Keeps p (s.auditLog o kind a b c d) := s.auditAs_keeps hp o kind a _ b c d

/-- The end of a granted command touches its register and the log. -/
theorem State.commandDone_keeps {p : Nat → Prop} (hp : SparesQueues p) (s t : State) (o : Origin) (c : CmdReg) (code : Nat) (hk : p c.key) :
    t.Keeps p (s.commandDone o c t code) :=
  (t.setFld_keeps _ _ _ (.inl hk)).trans hp (State.auditLog_keeps hp _ _ _ _ _ _ _)

/-- A register write touches the register, the SAT word of a counter, and the log. -/
theorem State.landed_keeps {p : Nat → Prop} (hp : SparesQueues p) (s : State) (o : Origin) (k : Nat) (w : Word) (hk : p k)
    (hs : ∀ b, satOf k = some b → p b.word ∨ logReg b.word) : s.Keeps p (s.landed o k w) := by
  have h1 : s.Keeps p (s.commitWrite o k w 0) := (s.setReg_keeps k w (.inl hk)).trans hp (State.auditLog_keeps hp _ _ _ _ _ _ _)
  unfold State.landed State.clearSat
  split
  · split
    next b hb => exact h1.trans hp (State.setBit_keeps _ _ _ _ (hs b hb))
    · exact h1
  · exact h1

/-- A register that logging does not use holds what was written to it. -/
theorem State.landed_reg {s : State} (h : s.Inv) (o : Origin) (k : Nat) (w : Word) (hk : ¬ logReg k) (hc : satOf k = none) :
    (s.landed o k w).reg k = w := by
  have hp : SparesQueues (fun _ => False) := fun _ _ h => h
  have h1 := (State.auditLog_keeps hp (s.setReg k w) o .register 0 (setupAddr k) (s.reg k).toNat w.toNat (h.setReg k w)).2.regs k (fun f => f) hk
  unfold State.landed State.clearSat
  have h2 : (s.commitWrite o k w 0).reg k = w := h1.trans (State.reg_setReg h.regs)
  split
  · rw [hc]; exact h2
  · exact h2

/-- Does p name the counter of refused accesses and the word of its SAT bit? -/
def CountsRefusals (p : Nat → Prop) : Prop := ∀ k, counterRegs Reg.MEM_REFUSE_CNT k → p k

theorem State.refuse_keeps {p : Nat → Prop} (hp : SparesQueues p) (hr : CountsRefusals p) (s : State) : s.Keeps p s.refuse :=
  (s.bump_keeps hp _ _ (.inl (hr _ (.inl rfl))) (fun b hb => .inl (hr _ (.inr ⟨b, hb, rfl⟩)))).trans hp (State.answer_keeps _ _)

theorem State.refuseTo_keeps {p : Nat → Prop} (hp : SparesQueues p) (hr : CountsRefusals p) (s : State) (o : Origin) : s.Keeps p (s.refuseTo o) :=
  (s.bump_keeps hp _ _ (.inl (hr _ (.inl rfl))) (fun b hb => .inl (hr _ (.inr ⟨b, hb, rfl⟩)))).trans hp (State.answer_keeps _ _)

theorem State.auditRefusal_keeps {p : Nat → Prop} (hp : SparesQueues p) (s : State) (o : Origin) (k c : Nat) : s.Keeps p (s.auditRefusal o k c) :=
  s.auditLog_keeps hp o _ _ _ _ _

/-- A command touches its register, what its act touches, and the log. -/
theorem State.command_keeps {p : Nat → Prop} (hp : SparesQueues p) (hr : CountsRefusals p) (s : State) (o : Origin) (c : CmdReg) (idx : Nat)
    (act : State → State × Nat) (hk : p c.key) (ha : ∀ t : State, t.Keeps p (act t).1) : s.Keeps p (s.command o c idx act) := by
  by_cases h : mayWrite o c.writers = true
  · by_cases hf : s.auditOpen o = true
    · rw [State.command_granted ⟨h, hf⟩]
      exact ((s.setFld_keeps _ _ _ (.inl hk)).trans hp (ha _)).trans hp (State.commandDone_keeps hp _ _ _ _ _ hk)
    · rw [State.command_full h (by simpa using hf)]
      have hb : s.Keeps p (s.bump Reg.AUDIT_REFUSED_CNT noUnit) := s.bump_keeps hp _ _ (.inr (logReg_audit _ rfl))
        (fun b hb => by rw [satOf_auditRefused] at hb; cases hb; exact .inr (logReg_audit _ rfl))
      split
      · exact hb.trans hp (State.setFld_keeps _ _ _ _ (.inl hk))
      · exact hb
  · rw [State.command_foreign (by simpa using h)]
    split
    · exact s.auditRefusal_keeps hp o _ _
    · exact s.refuseTo_keeps hp hr o

/-- A register write touches the register, the SAT word of a counter, what follows it, and the log. -/
theorem State.writeReg_keeps {p : Nat → Prop} (hp : SparesQueues p) (s : State) (o : Origin) (k : Nat) (v : Word)
    (act : State → State → State) (hk : p k) (hs : ∀ b, satOf k = some b → p b.word ∨ logReg b.word) (ha : ∀ t : State, t.Keeps p (act s t)) :
    s.Keeps p (s.writeReg o k v act) := by
  unfold State.writeReg
  split
  · exact s.auditRefusal_keeps hp o _ _
  · split
    · exact .refl p s
    · split
      · exact s.auditRefusal_keeps hp o _ _
      · refine State.Keeps.trans hp ?_ (ha _)
        have h1 : ∀ w c, s.Keeps p (s.commitWrite o k w c) := fun w c => (s.setReg_keeps k w (.inl hk)).trans hp (State.auditLog_keeps hp _ _ _ _ _ _ _)
        unfold State.clearSat
        split
        · split
          · next b hb => exact (h1 _ _).trans hp (State.setBit_keeps _ _ _ _ (hs b hb))
          · exact h1 _ _
        · exact h1 _ _

theorem State.writeBy_keeps {p : Nat → Prop} (hp : SparesQueues p) (hr : CountsRefusals p) (s : State) (o : Origin) (k : Nat) (v : Word)
    (act : State → State → State) (hk : p k) (hs : ∀ b, satOf k = some b → p b.word ∨ logReg b.word) (ha : ∀ t : State, t.Keeps p (act s t)) :
    s.Keeps p (s.writeBy o k v act) := by
  unfold State.writeBy
  split
  · exact s.writeReg_keeps hp o k v act hk hs ha
  · exact s.refuseTo_keeps hp hr o

end Sys2Proof.Machine
end

