-- ==== Sys2Proof/Tests/Slice0.lean ====
section
/-! SUPPORT. The tests: for every statement with hypotheses a state and operands that meet them (clause by clause, at the ends of the
ranges where there are ends), the ill-formed commands that WellFormed refuses, and a few values that the manual fixes. -/

set_option Elab.async false
set_option linter.unusedVariables false

namespace Sys2Proof.Machine
open Sys2Proof

/-- Every power domain on and every rim's clock running, as after set-up; nothing else differs from reset. -/
def testUp : State := { State.reset with
  sys := { up := true, resetN := true, pwrok := true }
  regs := (List.range 7).map (fun i => (Reg.PWR_DOMAIN_STATE i, 0xFFFFFFFF)) ++ (List.range 10).map (fun i => (Reg.PWR_RIM_ON i, BitVec.allOnes 64)) }

/-- The word that a write leaves in a register. -/
def testWord (s : State) (o : Origin) (k : Nat) (v : Word) : Word :=
  match RegMap.find (k % RegMap.bankSize) with
  | some (r, i, _) => (s.writtenWord o k r i v).1
  | none => 0

/-- Is a write applied whole, leaving that word? -/
def testWrites (s : State) (o : Origin) (k : Nat) (v w : Word) : Bool :=
  setupOrigin o && s.auditOpen o && match RegMap.find (k % RegMap.bankSize) with
  | some (r, i, _) => !s.unitOff r i && s.writtenWord o k r i v == (w, 0)
  | none => false

theorem test_writes {s : State} {o : Origin} {k : Nat} {v w : Word} (h : testWrites s o k v w = true) : s.writes o k v w := by
  unfold testWrites at h
  split at h
  · next r i j e => simp at h; exact ⟨h.1.1, h.1.2, r, i, j, e, h.2.1, h.2.2⟩
  · simp at h

theorem test_granted {s : State} {o : Origin} {c : CmdReg} (h : (mayWrite o c.writers && s.auditOpen o) = true) : s.granted o c := by
  simpa [State.granted] using h

/-- A request of the job engine. -/
def testReq : AlwReq := { holder := .jobEngine, cls := .be, vi := none, coreMa := 0, dramMa := 0, idleMa := 0, gen := 0, made := 0 }

/-- A holding of the allowance. -/
def testGrant (h : Holder) : Grant := { req := { testReq with holder := h } }

/-- With such holdings. -/
def State.testHolds (s : State) (hs : List Holder) : State := { s with alw := { s.alw with grants := s.alw.grants ++ hs.map testGrant } }

/-- A job that core 0 runs. -/
def testJob : Job := { ring := 0, seq := 0, stage := .running, cores := [0], granted := [0], pat := { maxSpan := 1 }, tens := [{ n := 1, h := 1, w := 1, c := 1, fmt := 3 }] }

/-- A parameter block of the assist instructions that is valid: one class, one anchor, a grid of one cell. -/
def testPb : Sparse Byte := [(2, 1), (4, 1), (8, 1), (10, 1), (28, 1), (57, 1), (62, 3)]

def testRun : State := { testUp with jobs := [testJob], cores := [(0, { job := some (0, 0) })] }

/-- The same with a drain of one pixel that stalls. -/
def testDrain : State := { testRun with cores := [(0, { job := some (0, 0), tags := [⟨0, .drain ⟨0, 0, 0, 0, 1, 1, 0, 1, 1⟩ 0 0, true, 0⟩] })] }

/-- The same with a job of another stage. -/
def testWith (j : Job) : State := { testUp with jobs := [j] }

/-- A descriptor that waits for knot 0 to reach 1. -/
def testWait : List Nat := [0, 0, 0, 0, 1, 2 ^ 63]

/-- A telltale of one pixel, its bitmaps at the reserved region's start and its CRCs not their own. -/
def testTell : List Byte := [0, 0, 0, 0, 1, 0, 1, 0, 0, 0, 0, 0xF0, 0x0F, 0, 0, 0, 0, 0xF0, 0x0F, 0]

/-- A transmit entry of a CAN queue with one byte of data at 0x1000. -/
def testEntry : List Nat := [0x1000, 2 ^ 32, 0, 0, 0, 0, 0, 0]

/-- The words of a valid PDU entry: extended, on controller 0, of 8 B. -/
def testPdu : Word × Word := (0x8040000000000000, 0x800000)

/-! ### The block as a whole -/

theorem test_front : ∃ (c : Instr) (rest : List Instr) (s : State), s.pending = c :: rest := ⟨.eye, [.eye], { testUp with pending := [.eye, .eye] }, rfl⟩

theorem test_idle : ∃ s : State, s.pending = [] ∧ s.sys.up = true ∧ s.fld Reg.TIME_STATUS Fd.TIME_STATUS_REF_LOSS = 0 :=
  ⟨testUp, by decide +kernel⟩

/-- A sealed write of the tenant 0x10, whose key is live and of EPOCH 0, to the window's first page. -/
def testPost : Posted := { fn := 1, host := 0, bytes := [1], isSealed := true, addr := 0x8000000000, owner := 0x10, epoch := 0, metaBase := 1 }

theorem test_idle_posts : ∃ s : State, s.pending = [] ∧ s.sys.up = true ∧ s.fld Reg.TIME_STATUS Fd.TIME_STATUS_REF_LOSS = 0 ∧ s.bridge.posted = [testPost] :=
  ⟨{ testUp with bridge := { posted := [testPost] } }, by decide +kernel⟩

theorem test_sealed : ∃ (s : State) (page c : Nat), Sparse.wf (fun _ => 0) s.bridge.counters = true ∧
    Sparse.get (fun _ => 0) page s.bridge.counters = c + 1 ∧ c + 1 < 2 ^ 64 :=
  ⟨{ testUp with bridge := { counters := [(67108863, 2 ^ 64 - 1)] } }, 67108863, 2 ^ 64 - 2, by decide +kernel⟩

theorem test_inReset : ∃ (c : Instr) (s : State), s.sys.up = false ∧ isPin c = false := ⟨.eye, State.reset, by decide +kernel⟩

theorem test_inv_reset : State.reset.Inv :=
  ⟨by decide +kernel, by decide +kernel, by decide +kernel, by decide +kernel, by decide +kernel, by decide +kernel, fun _ => Nat.zero_le _⟩

theorem test_inv_up : testUp.Inv :=
  ⟨by decide +kernel, by decide +kernel, by decide +kernel, by decide +kernel, by decide +kernel, by decide +kernel, fun _ => Nat.zero_le _⟩

theorem test_stepKeeps : ∃ s t : State, s.Inv ∧ step s = .next t := ⟨testUp, _, test_inv_up, rfl⟩

theorem test_takesBack : ∃ (c : Instr) (s t : State), s.Inv ∧ exec c s = .next t := ⟨.removalDone 0x10 true, testUp, _, test_inv_up, rfl⟩

theorem test_trip : ∃ s : State, s.sys.pwrok = true := ⟨testUp, rfl⟩

theorem test_selfReset : ∃ (s : State) (l : Nat), s.sys.up = true ∧ s.watch.lostAt = some l ∧
    s.bit Reg.SPARE_TIMER Fd.SPARE_TIMER_SELF_RESET_EN = true ∧
    l + 1000000 * max 1 (s.fld Reg.SPARE_TIMER Fd.SPARE_TIMER_SELF_RESET_MS) ≤ s.now :=
  ⟨{ testUp.setFld Reg.SPARE_TIMER Fd.SPARE_TIMER_SELF_RESET_EN 1 with time := 0x100000000000000000000, watch := { lostAt := some 0 } }, 0,
   by decide +kernel⟩

theorem test_release : ∃ (s : State), s.sys.up = false ∧ s.sys.pwrok = true ∧ { s.sys with resetN := true }.released = true :=
  ⟨{ State.reset with sys := { pwrok := true } }, by decide +kernel⟩

/-! ### Frames -/

theorem test_windowReads : testUp.Inv ∧ ∀ c ∈ [Instr.tackRead .hypervisor 4095, .hotRead .hypervisor 511, .knotSelRead .hypervisor 16383, .stRead .safety 255,
    .tenantRead .hypervisor 0x4F, .ubrMapRead .hypervisor 4095, .sluPduRead .hypervisor 1023, .sluMapRead .hypervisor 4095, .peerRead .hypervisor 255],
    ∃ t, exec c testUp = .next t := by
  refine ⟨test_inv_up, ?_⟩
  simp only [List.forall_mem_cons]
  exact ⟨⟨_, rfl⟩, ⟨_, rfl⟩, ⟨_, rfl⟩, ⟨_, rfl⟩, ⟨_, rfl⟩, ⟨_, rfl⟩, ⟨_, rfl⟩, ⟨_, rfl⟩, ⟨_, rfl⟩, by simp⟩

theorem test_registerCommands : testUp.Inv ∧ ∀ c ∈ [Instr.refreshTierChange 7 40, .rimStart 576, .pinMinExpire, .busOff 15, .canBusError 15 .receive,
    .busOffRecovery 15, .syncTimeout true, .gptpHold .hypervisor 0, .offsetWrite .hypervisor 0, .portEnable .hypervisor 7 0,
    .timeRateAdjWrite .hypervisor 0, .clrMin .hypervisor 0, .memStageWrite .hypervisor 0, .ufsLuWrite .hypervisor 31 0, .evqTailWrite .selvage 2 0],
    ∃ t, exec c testUp = .next t := by
  refine ⟨test_inv_up, ?_⟩
  simp only [List.forall_mem_cons]
  exact ⟨⟨_, rfl⟩, ⟨_, rfl⟩, ⟨_, rfl⟩, ⟨_, rfl⟩, ⟨_, rfl⟩, ⟨_, rfl⟩, ⟨_, rfl⟩, ⟨_, rfl⟩, ⟨_, rfl⟩, ⟨_, rfl⟩, ⟨_, rfl⟩, ⟨_, rfl⟩, ⟨_, rfl⟩, ⟨_, rfl⟩, ⟨_, rfl⟩, by simp⟩

theorem test_sequencer : Sparse.wf (fun _ => {}) testRun.cores = true ∧ ((testRun.runs 0).isSome = true ∧ testRun.sched.flush = none) ∧ ∀ c ∈ [Instr.fence 0, .waitTag 0 15, .branch 0 (some 7),
    .attributeInterpolation 0 255, .interlockAcquire 0 0 0], ∃ t, exec c testRun = .next t := by
  refine ⟨by decide +kernel, by decide +kernel, ?_⟩
  simp only [List.forall_mem_cons]
  exact ⟨⟨_, rfl⟩, ⟨_, rfl⟩, ⟨_, rfl⟩, ⟨_, rfl⟩, ⟨_, rfl⟩, by simp⟩

/-! ### Registers, the audit log -/

theorem test_lock_1 : ∃ (s : State) (o : Origin) (k : Nat) (f : FieldSpec) (old new : Word),
    s.locked (k / 0x10000 % 0x100) = true ∧ f.acc = .rwl ∧ mayWrite o f.writers = true ∧ f.fld.of new ≠ f.fld.of old :=
  ⟨testUp.setReg (lockReg 4) 0x80000000, .hypervisor, Reg.MEM_STAGE, ⟨⟨13, 0⟩, .rwl, 0, [.hypervisor]⟩, 0, 1, by decide +kernel⟩

theorem test_lock_2 : ∃ (s t : State) (k : Nat) (r : RegSpec) (i : Nat) (f : FieldSpec), f.acc ≠ .rwl ∧ t.frozen k r i = s.frozen k r i :=
  ⟨testUp, testRun, 0, ⟨0, 32, 1, 0, 1, 0, .never, none, []⟩, 0, ⟨⟨0, 0⟩, .rw, 0, []⟩, by decide +kernel⟩

theorem test_lock_3 : ∃ (s : State) (blk : Nat), s.Inv ∧ s.sys.up = true ∧ hasLock blk = true ∧ (blk = 17 → s.domainOn 212 = true) ∧
    (blk = 19 → s.domainOn 218 = true) := ⟨testUp, 19, test_inv_up, by decide +kernel⟩

theorem test_counter : ∃ (s : State) (k : Nat) (b : SatBit), s.Inv ∧ ¬ logReg k ∧ k < RegMap.bankSize ∧ satOf k = some b ∧
    ((¬ logReg b.word ∨ k = Reg.PWR_RATE_LOW_CNT) ∧ b.word ≠ k ∧ b.bit < 64) ∧ ∀ d, d < 3 → ¬ counterRegs k (Reg.EVQ_CFG d) := by
  have e : satOf Reg.PWR_RATE_LOW_CNT = some ⟨Reg.PWR_SAT, 0⟩ := by decide +kernel
  refine ⟨testUp, Reg.PWR_RATE_LOW_CNT, _, test_inv_up, ?_, by decide +kernel, e, ⟨.inr rfl, by decide +kernel, by decide +kernel⟩, ?_⟩
  · rintro (h | h | h | h | ⟨d, hd, h | h⟩) <;>
      simp only [Reg.GEN_SAT, Reg.EVQ_HEAD, Reg.GEN_EVQ_DROP_CNT, Reg.PWR_RATE_LOW_CNT, Reg.PWR_RIM_REFUSE_CNT, Reg.PWR_SAT] at h <;> omega
  · rintro d hd (h | ⟨b, hb, h⟩)
    · simp only [Reg.PWR_RATE_LOW_CNT, Reg.EVQ_CFG] at h; omega
    · rw [e] at hb; cases hb; simp only [Reg.PWR_SAT, Reg.EVQ_CFG] at h; omega

/-- A queue of 16 records at the reserved region's start. -/
def testQueue : State := testUp.setFld (Reg.EVQ_CFG 0) Fd.GEN_EVQ_CFG_0_EN 1

theorem test_event_room : ∃ (s : State) (d : Nat), d < 3 ∧ s.evqRoom d = true ∧ s.chanStop (s.evqNext d) 16 = none := ⟨testQueue, 0, by decide +kernel⟩

theorem test_event_stopped : ∃ (s : State) (d r : Nat), d < 3 ∧ s.evqRoom d = true ∧ s.chanStop (s.evqNext d) 16 = some r ∧
    s.sys.rimRaised.contains r = true ∧ s.fld Reg.PWR_RIM_REFUSE_CNT Fd.PWR_RIM_REFUSE_CNT_COUNT + 1 < 0xFFFFFFFF :=
  ⟨{ testQueue.setReg (Reg.PWR_RIM_ON 0) 0 with sys := { up := true, rimRaised := [0] } }, 0, 0, by decide +kernel⟩

theorem test_event_lost : ∃ (s : State) (d : Nat), s.Inv ∧ d < 3 ∧ s.evqRoom d = false ∧
    s.fld (Reg.GEN_EVQ_DROP_CNT d) Fd.GEN_EVQ_DROP_CNT_COUNT + 1 < 0xFFFFFFFF := ⟨testUp, 2, test_inv_up, by decide +kernel⟩

theorem test_audit_entry : ∃ s : State, s.Inv ∧ s.auditFull = false ∧ (s.audit.near = true ∨ s.auditOcc + 1 < auditNear) :=
  ⟨testUp, test_inv_up, by decide +kernel⟩

/-- A full audit ring. -/
def testFull : State := testUp.setReg Reg.AUDIT_HEAD 524288

theorem test_audit_full : ∃ (s : State) (o p : Origin) (c : CmdReg), s.auditFull = true ∧ auditFree o = false ∧ mayWrite o c.writers = true ∧
    auditFree p = true := ⟨testFull, .hypervisor, .selvage, viCmd, by decide +kernel⟩

/-! ### Memory, the allowance, numbers, knots -/

theorem test_memory : ∃ s : State, s.Inv := ⟨testUp, test_inv_up⟩

theorem test_interleave : ∃ a b : Nat, a < 2 ^ 36 ∧ b < 2 ^ 36 ∧ dramChan a = dramChan b ∧ dramLocal a = dramLocal b :=
  ⟨2 ^ 36 - 1, 2 ^ 36 - 1, by decide +kernel⟩

theorem test_unreachable : ∃ (s : State) (o : Origin) (a : Nat), s.Inv ∧ s.sys.up = true ∧ s.mayReadDram o (a / 64 * 64) = false ∧ 0x1000000000 ≤ a :=
  ⟨testUp, .hypervisor, 0x1000000000, test_inv_up, by decide +kernel⟩

theorem test_enclaved : ∃ (s : State) (o : Origin) (a : Nat), o ≠ .device ∧ s.enclaved (a / 64 * 64) 64 = true :=
  ⟨{ testUp with trust := { enclaves := [(1, { ranges := [(0, 4096)] })] } }, .hypervisor, 4095, by decide +kernel⟩

theorem test_mayGrant : ∃ (s : State) (r : AlwReq), s.mayGrant r = true ∧ (s.alw.rise r).1 = 0 ∧ s.alw.grantOf r.holder = none ∧ r.lift = false ∧ s.alw.ramp = none :=
  ⟨testUp, testReq, by decide +kernel⟩

theorem test_mayRamp : ∃ (s : State) (r : AlwReq), s.mayGrant r = true ∧ (s.alw.rise r).1 ≠ 0 ∧ s.alw.grantOf r.holder = none ∧ r.lift = false ∧
    s.alwHead = some r :=
  ⟨{ testUp with alw := { waiting := [{ testReq with coreMa := 1, idleMa := 0 }] } }, { testReq with coreMa := 1, idleMa := 0 }, by decide +kernel⟩

theorem test_ramps : ∃ (s : State) (d : Nat), s.time.toNat + d * 2 ^ 32 < 2 ^ 96 ∧ (s.dropGrants (fun _ => true)).fallLeft = 1000 :=
  ⟨{ testUp with alw := { fall := 1000 } }, 2 ^ 63, by decide +kernel⟩

theorem test_onlyFalls : ∃ (s : State) (r : AlwReq), s.alw.onlyFalls r = true := ⟨testUp.testHolds [.jobEngine], testReq, by decide +kernel⟩

theorem test_atOnce : ∃ (s : State) (r : AlwReq), s.alw.onlyFalls r = false ∧ (s.queued r).alwHead = some r ∧ (s.queued r).mayGrant r = true :=
  ⟨testUp, testReq, by decide +kernel⟩

theorem test_waits : ∃ (s : State) (r : AlwReq), s.alw.onlyFalls r = false ∧ (s.queued r).mayGrant r = false ∧ s.alwHead = none :=
  ⟨testUp, { testReq with coreMa := 10 ^ 9 }, by decide +kernel⟩

theorem test_head : ∃ (s : State) (r x : AlwReq), s.alwHead = some r ∧ x ∈ s.alwActive ∧ s.alwActive ≠ [] :=
  ⟨{ testUp with alw := { waiting := [testReq, { testReq with cls := .lc }] } }, { testReq with cls := .lc }, testReq, by decide +kernel⟩

theorem test_rounds : ∃ (q e : Int) (m : Nat), e < q ∧ 2 * m = 2 * 2 ^ (q - e).toNat * roundAt q m e + 2 ^ (q - e).toNat := ⟨1, 0, 1, by decide +kernel⟩

theorem test_formats : ∃ f ∈ [fp4, e4m3, e5m2, fp16, bf16, fp32], ∃ c, c < 2 * f.sign ∧ (f.decode c).isFin = true ∧ (f.flush = true → 2 ^ f.mb ≤ c % f.sign) :=
  ⟨fp16, by simp, 0xFBFF, by decide +kernel⟩

theorem test_knot : ∃ (s : State) (k v : Nat), s.Inv ∧ k < 16384 ∧ s.knot k < 2 ^ 64 ∧ 2 ^ 64 ≤ s.knot k + v := ⟨testUp, 16383, 2 ^ 64, test_inv_up, by decide +kernel⟩

/-! ### Safety, leases, tenants, worlds, virtual functions -/

theorem test_react : ∃ s : State, s.reactEach 8 = 0 ∧ s.reactLast 0 = 2 ∧ s.reactEach 0 = 1 ∧ s.reactEach 15 = 2 ∧ 1 ≤ s.reactLast 15 :=
  ⟨testUp, by decide +kernel⟩

theorem test_pins : ∃ s : State, s.bit Reg.SAFE_PIN Fd.SAFE_PIN_FORCE = true ∧ s.safe.injected = false ∧ s.regBit Reg.SAFE_PENDING 15 = true ∧
    s.regBit Reg.SAFE_PENDING 47 = true ∧ s.reactEach 15 = 2 ∧ s.reactLast 15 = 2 ∧ s.now < s.safe.minEnd :=
  ⟨{ (testUp.setFld Reg.SAFE_PIN Fd.SAFE_PIN_FORCE 1).setReg Reg.SAFE_PENDING 0x800000008000 with safe := { minEnd := 1 } }, by decide +kernel⟩

theorem test_pins_drive : ∃ s t : State, s.sys.up = true ∧ t.sys.up = false := ⟨testUp, State.reset, rfl, rfl⟩

theorem test_pins_fall : ∃ s : State, s.pinDemand = false ∧ s.safe.minEnd ≤ s.now := ⟨{ testUp with safe := { injected := true } }, by decide +kernel⟩

theorem test_stale_1 : testUp.sys.up = true ∧ testUp.alw.grants.any (fun x => !x.standing && x.req.holder == .jobEngine && x.req.gen == 7) = false := by
  decide +kernel

theorem test_stale_2 : ∃ s : State, (∀ j, s.job? 0 0 = some j → j.gen ≠ 1 ∨ s.fld (Reg.RING_CFG j.ring) Fd.RING_CFG_GEN ≠ 1) ∧ (∀ j r, s.job? 0 0 = some j → j.resv = some r → r.gen ≠ 1) :=
  by
  have e : testUp.job? 0 0 = none := rfl
  exact ⟨testUp, by simp [e], by simp [e]⟩

theorem test_stale_3 : ∃ (s : State) (d : FarData), d ≠ .expired ∧ ∀ h ∈ s.bridge.held, h.tag = 511 → h.gen ≠ 1 :=
  ⟨{ testUp with bridge := { held := [⟨511, 0, 1, 0, 0, 64, 1, .checker 0⟩] } }, .ok [], by decide +kernel⟩

theorem test_stale_4 : ∃ (s : State) (u : Nat), s.rooted u = true ∧ s.rootEnd u ≤ s.now := ⟨testUp, 1, by decide +kernel⟩

theorem test_removal : ∃ (s : State) (k : Nat), s.Inv ∧ s.sys.up = true ∧ Sparse.wf (fun _ => {}) s.trust.tenants = true ∧ s.trust.removing.contains k = true :=
  ⟨{ testUp with trust := { removing := [0x4F] } }, 0x4F,
   ⟨by decide +kernel, by decide +kernel, by decide +kernel, by decide +kernel, by decide +kernel, by decide +kernel, fun _ => Nat.zero_le _⟩, by decide +kernel⟩

theorem test_noKey : ∃ (s : State) (k : Nat), k < 256 ∧ s.granted .hypervisor (tenantSel .hypervisor) ∧ isInstance k = true ∧ (s.tenant k).state ≠ 1 ∧
    (s.tenant k).state ≠ 2 ∧ s.epoch k = 0xFFFFFFFF :=
  ⟨{ testUp with epochs := [(0x4F, 0xFFFFFFFF)] }, 0x4F, by decide +kernel, test_granted (by decide +kernel), by decide +kernel, by decide +kernel, by decide +kernel,
   by decide +kernel⟩

theorem test_gateway_1 : ∃ s : State, s.sys.up = true ∧ (s.hart 0 0).stack.length = 4 ∧ (s.hart 0 0).secure = true ∧ (s.hart 0 0).enclave ≠ 0 :=
  ⟨{ testUp with trust := { harts := [(0, { secure := true, enclave := 1, stack := [⟨0, false⟩, ⟨0, false⟩, ⟨0, false⟩, ⟨0, false⟩] })] } }, by decide +kernel⟩

theorem test_gateway_2 : ∃ (s : State) (e : Eyelet) (v : Enclave), e.resume = true ∧ s.enclave? e.tag = some v ∧ v.frame = none ∧ (s.hart 0 0).stack = [] :=
  ⟨{ testUp with trust := { enclaves := [(1, {})] } }, ⟨false, 1, true⟩, {}, by decide +kernel⟩

theorem test_busy : ∃ (s : State) (v : Nat), s.sys.up = true ∧ s.granted .hypervisor viCmd ∧ (s.indexed viCmd v).viState (v % 64) = 4 :=
  ⟨testUp.setVi 63 4, 63, by decide +kernel, test_granted (by decide +kernel), by decide +kernel⟩

/-! ### Intake, networks, links -/

theorem test_unordered : ∃ (s t : State), s.Inv ∧ s.unordCount ≤ 4 ∧ exec (.unordWrite .hypervisor 15 true) s = .next t := ⟨testUp, _, test_inv_up, by decide +kernel, rfl⟩

theorem test_busOff : ∃ (s : State) (n : Nat), s.sys.up = true ∧ s.canLive n = true := ⟨testUp.setFld (Reg.GWY_CAN_CFG 15) Fd.GWY_CAN_CFG_EN 1, 15, by decide +kernel⟩

/-- Port 5 takes Sync; JUMP_NS is 100. -/
def testSync : State := (((testUp.setFld (Reg.TSN_PORT_CFG 5) Fd.TSN_PORT_CFG_EN 1).setFld Reg.TSN_GPTP_CTRL Fd.TSN_GPTP_CTRL_PORTS 63).setFld
  Reg.TSN_GPTP_CTRL Fd.TSN_GPTP_CTRL_JUMP_NS 100)

theorem test_sync : ∃ (s : State) (p : Nat) (e f : Word), s.sys.up = true ∧ s.gptpPort p = true ∧ s.bit Reg.TIME_STATUS Fd.TIME_STATUS_REF_LOSS = false ∧
    s.gptpIs Fd.TSN_GPTP_STATUS_REFUSED = false ∧ e.toInt.natAbs ≤ s.jumpNs ∧ s.jumpNs < f.toInt.natAbs :=
  ⟨testSync, 5, 1, 10 ^ 9, by decide +kernel⟩

theorem test_sync_refused : ∃ (s : State) (p : Nat), s.sys.up = true ∧ s.gptpPort p = true ∧ s.bit Reg.TIME_STATUS Fd.TIME_STATUS_REF_LOSS = false ∧
    s.gptpIs Fd.TSN_GPTP_STATUS_REFUSED = true := ⟨testSync.setFld Reg.TSN_GPTP_STATUS Fd.TSN_GPTP_STATUS_REFUSED 1, 5, by decide +kernel⟩

/-- A link to device 1 on port 0, up. -/
def testLink (more : Peer → Peer) : State :=
  { testUp with cwy := { hasSection := true, nPeers := 1, peers := [(0, more { device := 1, ports := 1, direct := true, state := 3 })] } }.setFld (Reg.CWY_PORT 0)
    Fd.CWY_PORT_STATE 2

theorem test_drop_1 : ∃ (s : State) (i : Nat) (f : Frame), s.sys.up = true ∧ s.sender 0 f = some i ∧ s.goneTenant f.tenant = true :=
  ⟨{ testLink id with trust := { tenants := [(0x10, { state := 3 })] } }, 0, { type := 1, src := 1, tenant := 0x10 }, by decide +kernel⟩

theorem test_drop_2 : ∃ (s : State) (i : Nat) (f : Frame), s.sender 0 f = some i ∧ s.goneTenant f.tenant = false ∧
    f.seq ≠ (((s.keyReady f.tenant i).heard i f).peer i).expect ∧ seqBefore f.seq (((s.keyReady f.tenant i).heard i f).peer i).expect = true :=
  ⟨testLink (fun p => { p with expect := 1 }), 0, { type := 1, src := 1 }, by decide +kernel⟩

theorem test_drop_3 : ∃ (s : State) (i : Nat) (f : Frame), s.sender 0 f = some i ∧ s.goneTenant f.tenant = false ∧
    f.seq ≠ (((s.keyReady f.tenant i).heard i f).peer i).expect ∧ seqBefore f.seq (((s.keyReady f.tenant i).heard i f).peer i).expect = false :=
  ⟨testLink id, 0, { type := 1, src := 1, seq := 1 }, by decide +kernel⟩

/-! ### Witnesses of the clauses of TimeCommandsComplete -/

theorem test_timeCommands_0 : ∃ (s : State) (n : Nat), s.sys.up = true ∧ n < 4096 ∧ s.tackDue (s.tack n) = true ∧ s.tackFirst n = true :=
  ⟨testUp.setTack 0 { enable := true }, 0, by decide +kernel, by decide +kernel, by decide +kernel, by decide +kernel⟩

theorem test_timeCommands_1 : ∃ (s : State) (n : Nat) (w : TackWait), s.sys.up = true ∧ (s.tack n).wait = some w ∧ (s.tack n).enable = true ∧ s.preMet (s.tack n) w.threshold = true ∧ s.tackTurn n = true :=
  ⟨testUp.setTack 0 { enable := true, wait := some ⟨0, 0, 0, 0, false⟩ }, 0, ⟨0, 0, 0, 0, false⟩, by decide +kernel, by decide +kernel, by decide +kernel, by decide +kernel, by decide +kernel⟩

theorem test_timeCommands_2 : ∃ (s : State) (n : Nat) (w : TackWait), s.sys.up = true ∧ (s.tack n).wait = some w ∧ (s.tack n).enable = true ∧ s.preMet (s.tack n) w.threshold = false ∧ w.since + w.limit ≤ s.now :=
  ⟨testUp.setTack 0 { enable := true, preEn := true, wait := some ⟨0, 0, 0, 1, false⟩ }, 0, ⟨0, 0, 0, 1, false⟩, by decide +kernel, by decide +kernel, by decide +kernel, by decide +kernel, by decide +kernel⟩

theorem test_timeCommands_3 : ∃ (s : State) (o : Origin) (i : Nat), s.sys.up = true ∧ s.granted o (tackSel o) :=
  ⟨testUp, .selvage, 0, by decide +kernel, test_granted (by decide +kernel)⟩

theorem test_timeCommands_5 : ∃ (s : State) (o : Origin) (i : Nat), s.sys.up = true ∧ s.granted o (tackSel o) ∧ (s.tack (i % 4096)).shut o = false :=
  ⟨testUp, .selvage, 0, by decide +kernel, test_granted (by decide +kernel), by decide +kernel⟩

theorem test_timeCommands_7 : ∃ (s : State) (n : Nat) (e : Nat), s.sys.up = true ∧ (s.fsyncPin n).pulseEnd = some e ∧ e ≤ s.now :=
  ⟨testUp.setFsync 0 { pulseEnd := some 0 }, 0, 0, by decide +kernel, by decide +kernel, by decide +kernel⟩

theorem test_timeCommands_8 : ∃ (s : State) (o : Origin) (n : Nat) (v : Word) (w : Word), s.sys.up = true ∧ n < 16 ∧ Fd.TIME_FSYNC_CFG_OVERLAP.of v = 16383 ∧ s.writes o (Reg.TIME_FSYNC_CFG n) v w :=
  ⟨testUp, .selvage, 0, (Fd.TIME_FSYNC_CFG_OVERLAP.put 0 16383), (testWord ((testUp)) (.selvage) (Reg.TIME_FSYNC_CFG (0)) ((Fd.TIME_FSYNC_CFG_OVERLAP.put 0 16383))), by decide +kernel, by decide +kernel, by decide +kernel, test_writes (by decide +kernel)⟩

theorem test_timeCommands_9 : ∃ (s : State) (o : Origin), s.sys.up = true ∧ setupReader o = true :=
  ⟨testUp, .selvage, by decide +kernel, by decide +kernel⟩

theorem test_timeCommands_10 : ∃ (s : State) (o : Origin) (v : Word) (w : Word), s.sys.up = true ∧ s.bit Reg.TIME_CTRL Fd.TIME_CTRL_SERVO = false ∧ clampAdj (BitVec.toNat v) = (BitVec.toNat v, false) ∧ s.writes o Reg.TIME_RATE_ADJ v w :=
  ⟨testUp, .selvage, 0, (testWord ((testUp)) (.selvage) Reg.TIME_RATE_ADJ (0)), by decide +kernel, by decide +kernel, by decide +kernel, test_writes (by decide +kernel)⟩

theorem test_timeCommands_11 : ∃ (s : State), s.sys.up = true ∧ s.bit Reg.TIME_STATUS Fd.TIME_STATUS_REF_LOSS = false :=
  ⟨testUp, by decide +kernel, by decide +kernel⟩


/-! ### Witnesses of the clauses of PowerCommandsComplete -/

theorem test_powerCommands_0 : ∃ (s : State) (h : Holder) (r : AlwReq), s.sys.up = true ∧ s.unitAsks h = some r ∧ s.awaitsGrant h = false ∧ ((s.alw.grants.any fun g =>     g.req.holder == h &&       (g.standing ||         (have __src := g.req;           { holder := __src.holder, cls := __src.cls, vi := __src.vi, coreMa := __src.coreMa, dramMa := __src.dramMa, idleMa := __src.idleMa, gen := __src.gen, made := r.made, lift := __src.lift }) ==           r)) =   false) :=
  ⟨testUp, .jobEngine, (testUp.unitReq .jobEngine .lc none 0), by decide +kernel, by decide +kernel, by decide +kernel, by decide +kernel⟩

theorem test_powerCommands_1 : ∃ (s : State) (r : AlwReq), s.sys.up = true ∧ s.alwHead = some r ∧ s.mayGrant r = true :=
  ⟨{ testUp with alw := { waiting := [testReq] } }, testReq, by decide +kernel, by decide +kernel, by decide +kernel⟩

theorem test_powerCommands_2 : ∃ (s : State) (h : Holder) (gen : Nat), s.sys.up = true ∧ ((s.alw.grants.any fun g => !g.standing && g.req.holder == h && g.req.gen == gen) = true) :=
  ⟨testUp.testHolds [.jobEngine], .jobEngine, 0, by decide +kernel, by decide +kernel⟩

theorem test_powerCommands_3 : ∃ (s : State) (x : Ramp), s.sys.up = true ∧ s.alw.ramp = some x ∧ x.ends ≤ s.time.toNat :=
  ⟨{ testUp with alw := { ramp := some ⟨none, 0⟩ } }, ⟨none, 0⟩, by decide +kernel, by decide +kernel, by decide +kernel⟩

theorem test_powerCommands_4 : ∃ (s : State), s.sys.up = true ∧ s.alw.ramp = none ∧ s.fallLeft = 0 :=
  ⟨testUp, by decide +kernel, by decide +kernel, by decide +kernel⟩

theorem test_powerCommands_5 : ∃ (s : State) (o : Origin) (dram : Bool) (v : Word) (w : Word), s.sys.up = true ∧ (s.writes o (if dram = true then Reg.ALW_DRAM_BUDGET else Reg.ALW_BUDGET) ((if dram = true then Fd.ALW_DRAM_BUDGET_DRAM_QA else Fd.ALW_BUDGET_CORE_QA).put v (max (budgetRange dram).fst (min (budgetRange dram).snd ((if dram = true then Fd.ALW_DRAM_BUDGET_DRAM_QA else Fd.ALW_BUDGET_CORE_QA).of v)))) w) ∧ mayWrite o [Writer.selvage, Writer.hypervisor] = true ∧ s.locked 2 = false :=
  ⟨testUp, .selvage, false, 0, (testWord ((testUp)) (.selvage) (if (false) = true then Reg.ALW_DRAM_BUDGET else Reg.ALW_BUDGET) ((if (false) = true then Fd.ALW_DRAM_BUDGET_DRAM_QA else Fd.ALW_BUDGET_CORE_QA).put (0) (max (budgetRange (false)).fst (min (budgetRange (false)).snd ((if (false) = true then Fd.ALW_DRAM_BUDGET_DRAM_QA else Fd.ALW_BUDGET_CORE_QA).of (0)))))), by decide +kernel, test_writes (by decide +kernel), by decide +kernel, by decide +kernel⟩

theorem test_powerCommands_6 : ∃ (s : State) (o : Origin) (d : Nat), s.sys.up = true ∧ s.granted o pwrReq ∧ mayRequest o (d % 256) = true :=
  ⟨testUp, .hypervisor, 223, by decide +kernel, test_granted (by decide +kernel), by decide +kernel⟩

theorem test_powerCommands_7 : ∃ (s : State) (d : Nat), s.sys.up = true ∧ s.domainOn d = false ∧ s.holdsGrant (Holder.domain d) = true :=
  ⟨(testUp.setDomain 0 false).testHolds [.domain 0], 0, by decide +kernel, by decide +kernel, by decide +kernel⟩

theorem test_powerCommands_8 : ∃ (s : State) (o : Origin) (d : Nat), s.sys.up = true ∧ s.granted o pwrReq ∧ mayRequest o (d % 256) = true ∧ s.secureHeld (d % 256) = false :=
  ⟨testUp, .safety, 201, by decide +kernel, test_granted (by decide +kernel), by decide +kernel, by decide +kernel⟩

theorem test_powerCommands_9 : ∃ (s : State) (d : Nat), s.sys.up = true ∧ d < 577 :=
  ⟨testUp, 0, by decide +kernel, by decide +kernel⟩

theorem test_powerCommands_10 : ∃ (s : State) (d : Nat), s.sys.up = true ∧ d < 577 ∧ s.rimOn d = true :=
  ⟨testUp, 0, by decide +kernel, by decide +kernel, by decide +kernel⟩

theorem test_powerCommands_11 : ∃ (s : State) (d : Nat), s.sys.up = true ∧ s.rimOn d = true :=
  ⟨testUp, 0, by decide +kernel, by decide +kernel⟩

theorem test_powerCommands_13 : ∃ (s : State) (o : Origin) (v : Word) (w : Word), s.sys.up = true ∧ s.writes o Reg.PWR_RATE_FLOOR (Fd.PWR_RATE_FLOOR_CLR_MIN.put v 1) w ∧ mayWrite o [Writer.selvage, Writer.hypervisor] = true ∧ Fd.PWR_RATE_FLOOR_CLR_MIN.of (Fd.PWR_RATE_FLOOR_CLR_MIN.put v 1) = 1 :=
  ⟨testUp, .selvage, 0, (testWord ((testUp)) (.selvage) Reg.PWR_RATE_FLOOR (Fd.PWR_RATE_FLOOR_CLR_MIN.put (0) 1)), by decide +kernel, test_writes (by decide +kernel), by decide +kernel, by decide +kernel⟩


/-! ### Witnesses of the clauses of MemoryCommandsComplete -/

theorem test_memoryCommands_0 : ∃ (s : State) (o : Origin) (addr : Nat) (errs : Nat) (jrnl : Bool), s.sys.up = true ∧ s.mayReadDram o (addr / 64 * 64) = true ∧ s.rimOn (s.rowOf (addr / 64 * 64)).chan = true ∧ s.isPoisoned (addr / 64 * 64) 64 = true :=
  ⟨testUp.setPoison 0 64, .hypervisor, 0, 0, false, by decide +kernel, by decide +kernel, by decide +kernel, by decide +kernel⟩

theorem test_memoryCommands_1 : ∃ (s : State) (o : Origin) (addr : Nat) (errs : Nat) (jrnl : Bool), s.sys.up = true ∧ s.mayReadDram o (addr / 64 * 64) = true ∧ s.rimOn (s.rowOf (addr / 64 * 64)).chan = true ∧ s.isPoisoned (addr / 64 * 64) 64 = false ∧ errs = 0 :=
  ⟨testUp, .hypervisor, 63, 0, false, by decide +kernel, by decide +kernel, by decide +kernel, by decide +kernel, by decide +kernel⟩

theorem test_memoryCommands_2 : ∃ (s : State) (o : Origin) (addr : Nat) (errs : Nat) (jrnl : Bool), s.sys.up = true ∧ s.mayReadDram o (addr / 64 * 64) = true ∧ s.rimOn (s.rowOf (addr / 64 * 64)).chan = true ∧ s.isPoisoned (addr / 64 * 64) 64 = false ∧ 1 ≤ errs ∧ errs ≤ 3 :=
  ⟨testUp, .hypervisor, 0, 3, false, by decide +kernel, by decide +kernel, by decide +kernel, by decide +kernel, by decide +kernel, by decide +kernel⟩

theorem test_memoryCommands_3 : ∃ (s : State) (o : Origin) (addr : Nat) (errs : Nat) (jrnl : Bool), s.sys.up = true ∧ s.mayReadDram o (addr / 64 * 64) = true ∧ s.rimOn (s.rowOf (addr / 64 * 64)).chan = true ∧ s.isPoisoned (addr / 64 * 64) 64 = false ∧ 4 ≤ errs ∧ errs ≤ 5 :=
  ⟨testUp, .hypervisor, 0, 5, false, by decide +kernel, by decide +kernel, by decide +kernel, by decide +kernel, by decide +kernel, by decide +kernel⟩

theorem test_memoryCommands_4 : ∃ (s : State) (o : Origin) (c : Nat) (b : Nat) (r : Nat) (k : Nat) (errs : Nat) (jrnl : Bool), s.sys.up = true ∧ s.bit Reg.MEM_CTRL Fd.MEM_CTRL_SCRUB_EN = true :=
  ⟨testUp.setFld Reg.MEM_CTRL Fd.MEM_CTRL_SCRUB_EN 1, .device, 527, 0, 0, 0, 0, false, by decide +kernel, by decide +kernel⟩

theorem test_memoryCommands_5 : ∃ (s : State) (c : Nat) (b : Nat) (r : Nat), s.sys.up = true ∧ ((s.memst.tracked.any fun t => t.isRow { chan := c, bank := b, row := r } && t.errs.all fun e => decide (s.rowWin < s.now - e.fst)) = true) :=
  ⟨{ testUp with time := 0x100000000000000000000, memst := { tracked := [⟨0, 0, 0, 0, []⟩] } }, 0, 0, 0, by decide +kernel, by decide +kernel⟩

theorem test_memoryCommands_6 : ∃ (s : State) (c : Nat) (b : Nat) (r : Nat) (k : Nat), s.sys.up = true ∧ (List.find? (fun x => x.fst == { chan := c, bank := b, row := r }) s.memst.replacing = some ({ chan := c, bank := b, row := r }, k)) :=
  ⟨{ testUp with memst := { replacing := [(⟨0, 0, 0⟩, 5)] } }, 0, 0, 0, 5, by decide +kernel, by decide +kernel⟩

theorem test_memoryCommands_7 : ∃ (s : State) (g : Nat) (temp : Int), s.sys.up = true ∧ g < 8 :=
  ⟨testUp, 7, 0, by decide +kernel, by decide +kernel⟩

theorem test_memoryCommands_8 : ∃ (s : State), s.sys.up = true ∧ s.bit Reg.MEM_CTRL Fd.MEM_CTRL_SCRUB_EN = true ∧ s.memst.scrubFrom + s.scrubNs ≤ s.now :=
  ⟨{ testUp.setFld Reg.MEM_CTRL Fd.MEM_CTRL_SCRUB_EN 1 with time := 0x100000000000000000000 }, by decide +kernel, by decide +kernel, by decide +kernel⟩

theorem test_memoryCommands_9 : ∃ (s : State), s.sys.up = true ∧ s.bit Reg.MEM_CTRL Fd.MEM_CTRL_SCRUB_EN = true ∧ s.memst.scrubFrom + s.scrubNs ≤ s.now ∧ s.memst.passRuns = false :=
  ⟨{ testUp.setFld Reg.MEM_CTRL Fd.MEM_CTRL_SCRUB_EN 1 with time := 0x100000000000000000000 }, by decide +kernel, by decide +kernel, by decide +kernel, by decide +kernel⟩

theorem test_memoryCommands_10 : ∃ (s : State) (o : Origin), s.sys.up = true ∧ setupReader o = true :=
  ⟨testUp, .selvage, by decide +kernel, by decide +kernel⟩

theorem test_memoryCommands_11 : ∃ (s : State) (o : Origin) (v : Word) (w : Word), s.sys.up = true ∧ s.writes o Reg.MEM_STAGE v w ∧ mayWrite o [Writer.selvage, Writer.hypervisor] = true ∧ s.locked 4 = false :=
  ⟨testUp, .selvage, 0, (testWord ((testUp)) (.selvage) Reg.MEM_STAGE (0)), by decide +kernel, test_writes (by decide +kernel), by decide +kernel, by decide +kernel⟩

theorem test_memoryCommands_12 : ∃ (s : State), s.sys.up = true ∧ s.bit Reg.MEM_STAGE Fd.MEM_STAGE_MOVE_PENDING = true ∧ s.memst.extents = [] ∧ ((s.jobs.all fun j => j.extents.isEmpty) = true) :=
  ⟨testUp.setFld Reg.MEM_STAGE Fd.MEM_STAGE_MOVE_PENDING 1, by decide +kernel, by decide +kernel, by decide +kernel, by decide +kernel⟩

theorem test_memoryCommands_13 : ∃ (s : State) (e : Nat), s.sys.up = true ∧ s.memst.extents.contains e = true ∧ (s.holdsGrant (Holder.copyBack 0) || s.holdsGrant (Holder.copyBack 1)) = true :=
  ⟨{ testUp.testHolds [.copyBack 0] with memst := { extents := [0] } }, 0, by decide +kernel, by decide +kernel, by decide +kernel⟩

theorem test_memoryCommands_14 : ∃ (s : State) (n : Nat) (tag : Transfer) (b : Band) (r : Nat) (q : Nat) (j : Job) (t : State), s.sys.up = true ∧ (s.core n).stalledDrain = some (tag, b) ∧ (s.core n).job = some (r, q) ∧ s.job? r q = some j ∧ s.roomFor r q (j.isCk n) (s.drainLines (j.tensor b.binding) b) = some t :=
  ⟨testDrain, 0, ⟨0, .drain ⟨0, 0, 0, 0, 1, 1, 0, 1, 1⟩ 0 0, true, 0⟩, ⟨0, 0, 0, 0, 1, 1, 0, 1, 1⟩, 0, 0, testJob, ((testDrain.roomFor 0 0 (testJob.isCk 0) (testDrain.drainLines (testJob.tensor 0) ⟨0, 0, 0, 0, 1, 1, 0, 1, 1⟩)).getD testUp), by decide +kernel, by decide +kernel, by decide +kernel, by decide +kernel, by decide +kernel⟩

theorem test_memoryCommands_15 : ∃ (s : State) (r : Nat) (q : Nat) (j : Job), s.sys.up = true ∧ s.job? r q = some j ∧ (j.stage = Stage.running ∨ j.stage = Stage.preempting) ∧ j.bothRan = true ∧ (((j.cores ++ j.ckCores).all fun n => (s.core n).tags.isEmpty) = true) :=
  ⟨{ testRun with cores := [(0, { job := some (0, 0), halted := true })] }, 0, 0, testJob, by decide +kernel, by decide +kernel, by decide +kernel, by decide +kernel, by decide +kernel⟩

theorem test_memoryCommands_16 : ∃ (s : State) (r : Nat) (q : Nat) (j : Job), s.sys.up = true ∧ s.job? r q = some j ∧ j.stage = Stage.checking ∧ s.verdictsOpen j = false :=
  ⟨testWith { testJob with stage := .checking }, 0, 0, { testJob with stage := .checking }, by decide +kernel, by decide +kernel, by decide +kernel, by decide +kernel⟩

theorem test_memoryCommands_17 : ∃ (s : State) (k : Nat) (t : SealTask) (j : Job), s.sys.up = true ∧ (List.find? (fun t => t.checker == some k && t.granted) s.seals = some t) ∧ s.job? t.ring t.seq = some j ∧ s.checkerWaits k = false :=
  ⟨{ testRun with seals := [⟨0, 0, 0, some 0, true⟩] }, 0, ⟨0, 0, 0, some 0, true⟩, testJob, by decide +kernel, by decide +kernel, by decide +kernel, by decide +kernel⟩


/-! ### Witnesses of the clauses of CoreInstructionsComplete -/

theorem test_coreInstructions_0 : ∃ (s : State) (n : Nat) (j : Job) (sp : Nat) (len : Nat) (sc : Nat) (scLen : Nat) (err : Option SpErr), s.sys.up = true ∧ s.runs n = some j :=
  ⟨testRun, 0, testJob, 0, 0, 0, 0, none, by decide +kernel, by decide +kernel⟩

theorem test_coreInstructions_1 : ∃ (s : State) (n : Nat) (j : Job) (pair : MatPair) (b : Nat) (int : Bool) (cnt : Nat) (e : Nat) (sp : Nat) (stride : Nat) (sc : Nat) (scStride : Nat) (clear : Bool) (swap : Bool) (err : Option SpErr), s.sys.up = true ∧ s.runs n = some j ∧ matB pair = some (b, int) ∧ 1 ≤ cnt ∧ cnt ≤ 64 ∧ e + cnt ≤ 64 ∧ (b = 16 ∨ j.pat.graphics = false) :=
  ⟨testRun, 0, testJob, ⟨2, 2⟩, ((matB ⟨2, 2⟩).getD (0, false)).1, ((matB ⟨2, 2⟩).getD (0, false)).2, 64, 0, 0, 0, 0, 0, false, false, none, by decide +kernel, by decide +kernel, by decide +kernel, by decide +kernel, by decide +kernel, by decide +kernel, by decide +kernel⟩

theorem test_coreInstructions_2 : ∃ (s : State) (n : Nat) (j : Job) (e : Nat) (v : Nat) (half : Nat) (clear : Bool) (rq : Option Requant) (err : Option SpErr), s.sys.up = true ∧ s.runs n = some j :=
  ⟨testRun, 0, testJob, 0, 0, 0, false, none, none, by decide +kernel, by decide +kernel⟩

theorem test_coreInstructions_3 : ∃ (s : State) (n : Nat) (j : Job) (v : Nat) (sp : Nat) (fmt : Nat) (sc : Nat) (err : Option SpErr), s.sys.up = true ∧ s.runs n = some j :=
  ⟨testRun, 0, testJob, 0, 0, 0, 0, none, by decide +kernel, by decide +kernel⟩

theorem test_coreInstructions_4 : ∃ (s : State) (n : Nat) (j : Job) (v : Nat) (sp : Nat) (fmt : Nat) (sc : Nat) (raw : Bool) (err : Option SpErr), s.sys.up = true ∧ s.runs n = some j :=
  ⟨testRun, 0, testJob, 0, 0, 0, 0, false, none, by decide +kernel, by decide +kernel⟩

theorem test_coreInstructions_5 : ∃ (s : State) (n : Nat) (j : Job) (dst : Nat) (op : VecOp) (err : Option SpErr), s.sys.up = true ∧ s.runs n = some j :=
  ⟨testRun, 0, testJob, 0, .add 0 1, none, by decide +kernel, by decide +kernel⟩

theorem test_coreInstructions_6 : ∃ (s : State) (n : Nat) (j : Job) (tag : Nat) (src : FillSrc) (sp : Nat) (sc : Nat), s.sys.up = true ∧ s.runs n = some j ∧ j.pat.graphics = false ∧ tag < 16 ∧ (s.core n).tagFree tag = true :=
  ⟨testRun, 0, testJob, 15, .raw 0 0, 0, 0, by decide +kernel, by decide +kernel, by decide +kernel, by decide +kernel, by decide +kernel⟩

theorem test_coreInstructions_7 : ∃ (s : State) (n : Nat) (j : Job) (tag : Nat) (band : Band) (sp : Nat) (sc : Nat) (err : Option SpErr), s.sys.up = true ∧ s.runs n = some j ∧ j.pat.graphics = false ∧ tag < 16 ∧ (s.core n).tagFree tag = true :=
  ⟨testRun, 0, testJob, 15, ⟨0, 0, 0, 0, 1, 1, 0, 1, 1⟩, 0, 0, none, by decide +kernel, by decide +kernel, by decide +kernel, by decide +kernel, by decide +kernel⟩

theorem test_coreInstructions_8 : ∃ (s : State) (n : Nat) (j : Job) (tag : Nat) (dest : Nat) (dst : Nat) (sp : Nat) (len : Nat) (err : Option SpErr), s.sys.up = true ∧ s.runs n = some j ∧ j.pat.graphics = false ∧ tag < 16 ∧ (s.core n).tagFree tag = true :=
  ⟨{ testRun with jobs := [{ testJob with cores := [0, 1], granted := [0] }] }, 0, { testJob with cores := [0, 1], granted := [0] }, 15, 1, 0, 0, 0, none, by decide +kernel, by decide +kernel, by decide +kernel, by decide +kernel, by decide +kernel⟩

theorem test_coreInstructions_9 : ∃ (s : State) (n : Nat) (j : Job) (tag : Nat), s.sys.up = true ∧ s.runs n = some j ∧ (s.core n).tagFree tag = true :=
  ⟨testRun, 0, testJob, 0, by decide +kernel, by decide +kernel, by decide +kernel⟩

theorem test_coreInstructions_10 : ∃ (s : State) (n : Nat) (j : Job) (tag : Nat), s.sys.up = true ∧ s.runs n = some j ∧ (s.core n).tagFree tag = false :=
  ⟨{ testRun with cores := [(0, { job := some (0, 0), tags := [⟨0, .fill (.raw 0 0) 0 0, false, 0⟩] })] }, 0, testJob, 0, by decide +kernel, by decide +kernel, by decide +kernel⟩

theorem test_coreInstructions_11 : ∃ (s : State) (n : Nat) (j : Job), s.sys.up = true ∧ s.runs n = some j :=
  ⟨testRun, 0, testJob, by decide +kernel, by decide +kernel⟩

theorem test_coreInstructions_12 : ∃ (s : State) (n : Nat) (j : Job), s.sys.up = true ∧ s.runs n = some j :=
  ⟨testRun, 0, testJob, by decide +kernel, by decide +kernel⟩

theorem test_coreInstructions_13 : ∃ (s : State) (n : Nat) (j : Job) (k : Nat), s.sys.up = true ∧ s.runs n = some j :=
  ⟨testRun, 0, testJob, 0, by decide +kernel, by decide +kernel⟩

theorem test_coreInstructions_14 : ∃ (s : State) (n : Nat) (j : Job), s.sys.up = true ∧ s.runs n = some j ∧ (s.core n).tags = [] :=
  ⟨testRun, 0, testJob, by decide +kernel, by decide +kernel, by decide +kernel⟩

theorem test_coreInstructions_15 : ∃ (s : State) (n : Nat) (j : Job) (dest : Nat) (base : Nat) (size : Nat) (cap : Nat) (sp : Nat) (err : Option SpErr), s.sys.up = true ∧ s.runs n = some j :=
  ⟨testRun, 0, testJob, 0, 0, 0, 0, 0, none, by decide +kernel, by decide +kernel⟩

theorem test_coreInstructions_16 : ∃ (s : State) (n : Nat) (j : Job) (base : Nat), s.sys.up = true ∧ s.runs n = some j :=
  ⟨testRun, 0, testJob, 0, by decide +kernel, by decide +kernel⟩

theorem test_coreInstructions_17 : ∃ (s : State) (n : Nat) (j : Job) (pb : Nat) (err : Option SpErr) (score : Nat) (box : Nat) (anch : Nat) (first : Nat) (cells : Nat), s.sys.up = true ∧ s.runs n = some j ∧ j.pat.graphics = false ∧ j.isCk n = false :=
  ⟨testRun, 0, testJob, 0, none, 0, 0, 0, 0, 0, by decide +kernel, by decide +kernel, by decide +kernel, by decide +kernel⟩

theorem test_coreInstructions_18 : ∃ (s : State) (n : Nat) (j : Job) (pb : Nat) (err : Option SpErr), s.sys.up = true ∧ s.runs n = some j ∧ j.pat.graphics = false ∧ j.isCk n = false :=
  ⟨testRun, 0, testJob, 0, none, by decide +kernel, by decide +kernel, by decide +kernel, by decide +kernel⟩

theorem test_coreInstructions_19 : ∃ (s : State) (n : Nat) (j : Job) (pb : Nat) (err : Option SpErr) (first : Nat) (rounds : Nat), s.sys.up = true ∧ s.runs n = some j ∧ j.pat.graphics = false ∧ j.isCk n = false :=
  ⟨testRun, 0, testJob, 0, none, 0, 0, by decide +kernel, by decide +kernel, by decide +kernel, by decide +kernel⟩

theorem test_coreInstructions_20 : ∃ (s : State) (n : Nat) (j : Job) (pb : Nat) (err : Option SpErr), s.sys.up = true ∧ s.runs n = some j ∧ j.pat.graphics = false ∧ j.isCk n = false :=
  ⟨testRun, 0, testJob, 0, none, by decide +kernel, by decide +kernel, by decide +kernel, by decide +kernel⟩


/-! ### Witnesses of the clauses of GraphicsAndSpansComplete -/

theorem test_graphicsAndSpans_0 : ∃ (s : State) (n : Nat) (j : Job) (x : Nat) (y : Nat) (prims : List (List Nat)) (split : Bool) (spill : Bool), s.sys.up = true ∧ s.runs n = some j ∧ j.pat.graphics = true ∧ s.mayTake j n x y false split spill = true :=
  ⟨{ testRun with jobs := [{ testJob with pat := { graphics := true, maxSpan := 1 } }] }, 0, { testJob with pat := { graphics := true, maxSpan := 1 } }, 0, 0, [], false, false, by decide +kernel, by decide +kernel, by decide +kernel, by decide +kernel⟩

theorem test_graphicsAndSpans_1 : ∃ (s : State) (n : Nat) (j : Job) (x : Nat) (y : Nat) (prims : List (List Nat)) (split : Bool) (spill : Bool) (l : List SharedTile), s.sys.up = true ∧ s.runs n = some j ∧ j.pat.graphics = true ∧ s.mayTake j n x y true split spill = true ∧ s.mayShare prims = true ∧ s.shareTile j n x y prims = some l :=
  ⟨({ testRun with jobs := [{ testJob with pat := { graphics := true, maxSpan := 1 } }] }).setFld Reg.GFX_CTRL Fd.GFX_CTRL_SPLIT_PRIMS 0, 0, { testJob with pat := { graphics := true, maxSpan := 1 } }, 0, 0, [[]], false, false, ((({ testRun with jobs := [{ testJob with pat := { graphics := true, maxSpan := 1 } }] }).shareTile ({ testJob with pat := { graphics := true, maxSpan := 1 } }) 0 0 0 [[]]).getD []), by decide +kernel, by decide +kernel, by decide +kernel, by decide +kernel, by decide +kernel, by decide +kernel⟩

theorem test_graphicsAndSpans_2 : ∃ (s : State) (n : Nat) (j : Job) (prim : Nat) (block : Nat), s.sys.up = true ∧ s.runs n = some j ∧ j.pat.graphics = true ∧ ((match s.tileOf j n with   | none => true   | some t => t.granted prim block) =   true) :=
  ⟨{ testRun with jobs := [{ testJob with pat := { graphics := true, maxSpan := 1 } }] }, 0, { testJob with pat := { graphics := true, maxSpan := 1 } }, 0, 0, by decide +kernel, by decide +kernel, by decide +kernel, by decide +kernel⟩

theorem test_graphicsAndSpans_3 : ∃ (s : State) (n : Nat) (j : Job) (prim : Nat) (block : Nat), s.sys.up = true ∧ s.runs n = some j ∧ j.pat.graphics = true :=
  ⟨{ testRun with jobs := [{ testJob with pat := { graphics := true, maxSpan := 1 } }] }, 0, { testJob with pat := { graphics := true, maxSpan := 1 } }, 0, 0, by decide +kernel, by decide +kernel, by decide +kernel⟩

theorem test_graphicsAndSpans_4 : ∃ (s : State) (n : Nat) (j : Job) (dst : Nat), s.sys.up = true ∧ s.runs n = some j ∧ j.pat.graphics = true :=
  ⟨{ testRun with jobs := [{ testJob with pat := { graphics := true, maxSpan := 1 } }] }, 0, { testJob with pat := { graphics := true, maxSpan := 1 } }, 0, by decide +kernel, by decide +kernel, by decide +kernel⟩

theorem test_graphicsAndSpans_5 : ∃ (s : State) (n : Nat) (tag : Nat) (t : Transfer) (r : Nat) (q : Nat) (j : Job), s.sys.up = true ∧ (List.find? (fun t => t.tag == tag && !t.stalled && t.awaits == 0) (s.core n).tags = some t) ∧ (s.core n).job = some (r, q) ∧ s.job? r q = some j ∧ (j.stage = Stage.running ∨ j.stage = Stage.preempting) :=
  ⟨{ testRun with cores := [(0, { job := some (0, 0), tags := [⟨0, .fill (.raw 0 0) 0 0, false, 0⟩] })] }, 0, 0, ⟨0, .fill (.raw 0 0) 0 0, false, 0⟩, 0, 0, testJob, by decide +kernel, by decide +kernel, by decide +kernel, by decide +kernel, by decide +kernel⟩

theorem test_graphicsAndSpans_6 : ∃ (s : State) (n : Nat) (j : Job), s.sys.up = true ∧ s.jobOn n = some j ∧ j.pat.maxSpan < (s.core n).span :=
  ⟨{ testRun with cores := [(0, { job := some (0, 0), span := 2 })] }, 0, testJob, by decide +kernel, by decide +kernel, by decide +kernel⟩

theorem test_graphicsAndSpans_7 : ∃ (s : State) (n : Nat) (j : Job) (e : Nat), s.sys.up = true ∧ s.jobOn n = some j ∧ (s.core n).wdogEnd = some e ∧ e ≤ s.now ∧ (s.core n).span ≤ j.pat.maxSpan :=
  ⟨{ testRun with cores := [(0, { job := some (0, 0), wdogEnd := some 0 })] }, 0, testJob, 0, by decide +kernel, by decide +kernel, by decide +kernel, by decide +kernel, by decide +kernel⟩


/-! ### Witnesses of the clauses of SchedulerCommandsComplete -/

theorem test_schedulerCommands_1 : ∃ (s : State) (r : Nat) (q : Nat) (j : Job), s.sys.up = true ∧ s.job? r q = some j ∧ j.stage = Stage.preempting ∧ j.saving = false ∧ j.forced = false ∧ j.preemptAt + 30000 ≤ s.now ∧ (((j.cores ++ j.ckCores).all fun n => s.coreMode n != 2) = true) :=
  ⟨{ testWith { testJob with stage := .preempting } with time := 0x100000000000000000000 }, 0, 0, { testJob with stage := .preempting }, by decide +kernel, by decide +kernel, by decide +kernel, by decide +kernel, by decide +kernel, by decide +kernel, by decide +kernel⟩

theorem test_schedulerCommands_2 : ∃ (s : State) (r : Nat) (q : Nat) (j : Job), s.sys.up = true ∧ s.job? r q = some j ∧ j.stage = Stage.preempting ∧ j.saving = true ∧ j.saves ≠ [] :=
  ⟨testWith { testJob with stage := .preempting, stopped := [0], saves := [⟨0, false, none, {}⟩, ⟨0, false, none, {}⟩] }, 0, 0, { testJob with stage := .preempting, stopped := [0], saves := [⟨0, false, none, {}⟩, ⟨0, false, none, {}⟩] }, by decide +kernel, by decide +kernel, by decide +kernel, by decide +kernel, by decide +kernel⟩

theorem test_schedulerCommands_3 : ∃ (s : State) (r : Nat) (q : Nat) (j : Job) (v : Reservation), s.sys.up = true ∧ s.job? r q = some j ∧ j.resv = some v ∧ v.expiry ≤ s.now ∧ j.stage = Stage.held :=
  ⟨testWith { testJob with stage := .held, resv := some ⟨[0], [], 0, 0, 0⟩ }, 0, 0, { testJob with stage := .held, resv := some ⟨[0], [], 0, 0, 0⟩ }, ⟨[0], [], 0, 0, 0⟩, by decide +kernel, by decide +kernel, by decide +kernel, by decide +kernel, by decide +kernel⟩

theorem test_schedulerCommands_4 : ∃ (s : State) (r : Nat) (q : Nat) (g : Nat), s.sys.up = true ∧ s.job? r q = none :=
  ⟨testUp, 0, 0, 0, by decide +kernel, by decide +kernel⟩

theorem test_schedulerCommands_5 : ∃ (s : State) (n : Nat), s.sys.up = true ∧ n < 128 ∧ s.coreMode n = 2 ∧ s.switchHeld n = true :=
  ⟨(testUp.setMode 127 2).testHolds [.core 127], 127, by decide +kernel, by decide +kernel, by decide +kernel, by decide +kernel⟩

theorem test_schedulerCommands_6 : ∃ (s : State) (n : Nat), s.sys.up = true ∧ (s.core n).scrubs = true ∧ s.holdsGrant (Holder.core n) = true :=
  ⟨{ testUp.testHolds [.core 0] with cores := [(0, { scrubs := true })] }, 0, by decide +kernel, by decide +kernel, by decide +kernel⟩

theorem test_schedulerCommands_8 : ∃ (s : State) (f : Flush), s.sys.up = true ∧ s.sched.flush = some f :=
  ⟨{ testUp with sched := { flush := some ⟨0, 0, 0, 0, []⟩ } }, ⟨0, 0, 0, 0, []⟩, by decide +kernel, by decide +kernel⟩

theorem test_schedulerCommands_9 : ∃ (s : State) (o : Origin) (v : Nat) (w : Word), s.sys.up = true ∧ s.writes o Reg.ARY_SUSPEND (BitVec.ofNat 64 (2 ^ (v % 64))) w :=
  ⟨testUp, .selvage, 0, (testWord ((testUp)) (.selvage) Reg.ARY_SUSPEND (BitVec.ofNat 64 (2 ^ ((0) % 64)))), by decide +kernel, test_writes (by decide +kernel)⟩

theorem test_schedulerCommands_10 : ∃ (s : State) (o : Origin) (i : Nat), s.sys.up = true ∧ s.granted o (hotSel o) :=
  ⟨testUp, .selvage, 0, by decide +kernel, test_granted (by decide +kernel)⟩

theorem test_schedulerCommands_12 : ∃ (s : State) (o : Origin) (i : Nat), s.sys.up = true ∧ s.granted o (hotSel o) ∧ (s.hotEntry (i % hotCount)).state ≠ 0 ∧ s.hotInUse (i % hotCount) = false :=
  ⟨testUp.setHot 0 { state := 3 }, .selvage, 0, by decide +kernel, test_granted (by decide +kernel), by decide +kernel, by decide +kernel⟩

theorem test_schedulerCommands_13 : ∃ (s : State) (o : Origin) (i : Nat), s.sys.up = true ∧ s.granted o (hotSel o) ∧ (s.hotEntry (i % hotCount)).state ≠ 0 :=
  ⟨testUp.setHot 0 { state := 3 }, .selvage, 0, by decide +kernel, test_granted (by decide +kernel), by decide +kernel⟩

theorem test_schedulerCommands_14 : ∃ (s : State) (o : Origin) (i : Nat), s.sys.up = true ∧ s.granted o (hotSel o) ∧ (s.hotEntry (i % hotCount)).state ≠ 0 ∧ (s.indexed (hotSel o) i).evictable (i % hotCount) = true :=
  ⟨testUp.setHot 0 { state := 3, kind := 1 }, .selvage, 0, by decide +kernel, test_granted (by decide +kernel), by decide +kernel, by decide +kernel⟩

theorem test_schedulerCommands_15 : ∃ (s : State) (e : Nat), s.sys.up = true ∧ (s.hotEntry e).state = 2 ∧ (s.hotEntry e).waitRoom = false ∧ s.holdsGrant (Holder.loader e) = true :=
  ⟨(testUp.setHot 0 { state := 2, length := 0 }).testHolds [.loader 0], 0, by decide +kernel, by decide +kernel, by decide +kernel, by decide +kernel⟩

theorem test_schedulerCommands_16 : ∃ (s : State) (e : Nat) (bs : List Byte), s.sys.up = true ∧ (s.hotEntry e).state = 2 ∧ (s.hotEntry e).waitRoom = false ∧ s.holdsGrant (Holder.loader e) = true :=
  ⟨(testUp.setHot 0 { state := 2, length := 128 }).testHolds [.loader 0], 0, (List.replicate 128 0), by decide +kernel, by decide +kernel, by decide +kernel, by decide +kernel⟩

theorem test_schedulerCommands_17 : ∃ (s : State) (e : Nat) (b : Option (List Byte)), s.sys.up = true ∧ (s.hotEntry e).state ≠ 2 :=
  ⟨testUp, 0, none, by decide +kernel, by decide +kernel⟩

theorem test_schedulerCommands_18 : ∃ (s : State), s.sys.up = true ∧ s.bit Reg.ARY_SAVE_CFG Fd.ARY_SAVE_CFG_MOVE_PENDING = true ∧ ((s.jobs.all fun j => j.saves.isEmpty) = true) :=
  ⟨testUp.setFld Reg.ARY_SAVE_CFG Fd.ARY_SAVE_CFG_MOVE_PENDING 1, by decide +kernel, by decide +kernel, by decide +kernel⟩

theorem test_schedulerCommands_19 : ∃ (s : State), s.sys.up = true ∧ s.bit Reg.ARY_HOT_CFG Fd.ARY_HOT_CFG_MOVE_PENDING = true ∧ s.hotIdle = true :=
  ⟨testUp.setFld Reg.ARY_HOT_CFG Fd.ARY_HOT_CFG_MOVE_PENDING 1, by decide +kernel, by decide +kernel, by decide +kernel⟩


/-! ### Witnesses of the clauses of RingCommandsComplete -/

theorem test_ringCommands_0 : ∃ (s : State) (u : PollUnit) (v : Word), s.sys.up = true ∧ ((s.doorbell u).snd.snd = true ∨ (s.doorbell u).snd.fst = false) :=
  ⟨testUp, .output, 0, by decide +kernel, by decide +kernel⟩

theorem test_ringCommands_1 : ∃ (s : State) (u : PollUnit) (v : Word), s.sys.up = true ∧ (s.doorbell u).snd.snd = false ∧ (s.doorbell u).snd.fst = true :=
  ⟨testUp.setFld (Reg.RING_CFG 0) Fd.RING_CFG_EN 1, .ring 0, 0, by decide +kernel, by decide +kernel, by decide +kernel⟩

theorem test_ringCommands_2 : ∃ (s : State) (u : PollUnit) (far : List FarRead), s.sys.up = true ∧ (s.doorbell u).snd = (true, true) ∧ s.pollDue u = true ∧ (s.unitRing u).polling = true :=
  ⟨{ ((testUp.setFld (Reg.RING_CFG 0) Fd.RING_CFG_EN 1).setFld (Reg.RING_CFG 0) Fd.RING_CFG_POLLED 1).setRing 0 { polling := true } with time := 0x100000000000000000000 }, .ring 0, [], by decide +kernel, by decide +kernel, by decide +kernel, by decide +kernel⟩

theorem test_ringCommands_3 : ∃ (s : State) (u : PollUnit) (far : List FarRead), s.sys.up = true ∧ (s.doorbell u).snd = (true, true) ∧ s.pollDue u = true ∧ (s.unitRing u).polling = false :=
  ⟨{ ((testUp.setFld (Reg.RING_CFG 0) Fd.RING_CFG_EN 1).setFld (Reg.RING_CFG 0) Fd.RING_CFG_POLLED 1).setRing 0 { polling := false } with time := 0x100000000000000000000 }, .ring 0, [], by decide +kernel, by decide +kernel, by decide +kernel, by decide +kernel⟩

theorem test_ringCommands_4 : ∃ (s : State) (o : Origin) (n : Nat) (far : List FarRead), s.sys.up = true ∧ mayWake o n = true ∧ n < ringCount ∧ s.bit (Reg.RING_CFG n) Fd.RING_CFG_EN = true ∧ s.bit (Reg.RING_CFG n) Fd.RING_CFG_POLLED = true :=
  ⟨(testUp.setFld (Reg.RING_CFG 0) Fd.RING_CFG_EN 1).setFld (Reg.RING_CFG 0) Fd.RING_CFG_POLLED 1, .hypervisor, 0, [], by decide +kernel, by decide +kernel, by decide +kernel, by decide +kernel, by decide +kernel⟩

theorem test_ringCommands_5 : ∃ (s : State) (n : Nat) (far : List FarRead) (q : Nat) (d : List Nat) (l : List (Nat × List Nat)), s.sys.up = true ∧ (s.ring n).fetched = (q, d) :: l ∧ descKind d ≠ 0 ∧ descKind d ≠ 2 :=
  ⟨testUp.setRing 0 { fetched := [(0, [1 * 2 ^ 60])] }, 0, [], 0, [1 * 2 ^ 60], [], by decide +kernel, by decide +kernel, by decide +kernel, by decide +kernel⟩

theorem test_ringCommands_6 : ∃ (s : State) (n : Nat) (far : List FarRead) (q : Nat) (d : List Nat) (l : List (Nat × List Nat)), s.sys.up = true ∧ (s.ring n).fetched = (q, d) :: l ∧ descKind d = 0 :=
  ⟨testUp.setRing 0 { fetched := [(0, [0 * 2 ^ 60])] }, 0, [], 0, [0 * 2 ^ 60], [], by decide +kernel, by decide +kernel, by decide +kernel⟩

theorem test_ringCommands_7 : ∃ (s : State) (n : Nat) (far : List FarRead) (q : Nat) (d : List Nat) (l : List (Nat × List Nat)), s.sys.up = true ∧ (s.ring n).fetched = (q, d) :: l ∧ descKind d = 2 :=
  ⟨testUp.setRing 0 { fetched := [(0, [2 * 2 ^ 60])] }, 0, [], 0, [2 * 2 ^ 60], [], by decide +kernel, by decide +kernel, by decide +kernel⟩

theorem test_ringCommands_8 : ∃ (s : State) (n : Nat) (q : Nat) (j : Job), s.sys.up = true ∧ s.job? n q = some j ∧ j.stage = Stage.waiting ∧ j.waitEnd ≤ s.now ∧ s.leasesRun (ringVi n) = true ∧ s.oldLease j j.gen = false ∧ s.waitMet j.desc = true :=
  ⟨testWith { testJob with stage := .waiting }, 0, 0, { testJob with stage := .waiting }, by decide +kernel, by decide +kernel, by decide +kernel, by decide +kernel, by decide +kernel, by decide +kernel, by decide +kernel⟩

theorem test_ringCommands_9 : ∃ (s : State) (n : Nat) (q : Nat) (j : Job), s.sys.up = true ∧ s.job? n q = some j ∧ j.stage = Stage.waiting ∧ j.waitEnd ≤ s.now ∧ s.leasesRun (ringVi n) = true ∧ s.oldLease j j.gen = false ∧ s.waitMet j.desc = false :=
  ⟨testWith { testJob with stage := .waiting, desc := testWait }, 0, 0, { testJob with stage := .waiting, desc := testWait }, by decide +kernel, by decide +kernel, by decide +kernel, by decide +kernel, by decide +kernel, by decide +kernel, by decide +kernel⟩

theorem test_ringCommands_10 : ∃ (s : State) (n : Nat) (q : Nat) (g : Nat), s.sys.up = true ∧ s.job? n q = none :=
  ⟨testUp, 0, 0, 0, by decide +kernel, by decide +kernel⟩

theorem test_ringCommands_12 : ∃ (s : State) (n : Nat) (q : Nat) (j : Job), s.sys.up = true ∧ s.job? n q = some j ∧ j.entered = true ∧ j.stage ≠ Stage.faulted ∧ j.leaseEnd ≤ s.now ∧ s.leasesRun (ringVi n) = true ∧ s.oldLease j j.gen = false :=
  ⟨testWith { testJob with entered := true }, 0, 0, { testJob with entered := true }, by decide +kernel, by decide +kernel, by decide +kernel, by decide +kernel, by decide +kernel, by decide +kernel, by decide +kernel⟩

theorem test_ringCommands_13 : ∃ (s : State) (o : Origin) (n : Nat) (far : List FarRead) (v : Word) (w : Word), s.sys.up = true ∧ n < ringCount ∧ (s.learn (16 + ringVi n) far).writes o (Reg.RING_CFG n) (Fd.RING_CFG_EN.put v 1) w :=
  ⟨testUp, .selvage, 0, [], 0, (testWord (((testUp).learn (16 + ringVi (0)) ([]))) (.selvage) (Reg.RING_CFG (0)) (Fd.RING_CFG_EN.put (0) 1)), by decide +kernel, by decide +kernel, test_writes (by decide +kernel)⟩

theorem test_ringCommands_14 : ∃ (s : State) (o : Origin) (n : Nat) (v : Word) (w : Word), s.sys.up = true ∧ n < ringCount ∧ s.writes o (Reg.RING_CFG n) (Fd.RING_CFG_EN.put v 0) w :=
  ⟨testUp, .selvage, 0, 0, (testWord ((testUp)) (.selvage) (Reg.RING_CFG (0)) (Fd.RING_CFG_EN.put (0) 0)), by decide +kernel, by decide +kernel, test_writes (by decide +kernel)⟩

theorem test_ringCommands_15 : ∃ (s : State) (o : Origin) (n : Nat) (v : Word) (w : Word), s.sys.up = true ∧ n < ringCount ∧ s.writes o (Reg.RING_CFG n) (Fd.RING_CFG_CANCEL.put v 1) w :=
  ⟨testUp, .selvage, 0, 0, (testWord ((testUp)) (.selvage) (Reg.RING_CFG (0)) (Fd.RING_CFG_CANCEL.put (0) 1)), by decide +kernel, by decide +kernel, test_writes (by decide +kernel)⟩

theorem test_ringCommands_16 : ∃ (s : State) (o : Origin) (k : Nat), s.sys.up = true ∧ s.granted o (knotSel o) ∧ o ≠ Origin.safety :=
  ⟨testUp, .selvage, 0, by decide +kernel, test_granted (by decide +kernel), by decide +kernel⟩

theorem test_ringCommands_19 : ∃ (s : State) (o : Origin) (v : Nat) (x : Word) (w : Word), s.sys.up = true ∧ v < 64 ∧ s.rangeOk v (Fd.KNOT_RANGE_BASE.of x) (Fd.KNOT_RANGE_COUNT.of x) = true ∧ s.writes o (Reg.KNOT_RANGE v) x w :=
  ⟨testUp, .selvage, 0, 0, (testWord ((testUp)) (.selvage) (Reg.KNOT_RANGE (0)) (0)), by decide +kernel, by decide +kernel, by decide +kernel, test_writes (by decide +kernel)⟩


/-! ### Witnesses of the clauses of IntakeCommandsComplete -/

theorem test_intakeCommands_1 : ∃ (s : State) (rx : Nat) (vc : Nat) (dt : Nat) (hdr : Nat) (ok : Bool) (bytes : List Byte), s.sys.up = true ∧ typeSupported dt = true :=
  ⟨testUp, 0, 0, 0x2B, 0, false, [], by decide +kernel, by decide +kernel⟩

theorem test_intakeCommands_4 : ∃ (s : State) (n : Nat) (q : Nat) (m : Sample), s.sys.up = true ∧ (s.chan n).open? q = some m ∧ s.chanOn n = true ∧ s.anchor n m + s.lateNs n ≤ s.now :=
  ⟨((testUp.setFld (Reg.CH_SRC 0) Fd.CH_SRC_EN 1).setChan 0 { samples := [{ q := 0, sid := 0 }] }).testHolds [.channel 0], 0, 0, { q := 0, sid := 0 }, by decide +kernel, by decide +kernel, by decide +kernel, by decide +kernel⟩

theorem test_intakeCommands_5 : ∃ (s : State) (o : Origin) (n : Nat) (v : Word) (w : Word), s.sys.up = true ∧ n < channelCount ∧ s.bit (Reg.CH_SRC n) Fd.CH_SRC_EN = false ∧ Fd.CH_SRC_UNORD.of (Fd.CH_SRC_EN.put v 1) = s.chSrc n Fd.CH_SRC_UNORD ∧ s.writes o (Reg.CH_SRC n) (Fd.CH_SRC_EN.put v 1) w ∧ (s.landed o (Reg.CH_SRC n) w).bit (Reg.CH_SRC n) Fd.CH_SRC_EN = true ∧ (s.landed o (Reg.CH_SRC n) w).unordered n = s.unordered n :=
  ⟨testUp, .selvage, channelCount - 1, 0, (testWord ((testUp)) (.selvage) (Reg.CH_SRC (channelCount - 1)) (Fd.CH_SRC_EN.put (0) 1)), by decide +kernel, by decide +kernel, by decide +kernel, by decide +kernel, test_writes (by decide +kernel), by decide +kernel, by decide +kernel⟩

theorem test_intakeCommands_6 : ∃ (s : State) (o : Origin) (n : Nat) (v : Word) (w : Word), s.sys.up = true ∧ n < channelCount ∧ s.bit (Reg.CH_SRC n) Fd.CH_SRC_EN = true ∧ s.writes o (Reg.CH_SRC n) (Fd.CH_SRC_EN.put v 0) w ∧ (s.landed o (Reg.CH_SRC n) w).bit (Reg.CH_SRC n) Fd.CH_SRC_EN = false ∧ (s.landed o (Reg.CH_SRC n) w).unordered n = s.unordered n :=
  ⟨testUp.setFld (Reg.CH_SRC 0) Fd.CH_SRC_EN 1, .selvage, 0, 0, (testWord ((testUp.setFld (Reg.CH_SRC 0) Fd.CH_SRC_EN 1)) (.selvage) (Reg.CH_SRC (0)) (Fd.CH_SRC_EN.put (0) 0)), by decide +kernel, by decide +kernel, by decide +kernel, test_writes (by decide +kernel), by decide +kernel, by decide +kernel⟩

theorem test_intakeCommands_7 : ∃ (s : State) (o : Origin) (n : Nat) (on : Bool) (w : Word), s.sys.up = true ∧ n < channelCount ∧ s.bit (Reg.CH_SRC n) Fd.CH_SRC_EN = false ∧ s.unordAllowed o n (Fd.CH_SRC_UNORD.of (Fd.CH_SRC_CFG_ERR.put (Fd.CH_SRC_UNORD.put (s.reg (Reg.CH_SRC n)) on.toNat) 0)) = true ∧ s.writes o (Reg.CH_SRC n) (Fd.CH_SRC_CFG_ERR.put (Fd.CH_SRC_UNORD.put (s.reg (Reg.CH_SRC n)) on.toNat) 0) w ∧ (s.landed o (Reg.CH_SRC n) w).bit (Reg.CH_SRC n) Fd.CH_SRC_EN = false :=
  ⟨testUp, .hypervisor, 0, true, (testWord ((testUp)) (.hypervisor) (Reg.CH_SRC (0)) (Fd.CH_SRC_CFG_ERR.put (Fd.CH_SRC_UNORD.put ((testUp).reg (Reg.CH_SRC (0))) (true).toNat) 0)), by decide +kernel, by decide +kernel, by decide +kernel, by decide +kernel, test_writes (by decide +kernel), by decide +kernel⟩

theorem test_intakeCommands_8 : ∃ (s : State) (n : Nat) (far : List FarRead), s.sys.up = true ∧ s.chanOn n = true ∧ (s.chan n).queue.waiting = true ∧ (s.learn 0 far).readFails (((s.learn 0 far).sourceArea n).entry (s.chan n).queue.head) 32 = false ∧ s.chSrc n Fd.CH_SRC_KIND = 1 :=
  ⟨(((testUp.setFld (Reg.CH_SRC 0) Fd.CH_SRC_EN 1).setFld (Reg.CH_SRC 0) Fd.CH_SRC_KIND 1).setChan 0 { queue := { lastTail := 1 } }).testHolds [.channel 0], 0, [], by decide +kernel, by decide +kernel, by decide +kernel, by decide +kernel, by decide +kernel⟩

theorem test_intakeCommands_9 : ∃ (s : State) (n : Nat) (far : List FarRead), s.sys.up = true ∧ s.chanOn n = true ∧ (s.chan n).queue.waiting = true ∧ (s.learn 0 far).readFails (((s.learn 0 far).sourceArea n).entry (s.chan n).queue.head) 32 = false ∧ s.chSrc n Fd.CH_SRC_KIND = 3 ∧ s.slotFree n (s.chan n).nextQ = true :=
  ⟨(((testUp.setFld (Reg.CH_SRC 0) Fd.CH_SRC_EN 1).setFld (Reg.CH_SRC 0) Fd.CH_SRC_KIND 3).setChan 0 { queue := { lastTail := 1 } }).testHolds [.channel 0], 0, [], by decide +kernel, by decide +kernel, by decide +kernel, by decide +kernel, by decide +kernel, by decide +kernel⟩

theorem test_intakeCommands_10 : ∃ (s : State) (n : Nat) (far : List FarRead), s.sys.up = true ∧ s.chanOn n = true ∧ (s.chan n).queue.waiting = true ∧ (s.learn 0 far).readFails (((s.learn 0 far).sourceArea n).entry (s.chan n).queue.head) 32 = false ∧ s.chSrc n Fd.CH_SRC_KIND = 2 ∧ (s.sessionOf n).isSome = true :=
  ⟨((((testUp.setFld (Reg.CH_SRC 0) Fd.CH_SRC_EN 1).setFld (Reg.CH_SRC 0) Fd.CH_SRC_KIND 2).setFld (Reg.MEDIA_DEC 0) Fd.MEDIA_DEC_EN 1).setChan 0 { queue := { lastTail := 1 } }).testHolds [.channel 0, .decoder], 0, [], by decide +kernel, by decide +kernel, by decide +kernel, by decide +kernel, by decide +kernel, by decide +kernel⟩

theorem test_intakeCommands_11 : ∃ (s : State) (k : Nat) (i : Nat) (q : Nat) (refs : List Nat) (e : SrcEntry) (pic : Option (List (List Byte))), s.sys.up = true ∧ s.chanOn (s.fld (Reg.MEDIA_DEC k) Fd.MEDIA_DEC_CHANNEL) = true ∧ s.chSrc (s.fld (Reg.MEDIA_DEC k) Fd.MEDIA_DEC_CHANNEL) Fd.CH_SRC_KIND = 2 ∧ s.sessionOf (s.fld (Reg.MEDIA_DEC k) Fd.MEDIA_DEC_CHANNEL) = some k ∧ (s.chan (s.fld (Reg.MEDIA_DEC k) Fd.MEDIA_DEC_CHANNEL)).entries[i]? = some e ∧ (s.chan (s.fld (Reg.MEDIA_DEC k) Fd.MEDIA_DEC_CHANNEL)).mayDecode i e = true ∧ (q < ((State.assignUpTo 65536 ((if e.bad = true then if s.pictureStatus (s.fld (Reg.MEDIA_DEC k) Fd.MEDIA_DEC_CHANNEL) e refs pic = 6 then s.bump (Reg.MEDIA_DEC_ERR k) noUnit else s else (if s.pictureStatus (s.fld (Reg.MEDIA_DEC k) Fd.MEDIA_DEC_CHANNEL) e refs pic = 6 then s.bump (Reg.MEDIA_DEC_ERR k) noUnit else s).noteRead (s.place e.addr) e.size).entryOut (s.fld (Reg.MEDIA_DEC k) Fd.MEDIA_DEC_CHANNEL) i e (s.pictureStatus (s.fld (Reg.MEDIA_DEC k) Fd.MEDIA_DEC_CHANNEL) e refs pic)) (s.fld (Reg.MEDIA_DEC k) Fd.MEDIA_DEC_CHANNEL) q).chan (s.fld (Reg.MEDIA_DEC k) Fd.MEDIA_DEC_CHANNEL)).nextQ) ∧ (((State.assignUpTo 65536 ((if e.bad = true then if s.pictureStatus (s.fld (Reg.MEDIA_DEC k) Fd.MEDIA_DEC_CHANNEL) e refs pic = 6 then s.bump (Reg.MEDIA_DEC_ERR k) noUnit else s else (if s.pictureStatus (s.fld (Reg.MEDIA_DEC k) Fd.MEDIA_DEC_CHANNEL) e refs pic = 6 then s.bump (Reg.MEDIA_DEC_ERR k) noUnit else s).noteRead (s.place e.addr) e.size).entryOut (s.fld (Reg.MEDIA_DEC k) Fd.MEDIA_DEC_CHANNEL) i e (s.pictureStatus (s.fld (Reg.MEDIA_DEC k) Fd.MEDIA_DEC_CHANNEL) e refs pic)) (s.fld (Reg.MEDIA_DEC k) Fd.MEDIA_DEC_CHANNEL) q).chan (s.fld (Reg.MEDIA_DEC k) Fd.MEDIA_DEC_CHANNEL)).open? q = none) :=
  ⟨((((testUp.setFld (Reg.CH_SRC 0) Fd.CH_SRC_EN 1).setFld (Reg.CH_SRC 0) Fd.CH_SRC_KIND 2).setFld (Reg.MEDIA_DEC 0) Fd.MEDIA_DEC_EN 1).setChan 0 { entries := [⟨0, 0, 0, 0, false, false, 0, false, 0⟩], nextQ := 1 }).testHolds [.channel 0, .decoder], 0, 0, 0, [], ⟨0, 0, 0, 0, false, false, 0, false, 0⟩, none, by decide +kernel, by decide +kernel, by decide +kernel, by decide +kernel, by decide +kernel, by decide +kernel, by decide +kernel, by decide +kernel⟩

theorem test_intakeCommands_12 : ∃ (s : State) (k : Nat) (i : Nat) (q : Nat) (refs : List Nat) (e : SrcEntry) (pic : Option (List (List Byte))) (m : Sample), s.sys.up = true ∧ s.chanOn (s.fld (Reg.MEDIA_DEC k) Fd.MEDIA_DEC_CHANNEL) = true ∧ s.chSrc (s.fld (Reg.MEDIA_DEC k) Fd.MEDIA_DEC_CHANNEL) Fd.CH_SRC_KIND = 2 ∧ s.sessionOf (s.fld (Reg.MEDIA_DEC k) Fd.MEDIA_DEC_CHANNEL) = some k ∧ (s.chan (s.fld (Reg.MEDIA_DEC k) Fd.MEDIA_DEC_CHANNEL)).entries[i]? = some e ∧ (s.chan (s.fld (Reg.MEDIA_DEC k) Fd.MEDIA_DEC_CHANNEL)).mayDecode i e = true ∧ (q < ((State.assignUpTo 65536 ((if e.bad = true then if s.pictureStatus (s.fld (Reg.MEDIA_DEC k) Fd.MEDIA_DEC_CHANNEL) e refs pic = 6 then s.bump (Reg.MEDIA_DEC_ERR k) noUnit else s else (if s.pictureStatus (s.fld (Reg.MEDIA_DEC k) Fd.MEDIA_DEC_CHANNEL) e refs pic = 6 then s.bump (Reg.MEDIA_DEC_ERR k) noUnit else s).noteRead (s.place e.addr) e.size).entryOut (s.fld (Reg.MEDIA_DEC k) Fd.MEDIA_DEC_CHANNEL) i e (s.pictureStatus (s.fld (Reg.MEDIA_DEC k) Fd.MEDIA_DEC_CHANNEL) e refs pic)) (s.fld (Reg.MEDIA_DEC k) Fd.MEDIA_DEC_CHANNEL) q).chan (s.fld (Reg.MEDIA_DEC k) Fd.MEDIA_DEC_CHANNEL)).nextQ) ∧ (((State.assignUpTo 65536 ((if e.bad = true then if s.pictureStatus (s.fld (Reg.MEDIA_DEC k) Fd.MEDIA_DEC_CHANNEL) e refs pic = 6 then s.bump (Reg.MEDIA_DEC_ERR k) noUnit else s else (if s.pictureStatus (s.fld (Reg.MEDIA_DEC k) Fd.MEDIA_DEC_CHANNEL) e refs pic = 6 then s.bump (Reg.MEDIA_DEC_ERR k) noUnit else s).noteRead (s.place e.addr) e.size).entryOut (s.fld (Reg.MEDIA_DEC k) Fd.MEDIA_DEC_CHANNEL) i e (s.pictureStatus (s.fld (Reg.MEDIA_DEC k) Fd.MEDIA_DEC_CHANNEL) e refs pic)) (s.fld (Reg.MEDIA_DEC k) Fd.MEDIA_DEC_CHANNEL) q).chan (s.fld (Reg.MEDIA_DEC k) Fd.MEDIA_DEC_CHANNEL)).open? q = some m) :=
  ⟨((((testUp.setFld (Reg.CH_SRC 0) Fd.CH_SRC_EN 1).setFld (Reg.CH_SRC 0) Fd.CH_SRC_KIND 2).setFld (Reg.MEDIA_DEC 0) Fd.MEDIA_DEC_EN 1).setChan 0 { entries := [⟨0, 0, 0, 0, false, false, 0, false, 0⟩], nextQ := 1, samples := [{ q := 0, sid := 0 }] }).testHolds [.channel 0, .decoder], 0, 0, 0, [], ⟨0, 0, 0, 0, false, false, 0, false, 0⟩, (some []), { q := 0, sid := 0 }, by decide +kernel, by decide +kernel, by decide +kernel, by decide +kernel, by decide +kernel, by decide +kernel, by decide +kernel, by decide +kernel⟩

theorem test_intakeCommands_13 : ∃ (s : State), s.sys.up = true ∧ s.bit Reg.MEDIA_ENC0 Fd.MEDIA_ENC0_EN = true ∧ s.holdsGrant Holder.decoder = true ∧ s.encoder.active = false ∧ s.encoder.next < s.knot (s.fld (Reg.CH_KNOT s.encChan) Fd.CH_KNOT_SAMPLE_KNOT) ∧ s.encoder.queue.waiting = true :=
  ⟨{ ((testUp.setFld Reg.MEDIA_ENC0 Fd.MEDIA_ENC0_EN 1).setKnot 0 1).testHolds [.decoder] with encoder := { queue := { lastTail := 1 } } }, by decide +kernel, by decide +kernel, by decide +kernel, by decide +kernel, by decide +kernel, by decide +kernel⟩

theorem test_intakeCommands_14 : ∃ (s : State), s.sys.up = true ∧ s.bit Reg.MEDIA_ENC0 Fd.MEDIA_ENC0_EN = true ∧ s.holdsGrant Holder.decoder = true ∧ s.encoder.active = false ∧ s.encoder.next < s.knot (s.fld (Reg.CH_KNOT s.encChan) Fd.CH_KNOT_SAMPLE_KNOT) ∧ s.encoder.queue.waiting = false :=
  ⟨((testUp.setFld Reg.MEDIA_ENC0 Fd.MEDIA_ENC0_EN 1).setKnot 0 1).testHolds [.decoder], by decide +kernel, by decide +kernel, by decide +kernel, by decide +kernel, by decide +kernel, by decide +kernel⟩

theorem test_intakeCommands_15 : ∃ (s : State) (bytes : List Byte), s.sys.up = true ∧ s.bit Reg.MEDIA_ENC0 Fd.MEDIA_ENC0_EN = true ∧ s.encoder.active = true :=
  ⟨{ testUp.setFld Reg.MEDIA_ENC0 Fd.MEDIA_ENC0_EN 1 with encoder := { active := true } }, [], by decide +kernel, by decide +kernel, by decide +kernel⟩

theorem test_intakeCommands_16 : ∃ (s : State) (o : Origin) (k : Nat) (v : Word) (w : Word), s.sys.up = true ∧ k < 2 ∧ s.bit (Reg.MEDIA_DEC k) Fd.MEDIA_DEC_EN = false ∧ s.writes o (Reg.MEDIA_DEC k) v w ∧ (s.landed o (Reg.MEDIA_DEC k) w).bit (Reg.MEDIA_DEC k) Fd.MEDIA_DEC_EN = true ∧ (s.landed o (Reg.MEDIA_DEC k) w).decoderValid k = true :=
  ⟨testUp, .selvage, 1, (Fd.MEDIA_DEC_EN.put 0 1), (testWord ((testUp)) (.selvage) (Reg.MEDIA_DEC (1)) ((Fd.MEDIA_DEC_EN.put 0 1))), by decide +kernel, by decide +kernel, by decide +kernel, test_writes (by decide +kernel), by decide +kernel, by decide +kernel⟩

theorem test_intakeCommands_17 : ∃ (s : State) (o : Origin) (v : Word) (w : Word), s.sys.up = true ∧ s.bit Reg.MEDIA_ENC0 Fd.MEDIA_ENC0_EN = false ∧ s.writes o Reg.MEDIA_ENC0 v w ∧ (s.landed o Reg.MEDIA_ENC0 w).bit Reg.MEDIA_ENC0 Fd.MEDIA_ENC0_EN = true ∧ (s.landed o Reg.MEDIA_ENC0 w).encoderValid = true :=
  ⟨testUp.setFld (Reg.CH_FMT 0) Fd.CH_FMT_IN_FMT 3, .selvage, (Fd.MEDIA_ENC0_EN.put 0 1), (testWord ((testUp.setFld (Reg.CH_FMT 0) Fd.CH_FMT_IN_FMT 3)) (.selvage) Reg.MEDIA_ENC0 ((Fd.MEDIA_ENC0_EN.put 0 1))), by decide +kernel, by decide +kernel, test_writes (by decide +kernel), by decide +kernel, by decide +kernel⟩


/-! ### Witnesses of the clauses of FusionCommandsComplete -/

theorem test_fusionCommands_0 : ∃ (s : State) (g : Nat) (p : Pass) (torn : List Nat), s.sys.up = true ∧ s.fusion.running = some p ∧ p.grid = g ∧ s.gridOn g = true :=
  ⟨{ ((testUp.setFld (Reg.FUSE_GRID_CFG 0) Fd.FUSE_GRID_CFG_EN 1).setGrid 0 {}).testHolds [.fusion] with fusion := { running := some { grid := 0, tg := 0 } } }, 0, { grid := 0, tg := 0 }, [], by decide +kernel, by decide +kernel, by decide +kernel, by decide +kernel⟩

theorem test_fusionCommands_1 : ∃ (s : State) (g : Nat) (a : Awaited), s.sys.up = true ∧ (s.grid g).await = some a ∧ s.gridOn g = true ∧ s.knot (s.fld (Reg.FUSE_TRK_W3 g) Fd.FUSE_TRK_W3_LIST_KNOT) ≠ a.knot ∧ s.readFails (s.listSlot g a.num) 36864 = false ∧ ofLe (s.peekBytes (s.listSlot g a.num) 8) = a.tg ∧ ofLe (s.peekBytes (s.listSlot g a.num + 8) 4) = a.num % 2 ^ 32 :=
  ⟨(((testUp.setFld (Reg.FUSE_GRID_CFG 0) Fd.FUSE_GRID_CFG_EN 1).setGrid 0 { await := some ⟨0, 0, 0, 0⟩ }).testHolds [.fusion]).setKnot 0 1, 0, ⟨0, 0, 0, 0⟩, by decide +kernel, by decide +kernel, by decide +kernel, by decide +kernel, by decide +kernel, by decide +kernel, by decide +kernel⟩

theorem test_fusionCommands_2 : ∃ (s : State) (g : Nat) (a : Awaited), s.sys.up = true ∧ (s.grid g).await = some a ∧ s.gridOn g = true ∧ s.knot (s.fld (Reg.FUSE_TRK_W3 g) Fd.FUSE_TRK_W3_LIST_KNOT) ≠ a.knot ∧ (s.readFails (s.listSlot g a.num) 36864 = true ∨ ofLe (s.peekBytes (s.listSlot g a.num) 8) ≠ a.tg) :=
  ⟨(((testUp.setFld (Reg.FUSE_GRID_CFG 0) Fd.FUSE_GRID_CFG_EN 1).setGrid 0 { await := some ⟨0, 1, 0, 0⟩ }).testHolds [.fusion]).setKnot 0 1, 0, ⟨0, 1, 0, 0⟩, by decide +kernel, by decide +kernel, by decide +kernel, by decide +kernel, by decide +kernel⟩

theorem test_fusionCommands_3 : ∃ (s : State) (g : Nat) (num : Nat) (bs : List Byte) (rest : List (Nat × List Byte)), s.sys.up = true ∧ (s.grid g).lists = (num, bs) :: rest ∧ s.gridOn g = true :=
  ⟨((testUp.setFld (Reg.FUSE_GRID_CFG 0) Fd.FUSE_GRID_CFG_EN 1).setGrid 0 { lists := [(0, [])] }).testHolds [.fusion], 0, 0, [], [], by decide +kernel, by decide +kernel, by decide +kernel⟩

theorem test_fusionCommands_4 : ∃ (s : State) (o : Origin) (g : Nat) (v : Word) (w : Word), s.sys.up = true ∧ g < 2 ∧ s.bit (Reg.FUSE_GRID_CFG g) Fd.FUSE_GRID_CFG_EN = false ∧ s.writes o (Reg.FUSE_GRID_CFG g) (Fd.FUSE_GRID_CFG_EN.put v 1) w ∧ (s.landed o (Reg.FUSE_GRID_CFG g) w).bit (Reg.FUSE_GRID_CFG g) Fd.FUSE_GRID_CFG_EN = true :=
  ⟨testUp, .selvage, 1, 0, (testWord ((testUp)) (.selvage) (Reg.FUSE_GRID_CFG (1)) (Fd.FUSE_GRID_CFG_EN.put (0) 1)), by decide +kernel, by decide +kernel, by decide +kernel, test_writes (by decide +kernel), by decide +kernel⟩

theorem test_fusionCommands_5 : ∃ (s : State) (o : Origin) (g : Nat) (v : Word) (w : Word), s.sys.up = true ∧ g < 2 ∧ s.bit (Reg.FUSE_GRID_CFG g) Fd.FUSE_GRID_CFG_EN = true ∧ s.writes o (Reg.FUSE_GRID_CFG g) (Fd.FUSE_GRID_CFG_EN.put v 0) w ∧ (s.landed o (Reg.FUSE_GRID_CFG g) w).bit (Reg.FUSE_GRID_CFG g) Fd.FUSE_GRID_CFG_EN = false :=
  ⟨testUp.setFld (Reg.FUSE_GRID_CFG 0) Fd.FUSE_GRID_CFG_EN 1, .selvage, 0, 0, (testWord ((testUp.setFld (Reg.FUSE_GRID_CFG 0) Fd.FUSE_GRID_CFG_EN 1)) (.selvage) (Reg.FUSE_GRID_CFG (0)) (Fd.FUSE_GRID_CFG_EN.put (0) 0)), by decide +kernel, by decide +kernel, by decide +kernel, test_writes (by decide +kernel), by decide +kernel⟩


/-! ### Witnesses of the clauses of DisplayCommandsComplete -/

theorem test_displayCommands_0 : ∃ (s : State) (p : Nat), s.sys.up = true ∧ s.pipeOn p = true ∧ (s.pipe p).held = true ∧ s.linesPassed p (s.tim0 p Fd.PIPE_TIM0_VTOTAL) = true :=
  ⟨((testUp.setFld (Reg.PIPE_CFG 0) Fd.PIPE_CFG_EN 1).setPipe 0 { trained := true, held := true }).testHolds [.pipe 0], 0, by decide +kernel, by decide +kernel, by decide +kernel, by decide +kernel⟩

theorem test_displayCommands_1 : ∃ (s : State) (p : Nat), s.sys.up = true ∧ s.pipeOn p = true ∧ (s.pipe p).started = true ∧ (s.pipe p).held = false ∧ s.bit (Reg.PIPE_STATUS p) Fd.PIPE_STATUS_HOLDING = false ∧ s.linesPassed p (s.tim0 p Fd.PIPE_TIM0_VTOTAL) = true :=
  ⟨((testUp.setFld (Reg.PIPE_CFG 0) Fd.PIPE_CFG_EN 1).setPipe 0 { trained := true, started := true }).testHolds [.pipe 0], 0, by decide +kernel, by decide +kernel, by decide +kernel, by decide +kernel, by decide +kernel, by decide +kernel⟩

theorem test_displayCommands_2 : ∃ (s : State) (p : Nat), s.sys.up = true ∧ s.pipeOn p = true ∧ ((s.pipe p).started = false ∨ s.bit (Reg.PIPE_STATUS p) Fd.PIPE_STATUS_HOLDING = true ∧ s.linesPassed p (s.tim0 p Fd.PIPE_TIM0_VTOTAL + max 1 (s.pipeCfg p Fd.PIPE_CFG_HOLD_MAX)) = true) :=
  ⟨((testUp.setFld (Reg.PIPE_CFG 0) Fd.PIPE_CFG_EN 1).setPipe 0 { trained := true, started := false }).testHolds [.pipe 0], 0, by decide +kernel, by decide +kernel, by decide +kernel⟩

theorem test_displayCommands_3 : ∃ (s : State) (p : Nat) (o : Origin) (v : Word) (w : Word), s.sys.up = true ∧ p < 4 ∧ s.bit (Reg.PIPE_CFG p) Fd.PIPE_CFG_EN = false ∧ s.writes o (Reg.PIPE_CFG p) (Fd.PIPE_CFG_EN.put v 1) w ∧ (s.landed o (Reg.PIPE_CFG p) w).bit (Reg.PIPE_CFG p) Fd.PIPE_CFG_EN = true :=
  ⟨testUp, 3, .selvage, 0, (testWord ((testUp)) (.selvage) (Reg.PIPE_CFG (3)) (Fd.PIPE_CFG_EN.put (0) 1)), by decide +kernel, by decide +kernel, by decide +kernel, test_writes (by decide +kernel), by decide +kernel⟩

theorem test_displayCommands_4 : ∃ (s : State) (p : Nat) (o : Origin) (v : Word) (w : Word), s.sys.up = true ∧ p < 4 ∧ s.bit (Reg.PIPE_CFG p) Fd.PIPE_CFG_EN = true ∧ s.bit (Reg.SP_CFG p) Fd.SP_CFG_EN = false ∧ s.writes o (Reg.PIPE_CFG p) (Fd.PIPE_CFG_EN.put v 0) w ∧ (s.landed o (Reg.PIPE_CFG p) w).bit (Reg.PIPE_CFG p) Fd.PIPE_CFG_EN = false :=
  ⟨testUp.setFld (Reg.PIPE_CFG 0) Fd.PIPE_CFG_EN 1, 0, .selvage, 0, (testWord ((testUp.setFld (Reg.PIPE_CFG 0) Fd.PIPE_CFG_EN 1)) (.selvage) (Reg.PIPE_CFG (0)) (Fd.PIPE_CFG_EN.put (0) 0)), by decide +kernel, by decide +kernel, by decide +kernel, by decide +kernel, test_writes (by decide +kernel), by decide +kernel⟩

theorem test_displayCommands_5 : ∃ (s : State) (p : Nat), s.sys.up = true ∧ s.bit (Reg.PIPE_CFG p) Fd.PIPE_CFG_EN = true ∧ (s.pipe p).training = true ∧ s.holdsGrant (Holder.pipe p) = true :=
  ⟨((testUp.setFld (Reg.PIPE_CFG 0) Fd.PIPE_CFG_EN 1).setPipe 0 { training := true }).testHolds [.pipe 0], 0, by decide +kernel, by decide +kernel, by decide +kernel, by decide +kernel⟩

theorem test_displayCommands_6 : ∃ (s : State) (p : Nat), s.sys.up = true ∧ s.bit (Reg.PIPE_CFG p) Fd.PIPE_CFG_EN = true ∧ (s.pipe p).training = true ∧ s.holdsGrant (Holder.pipe p) = true :=
  ⟨((testUp.setFld (Reg.PIPE_CFG 0) Fd.PIPE_CFG_EN 1).setPipe 0 { training := true }).testHolds [.pipe 0], 0, by decide +kernel, by decide +kernel, by decide +kernel, by decide +kernel⟩

theorem test_displayCommands_7 : ∃ (s : State) (p : Nat) (o : Origin) (v : Word) (w : Word), s.sys.up = true ∧ p < 4 ∧ s.watch.badSp.contains p = false ∧ s.bit (Reg.SP_CFG p) Fd.SP_CFG_EN = false ∧ s.writes o (Reg.SP_CFG p) (Fd.SP_CFG_EN.put v 1) w ∧ (s.landed o (Reg.SP_CFG p) w).bit (Reg.SP_CFG p) Fd.SP_CFG_EN = true :=
  ⟨testUp, 3, .selvage, 0, (testWord ((testUp)) (.selvage) (Reg.SP_CFG (3)) (Fd.SP_CFG_EN.put (0) 1)), by decide +kernel, by decide +kernel, by decide +kernel, by decide +kernel, test_writes (by decide +kernel), by decide +kernel⟩

theorem test_displayCommands_8 : ∃ (s : State) (p : Nat) (o : Origin) (v : Word) (w : Word), s.sys.up = true ∧ p < 4 ∧ mayWrite o [Writer.selvage, Writer.safety] = true ∧ s.writes o (Reg.SP_TABLE p) v w ∧ (s.landed o (Reg.SP_TABLE p) w).bit (Reg.SP_CFG p) Fd.SP_CFG_EN = true :=
  ⟨testUp.setFld (Reg.SP_CFG 0) Fd.SP_CFG_EN 1, 0, .selvage, 0, (testWord ((testUp.setFld (Reg.SP_CFG 0) Fd.SP_CFG_EN 1)) (.selvage) (Reg.SP_TABLE (0)) (0)), by decide +kernel, by decide +kernel, by decide +kernel, test_writes (by decide +kernel), by decide +kernel⟩

theorem test_displayCommands_9 : ∃ (s : State) (p : Nat) (i : Nat) (t : Telltale), s.sys.up = true ∧ (List.map telltaleOf (s.pipe p).table)[i]? = some t ∧ s.pipeOn p = true ∧ (s.pipe p).started = true ∧ s.bit (Reg.SP_CFG p) Fd.SP_CFG_EN = true ∧ (crc32c (List.flatMap (fun k => leBytes 4 (s.telltalePixel p t (s.lit p i) (k % t.w) (k / t.w))) (List.range (t.w * t.h))) ≠ if s.lit p i = true then t.crcOn else t.crcOff) :=
  ⟨(((testUp.setFld (Reg.PIPE_CFG 0) Fd.PIPE_CFG_EN 1).setPipe 0 { trained := true, started := true, table := [testTell] }).testHolds [.pipe 0]).setFld (Reg.SP_CFG 0) Fd.SP_CFG_EN 1, 0, 0, telltaleOf testTell, by decide +kernel, by decide +kernel, by decide +kernel, by decide +kernel, by decide +kernel, by decide +kernel⟩

theorem test_displayCommands_10 : ∃ (s : State) (p : Nat) (o : Origin) (w : Word) (e : EarlyView), s.sys.up = true ∧ s.writes o Reg.DSP_EARLY 1 w ∧ mayWrite o [Writer.selvage, Writer.hypervisor] = true ∧ (s.landed o Reg.DSP_EARLY w).display.early = some e :=
  ⟨{ testUp with display := { early := some ⟨0, 0, 0, 0, 0⟩ } }, 0, .selvage, (testWord (({ testUp with display := { early := some ⟨0, 0, 0, 0, 0⟩ } })) (.selvage) Reg.DSP_EARLY 1), ⟨0, 0, 0, 0, 0⟩, by decide +kernel, test_writes (by decide +kernel), by decide +kernel, by decide +kernel⟩


/-! ### Witnesses of the clauses of SafetyCommandsComplete -/

theorem test_safetyCommands_0 : ∃ (s : State) (k : Nat) (t : CmpTask) (j : Job) (jrnl : Bool), s.sys.up = true ∧ (List.find? (fun t => t.unit == some k && t.granted) s.checkers.cmps = some t) ∧ s.job? t.ring t.seq = some j :=
  ⟨{ testRun with checkers := { cmps := [⟨0, 0, 0, some 0, true⟩] } }, 0, ⟨0, 0, 0, some 0, true⟩, testJob, false, by decide +kernel, by decide +kernel, by decide +kernel⟩

theorem test_safetyCommands_1 : ∃ (s : State) (p : Nat), s.sys.up = true ∧ p < 2 ∧ (s.pair p).runs = true ∧ (s.pair p).halted = false :=
  ⟨testUp.setPair 1 { runs := true }, 1, by decide +kernel, by decide +kernel, by decide +kernel, by decide +kernel⟩

theorem test_safetyCommands_2 : ∃ (s : State) (p : Nat), s.sys.up = true ∧ p < 2 ∧ (s.pair p).runs = true ∧ (s.pair p).halted = true :=
  ⟨testUp.setPair 1 { runs := true, halted := true }, 1, by decide +kernel, by decide +kernel, by decide +kernel, by decide +kernel⟩

theorem test_safetyCommands_3 : ∃ (s : State) (k : Nat) (x : StOpen) (missed : Bool), s.sys.up = true ∧ (List.find? (fun o => o.slot == k && !o.started) s.watch.opened = some x) ∧ s.coresHeld x.cores = true :=
  ⟨{ testRun.setFld (Reg.RING_CFG 0) Fd.RING_CFG_CLASS 0 with watch := { opened := [⟨0, [0], false⟩] } }, 0, ⟨0, [0], false⟩, false, by decide +kernel, by decide +kernel, by decide +kernel⟩

theorem test_safetyCommands_4 : ∃ (s : State) (k : Nat) (x : StOpen) (missed : Bool), s.sys.up = true ∧ (List.find? (fun o => o.slot == k && !o.started) s.watch.opened = some x) ∧ s.coresHeld x.cores = false ∧ ((x.cores.all fun n => (s.core n).test == some k && s.holdsGrant (Holder.core n)) = true) ∧ s.clashes (s.stSlot k) x.cores = true :=
  ⟨{ (({ testUp.testHolds [.core 0] with watch := { opened := [⟨0, [0], false⟩] }, cores := [(0, { test := some 0 })] }).setFld (Reg.RING_CFG 1) Fd.RING_CFG_CLASS 0) with jobs := [{ testJob with ring := 1, seq := 1, stage := .held, cores := [], granted := [], resv := some ⟨[0], [], 0, 0, 0⟩ }], tacks := [(0, { enable := true, action := 1, target := 1 })] }, 0, ⟨0, [0], false⟩, false, by decide +kernel, by decide +kernel, by decide +kernel, by decide +kernel, by decide +kernel⟩

theorem test_safetyCommands_5 : ∃ (s : State) (k : Nat) (x : StOpen) (missed : Bool), s.sys.up = true ∧ (List.find? (fun o => o.slot == k && !o.started) s.watch.opened = some x) ∧ s.coresHeld x.cores = false ∧ ((x.cores.all fun n => (s.core n).test == some k && s.holdsGrant (Holder.core n)) = true) ∧ s.clashes (s.stSlot k) x.cores = false :=
  ⟨{ testUp.testHolds [.core 0] with watch := { opened := [⟨0, [0], false⟩] }, cores := [(0, { test := some 0 })] }, 0, ⟨0, [0], false⟩, false, by decide +kernel, by decide +kernel, by decide +kernel, by decide +kernel, by decide +kernel⟩

theorem test_safetyCommands_6 : ∃ (s : State) (n : Nat) (jrnl : Bool), s.sys.up = true ∧ s.goldenRuns n = true :=
  ⟨{ testUp.testHolds [.core 0] with cores := [(0, { test := some noSlot })] }, 0, false, by decide +kernel, by decide +kernel⟩

theorem test_safetyCommands_8 : ∃ (s : State) (n : Nat), s.sys.up = true ∧ n < 128 ∧ s.coreMode n ≠ 3 ∧ s.domainOn (31 + n / 8) = true ∧ s.coreDarning n = false ∧ s.lastPass n + s.coverNs ≤ s.now + s.withdrawNs :=
  ⟨{ testUp with time := 0x100000000000000000000 }, 127, by decide +kernel, by decide +kernel, by decide +kernel, by decide +kernel, by decide +kernel, by decide +kernel⟩

theorem test_safetyCommands_9 : ∃ (s : State), s.sys.up = true ∧ s.safe.minEnd ≤ s.now :=
  ⟨testUp, by decide +kernel, by decide +kernel⟩

theorem test_safetyCommands_10 : ∃ (s : State) (o : Origin) (w : Word), s.sys.up = true ∧ s.writes o Reg.SAFE_PIN (Fd.SAFE_PIN_FORCE.put (s.reg Reg.SAFE_PIN) 1) w ∧ s.bit Reg.SAFE_PIN Fd.SAFE_PIN_FORCE = false ∧ (s.landed o Reg.SAFE_PIN w).bit Reg.SAFE_PIN Fd.SAFE_PIN_FORCE = true :=
  ⟨testUp, .selvage, (testWord ((testUp)) (.selvage) Reg.SAFE_PIN (Fd.SAFE_PIN_FORCE.put ((testUp).reg Reg.SAFE_PIN) 1)), by decide +kernel, test_writes (by decide +kernel), by decide +kernel, by decide +kernel⟩

theorem test_safetyCommands_11 : ∃ (s : State) (o : Origin) (w : Word), s.sys.up = true ∧ s.writes o Reg.SAFE_PIN (Fd.SAFE_PIN_FORCE.put (s.reg Reg.SAFE_PIN) 0) w ∧ (s.landed o Reg.SAFE_PIN w).bit Reg.SAFE_PIN Fd.SAFE_PIN_FORCE = false :=
  ⟨testUp, .selvage, (testWord ((testUp)) (.selvage) Reg.SAFE_PIN (Fd.SAFE_PIN_FORCE.put ((testUp).reg Reg.SAFE_PIN) 0)), by decide +kernel, test_writes (by decide +kernel), by decide +kernel⟩

theorem test_safetyCommands_12 : ∃ (s : State) (v : Word) (w : Word), s.sys.up = true ∧ s.writes Origin.safety Reg.SAFE_SW_ERR v w :=
  ⟨testUp, 0, (testWord ((testUp)) Origin.safety Reg.SAFE_SW_ERR (0)), by decide +kernel, test_writes (by decide +kernel)⟩

theorem test_safetyCommands_13 : ∃ (s : State) (o : Origin) (i : Nat), s.sys.up = true ∧ s.granted o (stSel o) :=
  ⟨testUp, .selvage, 0, by decide +kernel, test_granted (by decide +kernel)⟩


/-! ### Witnesses of the clauses of DebugCommandsComplete -/

theorem test_debugCommands_0 : ∃ (s : State) (targets : List DebugTarget) (sec : List Byte), s.sys.up = true ∧ ((s.trust.record.bind fun x => x.debugSec) = some sec) ∧ s.auditFull = false :=
  ⟨{ testUp with trust := { record := some { debugSec := some [] } } }, [.pair 1], [], by decide +kernel, by decide +kernel, by decide +kernel⟩

theorem test_debugCommands_1 : ∃ (s : State) (t : DebugTarget) (on : Bool), s.sys.up = true ∧ s.trust.attached.contains t = true :=
  ⟨{ testUp with trust := { attached := [.pair 0] } }, .pair 0, false, by decide +kernel, by decide +kernel⟩

theorem test_debugCommands_2 : ∃ (s : State), s.sys.up = true ∧ s.trust.attached ≠ [] :=
  ⟨{ testUp with trust := { attached := [.pair 0] } }, by decide +kernel, by decide +kernel⟩

theorem test_debugCommands_3 : ∃ (s : State) (r : Nat) (q : Nat) (j : Job), s.sys.up = true ∧ s.trust.attached.contains (DebugTarget.job r q) = true ∧ s.job? r q = some j :=
  ⟨{ testRun with trust := { attached := [.job 0 0] } }, 0, 0, testJob, by decide +kernel, by decide +kernel, by decide +kernel⟩

theorem test_debugCommands_4 : ∃ (s : State) (r : Nat) (q : Nat) (j : Job) (n : Nat) (x : DebugRead), s.sys.up = true ∧ s.trust.attached.contains (DebugTarget.job r q) = true ∧ s.job? r q = some j ∧ j.cores.contains n = true ∧ x ≠ DebugRead.timeCounter :=
  ⟨{ testRun with trust := { attached := [.job 0 0] } }, 0, 0, testJob, 0, .vector 31 63, by decide +kernel, by decide +kernel, by decide +kernel, by decide +kernel, by decide +kernel⟩

theorem test_debugCommands_5 : ∃ (s : State) (r : Nat) (q : Nat) (j : Job) (b : Nat) (n : Nat) (h : Nat) (x : Nat) (c : Nat) (code : Nat), s.sys.up = true ∧ s.trust.attached.contains (DebugTarget.job r q) = true ∧ s.job? r q = some j ∧ decide (b < j.tens.length) = true ∧ (j.tensor b).hasElem (n, h, x, c) = true ∧ devOf (j.tensor b).addr = s.ownDev ∧ (j.tensor b).role = 0 :=
  ⟨{ testRun with trust := { attached := [.job 0 0] } }, 0, 0, testJob, 0, 0, 0, 0, 0, 0, by decide +kernel, by decide +kernel, by decide +kernel, by decide +kernel, by decide +kernel, by decide +kernel, by decide +kernel⟩

theorem test_debugCommands_6 : ∃ (s : State) (r : Nat) (q : Nat) (j : Job) (b : Nat) (n : Nat) (h : Nat) (x : Nat) (c : Nat) (code : Nat), s.sys.up = true ∧ s.trust.attached.contains (DebugTarget.job r q) = true ∧ s.job? r q = some j ∧ decide (b < j.tens.length) = true ∧ (j.tensor b).hasElem (n, h, x, c) = true ∧ devOf (j.tensor b).addr = s.ownDev ∧ (j.tensor b).role ≠ 0 ∧ s.bothAtCheap j = true :=
  ⟨{ testRun with jobs := [{ testJob with tens := [{ n := 1, h := 1, w := 1, c := 1, fmt := 3, role := 1 }] }], cores := [(0, { job := some (0, 0), wdogLeft := some 0 })], trust := { attached := [.job 0 0] } }, 0, 0, { testJob with tens := [{ n := 1, h := 1, w := 1, c := 1, fmt := 3, role := 1 }] }, 0, 0, 0, 0, 0, 0, by decide +kernel, by decide +kernel, by decide +kernel, by decide +kernel, by decide +kernel, by decide +kernel, by decide +kernel, by decide +kernel⟩

theorem test_debugCommands_7 : ∃ (s : State) (p : Nat), s.sys.up = true ∧ s.trust.attached.contains (DebugTarget.pair p) = true ∧ (s.pair p).debug = true :=
  ⟨{ testUp.setPair 0 { debug := true } with trust := { attached := [.pair 0] } }, 0, by decide +kernel, by decide +kernel, by decide +kernel⟩

theorem test_debugCommands_8 : ∃ (s : State) (p : Nat) (n : Nat), s.sys.up = true ∧ s.trust.attached.contains (DebugTarget.pair p) = true :=
  ⟨{ testUp with trust := { attached := [.pair 0] } }, 0, 0, by decide +kernel, by decide +kernel⟩

theorem test_debugCommands_9 : ∃ (s : State) (t : DebugTarget) (n : Nat) (x : DebugRead), s.sys.up = true ∧ s.trust.attached.contains t = false :=
  ⟨testUp, .pair 0, 0, .vector 31 63, by decide +kernel, by decide +kernel⟩


/-! ### Witnesses of the clauses of DarningCommandsComplete -/

theorem test_darningCommands_0 : ∃ (s : State) (n : Nat) (d : CoreDarn) (pass : Bool), s.sys.up = true ∧ (List.find? (fun d => d.logical == n) s.darn.cores = some d) ∧ s.domainOn (175 + d.spare) = true ∧ s.holdsGrant (Holder.spare d.spare) = true :=
  ⟨{ testUp.testHolds [.spare 2] with darn := { cores := [⟨0, 2⟩] } }, 0, ⟨0, 2⟩, false, by decide +kernel, by decide +kernel, by decide +kernel, by decide +kernel⟩

theorem test_darningCommands_1 : ∃ (s : State) (phys : Nat) (jrnl : Bool) (n : Nat) (sp : Nat), s.sys.up = true ∧ s.darn.chanWait.contains phys = true ∧ s.dieBusy (phys / 264) = false ∧ s.logicalChan phys = some n ∧ s.freeChan (phys / 264) = some sp :=
  ⟨{ testUp with darn := { chanWait := [0] } }, 0, false, (((testUp.logicalChan 0)).getD 0), ((testUp.freeChan 0).getD 0), by decide +kernel, by decide +kernel, by decide +kernel, by decide +kernel, by decide +kernel⟩

theorem test_darningCommands_2 : ∃ (s : State) (phys : Nat) (jrnl : Bool) (n : Nat), s.sys.up = true ∧ s.darn.chanWait.contains phys = true ∧ s.dieBusy (phys / 264) = false ∧ s.logicalChan phys = some n ∧ s.freeChan (phys / 264) = none :=
  ⟨{ testUp with darn := { chanWait := [0], badChans := (List.range 8).map (· + 256) } }, 0, false, (((testUp.logicalChan 0)).getD 0), by decide +kernel, by decide +kernel, by decide +kernel, by decide +kernel, by decide +kernel⟩

theorem test_darningCommands_3 : ∃ (s : State) (phys : Nat) (c : ChanCopy), s.sys.up = true ∧ (List.find? (fun c => c.old == phys) s.darn.copies = some c) :=
  ⟨{ testUp with darn := { copies := [⟨0, 0, 256⟩] } }, 0, ⟨0, 0, 256⟩, by decide +kernel, by decide +kernel⟩

theorem test_darningCommands_4 : ∃ (s : State) (phys : Nat) (b : Nat) (r : Nat) (jrnl : Bool) (n : Nat), s.sys.up = true ∧ s.logicalCore phys = some n ∧ s.darn.spWait.contains { phys := phys, bank := b, row := r } = true ∧ (s.core n).job = none ∧ (s.core n).test = none :=
  ⟨{ testUp with darn := { spWait := [⟨0, 0, 0⟩] } }, 0, 0, 0, false, 0, by decide +kernel, by decide +kernel, by decide +kernel, by decide +kernel, by decide +kernel⟩

theorem test_darningCommands_5 : ∃ (s : State) (o : Origin) (i : Nat) (jrnl : Bool), s.sys.up = true ∧ s.granted o spareCmd ∧ i % 1024 < 128 ∧ (s.indexed spareCmd i).coreDarning (i % 1024) = false ∧ (s.indexed spareCmd i).spareFree (i % 1024) = true :=
  ⟨testUp, .selvage, 127, false, by decide +kernel, test_granted (by decide +kernel), by decide +kernel, by decide +kernel, by decide +kernel⟩

theorem test_darningCommands_6 : ∃ (s : State) (o : Origin) (i : Nat) (jrnl : Bool), s.sys.up = true ∧ s.granted o spareCmd ∧ i % 1024 < 528 ∧ ((s.darn.copies.any fun c => c.old == i % 1024) = false) :=
  ⟨testUp, .selvage, 527, false, by decide +kernel, test_granted (by decide +kernel), by decide +kernel, by decide +kernel⟩

theorem test_darningCommands_7 : ∃ (s : State) (o : Origin) (i : Nat) (jrnl : Bool), s.sys.up = true ∧ s.granted o spareCmd ∧ i % 1024 / 4 < 4 ∧ i % 1024 % 4 = 2 ∧ s.cwy.changing.contains (i % 1024 / 4, 2) = false :=
  ⟨testUp, .selvage, 14, false, by decide +kernel, test_granted (by decide +kernel), by decide +kernel, by decide +kernel, by decide +kernel⟩


/-! ### Witnesses of the clauses of LeaseCommandsComplete -/

theorem test_leaseCommands_1 : ∃ (s : State) (u : Nat), s.sys.up = true ∧ s.rooted u = true ∧ s.rootEnd u ≤ s.now ∧ s.darn.expired.contains u = false :=
  ⟨testUp, 1, by decide +kernel, by decide +kernel, by decide +kernel, by decide +kernel⟩

theorem test_leaseCommands_2 : ∃ (s : State) (u : Nat), s.sys.up = true ∧ s.darn.restoring.contains u = true :=
  ⟨{ testUp with darn := { restoring := [0] } }, 0, by decide +kernel, by decide +kernel⟩

theorem test_leaseCommands_4 : ∃ (s : State) (n : Nat) (jrnl : Bool), s.sys.up = true ∧ n < 128 ∧ s.coreMode n ≠ 3 ∧ s.domainOn (s.coreDomain n) = true :=
  ⟨testUp, 127, false, by decide +kernel, by decide +kernel, by decide +kernel, by decide +kernel⟩

theorem test_leaseCommands_5 : ∃ (s : State) (p : Nat), s.sys.up = true ∧ p < 16 ∧ s.domainOn (31 + p) = true ∧ s.watch.panels.contains p = false :=
  ⟨testUp, 15, by decide +kernel, by decide +kernel, by decide +kernel, by decide +kernel⟩

theorem test_leaseCommands_6 : ∃ (s : State) (p : Nat), s.sys.up = true ∧ s.watch.panels.contains p = true :=
  ⟨{ testUp with watch := { panels := [0] } }, 0, by decide +kernel, by decide +kernel⟩

theorem test_leaseCommands_7 : ∃ (s : State), s.sys.up = true ∧ s.watch.hwEnd ≤ s.now ∧ s.watch.lostAt = none :=
  ⟨testUp, by decide +kernel, by decide +kernel, by decide +kernel⟩

theorem test_leaseCommands_8 : ∃ (s : State), s.sys.up = true ∧ s.leasesCurrent = true ∧ s.watch.edgeAt + 500000 ≤ s.now :=
  ⟨{ testUp with time := 0x100000000000000000000, watch := { hwEnd := 0x100000000000000000000, roots := (List.range 27).map (fun u => (u, 0x100000000000000000000)) } }, by decide +kernel, by decide +kernel, by decide +kernel⟩


/-! ### Witnesses of the clauses of TrustCommandsComplete -/

theorem test_trustCommands_0 : ∃ (s : State) (o : Origin) (k : Nat), s.sys.up = true ∧ s.granted o fwCmd :=
  ⟨testUp, .hypervisor, 5, by decide +kernel, test_granted (by decide +kernel)⟩

theorem test_trustCommands_1 : ∃ (s : State) (k : Nat) (x : Nat × List Byte) (ok : Bool), s.sys.up = true ∧ (List.find? (fun x => x.fst == k) s.trust.staging = some x) :=
  ⟨{ testUp with trust := { staging := [(1, [])] } }, 1, (1, []), false, by decide +kernel, by decide +kernel⟩

theorem test_trustCommands_2 : ∃ (s : State) (o : Origin) (k : Nat) (jrnl : Bool), s.sys.up = true ∧ s.granted o fwCmd ∧ s.trust.staged.contains (k % 8) = true :=
  ⟨{ testUp with trust := { staged := [1] } }, .hypervisor, 1, false, by decide +kernel, test_granted (by decide +kernel), by decide +kernel⟩

theorem test_trustCommands_3 : ∃ (s : State) (o : Origin) (k : Nat), s.sys.up = true ∧ s.granted o fwCmd ∧ s.trust.staged.contains (k % 8) = true :=
  ⟨{ testUp with trust := { staged := [1] } }, .hypervisor, 1, by decide +kernel, test_granted (by decide +kernel), by decide +kernel⟩

theorem test_trustCommands_4 : ∃ (s : State) (o : Origin) (k : Nat), s.sys.up = true ∧ s.granted o (tenantSel o) ∧ isTenant (k % 256) = true :=
  ⟨testUp, .hypervisor, 0x4F, by decide +kernel, test_granted (by decide +kernel), by decide +kernel⟩

theorem test_trustCommands_5 : ∃ (s : State) (o : Origin) (k : Nat), s.sys.up = true ∧ s.granted o (tenantSel o) ∧ isInstance (k % 256) = true ∧ (s.tenant (k % 256)).state ≠ 1 ∧ (s.tenant (k % 256)).state ≠ 2 ∧ s.epoch (k % 256) ≠ 4294967295 :=
  ⟨testUp, .hypervisor, 0x10, by decide +kernel, test_granted (by decide +kernel), by decide +kernel, by decide +kernel, by decide +kernel, by decide +kernel⟩

theorem test_trustCommands_6 : ∃ (s : State) (o : Origin) (k : Nat) (jrnl : Bool), s.sys.up = true ∧ s.granted o (tenantSel o) ∧ isInstance (k % 256) = true ∧ (s.tenant (k % 256)).state = 1 :=
  ⟨testUp.setTenant 0x10 { state := 1 }, .hypervisor, 0x10, false, by decide +kernel, test_granted (by decide +kernel), by decide +kernel, by decide +kernel⟩

theorem test_trustCommands_7 : ∃ (s : State) (o : Origin) (k : Nat) (jrnl : Bool), s.sys.up = true ∧ s.granted o (tenantSel o) ∧ isInstance (k % 256) = true ∧ (s.tenant (k % 256)).state = 1 ∧ s.viState (k % 256 - 16) = 0 ∧ (s.indexed (tenantSel o) (k % 256)).viState (k % 256 - 16) = 0 :=
  ⟨testUp.setTenant 0x10 { state := 1 }, .hypervisor, 0x10, false, by decide +kernel, test_granted (by decide +kernel), by decide +kernel, by decide +kernel, by decide +kernel, by decide +kernel⟩

theorem test_trustCommands_8 : ∃ (s : State) (k : Nat), s.sys.up = true ∧ s.trust.removing.contains k = true :=
  ⟨{ testUp with trust := { removing := [0x10] } }, 0x10, by decide +kernel, by decide +kernel⟩

theorem test_trustCommands_10 : ∃ (s : State) (o : Origin) (enclave : Nat) (tenant : Nat) (wrap : Bool) (far : List FarRead), s.sys.up = true ∧ (s.learn 1 far).granted o (attSel o) :=
  ⟨testUp, .hypervisor, 0, 0, false, [], by decide +kernel, test_granted (by decide +kernel)⟩

theorem test_trustCommands_11 : ∃ (s : State) (o : Origin) (r : Report), s.sys.up = true ∧ (List.find? (fun r => r.origin == o) s.trust.reports = some r) :=
  ⟨{ testUp with trust := { reports := [⟨.selvage, 2, 0, [], none, 0⟩] } }, .selvage, ⟨.selvage, 2, 0, [], none, 0⟩, by decide +kernel, by decide +kernel⟩

theorem test_trustCommands_13 : ∃ (s : State) (first : Nat) (n : Nat) (dest : Nat), s.sys.up = true ∧ s.trust.exporting = some (first, n, dest) :=
  ⟨{ testUp with trust := { exporting := some (0, 1, 0) } }, 0, 1, 0, by decide +kernel, by decide +kernel⟩

theorem test_trustCommands_14 : ∃ (s : State) (v : Word), s.sys.up = true ∧ BitVec.toNat v ≤ BitVec.toNat (s.reg Reg.AUDIT_EXPORTED) ∧ BitVec.toNat (s.reg Reg.AUDIT_TAIL) < BitVec.toNat v :=
  ⟨testUp.setReg Reg.AUDIT_EXPORTED 1, 1, by decide +kernel, by decide +kernel, by decide +kernel⟩


/-! ### Witnesses of the clauses of WorldCommandsComplete -/

theorem test_worldCommands_1 : ∃ (s : State) (c : Nat) (n : Nat) (target : Nat) (ret : Nat) (e : Eyelet) (regs : List (Nat × Nat)), s.sys.up = true ∧ (s.hart c n).secure = false ∧ (s.hart c n).enclave = 0 ∧ e.secure = true ∧ e.tag = 0 ∧ (s.hart c n).stack.length < 4 :=
  ⟨testUp, 0, 0, 0, 0, ⟨true, 0, false⟩, [], by decide +kernel, by decide +kernel, by decide +kernel, by decide +kernel, by decide +kernel, by decide +kernel⟩

theorem test_worldCommands_2 : ∃ (s : State) (c : Nat) (n : Nat) (target : Nat) (ret : Nat) (e : Eyelet) (v : Enclave) (regs : List (Nat × Nat)), s.sys.up = true ∧ s.enclave? e.tag = some v ∧ (s.hart c n).enclave = 0 ∧ e.tag ≠ 0 ∧ v.secure = e.secure ∧ (s.hart c n).stack.length < 4 ∧ e.resume = false :=
  ⟨{ testUp with trust := { enclaves := [(1, { secure := true })] } }, 0, 0, 0, 0, ⟨true, 1, false⟩, { secure := true }, [], by decide +kernel, by decide +kernel, by decide +kernel, by decide +kernel, by decide +kernel, by decide +kernel, by decide +kernel⟩

theorem test_worldCommands_3 : ∃ (s : State) (c : Nat) (n : Nat) (r : GateRet) (rs : List GateRet) (regs : List (Nat × Nat)), s.sys.up = true ∧ (s.hart c n).stack = r :: rs :=
  ⟨{ testUp with trust := { harts := [(0, { stack := [⟨4, false⟩] })] } }, 0, 0, ⟨4, false⟩, [], [], by decide +kernel, by decide +kernel⟩

theorem test_worldCommands_4 : ∃ (s : State) (c : Nat) (n : Nat) (pc : Nat) (r : GateRet) (rs : List GateRet) (v : Enclave) (regs : List (Nat × Nat)), s.sys.up = true ∧ (s.hart c n).enclave ≠ 0 ∧ s.enclave? (s.hart c n).enclave = some v ∧ (s.hart c n).stack = r :: rs :=
  ⟨{ testUp with trust := { enclaves := [(1, { secure := true })], harts := [(0, { enclave := 1, stack := [⟨4, false⟩] })] } }, 0, 0, 0, ⟨4, false⟩, [], { secure := true }, [], by decide +kernel, by decide +kernel, by decide +kernel, by decide +kernel⟩

theorem test_worldCommands_5 : ∃ (s : State) (secure : Bool) (ranges : List (Nat × Nat)) (t : Nat), s.sys.up = true ∧ s.rangesOk ranges = true ∧ s.cleanTag s.trust.dirty = some t :=
  ⟨testUp, false, [(0, 4096)], 1, by decide +kernel, by decide +kernel, by decide +kernel⟩

theorem test_worldCommands_6 : ∃ (s : State) (tag : Nat) (v : Enclave), s.sys.up = true ∧ s.enclave? tag = some v :=
  ⟨{ testUp with trust := { enclaves := [(1, { secure := true })] } }, 1, { secure := true }, by decide +kernel, by decide +kernel⟩

theorem test_worldCommands_7 : ∃ (s : State) (h : SecHolder) (d : Nat), s.sys.up = true ∧ s.holderOk h = true ∧ requestable d = true :=
  ⟨testUp.setPair 0 { runs := true }, .pair 0, 15, by decide +kernel, by decide +kernel, by decide +kernel⟩

theorem test_worldCommands_8 : ∃ (s : State) (h : SecHolder) (d : Nat), s.sys.up = true ∧ s.watch.secLeases.contains (d, h) = true :=
  ⟨{ testUp with watch := { secLeases := [(15, .pair 0)] } }, .pair 0, 15, by decide +kernel, by decide +kernel⟩


/-! ### Witnesses of the clauses of InstanceCommandsComplete -/

theorem test_instanceCommands_0 : ∃ (s : State) (o : Origin) (v : Nat), s.sys.up = true ∧ s.granted o viCmd ∧ (s.indexed viCmd v).viState (v % 64) = 1 :=
  ⟨testUp.setVi 63 1, .hypervisor, 63, by decide +kernel, test_granted (by decide +kernel), by decide +kernel⟩

theorem test_instanceCommands_1 : ∃ (s : State) (o : Origin) (v : Nat), s.sys.up = true ∧ s.granted o viCmd ∧ ((s.indexed viCmd v).viState (v % 64) = 1 ∨ (s.indexed viCmd v).viState (v % 64) = 2) :=
  ⟨testUp.setVi 63 2, .hypervisor, 63, by decide +kernel, test_granted (by decide +kernel), by decide +kernel⟩

theorem test_instanceCommands_2 : ∃ (s : State) (o : Origin) (v : Nat), s.sys.up = true ∧ s.granted o viCmd ∧ ((s.indexed viCmd v).viState (v % 64) = 1 ∨ (s.indexed viCmd v).viState (v % 64) = 3) :=
  ⟨testUp.setVi 63 3, .hypervisor, 63, by decide +kernel, test_granted (by decide +kernel), by decide +kernel⟩

theorem test_instanceCommands_3 : ∃ (s : State) (o : Origin) (v : Nat), s.sys.up = true ∧ s.granted o viCmd ∧ ((s.indexed viCmd v).viState (v % 64) = 3 ∨ (s.indexed viCmd v).viState (v % 64) = 5) :=
  ⟨testUp.setVi 63 5, .hypervisor, 63, by decide +kernel, test_granted (by decide +kernel), by decide +kernel⟩

theorem test_instanceCommands_4 : ∃ (s : State) (o : Origin) (v : Nat), s.sys.up = true ∧ s.granted o viCmd ∧ ((s.indexed viCmd v).viState (v % 64) = 3 ∨ (s.indexed viCmd v).viState (v % 64) = 5) :=
  ⟨testUp.setVi 63 3, .hypervisor, 63, by decide +kernel, test_granted (by decide +kernel), by decide +kernel⟩

theorem test_instanceCommands_5 : ∃ (s : State) (o : Origin) (v : Nat) (cert : Bool) (jrnl : Bool), s.sys.up = true ∧ s.granted o viCmd ∧ (s.indexed viCmd v).viState (v % 64) = 5 :=
  ⟨testUp.setVi 63 5, .hypervisor, 63, false, false, by decide +kernel, test_granted (by decide +kernel), by decide +kernel⟩

theorem test_instanceCommands_6 : ∃ (s : State) (o : Origin) (v : Nat) (img : Option ViImage), s.sys.up = true ∧ s.granted o viCmd ∧ (s.indexed viCmd v).viState (v % 64) = 0 :=
  ⟨testUp, .hypervisor, 0, none, by decide +kernel, test_granted (by decide +kernel), by decide +kernel⟩

theorem test_instanceCommands_7 : ∃ (s : State) (v : Nat) (x : Saving), s.sys.up = true ∧ (List.find? (fun x => x.vi == v) s.insts.saving = some x) :=
  ⟨{ testUp with insts := { saving := [⟨0, 0, 0, 0⟩] } }, 0, ⟨0, 0, 0, 0⟩, by decide +kernel, by decide +kernel⟩

theorem test_instanceCommands_8 : ∃ (s : State) (v : Nat) (u : Nat) (fixed : Nat) (job : Nat), s.sys.up = true ∧ (List.find? (fun x => x.fst == v) s.insts.restoring = some (u, fixed, job)) :=
  ⟨{ testUp with insts := { restoring := [(0, 0, 1)] } }, 0, 0, 0, 1, by decide +kernel, by decide +kernel⟩


/-! ### Witnesses of the clauses of BridgeCommandsComplete -/

theorem test_bridgeCommands_0 : ∃ (s : State) (tag : Nat) (gen : Nat) (h : HeldRead) (ahead : List (List Byte)) (data : FarData), s.sys.up = true ∧ (List.find? (fun h => h.tag == tag && h.gen == gen && decide (tag < 512)) s.bridge.held = some h) ∧ data ≠ FarData.expired ∧ s.now < h.expiry :=
  ⟨{ testUp with bridge := { held := [⟨511, 0, 1, 0, 0, 64, 1, .checker 0⟩] } }, 511, 0, ⟨511, 0, 1, 0, 0, 64, 1, .checker 0⟩, [], .ok [], by decide +kernel, by decide +kernel, by decide +kernel, by decide +kernel⟩

theorem test_bridgeCommands_1 : ∃ (s : State) (tag : Nat) (gen : Nat) (h : HeldRead), s.sys.up = true ∧ (List.find? (fun h => h.tag == tag && h.gen == gen && decide (h.expiry ≤ s.now)) s.bridge.held = some h) :=
  ⟨{ testUp with bridge := { held := [⟨511, 0, 1, 0, 0, 64, 0, .checker 0⟩] } }, 511, 0, ⟨511, 0, 1, 0, 0, 64, 0, .checker 0⟩, by decide +kernel, by decide +kernel⟩

theorem test_bridgeCommands_3 : ∃ (s : State) (mode : Nat), s.sys.up = true ∧ s.usbReady = true ∧ s.linkUp = false ∧ 1 ≤ mode ∧ mode ≤ 4 ∧ s.holdsGrant Holder.bridge = true :=
  ⟨(testUp.setFld Reg.UBR_CTRL Fd.UBR_CTRL_LINK_EN 1).testHolds [.bridge], 4, by decide +kernel, by decide +kernel, by decide +kernel, by decide +kernel, by decide +kernel, by decide +kernel⟩

theorem test_bridgeCommands_4 : ∃ (s : State), s.sys.up = true ∧ s.linkUp = true :=
  ⟨testUp.setFld Reg.UBR_STATUS Fd.UBR_STATUS_LINK_UP 1, by decide +kernel, by decide +kernel⟩

theorem test_bridgeCommands_5 : ∃ (s : State) (fn : Nat), s.sys.up = true ∧ 1 ≤ fn ∧ fn ≤ 64 :=
  ⟨testUp, 64, by decide +kernel, by decide +kernel, by decide +kernel⟩

theorem test_bridgeCommands_7 : ∃ (s : State) (fn : Nat), s.sys.up = true ∧ s.linkUp = true ∧ fn ≤ 64 ∧ s.bridge.masters.contains fn = false :=
  ⟨testUp.setFld Reg.UBR_STATUS Fd.UBR_STATUS_LINK_UP 1, 64, by decide +kernel, by decide +kernel, by decide +kernel, by decide +kernel⟩

theorem test_bridgeCommands_8 : ∃ (s : State) (fn : Nat) (vec : Nat), s.sys.up = true ∧ fn ≤ 64 ∧ vec < 64 ∧ (s.functionOn fn = true) ∧ s.linkUp = true :=
  ⟨{ testUp.setFld Reg.UBR_STATUS Fd.UBR_STATUS_LINK_UP 1 with bridge := { masters := [0] } }, 0, 63, by decide +kernel, by decide +kernel, by decide +kernel, by decide +kernel, by decide +kernel⟩

theorem test_bridgeCommands_9 : ∃ (s : State) (o : Origin), s.sys.up = true ∧ setupReader o = true :=
  ⟨testUp, .selvage, by decide +kernel, by decide +kernel⟩

theorem test_bridgeCommands_10 : ∃ (s : State) (req : BarReq) (far : List FarRead), s.sys.up = true ∧ s.linkUp = true :=
  ⟨testUp.setFld Reg.UBR_STATUS Fd.UBR_STATUS_LINK_UP 1, ⟨0, false, 0, 4, 0, false⟩, [], by decide +kernel, by decide +kernel⟩

theorem test_bridgeCommands_11 : ∃ (s : State) (o : Origin) (i : Nat), s.sys.up = true ∧ s.granted o mapCmd :=
  ⟨testUp, .selvage, 0, by decide +kernel, test_granted (by decide +kernel)⟩

theorem test_bridgeCommands_12 : ∃ (s : State) (o : Origin) (i : Nat), s.sys.up = true ∧ s.granted o mapCmd ∧ (s.indexed mapCmd i).live (s.indexed mapCmd i).mapWords.owner = true ∧ ((s.indexed mapCmd i).mapWords.data && (s.indexed mapCmd i).mapWords.metaBase == 0) = false ∧ ((s.indexed mapCmd i).mapWords.func ≤ 64) ∧ (s.indexed mapCmd i).granuleBusy (i % 4096) = false :=
  ⟨{ testUp.setFld Reg.UBR_MAP_D0 Fd.UBR_MAP_D0_OWNER 2 with trust := { tenants := [(2, { state := 1 })] } }, .selvage, 4095, by decide +kernel, test_granted (by decide +kernel), by decide +kernel, by decide +kernel, by decide +kernel, by decide +kernel⟩

theorem test_bridgeCommands_13 : ∃ (s : State) (o : Origin) (i : Nat), s.sys.up = true ∧ s.granted o mapCmd ∧ (s.indexed mapCmd i).granuleBusy (i % 4096) = false :=
  ⟨testUp, .selvage, 4095, by decide +kernel, test_granted (by decide +kernel), by decide +kernel⟩


/-! ### Witnesses of the clauses of CanCommandsComplete -/

theorem test_canCommands_0 : ∃ (s : State) (n : Nat), s.sys.up = true ∧ s.canLive n = true :=
  ⟨testUp.setFld (Reg.GWY_CAN_CFG 0) Fd.GWY_CAN_CFG_EN 1, 0, by decide +kernel, by decide +kernel⟩

theorem test_canCommands_1 : ∃ (s : State) (n : Nat) (e : CanErr), s.sys.up = true ∧ s.canLive n = true :=
  ⟨testUp.setFld (Reg.GWY_CAN_CFG 0) Fd.GWY_CAN_CFG_EN 1, 0, .transmit, by decide +kernel, by decide +kernel⟩

theorem test_canCommands_2 : ∃ (s : State) (n : Nat) (f : CanFrame) (sof : Nat), s.sys.up = true ∧ s.canLive n = true ∧ sof ≤ s.now ∧ s.canFormat n f f.data.length = true :=
  ⟨testUp.setFld (Reg.GWY_CAN_CFG 0) Fd.GWY_CAN_CFG_EN 1, 0, ⟨0, false, 1, false, false, false, false, 0, 0, 0, [1]⟩, 0, by decide +kernel, by decide +kernel, by decide +kernel, by decide +kernel⟩

theorem test_canCommands_3 : ∃ (s : State) (n : Nat), s.sys.up = true ∧ n < 16 ∧ s.canState n = 2 ∧ s.domainOn (219 + n / 4) = true ∧ s.bit (Reg.GWY_CAN_CFG n) Fd.GWY_CAN_CFG_AUTO_REC = true ∧ s.bit (Reg.GWY_CAN_CFG n) Fd.GWY_CAN_CFG_EN = true :=
  ⟨((testUp.setFld (Reg.GWY_CAN_CFG 0) Fd.GWY_CAN_CFG_EN 1).setFld (Reg.GWY_CAN_CFG 0) Fd.GWY_CAN_CFG_AUTO_REC 1).setCan 0 2 0 0, 0, by decide +kernel, by decide +kernel, by decide +kernel, by decide +kernel, by decide +kernel, by decide +kernel⟩

theorem test_canCommands_4 : ∃ (s : State) (o : Origin) (n : Nat) (v : Word) (w : Word), s.sys.up = true ∧ n < 16 ∧ s.bit (Reg.GWY_CAN_CFG n) Fd.GWY_CAN_CFG_EN = false ∧ s.writes o (Reg.GWY_CAN_CFG n) (Fd.GWY_CAN_CFG_EN.put v 1) w ∧ (s.landed o (Reg.GWY_CAN_CFG n) w).bit (Reg.GWY_CAN_CFG n) Fd.GWY_CAN_CFG_EN = true :=
  ⟨testUp, .selvage, 15, 0, (testWord ((testUp)) (.selvage) (Reg.GWY_CAN_CFG (15)) (Fd.GWY_CAN_CFG_EN.put (0) 1)), by decide +kernel, by decide +kernel, by decide +kernel, test_writes (by decide +kernel), by decide +kernel⟩

theorem test_canCommands_5 : ∃ (s : State) (n : Nat) (sof : Nat) (k : Nat) (q : Nat) (ws : List Nat) (l : List (Nat × List Nat)), s.sys.up = true ∧ s.canSends n = true ∧ sof ≤ s.now ∧ s.canWinner n sof = some k ∧ k < 4 ∧ s.rimOn (552 + n) = true ∧ (s.fq (FrameQ.can n k)).fetched = (q, ws) :: l :=
  ⟨((testUp.setFld (Reg.GWY_CAN_CFG 0) Fd.GWY_CAN_CFG_EN 1).setFld (fqReg (.can 0 3)) Fd.GWY_CAN_Q_EN 1).setFq (.can 0 3) { fetched := [(0, testEntry)] }, 0, 0, 3, 0, testEntry, [], by decide +kernel, by decide +kernel, by decide +kernel, by decide +kernel, by decide +kernel, by decide +kernel, by decide +kernel⟩

theorem test_canCommands_6 : ∃ (s : State) (q : FrameQ) (v : Word), s.sys.up = true ∧ fqValid q = true :=
  ⟨testUp, .tsn 7, 0, by decide +kernel, by decide +kernel⟩

theorem test_canCommands_7 : ∃ (s : State) (o : Origin) (q : FrameQ) (v : Word) (w : Word), s.sys.up = true ∧ fqValid q = true ∧ s.bit (fqReg q) Fd.GWY_CAN_Q_EN = false ∧ s.writes o (fqReg q) (Fd.GWY_CAN_Q_EN.put v 1) w ∧ (s.landed o (fqReg q) w).bit (fqReg q) Fd.GWY_CAN_Q_EN = true :=
  ⟨testUp, .selvage, .can 15 3, 0, (testWord ((testUp)) (.selvage) (fqReg (.can 15 3)) (Fd.GWY_CAN_Q_EN.put (0) 1)), by decide +kernel, by decide +kernel, by decide +kernel, test_writes (by decide +kernel), by decide +kernel⟩

theorem test_canCommands_8 : ∃ (s : State) (o : Origin) (q : FrameQ) (v : Word) (w : Word), s.sys.up = true ∧ fqValid q = true ∧ s.bit (fqReg q) Fd.GWY_CAN_Q_EN = true ∧ s.writes o (fqReg q) (Fd.GWY_CAN_Q_EN.put v 0) w ∧ (s.landed o (fqReg q) w).bit (fqReg q) Fd.GWY_CAN_Q_EN = false :=
  ⟨testUp.setFld (fqReg (.tsn 7)) Fd.GWY_CAN_Q_EN 1, .selvage, .tsn 7, (testUp.reg (fqReg (.tsn 7))), (testWord ((testUp.setFld (fqReg (.tsn 7)) Fd.GWY_CAN_Q_EN 1)) (.selvage) (fqReg (.tsn 7)) (Fd.GWY_CAN_Q_EN.put ((testUp.reg (fqReg (.tsn 7)))) 0)), by decide +kernel, by decide +kernel, by decide +kernel, test_writes (by decide +kernel), by decide +kernel⟩


/-! ### Witnesses of the clauses of SwitchCommandsComplete -/

theorem test_switchCommands_0 : ∃ (s : State) (p : Nat) (r : GateRun), s.sys.up = true ∧ (s.tsnPort p).run = some r ∧ s.domainOn 218 = true ∧ p < 6 ∧ s.intervalEnd ((s.tsnPort p).bank r.bank) r ≤ ↑s.now :=
  ⟨testUp.setTsnPort 5 { run := some { bank := 0, n := 0 } }, 5, { bank := 0, n := 0 }, by decide +kernel, by decide +kernel, by decide +kernel, by decide +kernel, by decide +kernel⟩

theorem test_switchCommands_1 : ∃ (s : State) (p : Nat), s.sys.up = true ∧ p < 6 ∧ s.domainOn 218 = true ∧ (s.tsnPort p).run = none ∧ ((s.tsnPort p).bank (s.fld (Reg.TSN_PORT_CFG p) Fd.TSN_PORT_CFG_GATE_BANK)).ents ≠ [] ∧ 0 < ((s.tsnPort p).bank (s.fld (Reg.TSN_PORT_CFG p) Fd.TSN_PORT_CFG_GATE_BANK)).cycle ∧ ↑((s.tsnPort p).bank (s.fld (Reg.TSN_PORT_CFG p) Fd.TSN_PORT_CFG_GATE_BANK)).base ≤ s.gptpNow :=
  ⟨testUp.setTsnPort 5 { bank0 := { ents := [(0, 0)], cycle := 1 } }, 5, by decide +kernel, by decide +kernel, by decide +kernel, by decide +kernel, by decide +kernel, by decide +kernel, by decide +kernel⟩

theorem test_switchCommands_2 : ∃ (s : State) (p : Nat) (bytes : List Byte) (sfd : Nat), s.sys.up = true ∧ p < 6 ∧ s.portOn p = true ∧ sfd ≤ s.now :=
  ⟨testUp.setFld (Reg.TSN_PORT_CFG 5) Fd.TSN_PORT_CFG_EN 1, 5, [], 0, by decide +kernel, by decide +kernel, by decide +kernel, by decide +kernel⟩

theorem test_switchCommands_4 : ∃ (s : State) (k : Nat) (q : Nat) (ws : List Nat) (l : List (Nat × List Nat)), s.sys.up = true ∧ k < 8 ∧ s.fqOn (FrameQ.tsn k) = true ∧ s.portOn 6 = true ∧ (s.fq (FrameQ.tsn k)).fetched = (q, ws) :: l ∧ s.entryWaits (k, q) = false :=
  ⟨((testUp.setFld (Reg.TSN_PORT_CFG 6) Fd.TSN_PORT_CFG_EN 1).setFld (fqReg (.tsn 7)) Fd.GWY_CAN_Q_EN 1).setFq (.tsn 7) { fetched := [(0, [])] }, 7, 0, [], [], by decide +kernel, by decide +kernel, by decide +kernel, by decide +kernel, by decide +kernel, by decide +kernel⟩

theorem test_switchCommands_5 : ∃ (s : State) (mac : Nat) (vid : Nat), s.sys.up = true ∧ s.fld Reg.TSN_CTRL Fd.TSN_CTRL_AGE_S ≠ 0 :=
  ⟨testUp.setFld Reg.TSN_CTRL Fd.TSN_CTRL_AGE_S 300, 0, 0, by decide +kernel, by decide +kernel⟩

theorem test_switchCommands_6 : ∃ (s : State) (p : Nat) (e : Word), s.sys.up = true ∧ s.gptpPort p = true :=
  ⟨(testUp.setFld (Reg.TSN_PORT_CFG 5) Fd.TSN_PORT_CFG_EN 1).setFld Reg.TSN_GPTP_CTRL Fd.TSN_GPTP_CTRL_PORTS 63, 5, 0, by decide +kernel, by decide +kernel⟩

theorem test_switchCommands_7 : ∃ (s : State), s.sys.up = true ∧ s.domainOn 218 = true :=
  ⟨testUp, by decide +kernel, by decide +kernel⟩

theorem test_switchCommands_8 : ∃ (s : State), s.sys.up = true ∧ s.domainOn 218 = true ∧ s.bit Reg.TSN_GPTP_CTRL Fd.TSN_GPTP_CTRL_GM_CAPABLE = true ∧ (s.gptpFlag Fd.TSN_GPTP_STATUS_GM_LOST 1).bit Reg.TSN_GPTP_CTRL Fd.TSN_GPTP_CTRL_GM_CAPABLE = true :=
  ⟨testUp.setFld Reg.TSN_GPTP_CTRL Fd.TSN_GPTP_CTRL_GM_CAPABLE 1, by decide +kernel, by decide +kernel, by decide +kernel, by decide +kernel⟩

theorem test_switchCommands_9 : ∃ (s : State) (o : Origin) (v : Word) (w : Word), s.sys.up = true ∧ mayWrite o [Writer.selvage, Writer.hypervisor] = true ∧ Fd.TSN_GPTP_CTRL_CMD.of (Fd.TSN_GPTP_CTRL_CMD.put v 1) = 1 ∧ s.writes o Reg.TSN_GPTP_CTRL (Fd.TSN_GPTP_CTRL_CMD.put v 1) w :=
  ⟨testUp, .selvage, 0, (testWord ((testUp)) (.selvage) Reg.TSN_GPTP_CTRL (Fd.TSN_GPTP_CTRL_CMD.put (0) 1)), by decide +kernel, by decide +kernel, by decide +kernel, test_writes (by decide +kernel)⟩

theorem test_switchCommands_10 : ∃ (s : State) (o : Origin) (v : Word) (w : Word), s.sys.up = true ∧ mayWrite o [Writer.selvage, Writer.hypervisor] = true ∧ Fd.TSN_GPTP_CTRL_CMD.of (Fd.TSN_GPTP_CTRL_CMD.put v 2) = 2 ∧ s.writes o Reg.TSN_GPTP_CTRL (Fd.TSN_GPTP_CTRL_CMD.put v 2) w :=
  ⟨testUp, .selvage, 0, (testWord ((testUp)) (.selvage) Reg.TSN_GPTP_CTRL (Fd.TSN_GPTP_CTRL_CMD.put (0) 2)), by decide +kernel, by decide +kernel, by decide +kernel, test_writes (by decide +kernel)⟩

theorem test_switchCommands_11 : ∃ (s : State) (o : Origin) (v : Word) (w : Word), s.sys.up = true ∧ s.gptpIs Fd.TSN_GPTP_STATUS_IS_GM = true ∧ s.writes o Reg.TSN_OFFSET v w :=
  ⟨testUp.setFld Reg.TSN_GPTP_STATUS Fd.TSN_GPTP_STATUS_IS_GM 1, .selvage, 0, (testWord ((testUp.setFld Reg.TSN_GPTP_STATUS Fd.TSN_GPTP_STATUS_IS_GM 1)) (.selvage) Reg.TSN_OFFSET (0)), by decide +kernel, by decide +kernel, test_writes (by decide +kernel)⟩

theorem test_switchCommands_12 : ∃ (s : State) (o : Origin) (p : Nat) (v : Word) (w : Word), s.sys.up = true ∧ p < 8 ∧ s.writes o (Reg.TSN_PORT_CFG p) v w :=
  ⟨testUp, .selvage, 7, 0, (testWord ((testUp)) (.selvage) (Reg.TSN_PORT_CFG (7)) (0)), by decide +kernel, by decide +kernel, test_writes (by decide +kernel)⟩


/-! ### Witnesses of the clauses of SluiceCommandsComplete -/

theorem test_sluiceCommands_0 : ∃ (s : State) (i : Nat) (bs : List Byte) (l : List (Nat × List Byte)), s.sys.up = true ∧ s.nets.sluIn = (i, bs) :: l ∧ s.sluiceOn = true :=
  ⟨{ testUp.setFld Reg.GWY_SLU_CTRL Fd.GWY_SLU_CTRL_EN 1 with nets := { sluIn := [(0, [])] } }, 0, [], [], by decide +kernel, by decide +kernel, by decide +kernel⟩

theorem test_sluiceCommands_1 : ∃ (s : State) (d : Nat), s.sys.up = true ∧ s.sluiceOn = true ∧ s.pdusOf.contains d = true ∧ (s.pdu d).dst = true ∧ s.slotReady d s.now = true :=
  ⟨((testUp.setFld Reg.GWY_SLU_CTRL Fd.GWY_SLU_CTRL_EN 1).setPdu 0 { valid := true, dst := true }).setSlot 0 { updated := true }, 0, by decide +kernel, by decide +kernel, by decide +kernel, by decide +kernel, by decide +kernel⟩

theorem test_sluiceCommands_2 : ∃ (s : State) (o : Origin) (v : Word) (w : Word), s.sys.up = true ∧ s.bit Reg.GWY_SLU_CTRL Fd.GWY_SLU_CTRL_EN = false ∧ s.writes o Reg.GWY_SLU_CTRL (Fd.GWY_SLU_CTRL_EN.put v 1) w ∧ (s.landed o Reg.GWY_SLU_CTRL w).bit Reg.GWY_SLU_CTRL Fd.GWY_SLU_CTRL_EN = true :=
  ⟨testUp, .selvage, 0, (testWord ((testUp)) (.selvage) Reg.GWY_SLU_CTRL (Fd.GWY_SLU_CTRL_EN.put (0) 1)), by decide +kernel, by decide +kernel, test_writes (by decide +kernel), by decide +kernel⟩

theorem test_sluiceCommands_3 : ∃ (s : State) (o : Origin) (i : Nat), s.sys.up = true ∧ s.granted o (pduSel o) :=
  ⟨testUp, .selvage, 0, by decide +kernel, test_granted (by decide +kernel)⟩

theorem test_sluiceCommands_4 : ∃ (s : State) (o : Origin) (i : Nat), s.sys.up = true ∧ s.granted o (pduSel o) ∧ (s.indexed (pduSel o) i).bit Reg.GWY_SLU_CTRL Fd.GWY_SLU_CTRL_EN = false ∧ (pduOf (BitVec.toNat ((s.indexed (pduSel o) i).reg (bankKey o Reg.GWY_SLU_PDU_D0))) (BitVec.toNat ((s.indexed (pduSel o) i).reg (bankKey o Reg.GWY_SLU_PDU_D1)))).ok = true :=
  ⟨(testUp.setReg (bankKey .selvage Reg.GWY_SLU_PDU_D0) testPdu.1).setReg (bankKey .selvage Reg.GWY_SLU_PDU_D1) testPdu.2, .selvage, 0, by decide +kernel, test_granted (by decide +kernel), by decide +kernel, by decide +kernel⟩

theorem test_sluiceCommands_5 : ∃ (s : State) (o : Origin) (i : Nat), s.sys.up = true ∧ s.granted o (pduSel o) ∧ (s.indexed (pduSel o) i).bit Reg.GWY_SLU_CTRL Fd.GWY_SLU_CTRL_EN = false :=
  ⟨testUp, .selvage, 0, by decide +kernel, test_granted (by decide +kernel), by decide +kernel⟩

theorem test_sluiceCommands_6 : ∃ (s : State) (o : Origin) (i : Nat), s.sys.up = true ∧ s.granted o (mapSel o) :=
  ⟨testUp, .selvage, 0, by decide +kernel, test_granted (by decide +kernel)⟩

theorem test_sluiceCommands_7 : ∃ (s : State) (o : Origin) (i : Nat), s.sys.up = true ∧ s.granted o (mapSel o) ∧ (s.indexed (mapSel o) i).bit Reg.GWY_SLU_CTRL Fd.GWY_SLU_CTRL_EN = false :=
  ⟨testUp, .selvage, 0, by decide +kernel, test_granted (by decide +kernel), by decide +kernel⟩


/-! ### Witnesses of the clauses of CausewayFramesComplete -/

theorem test_causewayFrames_0 : ∃ (s : State) (port : Nat) (i : Nat) (f : Frame), s.sys.up = true ∧ s.sender port f = some i ∧ s.goneTenant f.tenant = false :=
  ⟨({ testUp with cwy := { hasSection := true, nPeers := 1, peers := [(0, { device := 1, ports := 1, direct := true, state := 3 })] } }).setFld (Reg.CWY_PORT 0) Fd.CWY_PORT_STATE 2, 0, 0, { type := 1, src := 1, dst := testUp.ownDev, length := 64 }, by decide +kernel, by decide +kernel, by decide +kernel⟩

theorem test_causewayFrames_1 : ∃ (s : State) (port : Nat) (i : Nat) (f : Frame), s.sys.up = true ∧ s.sender port f = some i ∧ s.goneTenant f.tenant = false :=
  ⟨({ testUp with cwy := { hasSection := true, nPeers := 1, peers := [(0, { device := 1, ports := 1, direct := true, state := 3 })] } }).setFld (Reg.CWY_PORT 0) Fd.CWY_PORT_STATE 2, 0, 0, { type := 1, src := 1, dst := testUp.ownDev, length := 64 }, by decide +kernel, by decide +kernel, by decide +kernel⟩

theorem test_causewayFrames_2 : ∃ (s : State) (port : Nat) (i : Nat) (f : Frame), s.sys.up = true ∧ s.sender port f = some i ∧ s.goneTenant f.tenant = false ∧ f.seq = (((s.keyReady f.tenant i).heard i f).peer i).expect ∧ 1 ≤ f.length ∧ f.length ≤ 4096 ∧ (((s.keyReady f.tenant i).heard i f).setPeer i         (have __src := ((s.keyReady f.tenant i).heard i f).peer i;         { device := __src.device, mac := __src.mac, ports := __src.ports, direct := __src.direct, keyId := __src.keyId, state := __src.state, seq := __src.seq, expect := ((((s.keyReady f.tenant i).heard i f).peer i).expect + 1) % 2 ^ 32, ivc := __src.ivc, unacked := __src.unacked, backlog := __src.backlog, retries := __src.retries, moved := __src.moved, sentAt := __src.sentAt, heardAt := __src.heardAt, ackDue := true })).serves     f.tenant f.arg f.length =   true :=
  ⟨({ testUp with cwy := { hasSection := true, nPeers := 1, peers := [(0, { device := 1, ports := 1, direct := true, state := 3 })] } }).setFld (Reg.CWY_PORT 0) Fd.CWY_PORT_STATE 2, 0, 0, { type := 1, src := 1, dst := testUp.ownDev, length := 64 }, by decide +kernel, by decide +kernel, by decide +kernel, by decide +kernel, by decide +kernel, by decide +kernel, by decide +kernel⟩

theorem test_causewayFrames_3 : ∃ (s : State) (port : Nat) (i : Nat) (f : Frame), s.sys.up = true ∧ s.sender port f = some i ∧ s.goneTenant f.tenant = false ∧ f.seq = (((s.keyReady f.tenant i).heard i f).peer i).expect ∧ (((s.keyReady f.tenant i).heard i f).setPeer i         (have __src := ((s.keyReady f.tenant i).heard i f).peer i;         { device := __src.device, mac := __src.mac, ports := __src.ports, direct := __src.direct, keyId := __src.keyId, state := __src.state, seq := __src.seq, expect := ((((s.keyReady f.tenant i).heard i f).peer i).expect + 1) % 2 ^ 32, ivc := __src.ivc, unacked := __src.unacked, backlog := __src.backlog, retries := __src.retries, moved := __src.moved, sentAt := __src.sentAt, heardAt := __src.heardAt, ackDue := true })).serves     f.tenant f.arg 32 =   true :=
  ⟨({ testUp with cwy := { hasSection := true, nPeers := 1, peers := [(0, { device := 1, ports := 1, direct := true, state := 3 })] } }).setFld (Reg.CWY_PORT 0) Fd.CWY_PORT_STATE 2, 0, 0, { type := 1, src := 1, dst := testUp.ownDev, length := 64 }, by decide +kernel, by decide +kernel, by decide +kernel, by decide +kernel, by decide +kernel⟩

theorem test_causewayFrames_4 : ∃ (s : State) (port : Nat) (i : Nat) (f : Frame), s.sys.up = true ∧ s.sender port f = some i ∧ s.goneTenant f.tenant = false ∧ f.seq = (((s.keyReady f.tenant i).heard i f).peer i).expect :=
  ⟨({ testUp with cwy := { hasSection := true, nPeers := 1, peers := [(0, { device := 1, ports := 1, direct := true, state := 3 })] } }).setFld (Reg.CWY_PORT 0) Fd.CWY_PORT_STATE 2, 0, 0, { type := 1, src := 1, dst := testUp.ownDev, length := 64 }, by decide +kernel, by decide +kernel, by decide +kernel, by decide +kernel⟩

theorem test_causewayFrames_5 : ∃ (s : State) (port : Nat) (i : Nat) (f : Frame) (lane : Nat) (jrnl : Bool), s.sys.up = true ∧ s.sender port f = some i ∧ s.goneTenant f.tenant = false ∧ f.seq = (((s.keyReady f.tenant i).heard i f).peer i).expect ∧ ((((s.keyReady f.tenant i).heard i f).setPeer i           (have __src := ((s.keyReady f.tenant i).heard i f).peer i;           { device := __src.device, mac := __src.mac, ports := __src.ports, direct := __src.direct, keyId := __src.keyId, state := __src.state, seq := __src.seq, expect := ((((s.keyReady f.tenant i).heard i f).peer i).expect + 1) % 2 ^ 32, ivc := __src.ivc, unacked := __src.unacked, backlog := __src.backlog, retries := __src.retries, moved := __src.moved, sentAt := __src.sentAt, heardAt := __src.heardAt, ackDue := true })).peer       i).direct =   true :=
  ⟨({ testUp with cwy := { hasSection := true, nPeers := 1, peers := [(0, { device := 1, ports := 1, direct := true, state := 3 })] } }).setFld (Reg.CWY_PORT 0) Fd.CWY_PORT_STATE 2, 0, 0, { type := 1, src := 1, dst := testUp.ownDev, length := 64 }, 0, false, by decide +kernel, by decide +kernel, by decide +kernel, by decide +kernel, by decide +kernel⟩

theorem test_causewayFrames_6 : ∃ (s : State) (port : Nat) (i : Nat) (f : Frame) (r : RemoteRead), s.sys.up = true ∧ s.sender port f = some i ∧ s.goneTenant f.tenant = false ∧ f.seq = (((s.keyReady f.tenant i).heard i f).peer i).expect ∧ (List.find? (fun r => r.peer == i && r.tag == f.tag)     (((s.keyReady f.tenant i).heard i f).setPeer i           (have __src := ((s.keyReady f.tenant i).heard i f).peer i;           { device := __src.device, mac := __src.mac, ports := __src.ports, direct := __src.direct, keyId := __src.keyId, state := __src.state, seq := __src.seq, expect := ((((s.keyReady f.tenant i).heard i f).peer i).expect + 1) % 2 ^ 32, ivc := __src.ivc, unacked := __src.unacked, backlog := __src.backlog, retries := __src.retries, moved := __src.moved, sentAt := __src.sentAt, heardAt := __src.heardAt, ackDue := true })).cwy.reads =   some r) ∧ (((s.keyReady f.tenant i).heard i f).setPeer i       (have __src := ((s.keyReady f.tenant i).heard i f).peer i;       { device := __src.device, mac := __src.mac, ports := __src.ports, direct := __src.direct, keyId := __src.keyId, state := __src.state, seq := __src.seq, expect := ((((s.keyReady f.tenant i).heard i f).peer i).expect + 1) % 2 ^ 32, ivc := __src.ivc, unacked := __src.unacked, backlog := __src.backlog, retries := __src.retries, moved := __src.moved, sentAt := __src.sentAt, heardAt := __src.heardAt, ackDue := true })).now <   r.expiry :=
  ⟨({ testUp with cwy := { hasSection := true, nPeers := 1, peers := [(0, { device := 1, ports := 1, direct := true, state := 3 })], reads := [⟨0, 0, 2, 0, 64, 0, 1, false, false, .checker 0⟩] } }).setFld (Reg.CWY_PORT 0) Fd.CWY_PORT_STATE 2, 0, 0, { type := 1, src := 1, dst := testUp.ownDev, length := 64 }, ⟨0, 0, 2, 0, 64, 0, 1, false, false, .checker 0⟩, by decide +kernel, by decide +kernel, by decide +kernel, by decide +kernel, by decide +kernel, by decide +kernel⟩

theorem test_causewayFrames_7 : ∃ (s : State) (port : Nat) (i : Nat) (f : Frame) (r : RemoteRead), s.sys.up = true ∧ s.sender port f = some i ∧ s.goneTenant f.tenant = false ∧ f.seq = (((s.keyReady f.tenant i).heard i f).peer i).expect ∧ (List.find? (fun r => r.peer == i && r.tag == f.tag)     (((s.keyReady f.tenant i).heard i f).setPeer i           (have __src := ((s.keyReady f.tenant i).heard i f).peer i;           { device := __src.device, mac := __src.mac, ports := __src.ports, direct := __src.direct, keyId := __src.keyId, state := __src.state, seq := __src.seq, expect := ((((s.keyReady f.tenant i).heard i f).peer i).expect + 1) % 2 ^ 32, ivc := __src.ivc, unacked := __src.unacked, backlog := __src.backlog, retries := __src.retries, moved := __src.moved, sentAt := __src.sentAt, heardAt := __src.heardAt, ackDue := true })).cwy.reads =   some r) ∧ (((s.keyReady f.tenant i).heard i f).setPeer i       (have __src := ((s.keyReady f.tenant i).heard i f).peer i;       { device := __src.device, mac := __src.mac, ports := __src.ports, direct := __src.direct, keyId := __src.keyId, state := __src.state, seq := __src.seq, expect := ((((s.keyReady f.tenant i).heard i f).peer i).expect + 1) % 2 ^ 32, ivc := __src.ivc, unacked := __src.unacked, backlog := __src.backlog, retries := __src.retries, moved := __src.moved, sentAt := __src.sentAt, heardAt := __src.heardAt, ackDue := true })).now <   r.expiry :=
  ⟨({ testUp with cwy := { hasSection := true, nPeers := 1, peers := [(0, { device := 1, ports := 1, direct := true, state := 3 })], reads := [⟨0, 0, 2, 0, 64, 0, 1, false, false, .checker 0⟩] } }).setFld (Reg.CWY_PORT 0) Fd.CWY_PORT_STATE 2, 0, 0, { type := 1, src := 1, dst := testUp.ownDev, length := 64 }, ⟨0, 0, 2, 0, 64, 0, 1, false, false, .checker 0⟩, by decide +kernel, by decide +kernel, by decide +kernel, by decide +kernel, by decide +kernel, by decide +kernel⟩

theorem test_causewayFrames_8 : ∃ (s : State) (port : Nat) (i : Nat) (f : Frame) (r : RemoteRead), s.sys.up = true ∧ s.sender port f = some i ∧ s.goneTenant f.tenant = false ∧ f.seq = (((s.keyReady f.tenant i).heard i f).peer i).expect ∧ (List.find? (fun r => r.peer == i && r.tag == f.tag)     (((s.keyReady f.tenant i).heard i f).setPeer i           (have __src := ((s.keyReady f.tenant i).heard i f).peer i;           { device := __src.device, mac := __src.mac, ports := __src.ports, direct := __src.direct, keyId := __src.keyId, state := __src.state, seq := __src.seq, expect := ((((s.keyReady f.tenant i).heard i f).peer i).expect + 1) % 2 ^ 32, ivc := __src.ivc, unacked := __src.unacked, backlog := __src.backlog, retries := __src.retries, moved := __src.moved, sentAt := __src.sentAt, heardAt := __src.heardAt, ackDue := true })).cwy.reads =   some r) ∧ (((s.keyReady f.tenant i).heard i f).setPeer i       (have __src := ((s.keyReady f.tenant i).heard i f).peer i;       { device := __src.device, mac := __src.mac, ports := __src.ports, direct := __src.direct, keyId := __src.keyId, state := __src.state, seq := __src.seq, expect := ((((s.keyReady f.tenant i).heard i f).peer i).expect + 1) % 2 ^ 32, ivc := __src.ivc, unacked := __src.unacked, backlog := __src.backlog, retries := __src.retries, moved := __src.moved, sentAt := __src.sentAt, heardAt := __src.heardAt, ackDue := true })).now <   r.expiry ∧ r.isSeal = true :=
  ⟨({ testUp with cwy := { hasSection := true, nPeers := 1, peers := [(0, { device := 1, ports := 1, direct := true, state := 3 })], reads := [⟨0, 0, 2, 0, 64, 0, 1, true, false, .checker 0⟩] } }).setFld (Reg.CWY_PORT 0) Fd.CWY_PORT_STATE 2, 0, 0, { type := 1, src := 1, dst := testUp.ownDev, length := 64 }, ⟨0, 0, 2, 0, 64, 0, 1, true, false, .checker 0⟩, by decide +kernel, by decide +kernel, by decide +kernel, by decide +kernel, by decide +kernel, by decide +kernel, by decide +kernel⟩


/-! ### Witnesses of the clauses of CausewayLinksComplete -/

theorem test_causewayLinks_0 : ∃ (s : State) (tenant : Nat) (i : Nat), s.sys.up = true ∧ (s.peer i).state = 3 ∧ s.hasKey tenant i = false :=
  ⟨{ testUp with time := 0x100000000000000000000, cwy := { hasSection := true, nPeers := 1, peers := [(0, { device := 1, ports := 1, direct := true, state := 3 })] } }, 0, 0, by decide +kernel, by decide +kernel, by decide +kernel⟩

theorem test_causewayLinks_1 : ∃ (s : State) (i : Nat), s.sys.up = true ∧ (s.peer i).state = 3 ∧ (s.peer i).sentAt + 100000 ≤ s.now ∧ s.hasKey 2 i = true :=
  ⟨{ testUp with time := 0x100000000000000000000, cwy := { hasSection := true, nPeers := 1, peers := [(0, { device := 1, ports := 1, direct := true, state := 3 })], keys := [(2, 0)] } }, 0, by decide +kernel, by decide +kernel, by decide +kernel, by decide +kernel⟩

theorem test_causewayLinks_2 : ∃ (s : State) (i : Nat), s.sys.up = true ∧ (s.peer i).state = 3 ∧ (((s.peer i).unacked.any fun h => h.sent) = true) ∧ (s.peer i).moved + 1000 * max 1 (s.fld Reg.CWY_CFG Fd.CWY_CFG_RETX_US) ≤ s.now ∧ 8 ≤ (s.peer i).retries :=
  ⟨{ testUp with time := 0x100000000000000000000, cwy := { hasSection := true, nPeers := 1, peers := [(0, { device := 1, ports := 1, direct := true, state := 3, unacked := [⟨{ type := 1 }, true⟩], retries := 8 })] } }, 0, by decide +kernel, by decide +kernel, by decide +kernel, by decide +kernel, by decide +kernel⟩

theorem test_causewayLinks_3 : ∃ (s : State) (i : Nat), s.sys.up = true ∧ (s.peer i).state = 3 ∧ (((s.peer i).unacked.any fun h => h.sent) = true) ∧ (s.peer i).moved + 1000 * max 1 (s.fld Reg.CWY_CFG Fd.CWY_CFG_RETX_US) ≤ s.now ∧ (s.peer i).retries < 8 :=
  ⟨{ testUp with time := 0x100000000000000000000, cwy := { hasSection := true, nPeers := 1, peers := [(0, { device := 1, ports := 1, direct := true, state := 3, unacked := [⟨{ type := 1 }, true⟩], retries := 7 })] } }, 0, by decide +kernel, by decide +kernel, by decide +kernel, by decide +kernel, by decide +kernel⟩

theorem test_causewayLinks_4 : ∃ (s : State) (i : Nat), s.sys.up = true ∧ (s.peer i).state = 3 ∧ (s.peer i).heardAt + 1000 * max 1 (s.fld Reg.CWY_CFG Fd.CWY_CFG_PEER_TMO_US) ≤ s.now :=
  ⟨{ testUp with time := 0x100000000000000000000, cwy := { hasSection := true, nPeers := 1, peers := [(0, { device := 1, ports := 1, direct := true, state := 3 })] } }, 0, by decide +kernel, by decide +kernel, by decide +kernel⟩

theorem test_causewayLinks_5 : ∃ (s : State) (port : Nat) (src : Nat) (cert : List Byte) (i : Nat), s.sys.up = true ∧ s.peerOf src = some i ∧ s.onPort port i = true :=
  ⟨({ testUp with time := 0x100000000000000000000, cwy := { hasSection := true, nPeers := 1, peers := [(0, { device := 1, ports := 1, direct := true, state := 3 })] } }).setFld (Reg.CWY_PORT 0) Fd.CWY_PORT_STATE 2, 0, 1, [], 0, by decide +kernel, by decide +kernel, by decide +kernel⟩

theorem test_causewayLinks_6 : ∃ (s : State) (port : Nat) (lanes : Nat), s.sys.up = true ∧ s.mayTrain port = true ∧ s.lanesOk port lanes = true ∧ s.holdsGrant (Holder.causewayPort port) = true :=
  ⟨(((({ testUp with time := 0x100000000000000000000, cwy := { hasSection := true, nPeers := 1, peers := [(0, { device := 1, ports := 1, direct := true, state := 3 })] } }).setFld (Reg.CWY_PORT 3) Fd.CWY_PORT_EN 1).setFld (Reg.CWY_PORT 3) Fd.CWY_PORT_STATE 1).testHolds [.causewayPort 3]), 3, 3, by decide +kernel, by decide +kernel, by decide +kernel, by decide +kernel⟩

theorem test_causewayLinks_7 : ∃ (s : State) (port : Nat), s.sys.up = true ∧ port < 4 ∧ s.portUp port = true :=
  ⟨testUp.setFld (Reg.CWY_PORT 3) Fd.CWY_PORT_STATE 2, 3, by decide +kernel, by decide +kernel, by decide +kernel⟩

theorem test_causewayLinks_8 : ∃ (s : State) (o : Origin) (p : Nat) (v : Word) (w : Word), s.sys.up = true ∧ s.cwy.hasSection = true ∧ s.writes o (Reg.CWY_PORT (p % 4)) v w :=
  ⟨{ testUp with cwy := { hasSection := true } }, .selvage, 3, 0, (testWord (({ testUp with cwy := { hasSection := true } })) (.selvage) (Reg.CWY_PORT ((3) % 4)) (0)), by decide +kernel, by decide +kernel, test_writes (by decide +kernel)⟩

theorem test_causewayLinks_9 : ∃ (s : State) (port : Nat) (lane : Nat) (jrnl : Bool) (oneLane : Bool), s.sys.up = true ∧ port < 4 ∧ lane < 3 ∧ s.portUp port = true ∧ s.fld (Reg.CWY_PORT port) Fd.CWY_PORT_LANES / 2 ^ lane % 2 = 1 :=
  ⟨(testUp.setFld (Reg.CWY_PORT 3) Fd.CWY_PORT_STATE 2).setFld (Reg.CWY_PORT 3) Fd.CWY_PORT_LANES 7, 3, 2, false, false, by decide +kernel, by decide +kernel, by decide +kernel, by decide +kernel, by decide +kernel⟩

theorem test_causewayLinks_10 : ∃ (s : State) (o : Origin) (i : Nat), s.sys.up = true ∧ s.granted o (peerSel o) ∧ i % 256 < s.cwy.nPeers :=
  ⟨{ testUp with time := 0x100000000000000000000, cwy := { hasSection := true, nPeers := 1, peers := [(0, { device := 1, ports := 1, direct := true, state := 3 })] } }, .selvage, 0, by decide +kernel, test_granted (by decide +kernel), by decide +kernel⟩


/-! ### Witnesses of the clauses of SetupCommandsComplete -/

theorem test_setupCommands_0 : ∃ (s : State) (o : Origin) (d : Nat) (v : Word), s.sys.up = true ∧ d < 3 ∧ setupOrigin o = true :=
  ⟨testUp, .selvage, 2, 0, by decide +kernel, by decide +kernel, by decide +kernel⟩

theorem test_setupCommands_1 : ∃ (s : State) (o : Origin) (u : Nat) (v : Word) (w : Word), s.sys.up = true ∧ u < 32 ∧ s.writes o (Reg.GEN_UFS_LU u) v w ∧ (s.fld (Reg.GEN_UFS_LU u) Fd.GEN_UFS_LU_OWNER = 0 ∨ Fd.GEN_UFS_LU_OWNER.of v = 0) ∧ (RegMap.find (Reg.GEN_UFS_LU u)).isSome = true :=
  ⟨testUp, .selvage, 31, 0, (testWord ((testUp)) (.selvage) (Reg.GEN_UFS_LU (31)) (0)), by decide +kernel, by decide +kernel, test_writes (by decide +kernel), by decide +kernel, by decide +kernel⟩

theorem test_setupCommands_2 : ∃ (s : State) (o : Origin) (blk : Nat), s.sys.up = true ∧ hasLock blk = true :=
  ⟨testUp, .selvage, 21, by decide +kernel, by decide +kernel⟩

theorem test_setupCommands_3 : ∃ (s : State) (o : Origin) (off : Nat) (v : Word) (env : WriteEnv), s.sys.up = true ∧ setupOrigin o = true ∧ off % 4 = 0 ∧ off < setupEnd ∧ wideAt off = none :=
  ⟨testUp, .selvage, setupEnd - 4, 0, {}, by decide +kernel, by decide +kernel, by decide +kernel, by decide +kernel, by decide +kernel⟩

theorem test_setupCommands_4 : ∃ (s : State) (o : Origin) (off : Nat) (v : Word) (env : WriteEnv), s.sys.up = true ∧ setupOrigin o = true ∧ off % 4 = 0 ∧ off < setupEnd ∧ off % 8 = 0 ∧ widthAt off = some 64 :=
  ⟨testUp, .selvage, Reg.TIME_NOW, 0, {}, by decide +kernel, by decide +kernel, by decide +kernel, by decide +kernel, by decide +kernel, by decide +kernel⟩

/-! ### Commands that are not well formed: one for each check, refused -/

theorem test_illFormed_0 : ∀ c ∈ ([
    .tackFire 4096, .tackLateFire 4096, .tackTimeout 4096, .tackRead (.vi 64) 0, .tackRead .hypervisor 4096, .tackWrite (.vi 64) 0,
    .tackWrite .hypervisor 4096, .tackDisable (.vi 64) 0, .tackDisable .hypervisor 4096, .tackClear (.vi 64) 0, .tackClear .hypervisor 4096,
    .fsyncPulseEnd 16, .fsyncCfgWrite (.vi 64) 0 0, .fsyncCfgWrite .hypervisor 16 0, .timeNowLoRead (.vi 64), .timeRateAdjWrite (.vi 64) 0,
    .clrMin (.vi 64) 0, .alwRequest ⟨.core 128, 0⟩, .alwRequest ⟨.appCore 16, 0⟩, .alwRequest ⟨.appCluster 2, 0⟩, .alwRequest ⟨.safetyPair 2, 0⟩,
    .alwRequest ⟨.channel 16, 0⟩, .alwRequest ⟨.pipe 4, 0⟩, .alwRequest ⟨.causewayPort 4, 0⟩] : List Instr), c.wellFormed = false := by decide

theorem test_illFormed_1 : ∀ c ∈ ([
    .alwRequest ⟨.sealChecker 4, 0⟩, .alwRequest ⟨.loader 4096, 0⟩, .alwRequest ⟨.copyBack 2, 0⟩, .alwRequest ⟨.comparator 8, 0⟩,
    .alwRequest ⟨.spare 8, 0⟩, .alwRequest ⟨.domain 224, 0⟩, .alwRelease (.core 128) 0, .alwRelease (.appCore 16) 0, .alwRelease (.appCluster 2) 0,
    .alwRelease (.safetyPair 2) 0, .alwRelease (.channel 16) 0, .alwRelease (.pipe 4) 0, .alwRelease (.causewayPort 4) 0,
    .alwRelease (.sealChecker 4) 0, .alwRelease (.loader 4096) 0, .alwRelease (.copyBack 2) 0, .alwRelease (.comparator 8) 0,
    .alwRelease (.spare 8) 0, .alwRelease (.domain 224) 0, .alwBudgetWrite (.vi 64) false 0, .pwrDomainOn (.vi 64) 0, .pwrDomainOn .hypervisor 256,
    .pwrDomainPowered 224, .pwrDomainOff (.vi 64) 0] : List Instr), c.wellFormed = false := by decide

theorem test_illFormed_2 : ∀ c ∈ ([
    .pwrDomainOff .hypervisor 256, .rimStart 577, .rimStop 577, .rimSlip 577, .beatRead (.vi 64) (.addr 0) 0 false,
    .beatRead .hypervisor (.phys 0 0 0 0) 0 false, .beatRead .device (.phys 528 0 0 0) 0 false, .beatRead .device (.phys 0 16 0 0) 0 false,
    .beatRead .device (.phys 0 0 4096 0) 0 false, .beatRead .device (.phys 0 0 0 32) 0 false, .rowWindowExpire 528 0 0, .rowWindowExpire 0 16 0,
    .rowWindowExpire 0 0 4096, .rowReplaceDone 528 0 0, .rowReplaceDone 0 16 0, .rowReplaceDone 0 0 4096, .refreshTierChange 8 0, .jobCommit 1024 0,
    .stageWaitEnd 128, .memErrPop (.vi 64), .memStageWrite (.vi 64) 0, .mload 128 0 0 0 0 none, .mstep 128 ⟨2, 2⟩ 0 0 0 0 0 0 false false none,
    .mstep 0 ⟨2, 2⟩ 65 0 0 0 0 0 false false none] : List Instr), c.wellFormed = false := by decide

theorem test_illFormed_3 : ∀ c ∈ ([
    .mstep 0 ⟨2, 2⟩ 0 64 0 0 0 0 false false none, .mdrain ⟨128, none⟩ 0 0 0 false none, .mdrain ⟨0, none⟩ 64 0 0 false none,
    .mdrain ⟨0, none⟩ 0 256 0 false none, .mdrain ⟨0, none⟩ 0 0 2 false none, .vload 128 0 0 0 0 none, .vload 0 256 0 0 0 none,
    .vstore 128 0 0 0 0 false none, .vstore 0 256 0 0 0 false none, .vectorOp ⟨128, none⟩ 0 (.iadd 0 0), .vectorOp ⟨0, none⟩ 256 (.iadd 0 0),
    .fill 128 0 (.raw 0 0) 0 0, .fill 0 16 (.raw 0 0) 0 0, .drain ⟨128, none⟩ 0 ⟨0, 0, 0, 0, 0, 0, 0, 0, 1⟩ 0 0,
    .drain ⟨0, none⟩ 16 ⟨0, 0, 0, 0, 0, 0, 0, 0, 1⟩ 0 0, .drain ⟨0, none⟩ 0 ⟨0, 0, 0, 0, 0, 0, 0, 0, 0⟩ 0 0,
    .fill 0 0 (.band ⟨0, 0, 0, 0, 0, 0, 0, 0, 2⟩) 0 0, .xchg ⟨128, none⟩ 0 0 0 0 0, .xchg ⟨0, none⟩ 16 0 0 0 0, .xchg ⟨0, none⟩ 0 128 0 0 0,
    .transferDone 128 0, .transferDone 0 16, .waitTag 128 0, .waitTag 0 16] : List Instr), c.wellFormed = false := by decide

theorem test_illFormed_4 : ∀ c ∈ ([
    .fence 128, .branch 128 none, .cheap 128, .scan ⟨128, none⟩ 0 0 0 0 0 0, .sort ⟨128, none⟩ 0, .suppress ⟨128, none⟩ 0 0 0, .emit ⟨128, none⟩ 0,
    .qpush ⟨128, none⟩ 0 0 0 0 0, .qpush ⟨0, none⟩ 128 0 0 0 0, .qpop 128 0, .tileSetup 128 0 0 [] false false false, .interlockAcquire 128 0 0,
    .interlockAcquire 0 0 64, .interlockRelease 128 0 0, .interlockRelease 0 0 64, .attributeInterpolation 128 0, .attributeInterpolation 0 256,
    .spanOverrun 128, .watchdogExpire 128, .forcedPreempt 1024 0, .saveDone 1024 0, .modeSwitchDone 128, .reservationExpire 1024 0 0,
    .viResume (.vi 64) 0] : List Instr), c.wellFormed = false := by decide

theorem test_illFormed_5 : ∀ c ∈ ([
    .viResume .hypervisor 64, .hotRead (.vi 64) 0, .hotRead .hypervisor 4096, .hotRegister (.vi 64) 0, .hotRegister .hypervisor 4096,
    .hotUnregister (.vi 64) 0, .hotUnregister .hypervisor 4096, .hotSetFlags (.vi 64) 0, .hotSetFlags .hypervisor 4096, .hotEvict (.vi 64) 0,
    .hotEvict .hypervisor 4096, .hotLoadDone 4096 none, .doorbellWrite (.source 16) 0, .doorbellPoll (.source 16) [], .ringWake (.vi 64) 0 [],
    .ringWake .hypervisor 1024 [], .jobDescriptor 1024 [], .knotDescriptor 1024, .cancelDescriptor 1024, .knotWaitTimeout 1024 0 0,
    .jobLeaseExpire 1024 0 0, .sealCheckDone 4, .ringEnable (.vi 64) 0 0 [], .ringEnable .hypervisor 1024 0 []] : List Instr), c.wellFormed = false := by decide

theorem test_illFormed_6 : ∀ c ∈ ([
    .ringDisable (.vi 64) 0 0, .ringDisable .hypervisor 1024 0, .ringCancel (.vi 64) 0 0, .ringCancel .hypervisor 1024 0, .knotSelRead (.vi 64) 0,
    .knotSelRead .hypervisor 16384, .knotSelSet (.vi 64) 0, .knotSelSet .hypervisor 16384, .knotSelAdd (.vi 64) 0, .knotSelAdd .hypervisor 16384,
    .knotRangeWrite (.vi 64) 0 0, .knotRangeWrite .hypervisor 64 0, .frameStart 4 0 0 0, .frameStart 0 4 0 0, .longPacket 4 0 0 0 false [],
    .longPacket 0 4 0 0 false [], .longPacket 0 0 64 0 false [], .frameEnd 4 0 0, .frameEnd 0 4 0, .tdmFrame 4 [], .lateBudgetExpire 16 0,
    .sourceEntryFetch 16 [], .pictureDecoded 2 0 0 ⟨[], none⟩, .channelEnable (.vi 64) 0 0] : List Instr), c.wellFormed = false := by decide

theorem test_illFormed_7 : ∀ c ∈ ([
    .channelEnable .hypervisor 16 0, .channelDisable (.vi 64) 0 0, .channelDisable .hypervisor 16 0, .unordWrite (.vi 64) 0 false,
    .unordWrite .hypervisor 16 false, .decoderEnable (.vi 64) 0 0, .decoderEnable .hypervisor 2 0, .encoderEnable (.vi 64) 0, .gridPassDone 2 [],
    .trackStep 2, .trackStepDone 2, .gridEnable (.vi 64) 0 0, .gridEnable .hypervisor 2 0, .gridDisable (.vi 64) 0 0, .gridDisable .hypervisor 2 0,
    .pipeEnable (.vi 64) 0 0, .pipeEnable .hypervisor 4 0, .linkTrainingDone 4 false, .pipeDisable (.vi 64) 0 0, .pipeDisable .hypervisor 4 0,
    .heldFrameStart 4, .freeRun 4, .telltaleCrc 4 0, .telltaleCrc 0 32] : List Instr), c.wellFormed = false := by decide

theorem test_illFormed_8 : ∀ c ∈ ([
    .spEnable (.vi 64) 0 0, .spEnable .hypervisor 4 0, .spTableWrite (.vi 64) 0 0, .spTableWrite .hypervisor 4 0, .earlyViewEnd (.vi 64),
    .compareDone 8 false, .lockstepDivergence 2, .pairRestart 2, .debugRead (.pair 0) 128 .position, .selftestStart 256 false,
    .goldenRunDone 128 false false, .coverDeadline 128, .safeForce (.vi 64) false, .swErr (.vi 64) 0, .stRead (.vi 64) 0, .stRead .hypervisor 256,
    .stWrite (.vi 64) 0, .stWrite .hypervisor 256, .coreDarnDone 128 false, .channelDarn 528 false, .channelCopyDone 528,
    .spRowReplace 136 0 0 false, .spRowReplace 0 64 0 false, .spRowReplace 0 0 260 false] : List Instr), c.wellFormed = false := by decide

theorem test_illFormed_9 : ∀ c ∈ ([
    .darnCore (.vi 64) 0 false, .darnCore .hypervisor 1024 false, .darnChannel (.vi 64) 0 false, .darnChannel .hypervisor 1024 false,
    .darnLane (.vi 64) 0 false, .darnLane .hypervisor 1024 false, .rootLeaseExpire 27, .unitRestored 27, .panelTimerExpire 128 false,
    .arrayTimerExpire 16, .fwStage (.vi 64) 0, .fwStage .hypervisor 8, .fwSwitch (.vi 64) 0 false, .fwSwitch .hypervisor 8 false,
    .fwDiscard (.vi 64) 0, .fwDiscard .hypervisor 8, .tenantRead (.vi 64) 0, .tenantRead .hypervisor 256, .tenantCreate (.vi 64) 0,
    .tenantCreate .hypervisor 256, .tenantRemove (.vi 64) 0 false, .tenantRemove .hypervisor 256 false, .tenantForceRemove (.vi 64) 0 false,
    .tenantForceRemove .hypervisor 256 false] : List Instr), c.wellFormed = false := by decide

theorem test_illFormed_10 : ∀ c ∈ ([
    .removalDone 256 false, .attReport (.vi 64) 0 0 false [], .attReport .hypervisor 256 0 false [], .attReport .hypervisor 0 256 false [],
    .reportDone (.vi 64), .gateS 16 0 0 0 none [], .gateE 16 0 0 0 none [], .gret 16 0 [], .enclaveTrap 16 0 0 [], .enclaveDestroy 128,
    .secureLeaseTake (.pair 0) 224, .secureLeaseRelease (.pair 0) 224, .auditExport (.vi 64) 0, .auditExport .hypervisor 1048576,
    .auditAck (.vi 64) 0, .viQuiesce (.vi 64) 0, .viQuiesce .hypervisor 64, .viQuiesceHard (.vi 64) 0, .viQuiesceHard .hypervisor 64,
    .viFreeze (.vi 64) 0, .viFreeze .hypervisor 64, .viThaw (.vi 64) 0, .viThaw .hypervisor 64, .viSave (.vi 64) 0 false false] : List Instr), c.wellFormed = false := by decide

theorem test_illFormed_11 : ∀ c ∈ ([
    .viSave .hypervisor 64 false false, .saveImageDone 64, .viRestore (.vi 64) 0 none, .viRestore .hypervisor 64 none, .restoreDone 64,
    .viReset (.vi 64) 0, .viReset .hypervisor 64, .usb4LinkUp 5, .functionLevelReset 65, .hostCompletion 512 0 .expired [], .bridgeReadExpire 512 0,
    .msixUnmask 65 0, .msixUnmask 0 64, .ubrMapRead (.vi 64) 0, .ubrMapRead .hypervisor 4096, .ubrMapWrite (.vi 64) 0, .ubrMapWrite .hypervisor 4096,
    .ubrMapDisable (.vi 64) 0, .ubrMapDisable .hypervisor 4096, .ubrErrPop (.vi 64), .canEnable (.vi 64) 0 0, .canEnable .hypervisor 16 0,
    .canFrameRx 16 ⟨0, false, 0, false, false, false, false, 0, 0, 0, []⟩ 0, .canTxDone 16 0] : List Instr), c.wellFormed = false := by decide

theorem test_illFormed_12 : ∀ c ∈ ([
    .busOff 16, .busOffRecovery 16, .queueDoorbell (.can 16 0) 0, .queueEnable (.vi 64) (.tsn 0) 0, .queueEnable .hypervisor (.can 16 0) 0,
    .queueDisable (.vi 64) (.tsn 0) 0, .queueDisable .hypervisor (.can 16 0) 0, .ethFrameRx 6 [] false 0, .ethTxDone 8, .gateIntervalEnd 6,
    .gateBankTakeover 6, .syncRx 6 0, .gptpAccept (.vi 64) 0, .gptpHold (.vi 64) 0, .offsetWrite (.vi 64) 0, .portEnable (.vi 64) 0 0,
    .portEnable .hypervisor 7 0, .sluiceSend 1024, .sluiceEnable (.vi 64) 0, .sluPduRead (.vi 64) 0, .sluPduRead .hypervisor 1024,
    .sluPduWrite (.vi 64) 0, .sluPduWrite .hypervisor 1024, .sluPduClear (.vi 64) 0] : List Instr), c.wellFormed = false := by decide

theorem test_illFormed_13 : ∀ c ∈ ([
    .sluPduClear .hypervisor 1024, .sluMapRead (.vi 64) 0, .sluMapRead .hypervisor 4096, .sluMapWrite (.vi 64) 0, .sluMapWrite .hypervisor 4096,
    .sluMapClear (.vi 64) 0, .sluMapClear .hypervisor 4096, .readReq 4 ({ type := 0 } : Machine.Frame) false,
    .readData 4 ({ type := 0 } : Machine.Frame) false, .cwyKnot 4 ({ type := 0 } : Machine.Frame) false,
    .cwyAck 4 ({ type := 0 } : Machine.Frame) false, .cwyHello 4 ({ type := 0 } : Machine.Frame) false,
    .cwyError 4 ({ type := 0 } : Machine.Frame) false, .cwyKey 4 0 [], .cwyLane 4 ({ type := 0 } : Machine.Frame) false 0 false,
    .cwyLane 0 ({ type := 0 } : Machine.Frame) false 3 false, .sealReq 4 ({ type := 0 } : Machine.Frame) false,
    .sealData 4 ({ type := 0 } : Machine.Frame) false, .helloTimer 256, .retransmit 256, .peerTimeout 256, .cwyLinkUp 4 0, .cwyLinkUp 0 8,
    .cwyLinkDown 4] : List Instr), c.wellFormed = false := by decide

theorem test_illFormed_14 : ∀ c ∈ ([
    .linkKeyDerived 256 0, .linkKeyDerived 0 256, .cwyPortEnable (.vi 64) 0 0, .cwyPortEnable .hypervisor 4 0, .peerRead (.vi 64) 0,
    .peerRead .hypervisor 256, .fecUncorr 4 0 false false, .fecUncorr 0 3 false false, .evqTailWrite (.vi 64) 0 0, .evqTailWrite .hypervisor 3 0,
    .ufsLuWrite (.vi 64) 0 0, .ufsLuWrite .hypervisor 32 0, .lockWrite (.vi 64) 0, .lockWrite .hypervisor 22,
    .registerWrite (.vi 64) 0 0 0 ({} : Machine.WriteEnv), .registerWrite .hypervisor 1441792 0 0 ({} : Machine.WriteEnv), .vtotalLineEnd 4,
    .panelResume 16, .stageDone 8 false, .learnedEntryAgeing 281474976710656 0, .learnedEntryAgeing 0 4096, .busMasteringEnable 65,
    .canBusError 16 .transmit] : List Instr), c.wellFormed = false := by decide

/-! ### Values that the manual gives -/

/-- "The error of each operation": a block of E4M3 whose largest magnitude is 3.1 takes the scale code 0x78, 3.1 the code 0x7C and 0.001 the
code 0x20 (3.1 and 0.001 here to 30 bits). -/
theorem test_mxQuantise : mxQuantise 5 [.fin false 3328599654 (-30), .fin false 1073742 (-30)] = (0x78, [0x7C, 0x20], false) := by decide +kernel

/-- R134: the largest finite value is stored in place of a larger one, and counted; E4M3 has 448, code 0x7E. -/
theorem test_saturates : e4m3.convert 0 (.fin false 1 9) = (0x7E, true) ∧ e4m3.convert 0 (.fin true 448 0) = (0xFE, false) ∧
    e4m3.convert 0 (.fin false 450 0) = (0x7E, true) ∧ toSym 127 (.fin true 1021 (-3)) = (-127, true) ∧ toSym 127 (.fin false 127 0) = (127, false) := by
  decide +kernel

/-- R133: ties go to the even neighbour: 2.5 of FP4 lies between 2 and 3 (codes 4 and 5). -/
theorem test_tiesToEven : fp4.convert 0 (.fin false 5 (-1)) = (4, false) ∧ fp4.convert 0 (.fin false 7 (-1)) = (6, false) := by decide +kernel

/-- CRC-32C of the nine digits is 0xE3069283, its published check value. -/
theorem test_crc32c : crc32c [0x31, 0x32, 0x33, 0x34, 0x35, 0x36, 0x37, 0x38, 0x39] = 0xE3069283 := by decide +kernel

/-- "Worked example: wheel speed from CAN to Ethernet": 0x88 0x13 becomes 00 00 13 88. -/
theorem test_wheelSpeed : SigMap.copy { srcStart := 0, len := 16, dstStart := 23, dstBig := true } [0x88, 0x13] [0, 0, 0, 0] = [0, 0, 0x13, 0x88] := by
  decide +kernel


/-- "Worked example: Tussock's budgets and the driver-monitor tack": pacing one core of 1.638 A, 20 mA of it idle, to P5 frees 1.011 A, to P6 1.213 A
(R74); and a flush of the whole array ramps down in 4.58 µs (R79). -/
theorem test_pacing : 1638 - pacedMa 1638 idleMa 5 = 1011 ∧ 1638 - pacedMa 1638 idleMa 6 = 1213 ∧ rampTime (185600 - 2560) = 4576 * 2 ^ 32 := by
  decide +kernel

/-- "As a worked example, you decode A = 0x0003_4567_8A40" (R101, R102): channel 244, bank 6, row 837, channel group 3. -/
theorem test_interleaved : dramChan 0x345678A40 = 244 ∧ dramLocal 0x345678A40 = 0x1A2B240 ∧ localBank (dramLocal 0x345678A40) = 6 ∧
    localRow (dramLocal 0x345678A40) = 837 ∧ State.reset.physChan 244 = 244 ∧ 244 ∈ groupChans 3 := by decide +kernel

end Sys2Proof.Machine
end

/-! SUPPORT. The request queue of the allowance controller (R71 to R73, R75): reclaiming leaves the requests and the grants alone, the service
order names the first request of the highest class that waits, and a request falls, ramps in or waits. -/

namespace Sys2Proof.Machine

/-! ### Reclaiming moves pacing levels only (R75) -/

/-- The controller's queue, its grants and the ramp in progress are the same in two states. -/
structure State.SameRequests (s t : State) : Prop where
  waiting : t.alw.waiting = s.alw.waiting
  grants  : t.alw.grants = s.alw.grants
  ramp    : t.alw.ramp = s.alw.ramp

section

variable {s : State} {r : AlwReq}

theorem State.SameRequests.refl (s : State) : s.SameRequests s := ⟨rfl, rfl, rfl⟩

theorem State.SameRequests.bump {t : State} (h : s.SameRequests t) (k unit : Nat) : s.SameRequests (t.bump k unit) := by
  obtain ⟨hw, hg, hr⟩ := h
  constructor <;> rwa [State.bump_alw]

theorem State.pace_sameRequests (s : State) (be test : Nat) : s.SameRequests (s.pace be test) := ⟨rfl, rfl, rfl⟩

theorem State.reclaim_sameRequests (s : State) : s.SameRequests s.reclaim := by
  unfold State.reclaim
  split
  · exact .refl s
  · split
    · exact s.pace_sameRequests _ _
    · exact (s.pace_sameRequests _ _).bump _ _

theorem State.reclaimMore_sameRequests (s : State) : s.SameRequests s.reclaimMore := by
  unfold State.reclaimMore
  split
  · exact s.reclaim_sameRequests
  · exact .refl s

/-! ### The service order (R72, R73) -/

/-- Standing aside takes requests out of the order and moves none. -/
theorem State.active_sublist (s : State) (l : List AlwReq) (aside : List (Option Nat × Cls)) : (s.active l aside).Sublist l := by
  induction l generalizing aside with
  | nil => exact .slnil
  | cons r rs ih =>
    unfold State.active
    split
    · exact (ih _).cons r
    · exact (ih _).cons_cons r

theorem State.alwHead_eq (s : State) : s.alwHead =
    (s.alwActive.find? (fun x => x.cls == .lc)).or ((s.alwActive.find? (fun x => x.cls == .test)).or s.alwActive.head?) := by
  unfold State.alwHead
  cases hlc : s.alwActive.find? (fun x => x.cls == .lc) with
  | some r => simp [hlc]
  | none => cases htest : s.alwActive.find? (fun x => x.cls == .test) <;> simp [hlc, htest]

/-- The three ways to head the order: as the first latency-critical request, as the first test request with no latency-critical one, as the
first of all with neither. -/
theorem State.alwHead_cases (h : s.alwHead = some r) :
    s.alwActive.find? (fun x => x.cls == .lc) = some r ∨
    s.alwActive.find? (fun x => x.cls == .lc) = none ∧
      (s.alwActive.find? (fun x => x.cls == .test) = some r ∨
      s.alwActive.find? (fun x => x.cls == .test) = none ∧ s.alwActive.head? = some r) := by
  rwa [State.alwHead_eq, Option.or_eq_some_iff, Option.or_eq_some_iff] at h

theorem find?_cls_eq_none {l : List AlwReq} {c : Cls} : l.find? (fun x => x.cls == c) = none ↔ ∀ x ∈ l, x.cls ≠ c := by
  simp

theorem cls_of_find? {l : List AlwReq} {c : Cls} (h : l.find? (fun x => x.cls == c) = some r) : r.cls = c := by
  simpa using List.find?_some h

theorem cls_eq_be {c : Cls} (hlc : c ≠ .lc) (htest : c ≠ .test) : c = .be := by
  cases c with
  | lc => exact absurd rfl hlc
  | test => exact absurd rfl htest
  | be => rfl

/-- The head is the earliest request of its class that does not stand aside. -/
theorem State.alwHead_earliest (h : s.alwHead = some r) : s.alwActive.find? (fun x => x.cls == r.cls) = some r := by
  obtain hlc | ⟨-, htest | ⟨-, hhead⟩⟩ := State.alwHead_cases h
  · rwa [cls_of_find? hlc]
  · rwa [cls_of_find? htest]
  · obtain ⟨rest, hl⟩ := List.head?_eq_some_iff.mp hhead
    rw [hl, List.find?_cons_of_pos (by simp)]

theorem State.alwHead_mem (h : s.alwHead = some r) : r ∈ s.alwActive := List.mem_of_find?_eq_some (State.alwHead_earliest h)

/-- No request that waits is of a higher class than the head. -/
theorem State.alwHead_class (h : s.alwHead = some r) {x : AlwReq} (hx : x ∈ s.alwActive) :
    (x.cls = .lc → r.cls = .lc) ∧ (x.cls = .test → r.cls ≠ .be) := by
  obtain hlc | ⟨hlc, htest | ⟨htest, -⟩⟩ := State.alwHead_cases h
  · simp [cls_of_find? hlc]
  · have noLc := find?_cls_eq_none.mp hlc x hx
    simp [cls_of_find? htest, noLc]
  · have isBe := cls_eq_be (find?_cls_eq_none.mp hlc x hx) (find?_cls_eq_none.mp htest x hx)
    simp [isBe]

/-- While a request waits that does not stand aside, the order has a head. -/
theorem State.alwHead_isSome (h : s.alwActive ≠ []) : s.alwHead.isSome = true := by
  have hfirst : s.alwActive.head?.isSome = true := List.isSome_head?.mpr h
  simp [State.alwHead_eq, Option.isSome_or, hfirst]

/-! ### What becomes of a request, and of the one that heads the order (R71, R72) -/

theorem State.alwRequest_falls (h : s.alw.onlyFalls r = true) : s.alwRequest r = s.takeHold r := if_pos h

theorem State.alwRequest_starts (h : s.alw.onlyFalls r = false) (hhead : (s.queued r).alwHead = some r)
    (hmay : (s.queued r).mayGrant r = true) : s.alwRequest r = (s.queued r).startGrant r := by
  unfold State.alwRequest
  rw [if_neg (by simp [h]), if_pos ⟨hhead, hmay⟩]

/-- A request that does not start joins the queue, and at most pacing levels move for it. -/
theorem State.alwRequest_waits (h : s.alw.onlyFalls r = false)
    (hwait : (s.queued r).alwHead ≠ some r ∨ (s.queued r).mayGrant r = false) : (s.queued r).SameRequests (s.alwRequest r) := by
  have hno : ¬ ((s.queued r).alwHead = some r ∧ (s.queued r).mayGrant r = true) := by
    rintro ⟨hhead, hmay⟩
    simp [hhead, hmay] at hwait
  unfold State.alwRequest
  rw [if_neg (by simp [h]), if_neg hno]
  split
  · exact .refl _
  · exact (s.queued r).reclaim_sameRequests

theorem State.mem_queued (s : State) (r : AlwReq) : r ∈ (s.queued r).alw.waiting := by simp [State.queued]

/-- Nothing but the head of the order leaves the queue, and that only if it may be granted. -/
theorem State.alwServe_sameRequests (h : ∀ r, s.alwHead = some r → s.mayGrant r = false) : s.SameRequests s.alwServe := by
  unfold State.alwServe
  split
  next => exact .refl s
  next r hhead =>
    rw [if_neg (by simp [h r hhead])]
    exact s.reclaimMore_sameRequests

end

/-- Settles O48: from the three fates of a request, and from the head as the earliest request of the highest class that waits. -/
theorem requestsServedInOrder : Obligations.RequestsServedInOrder := by
  unfold Obligations.RequestsServedInOrder
  intro s
  refine ⟨fun r => State.alwRequest_falls, fun r hfalls => ⟨State.alwRequest_starts hfalls, fun hwait => ?_⟩, fun hstuck => ?_,
    s.active_sublist _ _, fun r hhead => ?_, State.alwHead_isSome⟩
  · obtain ⟨hwaiting, hgrants, hramp⟩ := State.alwRequest_waits hfalls hwait
    exact ⟨hwaiting ▸ s.mem_queued r, hgrants, hramp⟩
  · obtain ⟨hwaiting, hgrants, hramp⟩ := State.alwServe_sameRequests hstuck
    exact ⟨hwaiting, hgrants, hramp⟩
  · exact ⟨State.alwHead_mem hhead, State.alwHead_earliest hhead, fun x => State.alwHead_class hhead⟩

end Sys2Proof.Machine

/-! SUPPORT. The interleave of the memory stack (R101): what channel and offset an address has, what fields an offset has, and `dramAddr` as the
inverse, which gives back the address they came from. -/

namespace Sys2Proof.Machine

/-! ### The bits of a number, and exclusive or -/

theorem bits_lt_two_pow (v hi lo : Nat) : bits v hi lo < 2 ^ (hi + 1 - lo) := Nat.mod_lt _ (Nat.two_pow_pos _)

/-- On numbers of 64 bits the operation on words is that on numbers. -/
theorem xor64_eq_xor {a b : Nat} (ha : a < 2 ^ 64) (hb : b < 2 ^ 64) : xor64 a b = a ^^^ b := by
  simp only [xor64, BitVec.toNat_xor, BitVec.toNat_ofNat, Nat.mod_eq_of_lt ha, Nat.mod_eq_of_lt hb]

/-- Channel numbers, of 9 bits, are such numbers. -/
theorem xor64_eq_xor_of_chan {a b : Nat} (ha : a < 2 ^ 9) (hb : b < 2 ^ 9) : xor64 a b = a ^^^ b :=
  xor64_eq_xor (Nat.lt_trans ha (by decide)) (Nat.lt_trans hb (by decide))

/-! ### The channel and the offset of an address -/

theorem dramChan_eq_xor (a : Nat) : dramChan a = bits a 17 9 ^^^ bits a 26 18 ^^^ bits a 35 27 := by
  have hlow := bits_lt_two_pow a 17 9
  have hmid := bits_lt_two_pow a 26 18
  have htop := bits_lt_two_pow a 35 27
  rw [dramChan, xor64_eq_xor_of_chan hlow hmid, xor64_eq_xor_of_chan (Nat.xor_lt_two_pow hlow hmid) htop]

theorem dramChan_lt (a : Nat) : dramChan a < 2 ^ 9 := by
  rw [dramChan_eq_xor]
  exact Nat.xor_lt_two_pow (Nat.xor_lt_two_pow (bits_lt_two_pow a 17 9) (bits_lt_two_pow a 26 18)) (bits_lt_two_pow a 35 27)

theorem dramLocal_eq (a : Nat) : dramLocal a = a / 2 ^ 18 % 2 ^ 18 * 2 ^ 9 + a % 2 ^ 9 := by simp [dramLocal, bits]

theorem dramLocal_lt (a : Nat) : dramLocal a < 2 ^ 27 := by
  rw [dramLocal_eq]
  omega

/-! ### The fields of an offset -/

/-- An offset is its row and its bank, and in them its beat and the byte of that beat. -/
theorem offset_eq_fields {l : Nat} (h : l < 2 ^ 27) :
    l = localRow l * 2 ^ 15 + localBank l * 2 ^ 11 + bits l 10 6 * 2 ^ 6 + bits l 5 0 := by
  simp only [localRow, localBank, bits, Nat.reduceAdd, Nat.reduceSub]
  omega

/-! ### An address from its channel and offset -/

/-- The offset keeps the two fields above the block's channel bits. -/
theorem dramLocal_div_mod (a : Nat) : dramLocal a / 512 % 512 = bits a 26 18 := by
  simp only [dramLocal_eq, bits, Nat.reduceAdd, Nat.reduceSub, Nat.reducePow]
  omega

theorem dramLocal_div (a : Nat) : dramLocal a / 2 ^ 18 = bits a 35 27 := by
  have hlow : bits a 8 0 < 2 ^ 9 := bits_lt_two_pow a 8 0
  calc dramLocal a / 2 ^ 18 = bits a 35 18 / 2 ^ 9 := by unfold dramLocal; omega
    _ = a / 2 ^ 18 / 2 ^ 9 % 2 ^ 9 := Nat.mod_mul_right_div_self (a / 2 ^ 18) (2 ^ 9) (2 ^ 9)
    _ = bits a 35 27 := by rw [Nat.div_div_eq_div_mul]; rfl

/-- With the two fields that the offset keeps, the channel gives back the third. -/
theorem xor64_dramChan (a : Nat) : xor64 (xor64 (dramChan a) (bits a 26 18)) (bits a 35 27) = bits a 17 9 := by
  have hmid := bits_lt_two_pow a 26 18
  rw [xor64_eq_xor_of_chan (dramChan_lt a) hmid,
    xor64_eq_xor_of_chan (Nat.xor_lt_two_pow (dramChan_lt a) hmid) (bits_lt_two_pow a 35 27), dramChan_eq_xor]
  generalize bits a 17 9 = low, bits a 26 18 = mid, bits a 35 27 = top
  calc low ^^^ mid ^^^ top ^^^ mid ^^^ top = low ^^^ (mid ^^^ mid) ^^^ (top ^^^ top) := by ac_rfl
    _ = low := by rw [Nat.xor_self, Nat.xor_self, Nat.xor_zero, Nat.xor_zero]

theorem dramAddr_dramChan_dramLocal {a : Nat} (h : a < 2 ^ 36) : dramAddr (dramChan a) (dramLocal a) = a := by
  rw [dramAddr, dramLocal_div_mod, dramLocal_div, xor64_dramChan]
  simp only [dramLocal_eq, bits, Nat.reduceAdd, Nat.reduceSub, Nat.reducePow]
  omega

/-- Settles O45: `dramAddr` gives an address back from its channel and offset, so no two addresses share both. -/
theorem interleaveIsOneToOne : Obligations.InterleaveIsOneToOne := by
  unfold Obligations.InterleaveIsOneToOne
  refine ⟨fun a _ => ⟨dramChan_eq_xor a, dramLocal_eq a, rfl, rfl, ?fields, dramChan_lt a, dramLocal_lt a⟩, fun a b ha hb hchan hlocal => ?_⟩
  case fields =>
    exact ⟨_, _, bits_lt_two_pow (dramLocal a) 10 6, bits_lt_two_pow (dramLocal a) 5 0, offset_eq_fields (dramLocal_lt a)⟩
  calc a = dramAddr (dramChan a) (dramLocal a) := (dramAddr_dramChan_dramLocal ha).symm
    _ = dramAddr (dramChan b) (dramLocal b) := by rw [hchan, hlocal]
    _ = b := dramAddr_dramChan_dramLocal hb

end Sys2Proof.Machine

/-! SUPPORT. Reports to the SAFE block (R456, R458, R461): counting one and raising its event leave the reaction codes and the error state
alone, a report sets the bits that its codes call for, and a source with reaction 2 drives the pins. -/

namespace Sys2Proof.Machine

/-! ### The registers of the SAFE block -/

/-- Logging uses no register of the SAFE block. -/
theorem not_logReg_of_safe {k : Nat} (h : k / 0x10000 = 12) : ¬ logReg k := by
  unfold logReg Reg.EVQ_HEAD Reg.GEN_EVQ_DROP_CNT Reg.GEN_SAT Reg.PWR_RIM_REFUSE_CNT Reg.PWR_SAT
  rintro (h | h | h | h | ⟨d, hd, h | h⟩) <;> omega

theorem safeSrcCfg_not_logReg {n : Nat} (hn : n < 16) : ¬ logReg (Reg.SAFE_SRC_CFG n) := by
  apply not_logReg_of_safe
  simp only [Reg.SAFE_SRC_CFG]
  omega

theorem satOf_safeSrcCnt {n : Nat} (hn : n < 16) : satOf (Reg.SAFE_SRC_CNT n) = some ⟨Reg.SAFE_SRC_SAT, n⟩ := by
  revert n
  decide

/-- The registers in which a source's count shows lie above every SAFE_SRC_CFG and every setting of an event queue. -/
theorem safeSrcCnt_le_of_counterRegs {n k : Nat} (hn : n < 16) (h : counterRegs (Reg.SAFE_SRC_CNT n) k) : Reg.SAFE_SRC_CNT 0 ≤ k := by
  obtain rfl | ⟨b, hb, rfl⟩ := h
  · exact Nat.add_le_add_left (Nat.zero_le _) _
  · rw [satOf_safeSrcCnt hn, Option.some.injEq] at hb
    subst hb
    change Reg.SAFE_SRC_CNT 0 ≤ Reg.SAFE_SRC_SAT
    decide

theorem sparesQueues_safeSrcCnt {n : Nat} (hn : n < 16) : SparesQueues (counterRegs (Reg.SAFE_SRC_CNT n)) := by
  intro d hd h
  have := safeSrcCnt_le_of_counterRegs hn h
  simp only [Reg.EVQ_CFG, Reg.SAFE_SRC_CNT] at this
  omega

section

variable {s t : State} {n b k : Nat} {lasting : Bool}

/-- Setting a bit of a register makes it read as set. -/
theorem State.regBit_setBit (h : s.Inv) (hb : b < 64) : (s.setBit k b true).regBit k b = true := by
  have hw : (⟨b, b⟩ : Fld).lo + (⟨b, b⟩ : Fld).width ≤ 64 := by simp [Fld.width]; omega
  simp [State.regBit, State.setBit, State.fld_setFld h.regs hw, Fld.width]

theorem State.regBit_setBit_other {c : Nat} (h : s.Inv) (hb : b < 64) (hc : c ≠ b) (v : Bool) :
    (s.setBit k b v).regBit k c = s.regBit k c := by
  have hw : (⟨b, b⟩ : Fld).lo + (⟨b, b⟩ : Fld).width ≤ 64 := by simp [Fld.width]; omega
  have hd : (⟨c, c⟩ : Fld).lo + (⟨c, c⟩ : Fld).width ≤ (⟨b, b⟩ : Fld).lo ∨ (⟨b, b⟩ : Fld).lo + (⟨b, b⟩ : Fld).width ≤ (⟨c, c⟩ : Fld).lo := by
    simp [Fld.width]; omega
  rw [State.regBit, State.setBit, State.fld_setFld_disjoint h.regs hw hd, State.regBit]

theorem State.regBit_congr (h : t.reg k = s.reg k) (b : Nat) : t.regBit k b = s.regBit k b := by
  rw [State.regBit, State.fld, h, State.regBit, State.fld]

theorem State.reactEach_congr (h : t.reg (Reg.SAFE_SRC_CFG n) = s.reg (Reg.SAFE_SRC_CFG n)) : t.reactEach n = s.reactEach n := by
  rw [State.reactEach, State.fld, h, State.reactEach, State.fld]

theorem State.reactLast_congr (h : t.reg (Reg.SAFE_SRC_CFG n) = s.reg (Reg.SAFE_SRC_CFG n)) : t.reactLast n = s.reactLast n := by
  rw [State.reactLast, State.fld, h, State.reactLast, State.fld]

/-- Raising an event leaves every register but those of logging. -/
theorem State.reg_raise (h : s.Inv) (hk : ¬ logReg k) (blk off unit : Nat) : (s.raise blk off unit).reg k = s.reg k :=
  (s.raise_keeps (p := fun _ => False) (fun _ _ => id) blk off unit h).2.regs k id hk

/-- Counting a report leaves the source's configuration. -/
theorem State.safeSrcCfg_bump (h : s.Inv) (hn : n < 16) (unit : Nat) :
    (s.bump (Reg.SAFE_SRC_CNT n) unit).reg (Reg.SAFE_SRC_CFG n) = s.reg (Reg.SAFE_SRC_CFG n) := by
  have hkeeps := s.bump_keeps (sparesQueues_safeSrcCnt hn) (Reg.SAFE_SRC_CNT n) unit (.inl (.inl rfl)) fun b hb => .inl (.inr ⟨b, hb, rfl⟩)
  refine (hkeeps h).2.regs _ (fun hc => ?_) (safeSrcCfg_not_logReg hn)
  have := safeSrcCnt_le_of_counterRegs hn hc
  simp only [Reg.SAFE_SRC_CFG, Reg.SAFE_SRC_CNT] at this
  omega

/-! ### The error pins (R461) -/

/-- A source whose PENDING or LASTING bit is set, and whose code for it is 2, demands the error level. -/
theorem State.pinDemand_of_source (hn : n < 16) (h : (s.regBit Reg.SAFE_PENDING n = true ∧ s.reactEach n = 2) ∨
    (s.regBit Reg.SAFE_PENDING (32 + n) = true ∧ s.reactLast n = 2)) : s.pinDemand = true := by
  have hsource : (List.range 16).any (fun i => (s.regBit Reg.SAFE_PENDING i && s.reactEach i == 2) ||
      (s.regBit Reg.SAFE_PENDING (32 + i) && s.reactLast i == 2)) = true :=
    List.any_eq_true.2 ⟨n, List.mem_range.2 hn, by simpa using h⟩
  rw [State.pinDemand, hsource, Bool.or_true]

/-- The pins are driven to the error level where it is demanded. -/
theorem State.drivePins_level (h : s.Inv) (hd : s.pinDemand = true) : s.drivePins.bit Reg.SAFE_PIN Fd.SAFE_PIN_LEVEL = true := by
  rw [State.bit, State.drivePins, State.fld_setFld h.regs (by decide), hd]
  rfl

theorem State.reg_drivePins (h : s.Inv) (hk : k ≠ Reg.SAFE_PIN) : s.drivePins.reg k = s.reg k := State.reg_setReg_other h.regs hk

theorem State.Inv.assertPins (h : s.Inv) : s.assertPins.Inv := ⟨h.regs, h.mem, h.poison, h.knots, h.epochs, h.floors, h.top⟩

/-! ### The bits a report sets (R458) -/

/-- The error state after a report: PENDING and, at a lasting declaration, LASTING are set where their codes are 1 or more. -/
def State.marked (s : State) (n : Nat) (lasting : Bool) : State :=
  let p := if decide (1 ≤ s.reactEach n) then s.setBit Reg.SAFE_PENDING n true else s
  if lasting && decide (1 ≤ s.reactLast n) then p.setBit Reg.SAFE_PENDING (32 + n) true else p

/-- Marking touches SAFE_PENDING alone. -/
theorem State.marked_keeps (s : State) (n : Nat) (lasting : Bool) : s.Keeps (· = Reg.SAFE_PENDING) (s.marked n lasting) := by
  have hq : SparesQueues (· = Reg.SAFE_PENDING) := fun d hd h => by simp only [Reg.EVQ_CFG, Reg.SAFE_PENDING] at h; omega
  have hp : s.Keeps (· = Reg.SAFE_PENDING) (if decide (1 ≤ s.reactEach n) then s.setBit Reg.SAFE_PENDING n true else s) := by
    split
    · exact s.setBit_keeps _ _ _ (.inl rfl)
    · exact .refl _ s
  unfold State.marked
  dsimp only
  split
  · exact hp.trans hq (State.setBit_keeps _ _ _ _ (.inl rfl))
  · exact hp

theorem State.safeSrcCfg_marked (h : s.Inv) (hn : n < 16) (lasting : Bool) :
    (s.marked n lasting).reg (Reg.SAFE_SRC_CFG n) = s.reg (Reg.SAFE_SRC_CFG n) := by
  refine (s.marked_keeps n lasting h).2.regs _ ?_ (safeSrcCfg_not_logReg hn)
  simp only [Reg.SAFE_SRC_CFG, Reg.SAFE_PENDING]
  omega

theorem State.marked_pending (h : s.Inv) (hn : n < 16) (heach : 1 ≤ s.reactEach n) (lasting : Bool) :
    (s.marked n lasting).regBit Reg.SAFE_PENDING n = true := by
  have hset : (s.setBit Reg.SAFE_PENDING n true).regBit Reg.SAFE_PENDING n = true := State.regBit_setBit h (by omega)
  simp only [State.marked, heach, decide_true, if_true]
  split
  · rw [State.regBit_setBit_other (s := s.setBit Reg.SAFE_PENDING n true) (h.setReg _ _) (by omega) (by omega), hset]
  · exact hset

theorem State.marked_lasting (h : s.Inv) (hn : n < 16) (hlast : 1 ≤ s.reactLast n) :
    (s.marked n true).regBit Reg.SAFE_PENDING (32 + n) = true := by
  simp only [State.marked, hlast, decide_true, Bool.and_true, if_true]
  split
  · exact State.regBit_setBit (s := s.setBit Reg.SAFE_PENDING n true) (h.setReg _ _) (by omega)
  · exact State.regBit_setBit h (by omega)

/-! ### The reaction (R458) -/

/-- The state after a report that reacts, before the pins are driven: the bits are set and SAFE_n is raised. -/
def State.signalled (s : State) (n : Nat) (lasting : Bool) : State := (s.marked n lasting).raise 12 0x0010 n

theorem State.signalled_inv (h : s.Inv) (n : Nat) (lasting : Bool) : (s.signalled n lasting).Inv :=
  (State.raise_keeps (p := fun _ => False) (fun _ _ => id) _ _ _ _ (s.marked_keeps n lasting h).1).1

theorem State.reg_signalled (h : s.Inv) (hk : ¬ logReg k) (n : Nat) (lasting : Bool) :
    (s.signalled n lasting).reg k = (s.marked n lasting).reg k := State.reg_raise (s.marked_keeps n lasting h).1 hk _ _ _

/-- The bit just set demands the error level where its code is 2, because raising SAFE_n leaves both as they are. -/
theorem State.pinDemand_signalled (h : s.Inv) (hn : n < 16) (hpin : s.reactEach n = 2 ∨ (lasting = true ∧ s.reactLast n = 2)) :
    (s.signalled n lasting).pinDemand = true := by
  have hpend : ∀ b, (s.signalled n lasting).regBit Reg.SAFE_PENDING b = (s.marked n lasting).regBit Reg.SAFE_PENDING b :=
    State.regBit_congr (State.reg_signalled h (not_logReg_of_safe rfl) n lasting)
  have hcfg : (s.signalled n lasting).reg (Reg.SAFE_SRC_CFG n) = s.reg (Reg.SAFE_SRC_CFG n) :=
    (State.reg_signalled h (safeSrcCfg_not_logReg hn) n lasting).trans (State.safeSrcCfg_marked h hn lasting)
  apply State.pinDemand_of_source hn
  rw [hpend, hpend, State.reactEach_congr hcfg, State.reactLast_congr hcfg]
  obtain heach | ⟨rfl, hlast⟩ := hpin
  · exact .inl ⟨State.marked_pending h hn (by omega) lasting, heach⟩
  · exact .inr ⟨State.marked_lasting h hn (by omega), hlast⟩

/-- A report whose applicable codes are 0 reacts in no way. -/
theorem State.react_of_codes_zero (heach : s.reactEach n = 0) (hlast : lasting = false ∨ s.reactLast n = 0) : s.react n lasting = s := by
  have hzero : (if lasting then s.reactLast n else 0) = 0 := by
    obtain rfl | hlast := hlast
    · rfl
    · rw [hlast, ite_self]
  simp [State.react, heach, hzero]

/-- Does a report react: is a code that applies to it 1 or more? -/
def State.reacts (s : State) (n : Nat) (lasting : Bool) : Bool := decide (1 ≤ s.reactEach n) || (lasting && decide (1 ≤ s.reactLast n))

/-- A report that reacts signals, and drives the pins where a code that applies is 2. -/
theorem State.react_of_reacts (h : s.reacts n lasting = true) :
    s.react n lasting = if s.reactEach n = 2 ∨ (lasting = true ∧ s.reactLast n = 2) then (s.signalled n lasting).assertPins.drivePins
      else s.signalled n lasting := by
  cases lasting with
  | false =>
    have heach : 1 ≤ s.reactEach n := by simpa [State.reacts] using h
    simp [State.react, State.signalled, State.marked, heach]
  | true =>
    have hany : 1 ≤ s.reactEach n ∨ 1 ≤ s.reactLast n := by simpa [State.reacts] using h
    simp [State.react, State.signalled, State.marked, hany]

/-- A reaction leaves SAFE_PENDING as the report has marked it. -/
theorem State.regBit_react (h : s.Inv) (hr : s.reacts n lasting = true) (b : Nat) :
    (s.react n lasting).regBit Reg.SAFE_PENDING b = (s.marked n lasting).regBit Reg.SAFE_PENDING b := by
  have hsig := State.reg_signalled h (not_logReg_of_safe (k := Reg.SAFE_PENDING) rfl) n lasting
  apply State.regBit_congr
  rw [State.react_of_reacts hr]
  split
  · exact (State.reg_drivePins (State.signalled_inv h n lasting).assertPins (by decide)).trans hsig
  · exact hsig

/-- A report of a source whose codes are 0 is counted and put in its window. -/
theorem State.report_of_codes_zero (h : s.Inv) (hn : n < 16) (heach : s.reactEach n = 0) (hlast : s.reactLast n = 0) (unit : Nat) :
    s.report n unit = (s.bump (Reg.SAFE_SRC_CNT n) n).pushWindow n unit := by
  have hcfg : ((s.bump (Reg.SAFE_SRC_CNT n) n).pushWindow n unit).reg (Reg.SAFE_SRC_CFG n) = s.reg (Reg.SAFE_SRC_CFG n) :=
    State.safeSrcCfg_bump h hn n
  exact State.react_of_codes_zero ((State.reactEach_congr hcfg).trans heach) (.inr ((State.reactLast_congr hcfg).trans hlast))

end

/-- Settles O51: codes of 0 leave the state as counting has left it; a code of 1 or more marks and signals, one of 2 drives the pins. -/
theorem reportReactions : Obligations.ReportReactions := by
  unfold Obligations.ReportReactions
  intro s n lasting hs hn
  refine ⟨State.react_of_codes_zero, State.report_of_codes_zero hs hn, ?signals, fun heach => ?pending, fun hl hlast => ?lasting, fun hpin => ?pins⟩
  case signals =>
    intro each last p t hr
    rw [State.react_of_reacts hr]
    split
    · exact .inr rfl
    · exact .inl rfl
  case pending =>
    rw [State.regBit_react hs (by simp [State.reacts, heach])]
    exact State.marked_pending hs hn heach lasting
  case lasting =>
    subst hl
    rw [State.regBit_react hs (by simp [State.reacts, hlast])]
    exact State.marked_lasting hs hn hlast
  case pins =>
    have hr : s.reacts n lasting = true := by
      obtain heach | ⟨rfl, hlast⟩ := hpin
      · simp [State.reacts, heach]
      · simp [State.reacts, hlast]
    rw [State.react_of_reacts hr, if_pos hpin]
    exact State.drivePins_level (State.signalled_inv hs n lasting).assertPins (State.pinDemand_signalled hs hn hpin)

end Sys2Proof.Machine

/-! SUPPORT. The block as a whole: what a step is, what every command advances, what reset loses and keeps, and the tick of an idle block. -/

namespace Sys2Proof.Machine

/-! ### Every command and every step (R499, R502, R671) -/

/-- From a state in which the invariant holds every command advances, by the lemma about its meaning. -/
theorem exec_advances {s₀ s : State} (hs : s₀.Advances s) (c : Instr) : s₀.AdvancesR (exec c s) :=
  match c with
  | .tackFire n => execTackFire_advances hs n
  | .tackLateFire n => execTackLateFire_advances hs n
  | .tackTimeout n => execTackTimeout_advances hs n
  | .tackRead o n => execTackRead_advances hs o n
  | .tackWrite o n => execTackWrite_advances hs o n
  | .tackDisable o n => execTackDisable_advances hs o n
  | .tackClear o n => execTackClear_advances hs o n
  | .fsyncPulseEnd n => execFsyncPulseEnd_advances hs n
  | .fsyncCfgWrite o n value => execFsyncCfgWrite_advances hs o n value
  | .timeNowLoRead o => execTimeNowLoRead_advances hs o
  | .timeRateAdjWrite o value => execTimeRateAdjWrite_advances hs o value
  | .refLoss => execRefLoss_advances hs
  | .rateWindowEnd counts => execRateWindowEnd_advances hs counts
  | .clrMin o value => execClrMin_advances hs o value
  | .alwRequest req => execAlwRequest_advances hs req
  | .alwGrant => execAlwGrant_advances hs
  | .alwRelease holder gen => execAlwRelease_advances hs holder gen
  | .alwBudgetWrite o dram value => execAlwBudgetWrite_advances hs o dram value
  | .pwrDomainOn o d => execPwrDomainOn_advances hs o d
  | .pwrDomainPowered d => execPwrDomainPowered_advances hs d
  | .pwrDomainOff o d => execPwrDomainOff_advances hs o d
  | .rimStart d => execRimStart_advances hs d
  | .rimStop d => execRimStop_advances hs d
  | .rimSlip d => execRimSlip_advances hs d
  | .beatRead o addr errs jrnl => execBeatRead_advances hs o addr errs jrnl
  | .rowWindowExpire chan bank row => execRowWindowExpire_advances hs chan bank row
  | .rowReplaceDone chan bank row => execRowReplaceDone_advances hs chan bank row
  | .refreshTierChange g temp => execRefreshTierChange_advances hs g temp
  | .scrubPeriodEnd finished => execScrubPeriodEnd_advances hs finished
  | .jobCommit ring seq => execJobCommit_advances hs ring seq
  | .copyBackDone extent => execCopyBackDone_advances hs extent
  | .stageWaitEnd core => execStageWaitEnd_advances hs core
  | .memErrPop o => execMemErrPop_advances hs o
  | .memStageWrite o value => execMemStageWrite_advances hs o value
  | .stageMove => execStageMove_advances hs
  | .mload core sp len sc scLen err => execMload_advances hs core sp len sc scLen err
  | .mstep core pair cnt e sp stride sc scStride clear swap err => execMstep_advances hs core pair cnt e sp stride sc scStride clear swap err
  | .mdrain run e v half clear rq => execMdrain_advances hs run e v half clear rq
  | .vload core v sp fmt sc err => execVload_advances hs core v sp fmt sc err
  | .vstore core v sp fmt sc raw err => execVstore_advances hs core v sp fmt sc raw err
  | .vectorOp run dst op => execVectorOp_advances hs run dst op
  | .fill core tag src sp sc => execFill_advances hs core tag src sp sc
  | .drain run tag band sp sc => execDrain_advances hs run tag band sp sc
  | .xchg run tag dest dst sp len => execXchg_advances hs run tag dest dst sp len
  | .transferDone core tag => execTransferDone_advances hs core tag
  | .waitTag core tag => execWaitTag_advances hs core tag
  | .fence core => execFence_advances hs core
  | .branch core dest => execBranch_advances hs core dest
  | .cheap core => execCheap_advances hs core
  | .scan run pb score box anch first cells => execScan_advances hs run pb score box anch first cells
  | .sort run pb => execSort_advances hs run pb
  | .suppress run pb first rounds => execSuppress_advances hs run pb first rounds
  | .emit run pb => execEmit_advances hs run pb
  | .qpush run dest base size cap sp => execQpush_advances hs run dest base size cap sp
  | .qpop core base => execQpop_advances hs core base
  | .tileSetup core x y prims shared split spill => execTileSetup_advances hs core x y prims shared split spill
  | .interlockAcquire core prim block => execInterlockAcquire_advances hs core prim block
  | .interlockRelease core prim block => execInterlockRelease_advances hs core prim block
  | .attributeInterpolation core dst => execAttributeInterpolation_advances hs core dst
  | .flushEnd => execFlushEnd_advances hs
  | .spanOverrun core => execSpanOverrun_advances hs core
  | .watchdogExpire core => execWatchdogExpire_advances hs core
  | .jobPlace => execJobPlace_advances hs
  | .forcedPreempt ring seq => execForcedPreempt_advances hs ring seq
  | .saveDone ring seq => execSaveDone_advances hs ring seq
  | .modeSwitchDone core => execModeSwitchDone_advances hs core
  | .scrubDone core => execScrubDone_advances hs core
  | .reservationExpire ring seq gen => execReservationExpire_advances hs ring seq gen
  | .viResume o v => execViResume_advances hs o v
  | .hotRead o idx => execHotRead_advances hs o idx
  | .hotRegister o idx => execHotRegister_advances hs o idx
  | .hotUnregister o idx => execHotUnregister_advances hs o idx
  | .hotSetFlags o idx => execHotSetFlags_advances hs o idx
  | .hotEvict o idx => execHotEvict_advances hs o idx
  | .hotLoadDone entry bytes => execHotLoadDone_advances hs entry bytes
  | .savePoolMove => execSavePoolMove_advances hs
  | .hotRegionMove => execHotRegionMove_advances hs
  | .doorbellWrite u value => execDoorbellWrite_advances hs u value
  | .doorbellPoll u far => execDoorbellPoll_advances hs u far
  | .ringWake o n far => execRingWake_advances hs o n far
  | .jobDescriptor ring far => execJobDescriptor_advances hs ring far
  | .knotDescriptor ring => execKnotDescriptor_advances hs ring
  | .cancelDescriptor ring => execCancelDescriptor_advances hs ring
  | .knotWaitTimeout ring seq gen => execKnotWaitTimeout_advances hs ring seq gen
  | .jobLeaseExpire ring seq gen => execJobLeaseExpire_advances hs ring seq gen
  | .sealCheckDone checker => execSealCheckDone_advances hs checker
  | .ringEnable o n value far => execRingEnable_advances hs o n value far
  | .ringDisable o n value => execRingDisable_advances hs o n value
  | .ringCancel o n value => execRingCancel_advances hs o n value
  | .knotSelRead o k => execKnotSelRead_advances hs o k
  | .knotSelSet o k => execKnotSelSet_advances hs o k
  | .knotSelAdd o k => execKnotSelAdd_advances hs o k
  | .knotRangeWrite o v value => execKnotRangeWrite_advances hs o v value
  | .frameStart rx vc fc hdr => execFrameStart_advances hs rx vc fc hdr
  | .longPacket rx vc dt hdr crcOk bytes => execLongPacket_advances hs rx vc dt hdr crcOk bytes
  | .frameEnd rx vc hdr => execFrameEnd_advances hs rx vc hdr
  | .tdmFrame port slots => execTdmFrame_advances hs port slots
  | .lateBudgetExpire ch q => execLateBudgetExpire_advances hs ch q
  | .sourceEntryFetch ch far => execSourceEntryFetch_advances hs ch far
  | .pictureDecoded session idx q dec => execPictureDecoded_advances hs session idx q dec
  | .encodeStart => execEncodeStart_advances hs
  | .accessUnitDone bytes => execAccessUnitDone_advances hs bytes
  | .channelEnable o n value => execChannelEnable_advances hs o n value
  | .channelDisable o n value => execChannelDisable_advances hs o n value
  | .unordWrite o n on => execUnordWrite_advances hs o n on
  | .decoderEnable o session value => execDecoderEnable_advances hs o session value
  | .encoderEnable o value => execEncoderEnable_advances hs o value
  | .gridPassDone g torn => execGridPassDone_advances hs g torn
  | .trackStep g => execTrackStep_advances hs g
  | .trackStepDone g => execTrackStepDone_advances hs g
  | .gridEnable o g value => execGridEnable_advances hs o g value
  | .gridDisable o g value => execGridDisable_advances hs o g value
  | .pipeEnable o p value => execPipeEnable_advances hs o p value
  | .linkTrainingDone p ok => execLinkTrainingDone_advances hs p ok
  | .pipeDisable o p value => execPipeDisable_advances hs o p value
  | .heldFrameStart p => execHeldFrameStart_advances hs p
  | .freeRun p => execFreeRun_advances hs p
  | .telltaleCrc p idx => execTelltaleCrc_advances hs p idx
  | .spEnable o p value => execSpEnable_advances hs o p value
  | .spTableWrite o p value => execSpTableWrite_advances hs o p value
  | .earlyViewEnd o => execEarlyViewEnd_advances hs o
  | .compareDone comparator jrnl => execCompareDone_advances hs comparator jrnl
  | .lockstepDivergence pair => execLockstepDivergence_advances hs pair
  | .pairRestart pair => execPairRestart_advances hs pair
  | .debugAttach targets sigOk => execDebugAttach_advances hs targets sigOk
  | .debugDetach => execDebugDetach_advances hs
  | .debugHalt t on => execDebugHalt_advances hs t on
  | .debugStep t => execDebugStep_advances hs t
  | .debugRead t core r => execDebugRead_advances hs t core r
  | .debugWrite t w => execDebugWrite_advances hs t w
  | .selftestStart slot missed => execSelftestStart_advances hs slot missed
  | .goldenRunDone core pass jrnl => execGoldenRunDone_advances hs core pass jrnl
  | .coverDeadline core => execCoverDeadline_advances hs core
  | .pinMinExpire => execPinMinExpire_advances hs
  | .safeForce o on => execSafeForce_advances hs o on
  | .swErr o code => execSwErr_advances hs o code
  | .stRead o idx => execStRead_advances hs o idx
  | .stWrite o idx => execStWrite_advances hs o idx
  | .coreDarnDone core pass => execCoreDarnDone_advances hs core pass
  | .channelDarn phys jrnl => execChannelDarn_advances hs phys jrnl
  | .channelCopyDone phys => execChannelCopyDone_advances hs phys
  | .spRowReplace phys bank row jrnl => execSpRowReplace_advances hs phys bank row jrnl
  | .darnCore o target jrnl => execDarnCore_advances hs o target jrnl
  | .darnChannel o target jrnl => execDarnChannel_advances hs o target jrnl
  | .darnLane o target jrnl => execDarnLane_advances hs o target jrnl
  | .rootLeaseRenew units => execRootLeaseRenew_advances hs units
  | .rootLeaseExpire unit => execRootLeaseExpire_advances hs unit
  | .unitRestored unit => execUnitRestored_advances hs unit
  | .dmaStreamExpire stream => execDmaStreamExpire_advances hs stream
  | .panelTimerExpire core jrnl => execPanelTimerExpire_advances hs core jrnl
  | .arrayTimerExpire panel => execArrayTimerExpire_advances hs panel
  | .hwTimerExpire => execHwTimerExpire_advances hs
  | .selfReset => execSelfReset_advances hs
  | .aliveEdge => execAliveEdge_advances hs
  | .fwStage o kind => execFwStage_advances hs o kind
  | .fwSwitch o kind jrnl => execFwSwitch_advances hs o kind jrnl
  | .fwDiscard o kind => execFwDiscard_advances hs o kind
  | .tenantRead o t => execTenantRead_advances hs o t
  | .tenantCreate o t => execTenantCreate_advances hs o t
  | .tenantRemove o t jrnl => execTenantRemove_advances hs o t jrnl
  | .tenantForceRemove o t jrnl => execTenantForceRemove_advances hs o t jrnl
  | .removalDone t rpmb => execRemovalDone_advances hs t rpmb
  | .attReport o enclave tenant wrap far => execAttReport_advances hs o enclave tenant wrap far
  | .reportDone o => execReportDone_advances hs o
  | .eye => execEye_advances hs
  | .gateS core hart target ret eye regs => execGateS_advances hs core hart target ret eye regs
  | .gateE core hart target ret eye regs => execGateE_advances hs core hart target ret eye regs
  | .gret core hart regs => execGret_advances hs core hart regs
  | .enclaveTrap core hart pc regs => execEnclaveTrap_advances hs core hart pc regs
  | .enclaveRegister secure ranges => execEnclaveRegister_advances hs secure ranges
  | .enclaveDestroy tag => execEnclaveDestroy_advances hs tag
  | .secureLeaseTake h d => execSecureLeaseTake_advances hs h d
  | .secureLeaseRelease h d => execSecureLeaseRelease_advances hs h d
  | .auditExport o count => execAuditExport_advances hs o count
  | .exportDone => execExportDone_advances hs
  | .auditAck o value => execAuditAck_advances hs o value
  | .viQuiesce o v => execViQuiesce_advances hs o v
  | .viQuiesceHard o v => execViQuiesceHard_advances hs o v
  | .viFreeze o v => execViFreeze_advances hs o v
  | .viThaw o v => execViThaw_advances hs o v
  | .viSave o v cert jrnl => execViSave_advances hs o v cert jrnl
  | .saveImageDone v => execSaveImageDone_advances hs v
  | .viRestore o v img => execViRestore_advances hs o v img
  | .restoreDone v => execRestoreDone_advances hs v
  | .viReset o v => execViReset_advances hs o v
  | .usb4LinkUp mode => execUsb4LinkUp_advances hs mode
  | .usb4LinkDown => execUsb4LinkDown_advances hs
  | .functionLevelReset fn => execFunctionLevelReset_advances hs fn
  | .hostCompletion tag gen data ahead => execHostCompletion_advances hs tag gen data ahead
  | .bridgeReadExpire tag gen => execBridgeReadExpire_advances hs tag gen
  | .hostBarRequest req far => execHostBarRequest_advances hs req far
  | .prefetchExpire page => execPrefetchExpire_advances hs page
  | .msixUnmask fn vec => execMsixUnmask_advances hs fn vec
  | .ubrMapRead o idx => execUbrMapRead_advances hs o idx
  | .ubrMapWrite o idx => execUbrMapWrite_advances hs o idx
  | .ubrMapDisable o idx => execUbrMapDisable_advances hs o idx
  | .ubrErrPop o => execUbrErrPop_advances hs o
  | .canEnable o n value => execCanEnable_advances hs o n value
  | .canFrameRx n f sof => execCanFrameRx_advances hs n f sof
  | .canTxDone n sof => execCanTxDone_advances hs n sof
  | .busOff n => execBusOff_advances hs n
  | .busOffRecovery n => execBusOffRecovery_advances hs n
  | .queueDoorbell q value => execQueueDoorbell_advances hs q value
  | .queueEnable o q value => execQueueEnable_advances hs o q value
  | .queueDisable o q value => execQueueDisable_advances hs o q value
  | .ethFrameRx p bytes fcsOk sfd => execEthFrameRx_advances hs p bytes fcsOk sfd
  | .ethTxDone k => execEthTxDone_advances hs k
  | .gateIntervalEnd p => execGateIntervalEnd_advances hs p
  | .gateBankTakeover p => execGateBankTakeover_advances hs p
  | .syncRx p e => execSyncRx_advances hs p e
  | .syncTimeout elected => execSyncTimeout_advances hs elected
  | .gptpAccept o value => execGptpAccept_advances hs o value
  | .gptpHold o value => execGptpHold_advances hs o value
  | .offsetWrite o value => execOffsetWrite_advances hs o value
  | .portEnable o p value => execPortEnable_advances hs o p value
  | .sluiceUpdate => execSluiceUpdate_advances hs
  | .sluiceSend d => execSluiceSend_advances hs d
  | .sluiceEnable o value => execSluiceEnable_advances hs o value
  | .sluPduRead o idx => execSluPduRead_advances hs o idx
  | .sluPduWrite o idx => execSluPduWrite_advances hs o idx
  | .sluPduClear o idx => execSluPduClear_advances hs o idx
  | .sluMapRead o idx => execSluMapRead_advances hs o idx
  | .sluMapWrite o idx => execSluMapWrite_advances hs o idx
  | .sluMapClear o idx => execSluMapClear_advances hs o idx
  | .readReq port f tagOk => execReadReq_advances hs port f tagOk
  | .readData port f tagOk => execReadData_advances hs port f tagOk
  | .cwyKnot port f tagOk => execCwyKnot_advances hs port f tagOk
  | .cwyAck port f tagOk => execCwyAck_advances hs port f tagOk
  | .cwyHello port f tagOk => execCwyHello_advances hs port f tagOk
  | .cwyError port f tagOk => execCwyError_advances hs port f tagOk
  | .cwyKey port src cert => execCwyKey_advances hs port src cert
  | .cwyLane port f tagOk lane jrnl => execCwyLane_advances hs port f tagOk lane jrnl
  | .sealReq port f tagOk => execSealReq_advances hs port f tagOk
  | .sealData port f tagOk => execSealData_advances hs port f tagOk
  | .helloTimer peer => execHelloTimer_advances hs peer
  | .retransmit peer => execRetransmit_advances hs peer
  | .peerTimeout peer => execPeerTimeout_advances hs peer
  | .cwyLinkUp port lanes => execCwyLinkUp_advances hs port lanes
  | .cwyLinkDown port => execCwyLinkDown_advances hs port
  | .linkKeyDerived tenant peer => execLinkKeyDerived_advances hs tenant peer
  | .cwyPortEnable o p value => execCwyPortEnable_advances hs o p value
  | .peerRead o idx => execPeerRead_advances hs o idx
  | .fecUncorr port lane jrnl oneLane => execFecUncorr_advances hs port lane jrnl oneLane
  | .evqTailWrite o d value => execEvqTailWrite_advances hs o d value
  | .ufsLuWrite o u value => execUfsLuWrite_advances hs o u value
  | .lockWrite o blk => execLockWrite_advances hs o blk
  | .registerWrite o off bytes value env => execRegisterWrite_advances hs o off bytes value env
  | .resetRelease boot => execResetRelease_advances hs boot
  | .resetNLow => execResetNLow_advances hs
  | .pwrokFall => execPwrokFall_advances hs
  | .supplyUndervolt dram => execSupplyUndervolt_advances hs dram
  | .thermalTrip => execThermalTrip_advances hs
  | .alwRampDone => execAlwRampDone_advances hs
  | .vtotalLineEnd p => execVtotalLineEnd_advances hs p
  | .panelResume panel => execPanelResume_advances hs panel
  | .stageDone kind ok => execStageDone_advances hs kind ok
  | .pwrokRise => execPwrokRise_advances hs
  | .learnedEntryAgeing mac vid => execLearnedEntryAgeing_advances hs mac vid
  | .busMasteringEnable fn => execBusMasteringEnable_advances hs fn
  | .canBusError n e => execCanBusError_advances hs n e

theorem step_of_cons {s : State} {c : Instr} {rest : List Instr} (h : s.pending = c :: rest) : step s = exec c { s with pending := rest } := by
  rw [step, h]

theorem step_of_nil {s : State} (h : s.pending = []) : step s = .next s.idle := by rw [step, h]

/-- The queue is no part of the invariant. -/
theorem State.Inv.withPending {s : State} (h : s.Inv) (l : List Instr) : ({ s with pending := l } : State).Inv :=
  ⟨h.regs, h.mem, h.poison, h.knots, h.epochs, h.floors, h.top⟩

/-- Outside the pins, the supplies and the sensors every command waits for the end of reset. -/
theorem exec_of_down {s : State} (c : Instr) (hdown : s.sys.up = false) (hpin : isPin c = false) : exec c s = .next s := by
  have hne : ¬ s.sys.up = true := by simp [hdown]
  cases c with
  | resetRelease | resetNLow | pwrokFall | pwrokRise | supplyUndervolt | thermalTrip => cases hpin
  | _ => exact congrArg Host.Outcome.next (if_neg hne)

/-- Settles O6: a command advances from the state with the rest of the queue, an idle block advances from its own. -/
theorem stepKeepsInvariant : Obligations.StepKeepsInvariant := by
  unfold Obligations.StepKeepsInvariant
  intro s t hinv hstep
  cases hp : s.pending with
  | nil =>
    rw [step_of_nil hp] at hstep
    cases hstep
    exact ((State.idle_advances (.refl s)).holds hinv).1
  | cons c rest =>
    rw [step_of_cons hp] at hstep
    exact (((exec_advances (.refl _) c).next t hstep).holds (hinv.withPending rest)).1

/-- Settles O8: what every command advances to is guarded. -/
theorem noCommandTakesBack : Obligations.NoCommandTakesBack := by
  unfold Obligations.NoCommandTakesBack
  intro c s t hinv hexec
  exact (((exec_advances (.refl s) c).next t hexec).holds hinv).2

/-- Settles O1: by what a step does with a queue that is not empty. -/
theorem stepTakesTheFront : Obligations.StepTakesTheFront := by
  unfold Obligations.StepTakesTheFront
  intro c rest s h
  exact step_of_cons h

/-- Settles O4: every command but those of the pins is behind the gate of reset. -/
theorem nothingActsInReset : Obligations.NothingActsInReset := by
  unfold Obligations.NothingActsInReset
  intro c s hdown hpin
  exact exec_of_down c hdown hpin

/-- Settles O5: every arm of the dispatch ends in a next state. -/
theorem everyCommandAnswers : Obligations.EveryCommandAnswers := by
  unfold Obligations.EveryCommandAnswers
  intro c s
  cases c with
  | _ => exact ⟨_, rfl⟩

/-- Outside reset a command is its effect, whatever form the effect takes. -/
theorem next_of_up {s t u : State} (hup : s.sys.up = true) (h : t = u) :
    (Host.Outcome.next (if s.sys.up = true then t else s) : Host.Outcome State Fault Refusal) = .next u := by rw [if_pos hup, h]

/-! ### The state at reset and the commands that reset (R642, R671) -/

/-- Settles O7: every table of the state at reset is empty. -/
theorem resetHasInvariant : Obligations.ResetHasInvariant := by
  unfold Obligations.ResetHasInvariant
  exact ⟨rfl, rfl, rfl, rfl, rfl, rfl, fun k => Nat.zero_le _⟩

/-- Settles O9: the registers are evaluated one by one; a knot that nothing has written is 0. -/
theorem resetValues : Obligations.ResetValues := by
  unfold Obligations.ResetValues
  refine ⟨rfl, rfl, rfl, by decide +kernel, by decide +kernel, by decide +kernel, by decide +kernel, by decide +kernel, by decide +kernel,
    by decide +kernel, fun k _ => rfl⟩

/-- Settles O10: each of them enters reset with its own pin or sensor recorded; PWROK_RISE alone does not. -/
theorem resetCommandsReset : Obligations.ResetCommandsReset := by
  unfold Obligations.ResetCommandsReset
  intro s dram
  dsimp only
  refine ⟨⟨_, rfl, ⟨rfl, rfl, rfl, rfl, rfl, rfl, rfl, rfl⟩, rfl, rfl⟩, ⟨_, rfl, ⟨rfl, rfl, rfl, rfl, rfl, rfl, rfl, rfl⟩, rfl, rfl⟩,
    ⟨_, rfl, ⟨rfl, rfl, rfl, rfl, rfl, rfl, rfl, rfl⟩, rfl, rfl⟩, fun hpwrok => ?trip, ⟨_, rfl, rfl⟩, fun hup l hlost hen hend => ?self⟩
  case trip => exact ⟨_, congrArg Host.Outcome.next (if_pos hpwrok), ⟨rfl, rfl, rfl, rfl, rfl, rfl, rfl, rfl⟩, rfl⟩
  case self =>
    refine ⟨s.enterReset, next_of_up hup ?_, rfl, rfl, rfl, rfl, rfl, rfl, rfl, rfl⟩
    simp [hlost, hen, hend]

/-! ### The idle tick (R37, R569) -/

theorem signed32_bounds (n : Nat) : -2 ^ 31 ≤ signed32 n ∧ signed32 n < 2 ^ 31 := by
  unfold signed32
  split <;> omega

/-- The state one tick of R37 later, as it is with the reference present. -/
def State.ticked (s : State) : State :=
  { s with time := s.time + BitVec.ofInt 96 (5 * (2 ^ 32 + signed32 (s.fld Reg.TIME_RATE_ADJ Fd.TIME_RATE_ADJ_ADJ))) }

theorem State.tick_of_reference {s : State} (h : s.fld Reg.TIME_STATUS Fd.TIME_STATUS_REF_LOSS = 0) : s.tick = s.ticked := by
  simp [State.tick, State.bit, h, State.ticked]

theorem State.drainPosted_of_nil {s : State} (h : s.bridge.posted = []) : s.drainPosted = s := by rw [State.drainPosted, h]

theorem State.drainPosted_of_cons {s : State} {p : Posted} {l : List Posted} (h : s.bridge.posted = p :: l) :
    s.drainPosted =
      let u := ({ s with bridge := { s.bridge with posted := l } } : State).emit (.hostWrite p.fn p.host p.bytes p.isSealed)
      if p.isSealed then (pagesOf p.addr p.bytes.length).foldl (State.sealPage p) u else u := by
  rw [State.drainPosted, h]

/-- Settles O2: the tick of R37 and then the oldest posted write. -/
theorem idleTakesOneTick : Obligations.IdleTakesOneTick := by
  unfold Obligations.IdleTakesOneTick
  intro s hp hup href
  have hadj := signed32_bounds (s.fld Reg.TIME_RATE_ADJ Fd.TIME_RATE_ADJ_ADJ)
  have hstep : step s = .next s.ticked.drainPosted := by rw [step_of_nil hp, State.idle, if_pos hup, State.tick_of_reference href]
  rw [hstep]
  refine ⟨by omega, fun hnone => ?_, fun p l hposted => ?_⟩
  · exact congrArg _ (State.drainPosted_of_nil (s := s.ticked) hnone)
  · exact congrArg _ (State.drainPosted_of_cons (s := s.ticked) hposted)

/-! ### Sealed pages (R508, R509) -/

theorem leBytes_bool_eq_zero (b : Bool) : (leBytes 1 b.toNat).headD 0 = 0 ↔ b = false := by
  cases b with
  | false => decide
  | true => decide

/-- Byte 24 of a record is its mark, behind 16 bytes of tag and 8 of counter. -/
theorem headD_drop_record {tag count mark : List Byte} (h16 : tag.length = 16) (h8 : count.length = 8) (h1 : mark.length = 1) :
    ((tag ++ count ++ mark ++ List.replicate 7 0).drop 24).headD 0 = mark.headD 0 := by
  obtain ⟨m, rfl⟩ := List.length_eq_one_iff.mp h1
  simp [List.drop_append, h16, h8]

/-- Settles O3: the record is the tag, the counter and the mark of a retired key, in this order. -/
theorem sealedPagesCarryMetadata : Obligations.SealedPagesCarryMetadata := by
  unfold Obligations.SealedPagesCarryMetadata
  intro s p page c hwf hget hlt
  have hcount : (c + 1) % 18446744073709551616 = c + 1 := Nat.mod_eq_of_lt hlt
  dsimp only
  refine ⟨?counter, _, rfl, ?length, ?count, ?mark⟩
  case counter =>
    refine (Sparse.get_put_same hwf).trans ?_
    simp [hget, hcount]
  case length => simp
  case count => simp [hget, hcount]
  case mark =>
    rw [headD_drop_record (leBytes_length _ _) (leBytes_length _ _) (leBytes_length _ _), leBytes_bool_eq_zero]
    simp [State.live, State.tenant]

end Sys2Proof.Machine

/-! SUPPORT. Where the commands of device time, of the allowance, the power domains and the rims, and of the memory stack take their effect. -/

namespace Sys2Proof.Machine

/-- A granted command whose act answers a known state and code. -/
theorem State.command_of {s t : State} {o : Origin} {c : CmdReg} {idx code : Nat} {act : State → State × Nat} (hgrant : s.granted o c)
    (hact : act (s.indexed c idx) = (t, code)) : s.command o c idx act = s.commandDone o c t code := by
  rw [State.command_granted hgrant, State.commanded_of hact]

/-- A write that is applied whole, where what follows it is known. -/
theorem State.writeBy_of {s t : State} {o : Origin} {k : Nat} {v w : Word} {act : State → State → State} (hw : s.writes o k v w)
    (hact : act s (s.landed o k w) = t) : s.writeBy o k v act = t := by
  rw [State.writeBy_writes hw, hact]

/-- A rate within its range is written as it is. -/
theorem State.writeAdj_of_unclamped {s : State} {o : Origin} {v w : Word} (hservo : s.bit Reg.TIME_CTRL Fd.TIME_CTRL_SERVO = false)
    (hclamp : clampAdj v.toNat = (v.toNat, false)) (hw : s.writes o Reg.TIME_RATE_ADJ v w) :
    s.writeAdj o v = s.landed o Reg.TIME_RATE_ADJ w := by
  simp [State.writeAdj, hservo, hclamp, State.writeBy_writes hw]

/-- Settles O12: each command where its premises hold is its effect. -/
theorem timeCommandsComplete : Obligations.TimeCommandsComplete := by
  unfold Obligations.TimeCommandsComplete
  intro s hup
  refine ⟨fun n hn hdue hfirst => ?fire, fun n w hwait hen hpre hturn => ?lateFire, fun n w hwait hen hpre hend => ?timeout,
    fun o i hgrant => ?read, fun o i hgrant => ?write, fun o i hgrant _ => ?disable, fun o i hgrant => ?clear, fun n e hpulse hend => ?pulse,
    fun o n v w hn hoverlap hw => ?fsync, fun o hreader => ?now, fun o v w hservo hclamp hw => ?adj, fun hlocked => ?lost⟩
  case fire => exact next_of_up hup (if_pos ⟨hn, hdue, hfirst⟩)
  case lateFire => exact next_of_up hup (by simp [hwait, hen, hpre, hturn])
  case timeout => exact next_of_up hup (by simp [hwait, hen, hpre, hend])
  case read => exact next_of_up hup (State.command_of hgrant rfl)
  case write => exact next_of_up hup (State.command_granted hgrant _ _)
  case disable => exact next_of_up hup (State.command_granted hgrant _ _)
  case clear => exact next_of_up hup (State.command_of hgrant rfl)
  case pulse => exact next_of_up hup (by simp [hpulse, hend])
  case fsync => exact next_of_up hup ((if_pos hn).trans (by simp only [State.writeFsync, hoverlap, if_true, State.writeBy_writes hw]))
  case now => exact next_of_up hup (if_pos hreader)
  case adj => exact next_of_up hup (State.writeAdj_of_unclamped hservo hclamp hw)
  case lost => exact next_of_up hup (if_neg (by simp [hlocked]))

/-- Settles O13: each command where its premises hold is its effect. -/
theorem powerCommandsComplete : Obligations.PowerCommandsComplete := by
  unfold Obligations.PowerCommandsComplete
  intro s hup
  refine ⟨fun h r hasks hidle hnone => ?request, fun r hhead hmay => ?grant, fun h gen hany => ?release, fun x hramp hend => ?rampEnd,
    fun hramp hfall => ?fallEnd, fun o dram v w => ?budget, fun o d hgrant _ => ?domainOn, fun d hoff hheld => ?powered,
    fun o d hgrant _ _ => ?domainOff, fun d hd => ?rimStart, fun d hd hon => ?rimStop, fun d hon => ?rimSlip, fun counts => ?window,
    fun o v w hw hwriter hcmd => ?clrMin⟩
  case request => exact next_of_up hup (by simp only [State.unitAsk, hasks, hidle, hnone]; simp)
  case grant => exact next_of_up hup (by simp [State.serveNext, hhead, hmay])
  case release => exact next_of_up hup (if_pos hany)
  case rampEnd => exact next_of_up hup (by simp [hramp, hend])
  case fallEnd => exact next_of_up hup (by simp [hramp, hfall])
  case budget =>
    dsimp only
    intro hw hwriter hlock
    exact next_of_up hup (State.writeBy_of hw (if_pos ⟨hwriter, by simp [hlock]⟩))
  case domainOn => exact next_of_up hup (State.command_granted hgrant _ _)
  case powered => exact next_of_up hup (if_pos (by simp [hoff, hheld]))
  case domainOff => exact next_of_up hup (State.command_granted hgrant _ _)
  case rimStart => exact next_of_up hup (if_pos hd)
  case rimStop => exact next_of_up hup (if_pos ⟨hd, hon⟩)
  case rimSlip => exact next_of_up hup (if_pos hon)
  case window => exact next_of_up hup rfl
  case clrMin => exact next_of_up hup (State.writeBy_of hw (congrArg State.rateRearm (if_pos ⟨hwriter, hcmd⟩)))

/-! ### The memory stack -/

/-- What a read of a beat that its origin may make, over a running rim, answers: poison, the bytes, the corrected bytes, or a bad beat. -/
theorem State.readBeat_cases {s : State} {o : Origin} {addr errs : Nat} {jrnl : Bool} (hmay : s.mayReadDram o (addr / 64 * 64) = true)
    (hrim : s.rimOn (s.rowOf (addr / 64 * 64)).chan = true) :
    let a := addr / 64 * 64
    (s.isPoisoned a 64 = true → s.readBeat o addr errs jrnl = s.answer (poisonFor o)) ∧
    (s.isPoisoned a 64 = false → errs = 0 → s.readBeat o addr errs jrnl = s.answer (.bytes (s.readBytes a 64))) ∧
    (s.isPoisoned a 64 = false → 1 ≤ errs → errs ≤ 3 →
      s.readBeat o addr errs jrnl = (s.correctedBeat o (s.rowOf a) a errs jrnl).answer (.bytes (s.readBytes a 64))) ∧
    (s.isPoisoned a 64 = false → 4 ≤ errs → errs ≤ 5 → s.readBeat o addr errs jrnl = (s.setPoison a 1).badBeat o (s.rowOf a) a jrnl) := by
  simp only [State.readBeat, hmay, hrim, Bool.not_true, Bool.false_eq_true, if_false]
  refine ⟨fun hpoison => if_pos hpoison, fun hclean hzero => ?_, fun hclean hlow hhigh => ?_, fun hclean hlow hhigh => ?_⟩
  · rw [if_neg (by simp [hclean]), if_pos hzero]
  · rw [if_neg (by simp [hclean]), if_neg (by omega), if_pos hhigh]
  · rw [if_neg (by simp [hclean]), if_neg (by omega), if_neg (by omega), if_pos hhigh]

/-- Settles O14: each command where its premises hold is its effect. -/
theorem memoryCommandsComplete : Obligations.MemoryCommandsComplete := by
  unfold Obligations.MemoryCommandsComplete
  intro s hup
  refine ⟨fun o addr errs jrnl hmay hrim => ?beat, fun o c b r k errs jrnl hen => ?scrub, fun c b r hany => ?window, fun c b r k hfind => ?replaced,
    fun g temp hg => ?tier, fun hen hend => ?period, fun o hreader => ?pop, fun o v w hw hwriter hlock => ?stage, fun hpend hext hjobs => ?move,
    fun e hext hheld => ?copied, fun n tag b r q j t hstall hjob hfind hroom => ?stageWait, fun r q j hfind hstage hran htags => ?ended,
    fun r q j hfind hstage hopen => ?commit, fun k t j hseal hfind hwaits => ?sealed⟩
  case beat =>
    obtain ⟨hpoison, hclean, hcorrected, hbad⟩ := State.readBeat_cases (errs := errs) (jrnl := jrnl) hmay hrim
    exact ⟨fun h => next_of_up hup (hpoison h), fun h h0 => next_of_up hup (hclean h h0), fun h h1 h3 => next_of_up hup (hcorrected h h1 h3),
      fun h h4 h5 => next_of_up hup (hbad h h4 h5)⟩
  case scrub =>
    refine next_of_up hup ?_
    change s.scrubBeat c b r k errs jrnl = _
    unfold State.scrubBeat
    cases s.logicalChan c <;> exact if_neg (by simp [hen])
  case window => exact next_of_up hup (if_pos hany)
  case replaced => exact next_of_up hup (by simp [hfind])
  case tier =>
    have hclamp : (if temp < -128 then -128 else if 127 < temp then 127 else temp) = max (-128) (min 127 temp) := by omega
    exact next_of_up hup ((if_pos hg).trans (by rw [hclamp]))
  case period =>
    have hdue : ¬ s.now < s.memst.scrubFrom + s.scrubNs := by omega
    refine ⟨next_of_up hup ?_, fun hidle => next_of_up hup ?_⟩
    · simp [hen, hdue, State.nextScrub]
    · simp [hen, hidle, hdue]
  case pop => exact next_of_up hup (if_pos hreader)
  case stage => exact next_of_up hup (State.writeBy_of hw (if_pos ⟨hwriter, by simp [hlock]⟩))
  case move => exact next_of_up hup (if_pos (by simp [hpend, hext, hjobs]))
  case copied => exact next_of_up hup (if_pos (by rw [hext, hheld]; rfl))
  case stageWait => exact next_of_up hup (by simp [hstall, hjob, hfind, hroom])
  case ended => exact next_of_up hup (by simp only [hfind]; exact if_pos ⟨hstage, hran, htags⟩)
  case commit => exact next_of_up hup (by simp [hfind, hstage, hopen])
  case sealed => exact next_of_up hup (by simp [hseal, hfind, hwaits])

end Sys2Proof.Machine

/-! SUPPORT. Where the instructions of the array cores and the graphics and span commands take their effect. -/

namespace Sys2Proof.Machine

/-! ### Issue on a core that runs a job (R193) -/

section

variable {s : State} {n : Nat} {j : Job}

/-- What an instruction does matters only on the state and the job that it is issued with. -/
theorem State.issue_congr {f g : State → Job → State} (hruns : s.runs n = some j) (h : f (s.traced j n) j = g (s.traced j n) j) :
    s.issue n f = s.issue n g := by
  simp only [State.issue, hruns, h]

/-- In the mode that an instruction is for, it is issued. -/
theorem State.issueIn_of_mode {graphics : Bool} (hruns : s.runs n = some j) (hmode : j.pat.graphics = graphics) (f : State → Job → State) :
    s.issueIn n graphics f = s.issue n f := by
  simp only [State.issueIn, hruns]
  exact if_pos hmode

/-- An instruction of the assist on the main copy of a job outside graphics mode. -/
theorem State.assistOp_of_main {f : State → Job → List Byte → State} (hruns : s.runs n = some j) (hmode : j.pat.graphics = false)
    (hmain : j.isCk n = false) (pb : Nat) (err : Option SpErr) (extra : List Byte → Bool) :
    s.assistOp n pb err extra f = s.issue n (fun t k => t.accesses n k err (fun u =>
      let b := (u.core n).spBytes pb 64
      if pb + 64 ≤ spSize ∧ pbOk b ∧ extra b then f u j b else u.fault k n 8)) := by
  rw [State.assistOp, State.issueIn_of_mode hruns hmode]
  exact State.issue_congr hruns (if_neg (by simp [hmain]))

end

/-- Settles O15: each instruction is issued, because its core runs the job in the mode that it is for. -/
theorem coreInstructionsComplete : Obligations.CoreInstructionsComplete := by
  unfold Obligations.CoreInstructionsComplete
  intro s n j hup hruns
  refine ⟨fun sp len sc scLen err => next_of_up hup rfl, fun pair b int cnt e sp stride sc scStride clear swap err hpair h1 h64 hend hmode => ?mstep,
    fun e v half clear rq err => next_of_up hup rfl, fun v sp fmt sc err => next_of_up hup rfl, fun v sp fmt sc raw err => next_of_up hup rfl,
    fun dst op err => next_of_up hup rfl, fun hmode tag htag hfree => ⟨fun src sp sc => ?fill, fun band sp sc err => ?drain,
    fun dest dst sp len err => ?xchg⟩, fun tag hfree => ?waitFree, fun tag hbusy => ?waitBusy, next_of_up hup rfl, ?branchOn, fun k => ?branchTo,
    fun htags => ?cheap, fun dest base size cap sp err => next_of_up hup rfl, fun base => next_of_up hup rfl, fun hmode hmain pb err => ?assist⟩
  case mstep =>
    refine next_of_up hup ?_
    simp only [hpair]
    refine (if_pos ⟨h1, h64, hend⟩).trans ?_
    by_cases h16 : b = 16
    · rw [if_pos h16]
    · rw [if_neg h16, State.issueIn_of_mode hruns (hmode.resolve_left h16)]
  case fill => exact next_of_up hup ((if_pos ⟨htag, hfree⟩).trans (State.issueIn_of_mode hruns hmode _))
  case drain => exact next_of_up hup ((if_pos ⟨htag, hfree⟩).trans (State.issueIn_of_mode hruns hmode _))
  case xchg => exact next_of_up hup ((if_pos ⟨htag, hfree⟩).trans (State.issueIn_of_mode hruns hmode _))
  case waitFree => exact next_of_up hup (State.issue_congr hruns (if_pos hfree))
  case waitBusy => exact next_of_up hup (State.issue_congr hruns (if_neg (Bool.eq_false_iff.mp hbusy)))
  case branchOn => exact next_of_up hup (by simp [hruns])
  case branchTo => exact next_of_up hup (by simp [hruns])
  case cheap => exact next_of_up hup (by simp [hruns, htags])
  case assist =>
    have hassist := fun extra f => State.assistOp_of_main (f := f) hruns hmode hmain pb err extra
    exact ⟨fun score box anch first cells => next_of_up hup (hassist _ _), next_of_up hup (hassist _ _),
      fun first rounds => next_of_up hup (hassist _ _), next_of_up hup (hassist _ _)⟩

/-- Settles O16: each command where its premises hold is its effect. -/
theorem graphicsAndSpansComplete : Obligations.GraphicsAndSpansComplete := by
  unfold Obligations.GraphicsAndSpansComplete
  intro s n hup
  refine ⟨fun j x y prims split spill hruns hmode => ⟨fun hmay => ?ownTile, fun l hmay hshare htile => ?sharedTile⟩,
    fun j prim block hruns hmode hgranted => ?acquire, fun j prim block hruns hmode => ?release, fun j dst hruns hmode => ?attributes,
    fun tag t r q j htag hjob hfind hstage => ?transfer, fun j hon hspan => ?span, fun j e hon hend hdue hspan => ?watchdog⟩
  case ownTile => exact next_of_up hup (by simp [hruns, hmode, hmay, State.issueIn_of_mode hruns hmode])
  case sharedTile =>
    have hruns' : State.runs { s with tiles := l } n = some j := hruns
    exact next_of_up hup (by simp [hruns, hmode, hmay, hshare, htile, State.issueIn_of_mode hruns' hmode])
  case acquire =>
    refine next_of_up hup ?_
    simp only [hruns]
    cases htile : s.tileOf j n with
    | none => exact State.issueIn_of_mode hruns hmode _
    | some t =>
      rw [htile] at hgranted
      exact (if_pos hgranted).trans (State.issueIn_of_mode hruns hmode _)
  case release => exact next_of_up hup (State.issueIn_of_mode hruns hmode _)
  case attributes => exact next_of_up hup (State.issueIn_of_mode hruns hmode _)
  case transfer =>
    have hruns : (j.stage == .running || j.stage == .preempting) = true := by simpa using hstage
    exact next_of_up hup (by simp only [htag, hjob, hfind, hruns]; rfl)
  case span => exact next_of_up hup (by simp [hon, hspan])
  case watchdog => exact next_of_up hup (by simp only [hon, hend]; rw [if_neg (by omega), if_neg (by omega)])

end Sys2Proof.Machine

/-! SUPPORT. Where the commands of the scheduler, the hot set, the rings, the jobs and the knots take their effect. -/

namespace Sys2Proof.Machine

/-- Settles O17: each command where its premises hold is its effect. -/
theorem schedulerCommandsComplete : Obligations.SchedulerCommandsComplete := by
  unfold Obligations.SchedulerCommandsComplete
  intro s hup
  refine ⟨next_of_up hup rfl, fun r q j hfind hstage hsaving hforced hsince hmodes => ?forced, fun r q j hfind hstage hsaving hsaves => ?saved,
    fun r q j v hfind hresv hexpiry hheld => ?reservation, fun r q g hnone => ?stale, fun n hn hmode hheld => ?switched,
    fun n hscrubs hheld => ?scrubbed, next_of_up hup rfl, fun f hflush => ?flush, fun o v w hw => ?resume, fun o i hgrant => ?hotRead,
    fun o i hgrant => ?hotRegister, fun o i hgrant hstate huse => ?hotUnregister, fun o i hgrant hstate => ?hotFlags,
    fun o i hgrant hstate hevict => ?hotEvict, fun e hstate hroom hheld => ?loaded, fun e b hstate => ?lateLoad, fun hpend hjobs => ?savePool,
    fun hpend hidle => ?hotRegion⟩
  case forced => exact next_of_up hup (by simp only [hfind]; exact if_pos ⟨hstage, by simp [hsaving], by simp [hforced], hsince, hmodes⟩)
  case saved => exact next_of_up hup (by simp only [hfind]; exact if_pos ⟨hstage, hsaving, by simp [hsaves]⟩)
  case reservation => exact next_of_up hup (by simp [hfind, hresv, hexpiry, hheld])
  case stale => exact next_of_up hup (by simp [hnone])
  case switched => exact next_of_up hup (if_pos ⟨hn, hmode, hheld⟩)
  case scrubbed => exact next_of_up hup (if_pos (by rw [hscrubs, hheld]; rfl))
  case flush => exact next_of_up hup (by simp [hflush])
  case resume => exact next_of_up hup (State.writeBy_writes hw _)
  case hotRead => exact next_of_up hup (State.command_of hgrant rfl)
  case hotRegister => exact next_of_up hup (State.command_granted hgrant _ _)
  case hotUnregister =>
    have hfree : ¬ s.hotInUse (i % hotCount) = true := Bool.eq_false_iff.mp huse
    exact next_of_up hup (State.command_of hgrant ((if_neg hstate).trans (if_neg hfree)))
  case hotFlags => exact next_of_up hup (State.command_of hgrant (if_neg hstate))
  case hotEvict => exact next_of_up hup (State.command_of hgrant ((if_neg hstate).trans (if_pos hevict)))
  case loaded =>
    have hload : (s.hotEntry e).state = 2 ∧ (!(s.hotEntry e).waitRoom) = true ∧ s.holdsGrant (.loader e) = true := ⟨hstate, by simp [hroom], hheld⟩
    exact ⟨next_of_up hup (if_pos hload), fun bs => next_of_up hup (if_pos hload)⟩
  case lateLoad => exact next_of_up hup ((if_neg (fun h => hstate h.1)).trans (if_neg hstate))
  case savePool => exact next_of_up hup (if_pos (by rw [hpend, hjobs]; rfl))
  case hotRegion => exact next_of_up hup (if_pos (by rw [hpend, hidle]; rfl))

/-! ### Rings, jobs and knots -/

/-- A descriptor of a kind that a stage takes leaves the ring's list. -/
theorem State.takeFetched_of {s : State} {n q : Nat} {d : List Nat} {l : List (Nat × List Nat)} {p : Nat → Bool}
    (h : (s.ring n).fetched = (q, d) :: l) (hp : p (descKind d) = true) :
    s.takeFetched n p = some (q, d, s.setRing n { s.ring n with fetched := l }) := by
  simp only [State.takeFetched, h]
  exact if_pos hp

/-- Nothing holds up a poll that is due of an enabled unit that is polled. -/
theorem State.polled_goes_on {s : State} {u : PollUnit} (hbell : (s.doorbell u).2 = (true, true)) (hdue : s.pollDue u = true) :
    ¬ ((!(s.doorbell u).2.1) = true ∨ (!(s.doorbell u).2.2) = true ∨ (!s.pollDue u) = true) := by
  rw [hbell, hdue]
  decide

/-- A write of RING_CFG that is applied whole. -/
theorem State.writeRingCfg_of {s : State} {o : Origin} {n : Nat} {v w : Word} (hn : n < ringCount) (hw : s.writes o (Reg.RING_CFG n) v w) :
    s.writeRingCfg o n v = State.ringCfgAfter o n v s (s.landed o (Reg.RING_CFG n) w) := by
  rw [State.writeRingCfg, if_pos hn, State.writeBy_writes hw]

/-- A knot command of an origin other than the safety pairs. -/
theorem State.knotCommand_of {s t : State} {o : Origin} {k : Nat} {act : State → State} (hgrant : s.granted o (knotSel o)) (ho : o ≠ .safety)
    (hact : act (s.indexed (knotSel o) k) = t) : s.knotCommand o k act = s.commandDone o (knotSel o) t 0 :=
  State.command_of hgrant (by rw [if_neg (fun h => ho h.1), hact])

/-- A write of a knot range that is in order. -/
theorem State.writeKnotRange_of {s : State} {o : Origin} {v : Nat} {x w : Word} (hv : v < 64)
    (hok : s.rangeOk v (Fd.KNOT_RANGE_BASE.of x) (Fd.KNOT_RANGE_COUNT.of x) = true) (hw : s.writes o (Reg.KNOT_RANGE v) x w) :
    s.writeKnotRange o v x = State.rangeChanged v s (s.landed o (Reg.KNOT_RANGE v) w) := by
  have hreach : ¬ (64 ≤ v ∨ (!setupOrigin o) = true) := by simp [hw.1, hv]
  simp only [State.writeKnotRange, if_neg hreach, hok, State.writeReg_writes hw]
  simp

/-- Settles O18: each command where its premises hold is its effect. -/
theorem ringCommandsComplete : Obligations.RingCommandsComplete := by
  unfold Obligations.RingCommandsComplete
  intro s hup
  refine ⟨fun u v hstill => ?bellStill, fun u v hpolled hen => ?bell, fun u far hbell hdue => ⟨fun hpoll => ?poll, fun hpoll => ?idlePoll⟩,
    fun o n far hwake hn hen hpolled => ?wake, fun n far q d l hfetched => ⟨fun h0 h2 => ?job, fun h0 => ?knot, fun h2 => ?cancel⟩,
    fun n q j hfind hstage hend hleases hgen => ⟨fun hmet => ?waitMet, fun hmet => ?waitOver⟩, fun n q g hnone => ⟨?staleWait, ?staleLease⟩,
    fun n q j hfind hentered hstage hend hleases hgen => ?lease, fun o n far v w hn hw => ?enable, fun o n v w hn hw => ?disable,
    fun o n v w hn hw => ?ringCancel, fun o k hgrant ho => ⟨?knotRead, ?knotSet, ?knotAdd⟩, fun o v x w hv hok hw => ?range⟩
  case bellStill =>
    have hno : ¬ ((s.doorbell u).2.1 = true ∧ (!(s.doorbell u).2.2) = true) := by
      obtain hpolled | hoff := hstill
      · simp [hpolled]
      · simp [hoff]
    exact next_of_up hup (if_neg hno)
  case bell =>
    have hring : (s.doorbell u).2.1 = true ∧ (!(s.doorbell u).2.2) = true := ⟨hen, by rw [hpolled]; rfl⟩
    exact next_of_up hup (if_pos hring)
  case poll => exact next_of_up hup ((if_neg (State.polled_goes_on hbell hdue)).trans (if_pos hpoll))
  case idlePoll => exact next_of_up hup ((if_neg (State.polled_goes_on hbell hdue)).trans (if_neg (Bool.eq_false_iff.mp hpoll)))
  case wake => exact next_of_up hup (if_pos ⟨hwake, hn, hen, hpolled⟩)
  case job => exact next_of_up hup (by simp only [State.takeFetched_of (p := fun k => k != 0 && k != 2) hfetched (by simp [h0, h2])])
  case knot => exact next_of_up hup (by simp only [State.takeFetched_of (p := fun k => k == 0) hfetched (by simp [h0])])
  case cancel => exact next_of_up hup (by simp only [State.takeFetched_of (p := fun k => k == 2) hfetched (by simp [h2])])
  case waitMet => exact next_of_up hup (by simp [hfind, hgen, hstage, Nat.not_lt.mpr hend, hleases, hmet])
  case waitOver => exact next_of_up hup (by simp [hfind, hgen, hstage, Nat.not_lt.mpr hend, hleases, hmet])
  case staleWait => exact next_of_up hup (by simp [hnone])
  case staleLease => exact next_of_up hup (by simp [hnone])
  case lease =>
    refine next_of_up hup ?_
    cases hwhy : j.withdrawn <;> simp [hfind, hgen, hentered, hstage, Nat.not_lt.mpr hend, hleases, hwhy]
  case enable => exact next_of_up hup (State.writeRingCfg_of hn hw)
  case disable => exact next_of_up hup (State.writeRingCfg_of hn hw)
  case ringCancel => exact next_of_up hup (State.writeRingCfg_of hn hw)
  case knotRead => exact next_of_up hup (State.knotCommand_of hgrant ho rfl)
  case knotSet => exact next_of_up hup (State.knotCommand_of hgrant ho rfl)
  case knotAdd => exact next_of_up hup (State.knotCommand_of hgrant ho rfl)
  case range => exact next_of_up hup (State.writeKnotRange_of hv hok hw)

end Sys2Proof.Machine

/-! SUPPORT. Where the commands of the intake, the media engine, the fusion unit and the display take their effect. -/

namespace Sys2Proof.Machine

/-- A key past the one put keeps its value, whatever the order of the map. -/
theorem Sparse.get_put_above {α : Type} [DecidableEq α] {d : Nat → α} {j k : Nat} {v : α} (hlt : k < j) (m : Sparse α) :
    Sparse.get d j (Sparse.put d k v m) = Sparse.get d j m := by
  have hne : j ≠ k := Nat.ne_of_gt hlt
  have hge : ¬ j < k := Nat.not_lt.mpr (Nat.le_of_lt hlt)
  induction m with
  | nil => simp only [Sparse.put]; split <;> simp [Sparse.get, hne, hge]
  | cons e m ih =>
    obtain ⟨k', v'⟩ := e
    simp only [Sparse.put]
    split
    next => split <;> simp [Sparse.get, hne, hge]
    next =>
      split
      next heq => subst heq; split <;> simp [Sparse.get, hne, hge]
      next => simp [Sparse.get, ih]

/-! ### Registers of stream channels (R335, R352, R363) -/

section

variable {s : State} {o : Origin} {n : Nat} {v w : Word}

/-- The state of a channel's owner and the count of unordered channels follow UNORD from `s` to `t`. -/
def State.unordFollowed (s t : State) (o : Origin) (n : Nat) : State :=
  if t.unordered n = s.unordered n then t
  else (t.modChan n (fun c => { c with owner := if t.unordered n then o.code else 0 })).setFld Reg.INTK_CTRL Fd.INTK_CTRL_UNORD_COUNT t.unordCount

/-- A write that leaves UNORD as it is, that comes while the channel is enabled, or that changes UNORD as R352 allows, is written as it is. -/
theorem State.writeChan_of (hgood : Fd.CH_SRC_UNORD.of v = s.chSrc n Fd.CH_SRC_UNORD ∨ s.bit (Reg.CH_SRC n) Fd.CH_SRC_EN = true ∨
      s.unordAllowed o n (Fd.CH_SRC_UNORD.of v) = true) (hw : s.writes o (Reg.CH_SRC n) v w) :
    s.writeChan o n v =
      let u := s.unordFollowed (s.landed o (Reg.CH_SRC n) w) o n
      match s.bit (Reg.CH_SRC n) Fd.CH_SRC_EN, u.bit (Reg.CH_SRC n) Fd.CH_SRC_EN with
      | false, true => u.enableChan n
      | true, false => u.disableChan n
      | _, _ => u := by
  have hbad : (setupOrigin o && mayWrite o [.hypervisor, .safety] && !s.bit (Reg.CH_SRC n) Fd.CH_SRC_EN && s.auditOpen o &&
      Fd.CH_SRC_UNORD.of v != s.chSrc n Fd.CH_SRC_UNORD && !s.unordAllowed o n (Fd.CH_SRC_UNORD.of v)) = false := by
    obtain h | h | h := hgood <;> simp [h]
  simp only [State.writeChan, hbad, Bool.false_eq_true, if_false]
  exact State.writeBy_writes hw _

/-- With UNORD unchanged the owner and the count stay. -/
theorem State.unordFollowed_of_same {t : State} (h : t.unordered n = s.unordered n) : s.unordFollowed t o n = t := if_pos h

/-- A register past the one written keeps its value, whatever the order of the map. -/
theorem State.reg_setReg_above {t : State} {j k : Nat} (hlt : k < j) : (t.setReg k v).reg j = t.reg j := Sparse.get_put_above hlt t.regs

/-- Neither the owner nor the count is a channel's EN. -/
theorem State.unordFollowed_en (t : State) :
    (s.unordFollowed t o n).bit (Reg.CH_SRC n) Fd.CH_SRC_EN = t.bit (Reg.CH_SRC n) Fd.CH_SRC_EN := by
  have habove : Reg.INTK_CTRL < Reg.CH_SRC n := by simp only [Reg.INTK_CTRL, Reg.CH_SRC]; omega
  unfold State.unordFollowed
  split
  · rfl
  · simp only [State.bit, State.fld, State.setFld, State.reg_setReg_above habove]
    rfl

end

/-- Settles O19: each command where its premises hold is its effect. -/
theorem intakeCommandsComplete : Obligations.IntakeCommandsComplete := by
  unfold Obligations.IntakeCommandsComplete
  intro s hup
  refine ⟨fun rx vc fc hdr => next_of_up hup rfl, fun rx vc dt hdr ok bytes htype => next_of_up hup (if_pos htype),
    fun rx vc hdr => next_of_up hup rfl, fun port slots => next_of_up hup rfl, fun n q m hopen hon hlate => ?late,
    fun o n v w hn hoff hunord hw hon hsame => ?chanOn, fun o n v w hn hon hw hoff hsame => ?chanOff, fun o n on w => ?unord,
    fun n far hon hwait => ?entry, fun k i q refs e pic => ?picture, fun hen hheld hidle hnext => ⟨fun hwait => ?encode, fun hwait => ?skip⟩,
    fun bytes hen hactive => ?unitDone, fun o k v w hk hoff hw hon hvalid => ?decoder, fun o v w hoff hw => ?encoder⟩
  case late => exact next_of_up hup (by simp [hopen, hon, hlate])
  case chanOn =>
    exact next_of_up hup ((if_pos hn).trans ((State.writeChan_of (.inl hunord) hw).trans (by simp [State.unordFollowed_of_same hsame, hoff, hon])))
  case chanOff =>
    exact next_of_up hup ((if_pos hn).trans ((State.writeChan_of (.inr (.inl hon)) hw).trans (by simp [State.unordFollowed_of_same hsame, hoff, hon])))
  case unord =>
    dsimp only
    intro hn hoff hallowed hw hstill
    exact next_of_up hup ((if_pos hn).trans ((State.writeChan_of (.inr (.inr hallowed)) hw).trans
      (by simp only [hoff, State.unordFollowed_en, hstill]; rfl)))
  case entry =>
    dsimp only
    intro hreads
    refine ⟨fun hkind => next_of_up hup ?_, fun hkind hslot => next_of_up hup ?_, fun hkind hsession => next_of_up hup ?_⟩
    · simp [hon, hwait, hkind, hreads]
    · simp [hon, hwait, hkind, hslot, hreads]
    · simp [hon, hwait, hkind, hsession, hreads]
  case picture =>
    dsimp only
    intro hon hkind hsession hentry hmay hq
    refine ⟨fun hnone => next_of_up hup ?_, fun m hsome => next_of_up hup ?_⟩
    · simp [hon, hkind, hsession, hentry, hmay, Nat.not_le.mpr hq, hnone]
    · simp [hon, hkind, hsession, hentry, hmay, Nat.not_le.mpr hq, hsome]
  case encode => exact next_of_up hup ((if_pos ⟨hen, hheld, by simp [hidle], hnext⟩).trans (if_pos hwait))
  case skip => exact next_of_up hup ((if_pos ⟨hen, hheld, by simp [hidle], hnext⟩).trans (if_neg (by simp [hwait])))
  case unitDone => exact next_of_up hup (if_pos ⟨hen, hactive⟩)
  case decoder => exact next_of_up hup ((if_pos hk).trans (State.writeBy_of hw (by simp [hoff, hon, hvalid])))
  case encoder =>
    dsimp only
    intro hon hvalid
    exact next_of_up hup (State.writeBy_of hw (by simp [hoff, hon, hvalid]))

/-- Settles O20: each command where its premises hold is its effect. -/
theorem fusionCommandsComplete : Obligations.FusionCommandsComplete := by
  unfold Obligations.FusionCommandsComplete
  intro s hup
  refine ⟨fun g p torn hrun hgrid hon => ?pass, fun g a hawait hon hknot => ⟨fun hreads htg hnum => ?step, fun hbad => ?wait⟩,
    fun g num bs rest hlists hon => ?listDone, fun o g v w hg hoff hw hon => ?enable, fun o g v w hg hon hw hoff => ?disable⟩
  case pass => exact next_of_up hup (by simp [hrun, hgrid, hon])
  case step => exact next_of_up hup (by simp only [hawait]; exact (if_pos ⟨hon, hknot⟩).trans (if_pos ⟨by simp [hreads], htg, hnum⟩))
  case wait =>
    have hno : ¬ ((!s.readFails (s.listSlot g a.num) 36864) = true ∧ ofLe (s.peekBytes (s.listSlot g a.num) 8) = a.tg ∧
        ofLe (s.peekBytes (s.listSlot g a.num + 8) 4) = a.num % 2 ^ 32) := by
      rintro ⟨hreads, htg, -⟩
      exact hbad.elim (fun h => by simp [h] at hreads) (fun h => h htg)
    exact next_of_up hup (by simp only [hawait]; exact (if_pos ⟨hon, hknot⟩).trans (if_neg hno))
  case listDone => exact next_of_up hup (by simp [hlists, hon])
  case enable => exact next_of_up hup ((if_pos hg).trans (State.writeBy_of hw (by simp [hoff, hon])))
  case disable => exact next_of_up hup ((if_pos hg).trans (State.writeBy_of hw (by simp [hoff, hon])))

end Sys2Proof.Machine

/-! SUPPORT. Where the commands of the display pipes and of the safety mechanisms take their effect. -/

namespace Sys2Proof.Machine

/-- Settles O21: each command where its premises hold is its effect. -/
theorem displayCommandsComplete : Obligations.DisplayCommandsComplete := by
  unfold Obligations.DisplayCommandsComplete
  intro s p hup
  refine ⟨fun hon hheld hlines => ?heldFrame, fun hon hstarted hheld hholding hlines => ?vtotal, fun hon hwhen => ?free, fun o v w hp hoff hw hon => ?enable,
    fun o v w hp hon hsp hw hoff => ?disable, fun hon htraining hgrant => ⟨?trained, ?failed⟩, fun o v w hp hgood hoff hw hon => ?spEnable,
    fun o v w hp hmay hw hon => ?spTable, fun i t htable hon hstarted hsp hcrc => ?telltale, fun o w e hw hmay hearly => ?early⟩
  case heldFrame => exact next_of_up hup (if_pos ⟨hon, hheld, hlines⟩)
  case vtotal => exact next_of_up hup (if_pos ⟨hon, hstarted, by simp [hheld], by simp [hholding], hlines⟩)
  case free => exact next_of_up hup (if_pos ⟨hon, hwhen.imp_left fun h => by simp [h]⟩)
  case enable => exact next_of_up hup ((if_pos hp).trans (State.writeBy_of (w := w) (by simpa [hoff] using hw) (by simp [hoff, hon])))
  case disable => exact next_of_up hup ((if_pos hp).trans (State.writeBy_of (w := w) (by simpa [hsp] using hw) (by simp [hoff, hon])))
  case trained => exact next_of_up hup ((if_pos ⟨hon, htraining, hgrant⟩).trans rfl)
  case failed => exact next_of_up hup ((if_pos ⟨hon, htraining, hgrant⟩).trans rfl)
  case spEnable => exact next_of_up hup ((if_pos hp).trans (State.writeBy_of hw (by simp only [hgood]; simp [hoff, hon])))
  case spTable => exact next_of_up hup ((if_pos hp).trans (State.writeBy_of hw (if_pos ⟨hmay, hon⟩)))
  case telltale =>
    refine next_of_up hup ?_
    simp only [htable]
    exact (if_pos ⟨hon, hstarted, hsp⟩).trans (if_pos (by rw [bne_iff_ne.mpr hcrc, Bool.true_or]))
  case early =>
    refine next_of_up hup (State.writeBy_of hw ?_)
    simp only [hearly]
    exact if_pos ⟨hmay, by decide⟩

/-- Settles O22: each command where its premises hold is its effect. -/
theorem safetyCommandsComplete : Obligations.SafetyCommandsComplete := by
  unfold Obligations.SafetyCommandsComplete
  intro s hup
  refine ⟨fun k t j jrnl hfind hjob => ?compare, fun p hp hruns hhalted => ?diverge, fun p hp hruns hhalted => ?restart,
    fun k x missed hfind => ⟨fun hheld => ?held, fun hheld hall hclash => ?clash, fun hheld hall hclear => ?start⟩,
    fun n jrnl hruns => ⟨?pass, ?fail⟩, fun n hn hmode hdomain hdarn hlate => ?cover, fun hend => next_of_up hup (if_pos hend),
    fun o w hw hoff hon => ?force, fun o w hw hoff => ?unforce, fun v w hw => next_of_up hup (State.writeBy_of hw rfl),
    fun o i hgrant => next_of_up hup (State.command_of hgrant rfl), fun o i hgrant => next_of_up hup (State.command_granted hgrant _ _)⟩
  case compare => exact next_of_up hup (by simp only [hfind, hjob])
  case diverge => exact next_of_up hup (if_pos ⟨hp, hruns, by simp [hhalted]⟩)
  case restart => exact next_of_up hup (if_pos ⟨hp, hruns, hhalted⟩)
  case held => exact next_of_up hup (by simp only [hfind]; exact if_pos hheld)
  case clash => exact next_of_up hup (by simp only [hfind]; exact (if_neg (by simp [hheld])).trans ((if_pos hall).trans (if_pos hclash)))
  case start => exact next_of_up hup (by simp only [hfind]; exact (if_neg (by simp [hheld])).trans ((if_pos hall).trans (if_neg (by simp [hclear]))))
  case pass => exact next_of_up hup (if_pos hruns)
  case fail => exact next_of_up hup (if_pos hruns)
  case cover => exact next_of_up hup (if_pos ⟨hn, hmode, hdomain, by simp [hdarn], hlate⟩)
  case force => exact next_of_up hup (State.writeBy_of hw (by simp [hoff, hon]))
  case unforce => exact next_of_up hup (State.writeBy_of hw (by simp [hoff]))

end Sys2Proof.Machine

/-! SUPPORT. Where the debug commands and the commands of darning, of leases and of recovery take their effect. -/

namespace Sys2Proof.Machine

/-- Settles O23: each command where its premises hold is its effect. -/
theorem debugCommandsComplete : Obligations.DebugCommandsComplete := by
  unfold Obligations.DebugCommandsComplete
  intro s hup
  refine ⟨fun targets sec hsec hroom => ?attach, fun t on ht => next_of_up hup (if_pos ht), fun hattached => ?detach,
    fun r q j ht hjob => ⟨?step, fun n x hn hx => ?read, fun b n h x c code hb helem hdev => ⟨fun hrole => ?input, fun hrole hboth => ?output⟩⟩,
    fun p ht hdebug => ?stepPair, fun p n ht => ?time, fun t n x ht => next_of_up hup (if_pos ((Bool.not_eq_true' _).mpr ht))⟩
  case attach =>
    refine next_of_up hup ?_
    simp only [hsec]
    by_cases hgot : targets.filter (s.grantable sec) = []
    · simp [hgot]
    · simp [hgot, hroom]
  case detach => exact next_of_up hup (if_neg (by simpa using hattached))
  case step => exact next_of_up hup (by simp only [ht, hjob]; rfl)
  case read =>
    have hread : (j.cores.contains n && x != .timeCounter) = true := by rw [hn, bne_iff_ne.mpr hx]; rfl
    exact next_of_up hup (by simp only [ht, hjob]; exact if_pos hread)
  case input => exact next_of_up hup (by simp only [ht, hjob]; simp [hb, helem, hdev, hrole])
  case output => exact next_of_up hup (by simp only [ht, hjob]; simp [hb, helem, hdev, hrole, hboth])
  case stepPair => exact next_of_up hup (by simp only [ht]; exact if_pos hdebug)
  case time => exact next_of_up hup (by simp only [ht]; rfl)

/-- Settles O24: each command where its premises hold is its effect. -/
theorem darningCommandsComplete : Obligations.DarningCommandsComplete := by
  unfold Obligations.DarningCommandsComplete
  intro s hup
  refine ⟨fun n d pass hfind hdomain hgrant => ?coreDone, fun phys jrnl n hwait hidle hchan => ⟨fun sp hfree => ?darn, fun hnone => ?noSpare⟩,
    fun phys c hfind => next_of_up hup (by simp only [hfind]), fun phys b r jrnl n hcore hwait hjob htest => ?row,
    fun o i jrnl hgrant hi hdarn hfree => ?core, fun o i jrnl hgrant hi hcopy => next_of_up hup (State.command_granted hgrant _ _),
    fun o i jrnl hgrant hport hlane hchanging => ?lane⟩
  case coreDone => exact next_of_up hup (by simp only [hfind]; exact if_pos (by rw [hdomain, hgrant]; rfl))
  case darn => exact next_of_up hup ((if_pos (by rw [hwait, hidle]; rfl)).trans (by simp only [hchan, hfree]))
  case noSpare => exact next_of_up hup ((if_pos (by rw [hwait, hidle]; rfl)).trans (by simp only [hchan, hnone]))
  case row => exact next_of_up hup (by simp only [hcore]; exact if_pos (by rw [hwait, hjob, htest]; rfl))
  case core =>
    exact next_of_up hup (State.command_of hgrant
      ((if_neg (by omega)).trans ((if_neg (by simp [hdarn])).trans ((if_neg (by simp [hfree])).trans rfl))))
  case lane =>
    exact next_of_up hup (State.command_of hgrant ((if_neg (by omega)).trans
      ((if_neg (by rw [hlane]; exact Bool.eq_false_iff.mp hchanging)).trans ((if_pos hlane).trans (by rw [hlane])))))

/-- Settles O25: each command where its premises hold is its effect. -/
theorem leaseCommandsComplete : Obligations.LeaseCommandsComplete := by
  unfold Obligations.LeaseCommandsComplete
  intro s hup
  refine ⟨fun units => next_of_up hup rfl, fun u hrooted hend hnew => ?expire, fun u hrestoring => next_of_up hup (if_pos hrestoring),
    fun x => next_of_up hup rfl, fun n jrnl hn hmode hdomain => next_of_up hup (if_pos ⟨hn, hmode, hdomain⟩),
    fun p hp hdomain hpanel => next_of_up hup (if_pos ⟨hp, hdomain, (Bool.not_eq_true' _).mpr hpanel⟩), fun p hpanel => next_of_up hup (if_pos hpanel),
    fun hend hlost => next_of_up hup (if_pos ⟨hend, hlost⟩), fun hcurrent hedge => ?alive⟩
  case expire => exact next_of_up hup (if_pos (by rw [hrooted, hnew, decide_eq_true hend]; rfl))
  case alive => exact next_of_up hup (if_pos (by rw [hcurrent, decide_eq_true hedge]; rfl))

end Sys2Proof.Machine

/-! SUPPORT. Where the commands of Selvage and tenants, of worlds and enclaves, and of virtual instances take their effect. -/

namespace Sys2Proof.Machine

/-- A granted command does what another act does that agrees on the state the command sees. -/
theorem State.command_as {s : State} {o : Origin} {c : CmdReg} {idx : Nat} {act act' : State → State × Nat} (hgrant : s.granted o c)
    (hact : act (s.indexed c idx) = act' (s.indexed c idx)) : s.command o c idx act = s.commanded o c idx act' :=
  (State.command_granted hgrant _ _).trans (congrArg (fun r : State × Nat => s.commandDone o c r.1 r.2) hact)

section

variable {s : State} {k : Nat} {force jrnl : Bool}

/-- A live virtual device whose state lets the command through is removed (R502, R540). -/
theorem State.remove_of_live (hinst : isInstance k = true) (hlive : (s.tenant k).state = 1) (hlet : force = true ∨ s.viState (k - 0x10) = 0) :
    s.remove k force jrnl = s.removeTenant k jrnl := by
  have hpass : (force || s.viState (k - 0x10) == 0 || s.viState (k - 0x10) == 3 || s.viState (k - 0x10) == 5) = true := by
    obtain h | h := hlet <;> simp [h]
  exact (if_neg (by simp [hinst, hlive])).trans ((if_neg (by simp [hlive])).trans (if_pos hpass))

end

/-- Settles O26: each command where its premises hold is its effect. -/
theorem trustCommandsComplete : Obligations.TrustCommandsComplete := by
  unfold Obligations.TrustCommandsComplete
  intro s hup
  refine ⟨fun o k hgrant => next_of_up hup (State.command_granted hgrant _ _), fun k x ok hfind => next_of_up hup (by simp only [hfind]),
    fun o k jrnl hgrant hstaged => next_of_up hup (State.command_granted hgrant _ _), fun o k hgrant hstaged => ?discard,
    fun o k hgrant htenant => next_of_up hup (State.command_of hgrant (if_pos htenant)),
    fun o k hgrant hinst hfresh hlive hepoch => ?create, fun o k jrnl hgrant hinst hlive => ⟨?force, fun _ hvi => ?remove⟩,
    fun k hremoving => ⟨next_of_up hup (if_pos hremoving), next_of_up hup (if_pos hremoving)⟩, fun o enclave tenant wrap far hgrant => ?report,
    fun o r hfind => next_of_up hup (by simp only [hfind]), fun n => next_of_up hup (if_pos rfl),
    fun first n dest hexporting => next_of_up hup (by simp only [hexporting]), fun v hexported htail => ?ack⟩
  case discard => exact next_of_up hup (State.command_of hgrant (if_pos (Bool.or_eq_true_iff.mpr (.inl hstaged))))
  case create =>
    exact next_of_up hup (State.command_of hgrant
      ((if_neg (by rw [hinst]; decide)).trans ((if_neg hfresh).trans ((if_neg hlive).trans (if_neg hepoch)))))
  case force => exact next_of_up hup (State.command_as hgrant (State.remove_of_live hinst hlive (.inl rfl)))
  case remove =>
    have hsame : (s.indexed (tenantSel o) (k % 256)).remove (k % 256) false jrnl = (s.indexed (tenantSel o) (k % 256)).removeTenant (k % 256) jrnl :=
      State.remove_of_live hinst hlive (.inr hvi)
    exact next_of_up hup (State.command_as hgrant hsame)
  case report =>
    refine next_of_up hup ?_
    unfold State.attReport
    exact State.command_granted hgrant _ _
  case ack => exact next_of_up hup ((if_pos rfl).trans ((if_neg (Nat.not_lt.mpr hexported)).trans (if_pos htail)))

/-- Settles O27: each command where its premises hold is its effect. -/
theorem worldCommandsComplete : Obligations.WorldCommandsComplete := by
  unfold Obligations.WorldCommandsComplete
  intro s hup
  refine ⟨next_of_up hup rfl, fun c n target ret e regs hnormal houtside hsecure htag hdepth => ?gateS,
    fun c n target ret e v regs hlive houtside htag hsecure hdepth hresume => ?gateE, fun c n r rs regs hstack => ?gret,
    fun c n pc r rs v regs hinside hlive hstack => ?trap, fun secure ranges t hranges hclean => ?register,
    fun tag v hlive => next_of_up hup (by simp only [hlive]), fun h d hholder hreq => next_of_up hup (if_pos (by rw [hholder, hreq]; rfl)),
    fun h d hheld => next_of_up hup (if_pos hheld)⟩
  case gateS =>
    exact next_of_up hup (if_pos (by simp [State.hartWith, hnormal, houtside, hsecure, htag, hdepth]))
  case gateE =>
    refine next_of_up hup ?_
    simp only [State.gateE, hlive]
    refine (if_pos (by simp [State.hartWith, houtside, htag, hsecure, hdepth])).trans ?_
    exact if_neg (Bool.eq_false_iff.mp hresume)
  case gret =>
    refine next_of_up hup ?_
    simp only [State.gret, State.hartWith, hstack]
  case trap =>
    refine next_of_up hup ?_
    simp only [State.hartWith, hlive, State.leaveEnclave, hstack]
    exact if_neg hinside
  case register => exact next_of_up hup ((if_pos hranges).trans (by simp only [hclean]))

/-- A VI's command in a state that lets it through (R540) is its own act. -/
theorem State.viCommand_of {s t : State} {o : Origin} {v code : Nat} {states : List Nat} {act : State → Nat → State × Nat}
    (hgrant : s.granted o viCmd) (hlet : states.contains ((s.indexed viCmd v).viState (v % 64)) = true)
    (hact : act (s.indexed viCmd v) (v % 64) = (t, code)) : s.viCommand o v states act = s.commandDone o viCmd t code :=
  State.command_of hgrant ((if_pos hlet).trans hact)

/-- Settles O28: each command where its premises hold is its effect. -/
theorem instanceCommandsComplete : Obligations.InstanceCommandsComplete := by
  unfold Obligations.InstanceCommandsComplete
  intro s hup
  refine ⟨fun o v hgrant => ?commands, fun v x hfind => next_of_up hup (by simp only [hfind]), fun v u fixed job hfind => ?restored⟩
  case commands =>
    dsimp only
    refine ⟨fun h => next_of_up hup (State.viCommand_of hgrant ?_ rfl), fun h => next_of_up hup (State.viCommand_of hgrant ?_ rfl),
      fun h => next_of_up hup (State.viCommand_of hgrant ?_ rfl), fun h => next_of_up hup (State.viCommand_of hgrant ?_ rfl),
      fun h => next_of_up hup (State.viCommand_of hgrant ?_ rfl), fun h cert jrnl => next_of_up hup (State.viCommand_of hgrant ?_ rfl),
      fun h img => next_of_up hup (State.viCommand_of hgrant ?_ rfl)⟩ <;> simp [h]
  case restored => exact next_of_up hup (by simp only [hfind])

end Sys2Proof.Machine

/-! SUPPORT. Where the commands of the host bridge, of the CAN controllers and of the frame queues take their effect. -/

namespace Sys2Proof.Machine

/-- A charge that its holder already has is not asked for again (R71). -/
theorem State.obtain_held {s : State} {r : AlwReq} (h : s.holdsGrant r.holder = true) : s.obtain r = s :=
  if_pos (by rw [h]; rfl)

/-- Settles O29: each command where its premises hold is its effect. -/
theorem bridgeCommandsComplete : Obligations.BridgeCommandsComplete := by
  unfold Obligations.BridgeCommandsComplete
  intro s hup
  refine ⟨fun tag gen h ahead data hfind hdata hlate => ?completion, fun tag gen h hfind => next_of_up hup (by simp only [hfind]),
    fun page => next_of_up hup rfl, fun mode hready hdown hlow hhigh hgrant => ?trained, fun hlink => next_of_up hup (if_pos hlink),
    fun fn hlow hhigh => ?resetOne, next_of_up hup (if_pos rfl), fun fn hlink hfn hnew => ?master,
    fun fn vec hfn hvec hon hlink => next_of_up hup (if_pos ⟨hfn, hvec, hon, hlink⟩), fun o hreader => next_of_up hup (if_pos hreader),
    fun req far hlink => next_of_up hup (if_pos hlink), fun o i hgrant => ⟨?mapRead, fun hlive hmeta hfunc hidle => ?mapWrite, fun hidle => ?mapDisable⟩⟩
  case completion => exact next_of_up hup ((if_neg hdata).trans (by simp only [hfind]; exact if_pos hlate))
  case trained =>
    have hstate : s.obtain (s.unitReq .bridge .lc none 0) = s := State.obtain_held hgrant
    refine next_of_up hup ((if_pos (by simp [hready, hdown, hlow, hhigh])).trans ?_)
    simp only [State.usbTrained, hstate]
    exact if_pos hgrant
  case resetOne => exact next_of_up hup ((if_neg (by omega)).trans (if_pos hhigh))
  case master => exact next_of_up hup (if_pos ⟨hlink, hfn, (Bool.not_eq_true' _).mpr hnew⟩)
  case mapRead => exact next_of_up hup (State.command_of hgrant rfl)
  case mapWrite =>
    exact next_of_up hup (State.command_of hgrant ((if_neg (by simp [hlive, hmeta, hfunc])).trans (if_neg (Bool.eq_false_iff.mp hidle))))
  case mapDisable => exact next_of_up hup (State.command_of hgrant (if_neg (Bool.eq_false_iff.mp hidle)))

/-- Settles O30: each command where its premises hold is its effect. -/
theorem canCommandsComplete : Obligations.CanCommandsComplete := by
  unfold Obligations.CanCommandsComplete
  intro s hup
  refine ⟨fun n hlive => ⟨next_of_up hup (if_pos hlive), fun e => next_of_up hup (if_pos hlive),
      fun f sof hsof hformat => next_of_up hup (if_pos ⟨hlive, hsof, hformat⟩)⟩,
    fun n hn hstate hdomain hauto hon => next_of_up hup (if_pos ⟨hn, hstate, hdomain, hauto, hon⟩), fun o n v w hn hoff hw => ?enable,
    fun n sof k q ws l hsends hsof hwinner hk hrim hfetched => ?sent, fun q v hq => next_of_up hup (if_pos hq), fun o q v w hq hoff hw => ?queueOn,
    fun o q v w hq hon hw hoff => ?queueOff⟩
  case enable =>
    dsimp only
    intro hon
    exact next_of_up hup ((if_pos hn).trans (State.writeBy_of hw (by simp only [hoff, hon])))
  case sent =>
    refine next_of_up hup ((if_pos ⟨hsends, hsof⟩).trans ?_)
    simp only [hwinner, hfetched]
    exact (if_neg (Nat.not_le.mpr hk)).trans (if_neg (by simp [hrim]))
  case queueOn =>
    dsimp only
    intro hon
    exact next_of_up hup ((if_pos hq).trans (State.writeBy_of hw (if_pos (by rw [hoff, hon]; rfl))))
  case queueOff =>
    exact next_of_up hup ((if_pos hq).trans (State.writeBy_of hw ((if_neg (by rw [hon, hoff]; decide)).trans (if_pos (by rw [hon, hoff]; rfl)))))

end Sys2Proof.Machine

/-! SUPPORT. Where the commands of the TSN switch, of network time and of the sluice take their effect. -/

namespace Sys2Proof.Machine

/-- Settles O31: each command where its premises hold is its effect. -/
theorem switchCommandsComplete : Obligations.SwitchCommandsComplete := by
  unfold Obligations.SwitchCommandsComplete
  intro s hup
  refine ⟨fun p r hrun hdomain hp hend => ?interval, fun p hp hdomain hidle => ?takeover,
    fun p bytes sfd hp hport hsfd => ⟨next_of_up hup ((if_pos ⟨hp, hport, hsfd⟩).trans rfl), next_of_up hup ((if_pos ⟨hp, hport, hsfd⟩).trans rfl)⟩,
    fun k q ws l hk hq hport hfetched hfree => ?sent, fun mac vid hage => next_of_up hup (if_neg hage), fun p e hport => next_of_up hup (if_pos hport),
    fun hdomain => ⟨next_of_up hup ((if_pos hdomain).trans rfl), fun hcapable _ => ?elected⟩,
    fun o v w hmay => ⟨fun hcmd hw => ?accept, fun hcmd hw => ?hold⟩, fun o v w hmaster hw => ?offset, fun o p v w hp hw => ?port⟩
  case interval => exact next_of_up hup (by simp only [hrun]; exact if_pos ⟨hdomain, hp, hend⟩)
  case takeover =>
    dsimp only
    intro hents hcycle hbase
    exact next_of_up hup (if_pos (by simp [hp, hdomain, hidle, hents, hcycle, hbase]))
  case sent =>
    refine next_of_up hup ((if_pos ⟨hk, hq, hport⟩).trans ?_)
    simp only [hfetched]
    exact if_neg (Bool.eq_false_iff.mp hfree)
  case elected => exact next_of_up hup ((if_pos hdomain).trans (if_pos (by rw [hcapable]; rfl)))
  case accept =>
    refine next_of_up hup (State.writeBy_of hw ((if_pos hmay).trans ?_))
    simp only [hcmd]
  case hold =>
    refine next_of_up hup (State.writeBy_of hw ((if_pos hmay).trans ?_))
    simp only [hcmd]
  case offset => exact next_of_up hup ((if_pos hmaster).trans (State.writeBy_of hw rfl))
  case port => exact next_of_up hup ((if_pos hp).trans (State.writeBy_of hw rfl))

/-- Settles O32: each command where its premises hold is its effect. -/
theorem sluiceCommandsComplete : Obligations.SluiceCommandsComplete := by
  unfold Obligations.SluiceCommandsComplete
  intro s hup
  refine ⟨fun i bs l hin hon => ?update, fun d hon hpdu hdst hready => next_of_up hup (if_pos ⟨hon, hpdu, hdst, hready⟩), fun o v w hoff hw => ?enable,
    fun o i hgrant => ⟨?pduRead, fun hoff => ⟨fun hok => ?pduWrite, ?pduClear⟩⟩, fun o i hgrant => ⟨?mapRead, fun hoff => ⟨?mapWrite, ?mapClear⟩⟩⟩
  case update => exact next_of_up hup (by simp only [hin]; exact if_pos hon)
  case enable =>
    dsimp only
    intro hon
    exact next_of_up hup (State.writeBy_of hw (if_pos (by rw [hoff, hon]; rfl)))
  case pduRead => exact next_of_up hup (State.command_of hgrant rfl)
  case pduWrite => exact next_of_up hup (State.command_of hgrant ((if_neg (Bool.eq_false_iff.mp hoff)).trans (if_pos hok)))
  case pduClear => exact next_of_up hup (State.command_of hgrant (if_neg (Bool.eq_false_iff.mp hoff)))
  case mapRead => exact next_of_up hup (State.command_of hgrant rfl)
  case mapWrite => exact next_of_up hup (State.command_of hgrant (if_neg (Bool.eq_false_iff.mp hoff)))
  case mapClear => exact next_of_up hup (State.command_of hgrant (if_neg (Bool.eq_false_iff.mp hoff)))

end Sys2Proof.Machine

/-! SUPPORT. Where the Causeway's frames and link commands and the writes of set-up space take their effect. -/

namespace Sys2Proof.Machine

section

variable {s : State} {port i : Nat} {f : Frame} {effect : State → Nat → State}

/-- A frame outside the sequence, of an UP peer and a tenant that has not gone, has its effect where its tag holds (R622). -/
theorem State.receive_unsequenced (hsender : s.sender port f = some i) (hlive : s.goneTenant f.tenant = false) :
    s.receive port f true false effect = effect ((s.keyReady f.tenant i).heard i f) i := by
  simp only [State.receive, hsender, hlive, Bool.not_true, Bool.not_false, Bool.false_eq_true, if_false, if_true]

/-- A sequenced frame with the number that is expected has its effect, and is acknowledged (R623). -/
theorem State.receive_expected (hsender : s.sender port f = some i) (hlive : s.goneTenant f.tenant = false)
    (hseq : f.seq = (((s.keyReady f.tenant i).heard i f).peer i).expect) :
    s.receive port f true true effect =
      (effect (((s.keyReady f.tenant i).heard i f).setPeer i { ((s.keyReady f.tenant i).heard i f).peer i with
        expect := ((((s.keyReady f.tenant i).heard i f).peer i).expect + 1) % 2 ^ 32, ackDue := true }) i).ackNow i := by
  simp only [State.receive, hsender, hlive, hseq, Bool.not_true, Bool.false_eq_true, if_false, if_true]

/-- An answer that comes before its request expires is used. -/
theorem State.answered_of {r : RemoteRead} {use : State → RemoteRead → State}
    (hfind : s.cwy.reads.find? (fun r => r.peer == i && r.tag == f.tag) = some r) (htime : s.now < r.expiry) : s.answered i f use = use s r := by
  simp only [State.answered, hfind]
  exact if_neg (Nat.not_le.mpr htime)

end

/-- Settles O33: each frame where its premises hold is its effect. -/
theorem causewayFramesComplete : Obligations.CausewayFramesComplete := by
  unfold Obligations.CausewayFramesComplete
  intro s port i f hup hsender hlive
  dsimp only
  refine ⟨next_of_up hup (State.receive_unsequenced hsender hlive), next_of_up hup (State.receive_unsequenced hsender hlive), fun hseq => ?_⟩
  have hframe {effect : State → Nat → State} := State.receive_expected (effect := effect) hsender hlive hseq
  generalize ((s.keyReady f.tenant i).heard i f).setPeer i { ((s.keyReady f.tenant i).heard i f).peer i with
        expect := ((((s.keyReady f.tenant i).heard i f).peer i).expect + 1) % 2 ^ 32, ackDue := true } = t at hframe ⊢
  refine ⟨fun hlow hhigh hserves => ?read, fun hserves => ?sealReq, next_of_up hup hframe, fun lane jrnl hdirect => ?lane,
    fun r hfind htime => ⟨?data, ?error, fun hseal => ?sealData⟩⟩
  case read => exact next_of_up hup (hframe.trans (congrArg (State.ackNow · i) (if_pos ⟨hlow, hhigh, hserves⟩)))
  case sealReq => exact next_of_up hup (hframe.trans (congrArg (State.ackNow · i) (if_pos hserves)))
  case lane => exact next_of_up hup (hframe.trans (congrArg (State.ackNow · i) (if_pos hdirect)))
  case data => exact next_of_up hup (hframe.trans (congrArg (State.ackNow · i) (State.answered_of hfind htime)))
  case error => exact next_of_up hup (hframe.trans (congrArg (State.ackNow · i) (State.answered_of hfind htime)))
  case sealData => exact next_of_up hup (hframe.trans (congrArg (State.ackNow · i) ((State.answered_of hfind htime).trans (if_pos hseal))))

/-- Settles O34: each command where its premises hold is its effect. -/
theorem causewayLinksComplete : Obligations.CausewayLinksComplete := by
  unfold Obligations.CausewayLinksComplete
  intro s hup
  refine ⟨fun tenant i hstate hnew => ?derived, fun i hstate hdue hkey => next_of_up hup (if_pos ⟨hstate, hdue, hkey⟩),
    fun i hstate hsent hdue => ⟨fun hlast => ?lost, fun hagain => ?resend⟩, fun i hstate hdue => next_of_up hup (if_pos ⟨hstate, hdue⟩),
    fun port src cert i hpeer hport => ?key, fun port lanes hmay hlanes hgrant => ?trained,
    fun port hport hlink => next_of_up hup (if_pos ⟨hport, hlink⟩), fun o p v w hsection hw => ?enable,
    fun port lane jrnl oneLane hport hlane hlink hon => next_of_up hup (if_pos ⟨hport, hlane, hlink, hon⟩), fun o i hgrant hi => ?peer⟩
  case derived => exact next_of_up hup (if_pos (by simp [hstate, hnew]))
  case lost => exact next_of_up hup ((if_pos ⟨hstate, hsent, hdue⟩).trans (if_pos hlast))
  case resend => exact next_of_up hup ((if_pos ⟨hstate, hsent, hdue⟩).trans (if_neg (Nat.not_le.mpr hagain)))
  case key => exact next_of_up hup (by simp only [hpeer]; exact if_pos hport)
  case trained =>
    have hstate : s.obtain (s.portReq port) = s := State.obtain_held hgrant
    refine next_of_up hup ((if_pos (by rw [hmay, hlanes]; rfl)).trans ?_)
    simp only [hstate]
    exact if_pos hgrant
  case enable => exact next_of_up hup (State.writeBy_of (w := w) (by rw [if_pos hsection]; exact hw) rfl)
  case peer => exact next_of_up hup (State.command_of hgrant (if_neg (Nat.not_le.mpr hi)))

/-- Settles O35: each write where its premises hold is its effect. -/
theorem setupCommandsComplete : Obligations.SetupCommandsComplete := by
  unfold Obligations.SetupCommandsComplete
  intro s hup
  refine ⟨fun o d v hd hsetup => next_of_up hup (if_pos hd), fun o u v w hu hw howner hfound => ?ufs, fun o blk hblk => next_of_up hup (if_pos hblk),
    fun o off v env hsetup halign hend => ⟨fun hnarrow => ?four, fun halign8 hwide => ?eight⟩⟩
  case ufs =>
    obtain ⟨hsetup, hopen, r, i, j, hfind, hunit, hword⟩ := hw
    have hkey : Reg.GEN_UFS_LU u % RegMap.bankSize = Reg.GEN_UFS_LU u := Nat.mod_eq_of_lt (by simp only [Reg.GEN_UFS_LU, RegMap.bankSize]; omega)
    rw [hkey] at hfind
    have hgood : (mayWrite o [.selvage, .hypervisor] && s.fld (Reg.GEN_UFS_LU u) Fd.GEN_UFS_LU_OWNER != Fd.GEN_UFS_LU_OWNER.of v &&
        s.fld (Reg.GEN_UFS_LU u) Fd.GEN_UFS_LU_OWNER != 0 && Fd.GEN_UFS_LU_OWNER.of v != 0) = false := by
      obtain h | h := howner <;> simp [h]
    refine next_of_up hup ((if_pos hu).trans ?_)
    simp only [State.writeUfs, hgood, Bool.false_eq_true, if_false, State.writeRanged, hsetup, hopen, Bool.not_true, hfind, hword, Bool.false_and]
  case four =>
    refine next_of_up hup ?_
    simp [State.setupWrite, State.write4, hsetup, halign, Nat.not_le.mpr hend, hnarrow]
  case eight =>
    refine next_of_up hup ?_
    simp [State.setupWrite, State.write8, hsetup, halign8, Nat.not_le.mpr hend, hwide]

end Sys2Proof.Machine

/-! SUPPORT. What is refused: stale acts, gates without an EYE, commands of instances in other states, frames out of order, changes with the
audit ring full. -/

namespace Sys2Proof.Machine

/-- Settles O53: each act finds that what it names has another generation, and only counts. -/
theorem staleActsOnlyCount : Obligations.StaleActsOnlyCount := by
  unfold Obligations.StaleActsOnlyCount
  intro s hup
  refine ⟨fun h g hnone => next_of_up hup (if_neg (Bool.eq_false_iff.mp hnone)), fun n q g hold => ?lease, fun n q g hold => ?reservation,
    fun tag g data ahead hdata hold => ?completion, fun u hrooted hend => (if_neg (by simp [hrooted])).trans (if_neg (Nat.not_lt.mpr hend))⟩
  case lease =>
    cases hjob : s.job? n q with
    | none => exact ⟨next_of_up hup (by simp only [hjob]), next_of_up hup (by simp only [hjob])⟩
    | some j =>
      have hstale : s.oldLease j g = true :=
        Bool.or_eq_true_iff.mpr ((hold j hjob).imp (fun h => bne_iff_ne.mpr h.symm) (fun h => bne_iff_ne.mpr h.symm))
      exact ⟨next_of_up hup (by simp only [hjob]; exact if_pos hstale), next_of_up hup (by simp only [hjob]; exact if_pos hstale)⟩
  case reservation =>
    cases hjob : s.job? n q with
    | none => exact next_of_up hup (by simp only [hjob])
    | some j =>
      cases hresv : j.resv with
      | none => exact next_of_up hup (by simp only [hjob, hresv])
      | some r => exact next_of_up hup (by simp only [hjob, hresv]; exact if_pos (hold j r hjob hresv))
  case completion =>
    have hnone : s.bridge.held.find? (fun h => h.tag == tag && h.gen == g && decide (tag < 512)) = none := by
      rw [List.find?_eq_none]
      intro h hmem hmatch
      simp only [Bool.and_eq_true, beq_iff_eq] at hmatch
      exact hold h hmem hmatch.1.1 hmatch.1.2
    exact next_of_up hup ((if_neg hdata).trans (by simp only [hnone]))

/-- Settles O55: each premise fails the test of its gate. -/
theorem gatewayFaults : Obligations.GatewayFaults := by
  unfold Obligations.GatewayFaults
  intro s c n target ret eye regs hup
  dsimp only
  refine ⟨fun hbad => next_of_up hup ?gateS, fun hbad => next_of_up hup ?gateE, fun e v heye hresume hlive hframe => next_of_up hup ?resume,
    fun hempty => next_of_up hup ?gret⟩
  case gateS =>
    cases eye with
    | none => rfl
    | some e =>
      refine if_neg ?_
      simp only [State.hartWith, Bool.and_eq_true, Bool.not_eq_true', beq_iff_eq]
      rintro ⟨⟨⟨⟨hnormal, houtside⟩, hsecure⟩, htag⟩, hdepth⟩
      obtain h | h | h | h := hbad
      · exact absurd h (by simp [hnormal])
      · exact h houtside
      · exact Nat.not_lt.mpr h (of_decide_eq_true hdepth)
      · exact (h e rfl).elim (by simp [hsecure]) (absurd htag)
  case gateE =>
    cases eye with
    | none => rfl
    | some e =>
      cases hlive : s.enclave? e.tag with
      | none => simp only [State.gateE, hlive]; rfl
      | some v =>
        simp only [State.gateE, hlive]
        refine if_neg ?_
        simp only [State.hartWith, Bool.and_eq_true, bne_iff_ne, beq_iff_eq]
        rintro ⟨⟨⟨houtside, htag⟩, hsecure⟩, hdepth⟩
        obtain h | h | h := hbad
        · exact h houtside
        · exact Nat.not_lt.mpr h (of_decide_eq_true hdepth)
        · exact h e v rfl htag hlive hsecure
  case resume =>
    subst heye
    simp only [State.gateE, hlive]
    split
    · simp only [State.enterEnclave, hresume, hframe, if_true]; rfl
    · rfl
  case gret => simp only [State.gret, State.hartWith, hempty]

/-- A VI's command in a state that does not list it answers BUSY (R540). -/
theorem State.viCommand_busy {s : State} {o : Origin} {v : Nat} {states : List Nat} {act : State → Nat → State × Nat} (hgrant : s.granted o viCmd)
    (hlet : states.contains ((s.indexed viCmd v).viState (v % 64)) = false) :
    s.viCommand o v states act = s.commandDone o viCmd (s.indexed viCmd v) 2 :=
  State.command_of hgrant (if_neg (Bool.eq_false_iff.mp hlet))

/-- Settles O56: the state is not among those that the command lists. -/
theorem instanceStatesHold : Obligations.InstanceStatesHold := by
  unfold Obligations.InstanceStatesHold
  intro s o v hup hgrant
  dsimp only
  refine ⟨fun h => next_of_up hup (State.viCommand_busy hgrant ?_), fun h h' => next_of_up hup (State.viCommand_busy hgrant ?_),
    fun h h' => next_of_up hup (State.viCommand_busy hgrant ?_),
    fun h h' => ⟨next_of_up hup (State.viCommand_busy hgrant ?_), next_of_up hup (State.viCommand_busy hgrant ?_)⟩,
    fun h cert jrnl => next_of_up hup (State.viCommand_busy hgrant ?_), fun h img => next_of_up hup (State.viCommand_busy hgrant ?_)⟩ <;> simp [*]

section

variable {s : State} {port i : Nat} {f : Frame} {effect : State → Nat → State} {sequenced : Bool}

/-- A frame of a removed tenant is dropped and counted, whatever its tag (R517). -/
theorem State.receive_gone (hsender : s.sender port f = some i) (hgone : s.goneTenant f.tenant = true) (ok : Bool) :
    s.receive port f ok sequenced effect = s.bump Reg.SEC_GONE_DROP_CNT noUnit := by
  simp only [State.receive, hsender, hgone, if_true]

/-- A frame whose tag fails is dropped and counted (R622). -/
theorem State.receive_untagged (hsender : s.sender port f = some i) (hlive : s.goneTenant f.tenant = false) :
    s.receive port f false sequenced effect = s.tagFail := by
  simp only [State.receive, hsender, hlive, Bool.not_false, Bool.false_eq_true, if_false, if_true]

/-- A duplicate is discarded and acknowledged (R623). -/
theorem State.receive_duplicate (hsender : s.sender port f = some i) (hlive : s.goneTenant f.tenant = false)
    (hseq : f.seq ≠ (((s.keyReady f.tenant i).heard i f).peer i).expect)
    (hbefore : seqBefore f.seq (((s.keyReady f.tenant i).heard i f).peer i).expect = true) :
    s.receive port f true true effect =
      (((s.keyReady f.tenant i).heard i f).setPeer i { ((s.keyReady f.tenant i).heard i f).peer i with ackDue := true }).ackNow i := by
  simp only [State.receive, hsender, hlive, hseq, hbefore, Bool.not_true, Bool.false_eq_true, if_false, if_true]

/-- A frame that runs ahead of the sequence is dropped and counted (R623). -/
theorem State.receive_ahead (hsender : s.sender port f = some i) (hlive : s.goneTenant f.tenant = false)
    (hseq : f.seq ≠ (((s.keyReady f.tenant i).heard i f).peer i).expect)
    (hbefore : seqBefore f.seq (((s.keyReady f.tenant i).heard i f).peer i).expect = false) :
    s.receive port f true true effect = ((s.keyReady f.tenant i).heard i f).bump Reg.CWY_OOO_DROP noUnit := by
  simp only [State.receive, hsender, hlive, hseq, hbefore, Bool.not_true, Bool.false_eq_true, if_false]

end

/-- Settles O60: every sequenced frame is received through `State.receive`, which decides each case before the frame's effect. -/
theorem outOfOrderFramesDropped : Obligations.OutOfOrderFramesDropped := by
  unfold Obligations.OutOfOrderFramesDropped
  intro s port i f lane jrnl hup hsender
  dsimp only
  have heach {ok : Bool} {t : State} (h : ∀ effect, s.receive port f ok true effect = t) :
      exec (.readReq port f ok) s = .next t ∧ exec (.sealReq port f ok) s = .next t ∧ exec (.readData port f ok) s = .next t ∧
      exec (.cwyError port f ok) s = .next t ∧ exec (.sealData port f ok) s = .next t ∧ exec (.cwyKnot port f ok) s = .next t ∧
      exec (.cwyLane port f ok lane jrnl) s = .next t :=
    ⟨next_of_up hup (h _), next_of_up hup (h _), next_of_up hup (h _), next_of_up hup (h _), next_of_up hup (h _), next_of_up hup (h _),
      next_of_up hup (h _)⟩
  exact ⟨fun hgone ok => heach fun _ => State.receive_gone hsender hgone ok, fun hlive => heach fun _ => State.receive_untagged hsender hlive,
    fun hlive hseq hbefore => heach fun _ => State.receive_duplicate hsender hlive hseq hbefore,
    fun hlive hseq hbefore => heach fun _ => State.receive_ahead hsender hlive hseq hbefore⟩

/-- Settles O43: with the ring full the audit log admits the device itself, Selvage and the safety pairs alone. -/
theorem fullAuditRefuses : Obligations.FullAuditRefuses := by
  unfold Obligations.FullAuditRefuses
  intro s o hfull
  refine ⟨fun hfree => ?_, fun hfree kind r f target old new => ?goes⟩
  · have hclosed : s.auditOpen o = false := by simp [State.auditOpen, hfull, hfree]
    refine ⟨fun c idx act hmay => ?command, fun k v act => ?write⟩
    case command => exact State.command_full hmay hclosed idx act
    case write =>
      simp only [State.writeReg, hclosed, Bool.not_false, if_true, State.auditRefusal, State.auditLog, State.auditAs, hfull, hfree, Bool.false_eq_true, if_false]
  case goes => simp only [State.auditAs, hfull, hfree, if_true, State.bump_audit]

end Sys2Proof.Machine

/-! SUPPORT. What the READ commands of the windows leave alone. -/

namespace Sys2Proof.Machine

section

variable {p : Nat → Prop} {s t u : State}

/-- Outside reset as in it, a command whose effect keeps all but p is quiet. -/
theorem State.Keeps.quiet (hkeeps : s.Keeps p u) (hinv : s.Inv)
    (hnext : (Host.Outcome.next (if s.sys.up = true then u else s) : Host.Outcome State Fault Refusal) = .next t) : s.Quiet p t := by
  obtain rfl := Host.Outcome.next.inj hnext
  split
  · exact (hkeeps hinv).2
  · exact (State.Keeps.refl p s hinv).2

/-- Words put from a register on touch those registers. -/
theorem State.putWords_keeps (hp : SparesQueues p) {ws : List Nat} {s : State} {k : Nat} (hk : ∀ j, j < ws.length → p (k + 8 * j)) :
    s.Keeps p (s.putWords k ws) := by
  induction ws generalizing s k with
  | nil => exact .refl p s
  | cons w ws ih =>
    have hfirst : s.Keeps p (s.setReg k (BitVec.ofNat 64 w)) := s.setReg_keeps k _ (.inl (hk 0 (by simp)))
    refine hfirst.trans hp (ih fun j hj => ?_)
    have hnext := hk (j + 1) (by simpa using hj)
    rwa [Nat.mul_add, Nat.add_comm (8 * j), ← Nat.add_assoc] at hnext

end

/-! ### Windows -/

theorem bankKey_add (o : Origin) (k m : Nat) : bankKey o (k + m) = bankKey o k + m := Nat.add_right_comm _ _ _

theorem le_bankKey {o : Origin} {k m : Nat} (h : m ≤ k) : m ≤ bankKey o k := Nat.le_trans h (Nat.le_add_right _ _)

/-- The registers of a window, its command register and its data words, and the counter of refused accesses. -/
def windowRegs (key d0 n : Nat) (k : Nat) : Prop := k = key ∨ (∃ j, j < n ∧ k = d0 + 8 * j) ∨ counterRegs Reg.MEM_REFUSE_CNT k

section

variable {key d0 n : Nat}

theorem windowRegs_key : windowRegs key d0 n key := .inl rfl

theorem windowRegs_word {k j : Nat} (hj : j < n) (hk : k = d0 + 8 * j) : windowRegs key d0 n k := .inr (.inl ⟨j, hj, hk⟩)

theorem windowRegs_counts : CountsRefusals (windowRegs key d0 n) := fun _ h => .inr (.inr h)

theorem satOf_memRefuse : satOf Reg.MEM_REFUSE_CNT = some ⟨Reg.MEM_SAT, 2⟩ := by decide

/-- The counter of refused accesses and its SAT word set no event queue up. -/
theorem counterRegs_memRefuse_queue (d : Nat) (hd : d < 3) : ¬ counterRegs Reg.MEM_REFUSE_CNT (Reg.EVQ_CFG d) := by
  rintro (h | ⟨b, hb, h⟩)
  · simp only [Reg.EVQ_CFG, Reg.MEM_REFUSE_CNT] at h; omega
  · rw [satOf_memRefuse, Option.some.injEq] at hb
    subst hb
    simp only [Reg.EVQ_CFG, Reg.MEM_SAT] at h; omega

/-- No window lies in the first page of set-up space, where the event queues are set up. -/
theorem windowRegs_queues (hkey : 0x1000 ≤ key) (hd0 : 0x1000 ≤ d0) : SparesQueues (windowRegs key d0 n) := by
  rintro d hd (h | ⟨j, -, h⟩ | h)
  · simp only [Reg.EVQ_CFG] at h; omega
  · simp only [Reg.EVQ_CFG] at h; omega
  · exact counterRegs_memRefuse_queue d hd h

end

/-- Settles O36: each READ command's act sets data words of the window, and the command its own register. -/
theorem windowReadsFrame : Obligations.WindowReadsFrame := by
  unfold Obligations.WindowReadsFrame
  intro s o i hinv
  dsimp only
  refine ⟨fun t => State.Keeps.quiet ?tack hinv, fun t => State.Keeps.quiet ?hot hinv, fun t => State.Keeps.quiet ?knot hinv,
    fun t => State.Keeps.quiet ?st hinv, fun t => State.Keeps.quiet ?tenant hinv, fun t => State.Keeps.quiet ?map hinv,
    fun t => State.Keeps.quiet ?pdu hinv, fun t => State.Keeps.quiet ?signal hinv, fun t => State.Keeps.quiet ?peer hinv⟩
  case tack =>
    have hq := windowRegs_queues (n := 8) (le_bankKey (o := o) (k := Reg.TIME_TACK_SEL) (by decide)) (le_bankKey (o := o) (k := Reg.TIME_TACK_D0) (by decide))
    exact State.command_keeps hq windowRegs_counts _ _ _ _ _ windowRegs_key fun t => State.putWords_keeps hq fun j hj => windowRegs_word hj rfl
  case hot =>
    have hq := windowRegs_queues (n := 5) (le_bankKey (o := o) (k := Reg.ARY_HOT_SEL) (by decide)) (le_bankKey (o := o) (k := Reg.ARY_HOT_D0) (by decide))
    exact State.command_keeps hq windowRegs_counts _ _ _ _ _ windowRegs_key fun t => State.putWords_keeps hq fun j hj => windowRegs_word hj rfl
  case st =>
    have hq := windowRegs_queues (n := 2) (le_bankKey (o := o) (k := Reg.SAFE_ST_SEL) (by decide)) (le_bankKey (o := o) (k := Reg.SAFE_ST_D0) (by decide))
    exact State.command_keeps hq windowRegs_counts _ _ _ _ _ windowRegs_key fun t => State.putWords_keeps hq fun j hj => windowRegs_word hj rfl
  case knot =>
    have hq := windowRegs_queues (n := 1) (le_bankKey (o := o) (k := Reg.KNOT_SEL) (by decide)) (le_bankKey (o := o) (k := Reg.KNOT_DATA) (by decide))
    refine State.command_keeps hq windowRegs_counts _ _ _ _ _ windowRegs_key fun t => ?_
    split
    · exact .refl _ t
    · exact t.setReg_keeps _ _ (.inl (windowRegs_word (j := 0) (by decide) rfl))
  case tenant =>
    have hq := windowRegs_queues (n := 1) (le_bankKey (o := o) (k := Reg.SEC_TENANT_SEL) (by decide)) (le_bankKey (o := o) (k := Reg.SEC_TENANT_D0) (by decide))
    refine State.command_keeps hq windowRegs_counts _ _ _ _ _ windowRegs_key fun t => ?_
    dsimp only
    split
    · exact t.setReg_keeps _ _ (.inl (windowRegs_word (j := 0) (by decide) rfl))
    · exact .refl _ t
  case map =>
    have hq := windowRegs_queues (n := 3) (show 0x1000 ≤ Reg.UBR_MAP_SEL by decide) (show 0x1000 ≤ Reg.UBR_MAP_D0 by decide)
    refine State.command_keeps hq windowRegs_counts _ _ _ _ _ windowRegs_key fun t => ?_
    exact ((t.setReg_keeps _ _ (.inl (windowRegs_word (j := 0) (by decide) rfl))).trans hq
      (State.setReg_keeps _ _ _ (.inl (windowRegs_word (j := 1) (by decide) rfl)))).trans hq
      (State.setReg_keeps _ _ _ (.inl (windowRegs_word (j := 2) (by decide) rfl)))
  case pdu =>
    have hq := windowRegs_queues (n := 2) (le_bankKey (o := o) (k := Reg.GWY_SLU_PDU_SEL) (by decide)) (le_bankKey (o := o) (k := Reg.GWY_SLU_PDU_D0) (by decide))
    refine State.command_keeps hq windowRegs_counts _ _ _ _ _ windowRegs_key fun t => ?_
    exact (t.setReg_keeps _ _ (.inl (windowRegs_word (j := 0) (by decide) rfl))).trans hq
      (State.setReg_keeps _ _ _ (.inl (windowRegs_word (j := 1) (by decide) (bankKey_add o Reg.GWY_SLU_PDU_D0 8))))
  case signal =>
    have hq := windowRegs_queues (n := 1) (le_bankKey (o := o) (k := Reg.GWY_SLU_MAP_SEL) (by decide)) (le_bankKey (o := o) (k := Reg.GWY_SLU_MAP_D0) (by decide))
    refine State.command_keeps hq windowRegs_counts _ _ _ _ _ windowRegs_key fun t => ?_
    exact t.setReg_keeps _ _ (.inl (windowRegs_word (j := 0) (by decide) rfl))
  case peer =>
    have hq := windowRegs_queues (n := 2) (le_bankKey (o := o) (k := Reg.CWY_PEER_SEL) (by decide)) (le_bankKey (o := o) (k := Reg.CWY_PEER_D0) (by decide))
    refine State.command_keeps hq windowRegs_counts _ _ _ _ _ windowRegs_key fun t => ?_
    dsimp only
    split
    · exact .refl _ t
    · exact (t.setReg_keeps _ _ (.inl (windowRegs_word (j := 0) (by decide) rfl))).trans hq
        (State.setReg_keeps _ _ _ (.inl (windowRegs_word (j := 1) (by decide) (bankKey_add o Reg.CWY_PEER_D0 8))))

end Sys2Proof.Machine

/-! SUPPORT. What the commands whose effect is in registers leave alone. -/

namespace Sys2Proof.Machine

/-! ### Registers named by a command -/

/-- The registers that `q` names, and the counter of refused accesses. -/
def withRefusals (q : Nat → Prop) (k : Nat) : Prop := q k ∨ counterRegs Reg.MEM_REFUSE_CNT k

section

variable {q : Nat → Prop} {s : State} {k : Nat}

theorem withRefusals_counts : CountsRefusals (withRefusals q) := fun _ h => .inr h

theorem withRefusals_queues (hq : SparesQueues q) : SparesQueues (withRefusals q) :=
  fun d hd h => h.elim (hq d hd) (counterRegs_memRefuse_queue d hd)

/-- The settings of the event queues lie in the first KiB of set-up space. -/
theorem sparesQueues_of_le (hq : ∀ k, q k → 0x400 ≤ k) : SparesQueues q := by
  intro d hd h
  have := hq _ h
  simp only [Reg.EVQ_CFG] at this
  omega

theorem withRefusals_queues_of_le (hq : ∀ k, q k → 0x400 ≤ k) : SparesQueues (withRefusals q) := withRefusals_queues (sparesQueues_of_le hq)

/-- What acts under a condition, and otherwise not at all. -/
theorem State.Keeps.ite {p : Nat → Prop} {c : Prop} [Decidable c] {t : State} (h : c → s.Keeps p t) : s.Keeps p (if c then t else s) := by
  split
  next hc => exact h hc
  next => exact .refl p s

/-- A write of a register that is no counter touches it and what follows the write. -/
theorem State.writeBy_keeps_of {o : Origin} {v : Word} {act : State → State → State} (hq : SparesQueues q) (hk : q k) (hsat : satOf k = none)
    (hact : ∀ t : State, t.Keeps (withRefusals q) (act s t)) : s.Keeps (withRefusals q) (s.writeBy o k v act) :=
  s.writeBy_keeps (withRefusals_queues hq) withRefusals_counts o k v act (.inl hk) (fun b hb => by rw [hsat] at hb; cases hb) hact

/-- Two fields of one register, and all of them. -/
theorem State.setCan_keeps {n : Nat} (hq : SparesQueues q) (hk : q (Reg.GWY_CAN_STATUS n)) (state tec rec_ : Nat) : s.Keeps q (s.setCan n state tec rec_) :=
  ((s.setFld_keeps _ _ _ (.inl hk)).trans hq (State.setFld_keeps _ _ _ _ (.inl hk))).trans hq (State.setFld_keeps _ _ _ _ (.inl hk))

end

/-! ### CAN controllers -/

/-- What bus-off of a controller touches: its state, and the counter of it. -/
def busOffRegs (n k : Nat) : Prop := k = Reg.GWY_CAN_STATUS n ∨ counterRegs (Reg.GWY_BUSOFF_CNT n) k

theorem satOf_busOffCnt {n : Nat} (hn : n < 16) : satOf (Reg.GWY_BUSOFF_CNT n) = some ⟨Reg.GWY_CAN_SAT n, 1⟩ := by
  revert n
  decide

theorem busOffRegs_le {n k : Nat} (hn : n < 16) (h : busOffRegs n k) : 0x400 ≤ k := by
  obtain rfl | rfl | ⟨b, hb, rfl⟩ := h
  · simp only [Reg.GWY_CAN_STATUS]; omega
  · simp only [Reg.GWY_BUSOFF_CNT]; omega
  · rw [satOf_busOffCnt hn, Option.some.injEq] at hb
    subst hb
    simp only [Reg.GWY_CAN_SAT]; omega

theorem State.lt_of_canLive {s : State} {n : Nat} (h : s.canLive n = true) : n < 16 := by
  simp only [State.canLive, Bool.and_eq_true, decide_eq_true_eq] at h
  exact h.1.1.1

/-- Bus-off touches the controller's state and the counter. -/
theorem State.busOff_keeps {s : State} {n : Nat} (hn : n < 16) : s.Keeps (withRefusals (busOffRegs n)) (s.busOff n) := by
  have hq : SparesQueues (withRefusals (busOffRegs n)) := withRefusals_queues_of_le fun k => busOffRegs_le hn
  exact (s.setFld_keeps _ _ _ (.inl (.inl (.inl rfl)))).trans hq
    (State.bump_keeps hq _ _ _ (.inl (.inl (.inr (.inl rfl)))) fun b hb => .inl (.inl (.inr (.inr ⟨b, hb, rfl⟩))))

/-- An error of the bus touches the controller's state, and at bus-off the counter. -/
theorem State.canError_keeps {s : State} {n : Nat} (hn : n < 16) (e : CanErr) : s.Keeps (withRefusals (busOffRegs n)) (s.canError n e) := by
  have hq : SparesQueues (withRefusals (busOffRegs n)) := withRefusals_queues_of_le fun k => busOffRegs_le hn
  have hset (state tec rec_ : Nat) : s.Keeps (withRefusals (busOffRegs n)) (s.setCan n state tec rec_) := State.setCan_keeps hq (.inl (.inl rfl)) _ _ _
  unfold State.canError
  generalize (if e = .transmit then s.canTec n + 8 else s.canTec n) = tec
  dsimp only
  split
  · exact (hset _ _ _).trans hq (State.busOff_keeps hn)
  · exact hset _ _ _

/-! ### The rate floor -/

/-- What is quiet from s to t is quiet, too, where both have another mark of RATE_LOW. -/
theorem State.Quiet.withRateRaised {p : Nat → Prop} {s t : State} (h : s.Quiet p t) (b : Bool) :
    State.Quiet p { s with sys := { s.sys with rateRaised := b } } { t with sys := { t.sys with rateRaised := b } } := by
  refine ⟨?_, h.regs, h.mem⟩
  have hrest := h.rest
  rw [hrest]

/-- The registers that clearing the rates' minima touches. -/
def rateRegs (k : Nat) : Prop := k = Reg.PWR_RATE_FLOOR ∨ ∃ i, i < 24 ∧ k = Reg.PWR_RATE i

theorem rateRegs_le {k : Nat} (h : rateRegs k) : 0x400 ≤ k := by
  obtain rfl | ⟨i, -, rfl⟩ := h
  · decide
  · simp only [Reg.PWR_RATE]; omega

theorem State.clearMins_keeps (s : State) : s.Keeps (withRefusals rateRegs) s.clearMins :=
  .foldl (withRefusals_queues_of_le fun _ => rateRegs_le) _
    (fun a i hi => a.setFld_keeps _ _ _ (.inl (.inl (.inr ⟨i, List.mem_range.mp hi, rfl⟩)))) s

/-- A write of the floor without arming RATE_LOW again. -/
def State.floorWritten (s : State) (o : Origin) (v : Word) : State :=
  s.writeBy o Reg.PWR_RATE_FLOOR v (fun _ t =>
    if mayWrite o [.selvage, .hypervisor] ∧ Fd.PWR_RATE_FLOOR_CLR_MIN.of v = 1 then t.clearMins else t)

theorem State.floorWritten_keeps (s : State) (o : Origin) (v : Word) : s.Keeps (withRefusals rateRegs) (s.floorWritten o v) := by
  refine State.writeBy_keeps_of (sparesQueues_of_le fun _ => rateRegs_le) (.inl rfl) (by decide) fun t => ?_
  split
  · exact t.clearMins_keeps
  · exact .refl _ t

/-- The whole write differs from that in the mark of RATE_LOW alone. -/
theorem State.writeRateFloor_eq (s : State) (o : Origin) (v : Word) :
    ∃ b, s.writeRateFloor o v = { s.floorWritten o v with sys := { (s.floorWritten o v).sys with rateRaised := b } } := by
  have hsame (u : State) : ∃ b, u = { u with sys := { u.sys with rateRaised := b } } := ⟨u.sys.rateRaised, rfl⟩
  have hrearm (u : State) : ∃ b, u.rateRearm = { u with sys := { u.sys with rateRaised := b } } := by
    unfold State.rateRearm
    split
    · exact hsame u
    · exact ⟨false, rfl⟩
  simp only [State.writeRateFloor, State.floorWritten, State.writeBy, State.writeReg]
  split
  · split
    · exact hsame _
    · split
      · exact hsame _
      · split
        · exact hsame _
        · exact hrearm _
  · exact hsame _

theorem satOf_tsnPortCfg {n : Nat} (hn : n < 8) : satOf (Reg.TSN_PORT_CFG n) = none := by
  revert n
  decide

/-- Settles O37: each command sets its own registers, and what logging it sets. -/
theorem registerCommandsFrame : Obligations.RegisterCommandsFrame := by
  unfold Obligations.RegisterCommandsFrame
  intro s hinv
  dsimp only
  refine ⟨fun g temp t => State.Keeps.quiet ?tier hinv, fun d t => State.Keeps.quiet ?rim hinv, fun t => State.Keeps.quiet ?pin hinv,
    fun n t => State.Keeps.quiet ?busOff hinv, fun n e t => State.Keeps.quiet ?canError hinv, fun n t => State.Keeps.quiet ?recovery hinv,
    fun b t => State.Keeps.quiet ?sync hinv, fun o v t => State.Keeps.quiet ?hold hinv, fun o v t => State.Keeps.quiet ?offset hinv,
    fun o p v t => State.Keeps.quiet ?port hinv, fun o v t => State.Keeps.quiet ?adj hinv, fun o v t hnext => ?clrMin,
    fun o v t => State.Keeps.quiet ?stage hinv, fun o u v t => State.Keeps.quiet ?ufs hinv, fun o d v t => State.Keeps.quiet ?tail hinv⟩
  case tier =>
    have hq : SparesQueues (withRefusals (fun k => k = Reg.MEM_TEMP g)) :=
      withRefusals_queues_of_le (by rintro _ rfl; simp only [Reg.MEM_TEMP]; omega)
    exact State.Keeps.ite fun _ => (s.setFld_keeps _ _ _ (.inl (.inl rfl))).trans hq (State.setFld_keeps _ _ _ _ (.inl (.inl rfl)))
  case rim => exact State.Keeps.ite fun _ => s.setBit_keeps _ _ _ (.inl (.inl rfl))
  case pin => exact State.Keeps.ite fun _ => s.setFld_keeps _ _ _ (.inl (.inl rfl))
  case busOff => exact State.Keeps.ite fun hlive => State.busOff_keeps (State.lt_of_canLive hlive)
  case canError => exact State.Keeps.ite fun hlive => State.canError_keeps (State.lt_of_canLive hlive) e
  case recovery =>
    have hq : SparesQueues (withRefusals (fun k => k = Reg.GWY_CAN_STATUS n)) :=
      withRefusals_queues_of_le (by rintro _ rfl; simp only [Reg.GWY_CAN_STATUS]; omega)
    exact State.Keeps.ite fun _ => State.setCan_keeps hq (.inl rfl) _ _ _
  case sync =>
    have hq : SparesQueues (withRefusals (fun k => k = Reg.TSN_GPTP_STATUS)) := withRefusals_queues_of_le (by rintro _ rfl; decide)
    refine State.Keeps.ite fun _ => ?_
    dsimp only
    split
    · exact (s.setFld_keeps _ _ _ (.inl (.inl rfl))).trans hq (State.setFld_keeps _ _ _ _ (.inl (.inl rfl)))
    · exact s.setFld_keeps _ _ _ (.inl (.inl rfl))
  case hold =>
    have hq : SparesQueues (fun k => k = Reg.TSN_GPTP_STATUS ∨ k = Reg.TSN_GPTP_CTRL) := sparesQueues_of_le (by rintro _ (rfl | rfl) <;> decide)
    have hcmd : Fd.TSN_GPTP_CTRL_CMD.of (Fd.TSN_GPTP_CTRL_CMD.put v 2) = 2 := Fld.of_put _ _ _ (by decide)
    refine State.writeBy_keeps_of hq (.inr rfl) (by decide) fun t => State.Keeps.ite fun _ => ?_
    simp only [hcmd]
    exact State.Keeps.ite fun _ => t.setFld_keeps _ _ _ (.inl (.inl (.inl rfl)))
  case offset =>
    have hq : SparesQueues (fun k => k = Reg.TSN_OFFSET) := sparesQueues_of_le (by rintro _ rfl; decide)
    simp only [State.writeOffset]
    split
    · exact State.writeBy_keeps_of hq rfl (by decide) fun t => .refl _ t
    · exact State.writeBy_keeps_of hq rfl (by decide) fun t => .refl _ t
  case port =>
    have hq : SparesQueues (fun k => k = Reg.TSN_PORT_CFG p) := sparesQueues_of_le (by rintro _ rfl; simp only [Reg.TSN_PORT_CFG]; omega)
    simp only [State.writePort]
    split
    next hp => exact State.writeBy_keeps_of hq rfl (satOf_tsnPortCfg hp) fun t => .refl _ t
    next => exact State.refuseTo_keeps (withRefusals_queues hq) withRefusals_counts _ _
  case adj =>
    have hq : SparesQueues (fun k => k = Reg.TIME_RATE_ADJ ∨ k = Reg.TIME_STATUS) := sparesQueues_of_le (by rintro _ (rfl | rfl) <;> decide)
    simp only [State.writeAdj]
    split
    · exact s.auditRefusal_keeps (withRefusals_queues hq) _ _ _
    · exact State.writeBy_keeps_of hq (.inl rfl) (by decide) fun t => State.Keeps.ite fun _ => t.setFld_keeps _ _ _ (.inl (.inl (.inr rfl)))
  case clrMin =>
    obtain rfl := Host.Outcome.next.inj hnext
    split
    · obtain ⟨b, hb⟩ := s.writeRateFloor_eq o (Fd.PWR_RATE_FLOOR_CLR_MIN.put v 1)
      have hquiet := (State.Keeps.mono (fun k => or_assoc.mp) (State.floorWritten_keeps s o (Fd.PWR_RATE_FLOOR_CLR_MIN.put v 1)) hinv).2.withRateRaised b
      have hraised : (s.writeRateFloor o (Fd.PWR_RATE_FLOOR_CLR_MIN.put v 1)).sys.rateRaised = b := by rw [hb]
      rw [← hb, ← hraised] at hquiet
      exact hquiet
    · exact (State.Keeps.refl _ s hinv).2
  case stage =>
    have hq : SparesQueues (fun k => k = Reg.MEM_STAGE) := sparesQueues_of_le (by rintro _ rfl; decide)
    exact State.writeBy_keeps_of hq rfl (by decide) fun t => State.Keeps.ite fun _ => t.setFld_keeps _ _ _ (.inl (.inl rfl))
  case ufs =>
    have hq : SparesQueues (withRefusals (fun k => k = Reg.GEN_UFS_LU u)) := withRefusals_queues_of_le (by rintro _ rfl; simp only [Reg.GEN_UFS_LU]; omega)
    refine State.Keeps.ite fun _ => ?_
    simp only [State.writeUfs, State.writeRanged]
    split
    · exact State.refuseTo_keeps hq withRefusals_counts _ _
    · split
      · exact s.auditRefusal_keeps hq _ _ _
      · split
        · exact .refl _ s
        · exact (s.setReg_keeps _ _ (.inl (.inl rfl))).trans hq (State.auditLog_keeps hq _ _ _ _ _ _ _)
  case tail =>
    refine State.Keeps.ite fun hd => ?_
    have hq : SparesQueues (withRefusals (fun k => k = Reg.EVQ_TAIL d)) :=
      withRefusals_queues fun e he h => by simp only [Reg.EVQ_CFG, Reg.EVQ_TAIL] at h; omega
    simp only [State.writeTail]
    split
    · exact State.refuseTo_keeps hq withRefusals_counts _ _
    · split
      · exact .refl _ s
      · generalize (State.writtenWord s o (Reg.EVQ_TAIL d) _ _ _).1 = w
        split
        · exact (s.setReg_keeps _ _ (.inl (.inl rfl))).trans hq (State.emit_keeps _ _)
        · exact s.setReg_keeps _ _ (.inl (.inl rfl))

end Sys2Proof.Machine

/-! SUPPORT. What a sequencer's instructions that move no data leave alone. -/

namespace Sys2Proof.Machine

/-- From s to t core `n` alone changes, and the free values used; the cores stay in canonical form. -/
structure State.OwnCore (n : Nat) (s t : State) : Prop where
  rest : t = { s with cores := t.cores, free := t.free }
  wf : Sparse.wf (fun _ => {}) t.cores = true
  others : ∀ m, m ≠ n → t.core m = s.core m

/-- From s to t core `n` alone changes, the free values used, and a trace record may be left on the main copy of the job that runs there. -/
def State.SequencerStep (n : Nat) (s t : State) : Prop :=
  t = { s with cores := t.cores, free := t.free, out := t.out } ∧ (∀ m, m ≠ n → t.core m = s.core m) ∧
    (t.out = s.out ∨ ∃ j e d, s.runs n = some j ∧ j.isCk n = false ∧ t.out = s.out ++ [.trace (traceRecord s.now (jobTenant j) e d)])

section

variable {s t u : State} {n : Nat}

theorem State.OwnCore.refl (hwf : Sparse.wf (fun _ => {}) s.cores = true) : s.OwnCore n s := ⟨rfl, hwf, fun _ _ => rfl⟩

theorem State.OwnCore.trans (h : s.OwnCore n t) (g : t.OwnCore n u) : s.OwnCore n u :=
  ⟨by rw [g.rest, h.rest], g.wf, fun m hm => (g.others m hm).trans (h.others m hm)⟩

theorem State.OwnCore.modCore (hwf : Sparse.wf (fun _ => {}) s.cores = true) (f : Core → Core) : s.OwnCore n (s.modCore n f) :=
  ⟨rfl, Sparse.wf_put hwf, fun _ hm => Sparse.get_put_other hm hwf⟩

theorem State.OwnCore.takeFree (hwf : Sparse.wf (fun _ => {}) s.cores = true) : s.OwnCore n s.takeFree.2 := ⟨rfl, hwf, fun _ _ => rfl⟩

theorem State.SequencerStep.refl : s.SequencerStep n s := ⟨rfl, fun _ _ => rfl, .inl rfl⟩

/-- A step of a core leaves one trace record or none, and none of a checker. -/
theorem State.traced_out (j : Job) : (s.traced j n).out = s.out ∨
    ∃ e d, j.isCk n = false ∧ (s.traced j n).out = s.out ++ [.trace (traceRecord s.now (jobTenant j) e d)] := by
  simp only [State.traced]
  split
  next => exact .inl (List.append_nil _)
  next hmain =>
    simp only [State.traceOf]
    split
    next => exact .inl (List.append_nil _)
    next =>
      cases Config.traceEvent (jobTenant j) n (s.core n).pc s.free with
      | none => exact .inl (List.append_nil _)
      | some e => exact .inr ⟨e.1, e.2, Bool.eq_false_iff.mpr hmain, rfl⟩

/-- What changes core `n` alone after the trace record is a step of the sequencer. -/
theorem State.OwnCore.sequencerStep {j : Job} (hruns : s.runs n = some j) (h : (s.traced j n).OwnCore n t) : s.SequencerStep n t := by
  refine ⟨by rw [h.rest]; rfl, h.others, ?_⟩
  have hout : t.out = (s.traced j n).out := by rw [h.rest]
  rw [hout]
  exact (State.traced_out j).imp_right fun ⟨e, d, hmain, hrec⟩ => ⟨j, e, d, hruns, hmain, hrec⟩

/-- With no flush under way, a core that runs nothing ignores an instruction. -/
theorem State.lateFault_of_none (hflush : s.sched.flush = none) (f : State → Job → State) : s.lateFault n f = s := by
  simp only [State.lateFault, hflush, Option.bind_none]

section

variable {f : State → Job → State} (hwf : Sparse.wf (fun _ => {}) s.cores = true) (hruns : (s.runs n).isSome = true ∨ s.sched.flush = none)
  (hact : ∀ (t : State) (j : Job), Sparse.wf (fun _ => {}) t.cores = true → t.OwnCore n (f t j))

include hwf hruns hact

/-- An instruction that changes its own core alone is issued as a step of the sequencer. -/
theorem State.issue_step : s.SequencerStep n (s.issue n f) := by
  cases hjob : s.runs n with
  | none =>
    have hflush := hruns.resolve_left (by simp [hjob])
    simp only [State.issue, hjob, State.lateFault_of_none hflush]
    exact .refl
  | some j =>
    have hown : (s.traced j n).OwnCore n (f (s.traced j n) j) := hact _ j hwf
    simp only [State.issue, hjob]
    split
    · exact (hown.trans (State.OwnCore.modCore hown.wf _)).sequencerStep hjob
    · exact hown.sequencerStep hjob

theorem State.issueIn_step (graphics : Bool) : s.SequencerStep n (s.issueIn n graphics f) := by
  cases hjob : s.runs n with
  | none =>
    have hflush := hruns.resolve_left (by simp [hjob])
    simp only [State.issueIn, hjob, State.lateFault_of_none hflush]
    exact .refl
  | some j =>
    simp only [State.issueIn, hjob]
    split
    · exact State.issue_step hwf hruns hact
    · exact .refl

end

/-- In reset nothing of it happens. -/
theorem State.SequencerStep.whenUp (h : s.SequencerStep n u)
    (hnext : (Host.Outcome.next (if s.sys.up = true then u else s) : Host.Outcome State Fault Refusal) = .next t) : s.SequencerStep n t := by
  obtain rfl := Host.Outcome.next.inj hnext
  split
  · exact h
  · exact .refl

end

/-- Settles O38: each instruction is issued on its core, and its act changes that core alone. -/
theorem sequencerFrame : Obligations.SequencerFrame := by
  unfold Obligations.SequencerFrame
  intro s n hwf hruns
  dsimp only
  have hnothing (t : State) (_ : Job) (h : Sparse.wf (fun _ => {}) t.cores = true) : t.OwnCore n t := .refl h
  refine ⟨fun t => State.SequencerStep.whenUp ?fence, fun tag t => State.SequencerStep.whenUp ?waitTag, fun d t => State.SequencerStep.whenUp ?branch,
    fun d t => State.SequencerStep.whenUp ?interpolation, fun p b t => State.SequencerStep.whenUp ?interlock⟩
  case fence => exact State.issue_step hwf hruns hnothing
  case waitTag =>
    refine State.issue_step hwf hruns fun t j h => ?_
    split
    · exact .refl h
    · exact .modCore h _
  case branch =>
    dsimp only
    split
    next j k hjob => exact (State.OwnCore.modCore (s := s.traced j n) hwf _).sequencerStep hjob
    next => exact State.issue_step hwf hruns hnothing
  case interpolation => exact State.issueIn_step hwf hruns (fun t j h => (State.OwnCore.takeFree h).trans (State.OwnCore.modCore (s := t.takeFree.2) h _)) true
  case interlock =>
    dsimp only
    split
    next => exact .refl
    next j hjob =>
      split
      · exact State.issueIn_step hwf hruns hnothing true
      · split
        · exact State.issueIn_step hwf hruns hnothing true
        · exact .refl

end Sys2Proof.Machine

/-! SUPPORT. Memory, poison and knots: what is stored reads back. -/

namespace Sys2Proof.Machine

/-- Past the registers of power and outside the block of the audit log no register is logging's. -/
theorem not_logReg_of {k : Nat} (hlow : 0x030470 ≤ k) (hblock : k / 0x10000 ≠ 15) : ¬ logReg k := by
  simp only [logReg, Reg.EVQ_HEAD, Reg.GEN_EVQ_DROP_CNT, Reg.GEN_SAT, Reg.PWR_RIM_REFUSE_CNT, Reg.PWR_SAT]
  rintro (h | h | h | h | ⟨d, hd, h | h⟩) <;> omega

/-! ### Memory -/

section

variable {s : State} {b : Nat}

/-- The poison of one beat is one entry of the table. -/
theorem State.isPoisoned_beat : s.isPoisoned (64 * b) 64 = Sparse.get (fun _ => false) b s.poison := by
  have hone : (64 * b + 64 + 63) / 64 - 64 * b / 64 = 1 := by omega
  have hbeat : 64 * b / 64 = b := by omega
  rw [State.isPoisoned, hone, hbeat]
  simp

/-- The beats that a range holds whole. -/
theorem mem_wholeBeats {a n : Nat} : b ∈ wholeBeats a n ↔ a ≤ 64 * b ∧ 64 * b + 64 ≤ a + n := by
  simp only [wholeBeats, ceilDiv, List.mem_map, List.mem_range]
  constructor
  · rintro ⟨i, hi, rfl⟩
    omega
  · rintro ⟨hlow, hhigh⟩
    exact ⟨b - (a + 64 - 1) / 64, by omega, by omega⟩

end

/-- Settles O44: from the laws of the tables of memory and of poison. -/
theorem memoryReadsBack : Obligations.MemoryReadsBack := by
  unfold Obligations.MemoryReadsBack
  intro s a bs hinv
  dsimp only
  refine ⟨State.readBytes_writeBytes hinv.mem, fun x hx => State.readByte_writeBytes_other hinv.mem hx, fun b => ?written, fun b => ?poisoned⟩
  case written =>
    have hget : Sparse.get (fun _ => false) b (s.writeBytes a bs).poison =
        if b ∈ wholeBeats a bs.length then false else Sparse.get (fun _ => false) b s.poison := Sparse.get_putAll hinv.poison
    rw [State.isPoisoned_beat, State.isPoisoned_beat, hget, ← Bool.decide_and]
    by_cases hwhole : a ≤ 64 * b ∧ 64 * b + 64 ≤ a + bs.length
    · rw [if_pos (mem_wholeBeats.mpr hwhole), decide_eq_true hwhole, Bool.not_true, Bool.and_false]
    · rw [if_neg (mt mem_wholeBeats.mp hwhole), decide_eq_false hwhole, Bool.not_false, Bool.and_true]
  case poisoned =>
    have hget := Sparse.get_putAll (d := fun _ => false) (ks := (List.range ((64 * b + 64 + 63) / 64 - 64 * b / 64)).map (fun i => 64 * b / 64 + i))
      (v := true) (j := b) hinv.poison
    have hmem : b ∈ (List.range ((64 * b + 64 + 63) / 64 - 64 * b / 64)).map (fun i => 64 * b / 64 + i) :=
      List.mem_map.mpr ⟨0, List.mem_range.mpr (by omega), by omega⟩
    rw [State.isPoisoned_beat]
    exact hget.trans (if_pos hmem)

/-! ### Knots -/

theorem State.rimRefuse_knots (s : State) (d : Nat) : (s.rimRefuse d).knots = s.knots := by
  unfold State.rimRefuse
  dsimp only
  split
  · exact State.bump_knots _ _ _
  · exact (State.raise_knots _ _ _ _).trans (State.bump_knots _ _ _)

theorem State.refuse_knots (s : State) : s.refuse.knots = s.knots := State.bump_knots _ _ _


theorem State.windowRefuse_knots (s : State) : s.windowRefuse.knots = s.knots := by
  unfold State.windowRefuse
  split
  · exact s.rimRefuse_knots _
  · exact s.refuse_knots

theorem State.bridgeError_knots (s : State) (kind fn addr origin count : Nat) : (s.bridgeError kind fn addr origin count).knots = s.knots := by
  unfold State.bridgeError
  split
  · rfl
  · exact State.bump_knots _ _ _

theorem State.discardPage_knots (s : State) (p : PfPage) : (s.discardPage p).knots = s.knots := by
  unfold State.discardPage
  dsimp only
  split
  · exact (State.bridgeError_knots _ _ _ _ _ _).trans (State.bump_knots _ _ _)
  · exact State.bump_knots _ _ _

theorem State.discardPages_knots (s : State) (t : PfPage → Bool) : (s.discardPages t).knots = s.knots := by
  unfold State.discardPages
  generalize s.bridge.fetched.filter t = pages
  induction pages generalizing s with
  | nil => rfl
  | cons p pages ih => exact (ih _).trans (s.discardPage_knots p)

theorem State.bridgePost_knots (s : State) (a : Nat) (bs : List Byte) : (s.bridgePost a bs).knots = s.knots := by
  unfold State.bridgePost
  split
  · exact s.discardPages_knots _
  · exact s.windowRefuse_knots

theorem State.bridgeWrite_knots (s : State) (a : Nat) (bs : List Byte) : (s.bridgeWrite a bs).knots = s.knots := by
  unfold State.bridgeWrite
  generalize List.range (granuleOf (a + max 1 bs.length - 1) + 1 - granuleOf a) = granules
  induction granules generalizing s with
  | nil => rfl
  | cons i granules ih => exact (ih _).trans (State.bridgePost_knots _ _ _)

/-- A store changes no knot. -/
theorem State.store_knots (s : State) (a : Nat) (bs : List Byte) : (s.store a bs).knots = s.knots := by
  unfold State.store State.dmaGate
  split
  · split
    · exact s.refuse_knots
    · split
      · exact s.rimRefuse_knots _
      · rfl
  · split
    · exact s.bridgeWrite_knots a bs
    · exact s.refuse_knots

theorem State.mirror_knots (s : State) (k : Nat) : (s.mirror k).knots = s.knots := by
  unfold State.mirror
  split
  · rfl
  · split
    · exact s.store_knots _ _
    · rfl

theorem State.knotSaturated_knots (s : State) (k : Nat) : (s.knotSaturated k).knots = s.knots := by
  unfold State.knotSaturated
  split
  · rfl
  · exact State.raise_knots _ _ _ _

section

variable {s : State} {k j : Nat}

theorem State.knot_congr {t : State} (h : t.knots = s.knots) : t.knot j = s.knot j := by rw [State.knot, State.knot, h]

/-- A knot that is set reads as the value set, of 64 bits. -/
theorem State.knot_setKnot_same (h : s.Inv) (v : Nat) : (s.setKnot k v).knot k = v % 2 ^ 64 := by
  unfold State.setKnot
  split
  next hsame => exact hsame
  next => exact (State.knot_congr (State.mirror_knots _ k)).trans (Sparse.get_put_same h.knots)

theorem State.knot_setKnot_other (h : s.Inv) (hj : j ≠ k) (v : Nat) : (s.setKnot k v).knot j = s.knot j := by
  unfold State.setKnot
  split
  · rfl
  · exact (State.knot_congr (State.mirror_knots _ k)).trans (Sparse.get_put_other hj h.knots)

theorem State.setKnot_inv (h : s.Inv) (v : Nat) : (s.setKnot k v).Inv := ((State.setKnot_advances (.refl s) k v).holds h).1

/-- A knot that has saturated has its bit in the saturation record. -/
theorem State.regBit_knotSaturated (h : s.Inv) (hk : k < 16384) : (s.knotSaturated k).regBit (Reg.KNOT_SAT (k / 64)) (k % 64) = true := by
  have hreg : ¬ logReg (Reg.KNOT_SAT (k / 64)) := by
    apply not_logReg_of <;> simp only [Reg.KNOT_SAT] <;> omega
  unfold State.knotSaturated
  split
  next hset => exact hset
  next =>
    have hinv : (s.setBit (Reg.KNOT_SAT (k / 64)) (k % 64) true).Inv := h.setReg _ _
    rw [State.regBit_congr (State.reg_raise hinv hreg _ _ _)]
    exact State.regBit_setBit h (Nat.mod_lt k (by decide))

end

/-- Settles O50: an ADD below the limit sets the sum, and any other sets the largest value and marks it. -/
theorem knotAddSaturates : Obligations.KnotAddSaturates := by
  unfold Obligations.KnotAddSaturates
  intro s k v hinv hk hlt
  have hset : s.knotSet k v = s.setKnot k v := if_pos hk
  have hmet (d : List Nat) : s.waitMet d = true ↔ descWaitValue d ≤ s.knot (descWaitKnot d) := decide_eq_true_iff
  rw [hset]
  by_cases hsum : s.knot k + v < 2 ^ 64
  · have hadd : s.knotAdd k v = s.setKnot k (s.knot k + v) := (if_pos hk).trans (if_pos hsum)
    rw [hadd]
    refine ⟨?_, State.knot_setKnot_same hinv v, fun j hj => ⟨State.knot_setKnot_other hinv hj _, State.knot_setKnot_other hinv hj _⟩,
      fun hfull => absurd hsum (Nat.not_lt.mpr hfull), hmet⟩
    rw [State.knot_setKnot_same hinv, Nat.mod_eq_of_lt hsum]
    omega
  · have hadd : s.knotAdd k v = (s.setKnot k (2 ^ 64 - 1)).knotSaturated k := (if_pos hk).trans (if_neg hsum)
    have hknot (j : Nat) : ((s.setKnot k (2 ^ 64 - 1)).knotSaturated k).knot j = (s.setKnot k (2 ^ 64 - 1)).knot j :=
      State.knot_congr (State.knotSaturated_knots _ k)
    rw [hadd]
    refine ⟨?_, State.knot_setKnot_same hinv v,
      fun j hj => ⟨(hknot j).trans (State.knot_setKnot_other hinv hj _), State.knot_setKnot_other hinv hj _⟩,
      fun _ => State.regBit_knotSaturated (State.setKnot_inv hinv _) hk, hmet⟩
    rw [hknot, State.knot_setKnot_same hinv]
    omega

end Sys2Proof.Machine

/-! SUPPORT. Counters, and what is counted: refused reads of DRAM. -/

namespace Sys2Proof.Machine

/-! ### What an event touches -/

/-- A relation that holds over each step by which an event is recorded or lost. -/
structure EventSteps (R : State → State → Prop) : Prop where
  refl : ∀ s, R s s
  trans : ∀ {s t u}, R s t → R t u → R s u
  writeBytes : ∀ (s : State) a bs, R s (s.writeBytes a bs)
  emit : ∀ (s : State) e, R s (s.emit e)
  noteRim : ∀ (s : State) r, R s (s.noteRim r)
  countRim : ∀ (s : State) v, R s (s.setFld Reg.PWR_RIM_REFUSE_CNT ⟨31, 0⟩ v)
  rimSat : ∀ s : State, R s (s.setBit Reg.PWR_SAT 1 true)
  head : ∀ (s : State) d v, d < 3 → R s (s.setFld (Reg.EVQ_HEAD d) Fd.GEN_EVQ_HEAD_0_HEAD v)
  drop : ∀ (s : State) d v, d < 3 → R s (s.setFld (Reg.GEN_EVQ_DROP_CNT d) Fd.GEN_EVQ_DROP_CNT_COUNT v)
  dropSat : ∀ (s : State) d, R s (s.setBit Reg.GEN_SAT d true)

section

variable {R : State → State → Prop} (hR : EventSteps R)

include hR

theorem EventSteps.foldl {f : State → Nat → State} (l : List Nat) (hf : ∀ a, ∀ x ∈ l, R a (f a x)) (s : State) : R s (l.foldl f s) := by
  induction l generalizing s with
  | nil => exact hR.refl s
  | cons x l ih => exact hR.trans (hf s x List.mem_cons_self) (ih (fun a y hy => hf a y (List.mem_cons_of_mem x hy)) _)

theorem EventSteps.countOnly (s : State) : R s (s.countOnly Reg.PWR_RIM_REFUSE_CNT).1 := by
  simp only [State.countOnly]
  split
  · exact hR.refl s
  · split
    · rw [satOf_rimRefuse]
      exact hR.trans (hR.countRim s _) (hR.rimSat _)
    · exact hR.countRim s _

theorem EventSteps.evqPush {d : Nat} (hd : d < 3) (s : State) (blk off unit : Nat) : R s (s.evqPush d blk off unit) := by
  simp only [State.evqPush]
  split
  · exact hR.trans (hR.trans (hR.writeBytes s _ _) (hR.head _ d _ hd)) (hR.emit _ _)
  · exact hR.trans (hR.writeBytes s _ _) (hR.head _ d _ hd)

/-- Delivering an event, whatever counters saturate on the way, is made of these steps. -/
theorem EventSteps.deliver {d : Nat} (hd : d < 3) (n : Nat) (s : State) (blk off unit : Nat) : R s (State.deliver n s d blk off unit) := by
  induction n generalizing s d blk off unit with
  | zero => exact hR.refl s
  | succ n ih =>
    have hroutes (b o u : Nat) (t : State) : R t ([0, 1, 2].foldl (fun a q => if a.routed b q then State.deliver n a q b o u else a) t) := by
      refine hR.foldl _ (fun a q hq => ?_) t
      have hq3 : q < 3 := by simp at hq; omega
      split
      · exact ih hq3 a b o u
      · exact hR.refl a
    have hrim := hR.countOnly s
    simp only [State.deliver]
    split
    · split
      next r _ =>
        have hcounted : R s (if (s.countOnly Reg.PWR_RIM_REFUSE_CNT).2 then [0, 1, 2].foldl (fun a q =>
            if a.routed 3 q then State.deliver n a q 3 0x0468 noUnit else a) (s.countOnly Reg.PWR_RIM_REFUSE_CNT).1
            else (s.countOnly Reg.PWR_RIM_REFUSE_CNT).1) := by
          split
          · exact hR.trans hrim (hroutes _ _ _ _)
          · exact hrim
        split
        · exact hcounted
        · exact hR.trans (hR.trans hcounted (hR.noteRim _ r)) (hroutes _ _ _ _)
      next => exact hR.evqPush hd s blk off unit
    · split
      · exact hR.refl s
      · split
        · exact hR.trans (hR.trans (hR.drop s d _ hd) (hR.dropSat _ d)) (hroutes _ _ _ _)
        · exact hR.drop s d _ hd

theorem EventSteps.raise (s : State) (blk off unit : Nat) : R s (s.raise blk off unit) := by
  refine hR.foldl _ (fun a q hq => ?_) s
  have hq3 : q < 3 := by simp at hq; omega
  split
  · exact hR.deliver hq3 4 a blk off unit
  · exact hR.refl a

end

/-- From s to t a part of the state that is seen through `view` stays, and the invariant holds. -/
def State.KeepsView {α : Type} (view : State → α) (s t : State) : Prop := s.Inv → t.Inv ∧ view t = view s

section

variable {α : Type} {view : State → α} {s t u : State}

theorem State.KeepsView.refl (s : State) : s.KeepsView view s := fun h => ⟨h, rfl⟩

theorem State.KeepsView.trans (h : s.KeepsView view t) (g : t.KeepsView view u) : s.KeepsView view u :=
  fun hinv => ⟨(g (h hinv).1).1, (g (h hinv).1).2.trans (h hinv).2⟩

end

/-- A register that no event touches keeps its word. -/
theorem eventSteps_reg {k : Nat} (hrim : k ≠ Reg.PWR_RIM_REFUSE_CNT) (hrimSat : k ≠ Reg.PWR_SAT) (hsat : k ≠ Reg.GEN_SAT)
    (hqueue : ∀ d, d < 3 → k ≠ Reg.EVQ_HEAD d ∧ k ≠ Reg.GEN_EVQ_DROP_CNT d) : EventSteps (State.KeepsView (fun s => s.reg k)) where
  refl := .refl
  trans := .trans
  writeBytes _ a bs := fun h => ⟨h.writeBytes a bs, rfl⟩
  emit _ _ := fun h => ⟨⟨h.regs, h.mem, h.poison, h.knots, h.epochs, h.floors, h.top⟩, rfl⟩
  noteRim _ _ := fun h => ⟨⟨h.regs, h.mem, h.poison, h.knots, h.epochs, h.floors, h.top⟩, rfl⟩
  countRim _ _ := fun h => ⟨h.setReg _ _, State.reg_setReg_other h.regs hrim⟩
  rimSat _ := fun h => ⟨h.setReg _ _, State.reg_setReg_other h.regs hrimSat⟩
  head _ d _ hd := fun h => ⟨h.setReg _ _, State.reg_setReg_other h.regs (hqueue d hd).1⟩
  drop _ d _ hd := fun h => ⟨h.setReg _ _, State.reg_setReg_other h.regs (hqueue d hd).2⟩
  dropSat _ _ := fun h => ⟨h.setReg _ _, State.reg_setReg_other h.regs hsat⟩

/-- The bit of PWR_SAT that belongs to PWR_RATE_LOW_CNT stays, though the word also holds a bit that logging sets. -/
theorem eventSteps_rateSat : EventSteps (State.KeepsView (fun s => s.regBit Reg.PWR_SAT 0)) where
  refl := .refl
  trans := .trans
  writeBytes _ a bs := fun h => ⟨h.writeBytes a bs, rfl⟩
  emit _ _ := fun h => ⟨⟨h.regs, h.mem, h.poison, h.knots, h.epochs, h.floors, h.top⟩, rfl⟩
  noteRim _ _ := fun h => ⟨⟨h.regs, h.mem, h.poison, h.knots, h.epochs, h.floors, h.top⟩, rfl⟩
  countRim _ _ := fun h => ⟨h.setReg _ _, State.regBit_congr (State.reg_setReg_other h.regs (by decide)) 0⟩
  rimSat _ := fun h => ⟨h.setReg _ _, State.regBit_setBit_other h (by decide) (by decide) true⟩
  head _ d _ hd := fun h => ⟨h.setReg _ _, State.regBit_congr (State.reg_setReg_other h.regs (by simp only [Reg.EVQ_HEAD, Reg.PWR_SAT]; omega)) 0⟩
  drop _ d _ hd := fun h =>
    ⟨h.setReg _ _, State.regBit_congr (State.reg_setReg_other h.regs (by simp only [Reg.GEN_EVQ_DROP_CNT, Reg.PWR_SAT]; omega)) 0⟩
  dropSat _ _ := fun h => ⟨h.setReg _ _, State.regBit_congr (State.reg_setReg_other h.regs (by decide)) 0⟩

theorem satOf_rateLow : satOf Reg.PWR_RATE_LOW_CNT = some ⟨Reg.PWR_SAT, 0⟩ := by decide

/-! ### Counters (R484) -/

section

variable {s : State} {k unit : Nat}

theorem State.setFld_inv (h : s.Inv) (k : Nat) (f : Fld) (v : Nat) : (s.setFld k f v).Inv := h.setReg _ _

theorem State.setSat_inv (h : s.Inv) (k : Nat) : (s.setSat k).Inv := by
  unfold State.setSat
  split
  · exact h.setReg _ _
  · exact h

/-- A counter is its own register's, not that of its SAT word. -/
theorem State.reg_setSat (h : s.Inv) (hword : ∀ b, satOf k = some b → b.word ≠ k) : (s.setSat k).reg k = s.reg k := by
  unfold State.setSat
  split
  next b hb => exact State.reg_setReg_other h.regs (hword b hb).symm
  next => rfl

theorem State.fld_lt (s : State) (k : Nat) : s.fld k ⟨31, 0⟩ < 2 ^ 32 := Fld.of_lt ⟨31, 0⟩ (s.reg k)

/-- At its maximum a counter stays as it is, and nothing happens. -/
theorem State.bump_max (hmax : s.fld k ⟨31, 0⟩ = 0xFFFFFFFF) : s.bump k unit = s := if_pos hmax

/-- One below its maximum it reaches it, sets its SAT bit and raises its event. -/
theorem State.bump_last (hlast : s.fld k ⟨31, 0⟩ + 1 = 0xFFFFFFFF) : s.bump k unit =
    ((s.setFld k ⟨31, 0⟩ (s.fld k ⟨31, 0⟩ + 1)).setSat k).raise (k / 0x10000 % 0x100) (k % 0x10000) unit :=
  (if_neg (by rw [cntMax]; omega)).trans (if_pos hlast)

/-- Below that it counts, and nothing else happens. -/
theorem State.bump_counts (hlt : s.fld k ⟨31, 0⟩ + 1 < 0xFFFFFFFF) : s.bump k unit = s.setFld k ⟨31, 0⟩ (s.fld k ⟨31, 0⟩ + 1) :=
  (if_neg (by rw [cntMax]; omega)).trans (if_neg (by rw [cntMax]; omega))

/-- A counter that logging does not use counts one, up to its maximum. -/
theorem State.fld_bump (h : s.Inv) (hlog : ¬ logReg k) (hword : ∀ b, satOf k = some b → b.word ≠ k) :
    (s.bump k unit).fld k ⟨31, 0⟩ = min 0xFFFFFFFF (s.fld k ⟨31, 0⟩ + 1) := by
  have hlt := s.fld_lt k
  have hset : (s.setFld k ⟨31, 0⟩ (s.fld k ⟨31, 0⟩ + 1)).fld k ⟨31, 0⟩ = (s.fld k ⟨31, 0⟩ + 1) % 2 ^ 32 := State.fld_setFld h.regs (by decide)
  obtain hmax | hlast | hbelow : s.fld k ⟨31, 0⟩ = 0xFFFFFFFF ∨ s.fld k ⟨31, 0⟩ + 1 = 0xFFFFFFFF ∨ s.fld k ⟨31, 0⟩ + 1 < 0xFFFFFFFF := by omega
  · rw [State.bump_max hmax, hmax]; rfl
  · have hreg : (s.bump k unit).reg k = (s.setFld k ⟨31, 0⟩ (s.fld k ⟨31, 0⟩ + 1)).reg k := by
      rw [State.bump_last hlast, State.reg_raise (State.setSat_inv (State.setFld_inv h _ _ _) k) hlog]
      exact State.reg_setSat (State.setFld_inv h _ _ _) hword
    rw [State.fld, hreg, ← State.fld, hset]
    omega
  · rw [State.bump_counts hbelow, hset]
    omega

/-- A counter that reaches its maximum sets its SAT bit, which logging leaves set. -/
theorem State.regBit_bump_last {b : SatBit} (h : s.Inv) (hsat : satOf k = some b) (hword : ¬ logReg b.word ∨ k = Reg.PWR_RATE_LOW_CNT) (hbit : b.bit < 64)
    (hlast : s.fld k ⟨31, 0⟩ + 1 = 0xFFFFFFFF) : (s.bump k unit).regBit b.word b.bit = true := by
  have hinv := State.setFld_inv h k ⟨31, 0⟩ (s.fld k ⟨31, 0⟩ + 1)
  have hset : (s.setFld k ⟨31, 0⟩ (s.fld k ⟨31, 0⟩ + 1)).setSat k = (s.setFld k ⟨31, 0⟩ (s.fld k ⟨31, 0⟩ + 1)).setBit b.word b.bit true := by
    simp only [State.setSat, hsat]
  rw [State.bump_last hlast, hset]
  obtain hlog | rfl := hword
  · have hinv' : ((s.setFld k ⟨31, 0⟩ (s.fld k ⟨31, 0⟩ + 1)).setBit b.word b.bit true).Inv := hinv.setReg _ _
    rw [State.regBit_congr (State.reg_raise hinv' hlog _ _ _)]
    exact State.regBit_setBit hinv hbit
  · obtain rfl : ⟨Reg.PWR_SAT, 0⟩ = b := Option.some.inj (satOf_rateLow.symm.trans hsat)
    exact (eventSteps_rateSat.raise _ _ _ _ (hinv.setReg _ _)).2.trans (State.regBit_setBit hinv hbit)

/-- Clearing a bit of a register makes it read as clear. -/
theorem State.regBit_setBit_clear {b : Nat} (h : s.Inv) (hb : b < 64) : (s.setBit k b false).regBit k b = false := by
  have hfit : (⟨b, b⟩ : Fld).lo + (⟨b, b⟩ : Fld).width ≤ 64 := by simp [Fld.width]; omega
  rw [State.regBit, State.setBit, State.fld_setFld h.regs hfit]
  rfl

/-- A counter written with 0 is 0, and its SAT bit is clear. -/
theorem State.landed_zero {b : SatBit} (h : s.Inv) (o : Origin) (hlog : ¬ logReg k) (hsat : satOf k = some b) (hword : b.word ≠ k) (hbit : b.bit < 64) :
    (s.landed o k 0).fld k ⟨31, 0⟩ = 0 ∧ (s.landed o k 0).regBit b.word b.bit = false := by
  have hkeeps := State.auditLog_keeps (p := fun _ => False) (fun _ _ => id) (s.setReg k 0) o .register 0 (setupAddr k) (s.reg k).toNat (0 : Word).toNat
    (h.setReg k 0)
  have hinv : (s.commitWrite o k 0 0).Inv := hkeeps.1
  have hreg : (s.commitWrite o k 0 0).reg k = 0 := (hkeeps.2.regs k id hlog).trans (State.reg_setReg h.regs)
  have hzero : (s.commitWrite o k 0 0).fld k ⟨31, 0⟩ = 0 := by rw [State.fld, hreg]; rfl
  have hlanded : s.landed o k 0 = (s.commitWrite o k 0 0).setBit b.word b.bit false := by
    simp only [State.landed, State.clearSat, hzero, hsat, if_true]
  rw [hlanded]
  constructor
  · rw [State.setBit, State.fld_setFld_other hinv.regs hword.symm, hzero]
  · exact State.regBit_setBit_clear hinv hbit

end

/-- Settles O40: by the value below, at and one short of the maximum. -/
theorem counterSaturates : Obligations.CounterSaturates := by
  unfold Obligations.CounterSaturates
  intro s k unit hinv hlog hk hsat hqueues
  have hword (b : SatBit) (hb : satOf k = some b) : b.word ≠ k := (hsat b hb).2.1
  refine ⟨State.fld_bump hinv hlog hword, fun hmax => State.bump_max hmax,
    fun b hb hlast => State.regBit_bump_last hinv hb (hsat b hb).1 (hsat b hb).2.2 hlast, ?_,
    fun o b hb => State.landed_zero hinv o hlog hb (hword b hb) (hsat b hb).2.2⟩
  exact (s.bump_keeps hqueues k unit (.inl (.inl rfl)) (fun b hb => .inl (.inr ⟨b, hb, rfl⟩)) hinv).2

/-! ### Refused reads of DRAM (R98, R521) -/

/-- Settles O46: the read stops at the test of its origin. -/
theorem unreachableMemoryRefused : Obligations.UnreachableMemoryRefused := by
  unfold Obligations.UnreachableMemoryRefused
  intro s o addr errs jrnl hinv hup
  refine ⟨fun hdenied => ⟨next_of_up hup (if_pos (by rw [hdenied]; rfl)), ?count⟩, fun hother hin => ?enclave, fun hbeyond => ?beyond⟩
  case count =>
    have hlog : ¬ logReg Reg.MEM_REFUSE_CNT := not_logReg_of (by decide) (by decide)
    refine State.fld_bump hinv hlog fun b hb => ?_
    obtain rfl : ⟨Reg.MEM_SAT, 2⟩ = b := Option.some.inj (satOf_memRefuse.symm.trans hb)
    decide
  case enclave =>
    have hnot : (o == .device) = false := beq_eq_false_iff_ne.mpr hother
    simp only [State.mayReadDram, hnot, hin, Bool.not_true, Bool.false_and, Bool.or_self, Bool.and_false]
  case beyond =>
    have hend : ¬ addr / 64 * 64 < dramEnd := by rw [dramEnd]; omega
    simp only [State.mayReadDram, decide_eq_false hend, Bool.false_and]

end Sys2Proof.Machine

/-! SUPPORT. Fields of a register that is written, and the blocks' locks. -/

namespace Sys2Proof.Machine

/-! ### The word that a write leaves, field by field (R637 to R643) -/

/-- Every field of a register lies in its word, `f` among them and apart from the others. -/
def RegSpec.holdsApart (r : RegSpec) (f : FieldSpec) : Bool :=
  r.fields.contains f && r.fields.all (fun g => decide (g.fld.lo + g.fld.width ≤ 64) &&
    (g == f || decide (f.fld.lo + f.fld.width ≤ g.fld.lo) || decide (g.fld.lo + g.fld.width ≤ f.fld.lo)))

section

variable {s : State} {o : Origin} {k i : Nat} {r : RegSpec} {f : FieldSpec} {old new : Word}

/-- A read-write field keeps its value or takes the value written. -/
theorem State.fieldWrite_keeps_or_takes (hacc : f.acc = .rw ∨ f.acc = .rwl) :
    (s.fieldWrite o k r i f old new).1 = f.fld.of old ∨ (s.fieldWrite o k r i f old new).1 = f.fld.of new := by
  obtain h | h := hacc
  all_goals
    simp only [State.fieldWrite, h]
    repeat' split
    all_goals simp

theorem State.fieldWrite_lt (hacc : f.acc = .rw ∨ f.acc = .rwl) : (s.fieldWrite o k r i f old new).1 < 2 ^ f.fld.width := by
  obtain h | h := State.fieldWrite_keeps_or_takes (s := s) (o := o) (k := k) (r := r) (i := i) (old := old) (new := new) hacc <;>
    rw [h] <;> exact Fld.of_lt _ _

/-- A field written with the value that it has keeps it. -/
theorem State.fieldWrite_same (hacc : f.acc = .rw ∨ f.acc = .rwl) (hsame : f.fld.of new = f.fld.of old) :
    (s.fieldWrite o k r i f old new).1 = f.fld.of old :=
  (State.fieldWrite_keeps_or_takes hacc).elim id (fun h => h.trans hsame)

/-- A read-write field that is another writer's, or that is frozen, keeps its value. -/
theorem State.fieldWrite_denied (hacc : f.acc = .rw) (hdenied : mayWrite o f.writers = false ∨ (s.frozen k r i && !exemptEn r f) = true) :
    (s.fieldWrite o k r i f old new).1 = f.fld.of old := by
  obtain h | h := hdenied
  all_goals
    simp only [State.fieldWrite, hacc, h, Bool.not_false, if_true]
    repeat' split
    all_goals rfl

/-- One step of the write of a register: a field is put into the word. -/
def State.fieldStep (s : State) (o : Origin) (k : Nat) (r : RegSpec) (i : Nat) (old new : Word) (w : Word × Nat) (f : FieldSpec) : Word × Nat :=
  (f.fld.put w.1 (s.fieldWrite o k r i f old new).1, match (s.fieldWrite o k r i f old new).2 with
    | none => w.2
    | some x => if w.2 = 0 then x else min w.2 x)

theorem State.writtenWord_eq_foldl : s.writtenWord o k r i new = r.fields.foldl (s.fieldStep o k r i (s.reg k) new) (s.reg k, 0) := rfl

/-- Putting other fields leaves a field as it is, and putting it gives it the value that the write leaves. -/
theorem State.fld_foldl_fieldStep {fs : List FieldSpec} (w : Word × Nat) (hfs : ∀ g ∈ fs, g.fld.lo + g.fld.width ≤ 64 ∧
      (g = f ∨ f.fld.lo + f.fld.width ≤ g.fld.lo ∨ g.fld.lo + g.fld.width ≤ f.fld.lo)) (hlt : (s.fieldWrite o k r i f old new).1 < 2 ^ f.fld.width) :
    f.fld.of (fs.foldl (s.fieldStep o k r i old new) w).1 = if f ∈ fs then (s.fieldWrite o k r i f old new).1 else f.fld.of w.1 := by
  induction fs generalizing w with
  | nil => simp
  | cons g fs ih =>
    obtain ⟨hfit, hwhere⟩ := hfs g List.mem_cons_self
    rw [List.foldl_cons, ih _ (fun x hx => hfs x (List.mem_cons_of_mem g hx))]
    by_cases hin : f ∈ fs
    · simp [hin]
    · by_cases hsame : g = f
      · subst hsame
        simp [hin, State.fieldStep, Fld.of_put _ _ _ hfit, Nat.mod_eq_of_lt hlt]
      · have hput := Fld.of_put_disjoint g.fld f.fld w.1 (s.fieldWrite o k r i g old new).1 hfit (hwhere.resolve_left hsame)
        simp [hin, Ne.symm hsame, State.fieldStep, hput]

/-- A field that is apart from the others of its register holds what the write of it leaves. -/
theorem State.fld_writtenWord (hr : r.holdsApart f = true) (hacc : f.acc = .rw ∨ f.acc = .rwl) :
    f.fld.of (s.writtenWord o k r i new).1 = (s.fieldWrite o k r i f (s.reg k) new).1 := by
  simp only [RegSpec.holdsApart, Bool.and_eq_true, List.contains_iff_mem, List.all_eq_true, Bool.or_eq_true, decide_eq_true_eq, beq_iff_eq] at hr
  obtain ⟨hmem, hall⟩ := hr
  rw [State.writtenWord_eq_foldl, State.fld_foldl_fieldStep _ (fun g hg => ⟨(hall g hg).1, or_assoc.mp (hall g hg).2⟩) (State.fieldWrite_lt hacc)]
  exact if_pos hmem

end

/-! ### Locks (R643, R676) -/

/-- The field LOCK. -/
def lockSpec : FieldSpec := ⟨⟨31, 31⟩, .rwl, 0, [.selvage]⟩

/-- Is the register of a block's LOCK laid out with it, never frozen, and always powered, but for those of blocks 17 and 19? -/
def lockRowOk (blk : Nat) : Bool :=
  match RegMap.find (lockReg blk) with
  | none => false
  | some (r, i, _) => r.holdsApart lockSpec && r.freeze == .never && i == 0 &&
    (r.dom == none || blk == 17 && r.dom == some (212, 32) || blk == 19 && r.dom == some (218, 32))

theorem lt_of_hasLock {blk : Nat} (h : hasLock blk = true) : blk < 22 := by
  simp only [hasLock, Bool.and_eq_true, decide_eq_true_eq] at h
  exact h.1.1.1

theorem lockRowOk_of_hasLock {blk : Nat} (h : hasLock blk = true) : lockRowOk blk = true := by
  have hall : ∀ b, b < 22 → hasLock b = true → lockRowOk b = true := by decide
  exact hall blk (lt_of_hasLock h) h

/-- The row of a block's LOCK. -/
theorem lockRow {blk : Nat} (h : hasLock blk = true) : ∃ r j, RegMap.find (lockReg blk) = some (r, 0, j) ∧ r.holdsApart lockSpec = true ∧
    r.freeze = .never ∧ (r.dom = none ∨ (blk = 17 ∧ r.dom = some (212, 32)) ∨ (blk = 19 ∧ r.dom = some (218, 32))) := by
  have hok := lockRowOk_of_hasLock h
  unfold lockRowOk at hok
  split at hok
  next => exact absurd hok (by decide)
  next r i j hfind =>
    simp only [Bool.and_eq_true, Bool.or_eq_true, beq_iff_eq] at hok
    obtain ⟨⟨⟨hfields, hfreeze⟩, rfl⟩, hdom⟩ := hok
    exact ⟨r, j, hfind, hfields, hfreeze, or_assoc.mp hdom⟩

/-- No two blocks' LOCKs are in one register. -/
theorem lockReg_injective {a b : Nat} (ha : hasLock a = true) (hb : hasLock b = true) (hne : a ≠ b) : lockReg a ≠ lockReg b := by
  have hall : ∀ a, a < 22 → ∀ b, b < 22 → a ≠ b → lockReg a ≠ lockReg b := by decide
  exact hall a (lt_of_hasLock ha) b (lt_of_hasLock hb) hne

/-- The registers that events and the audit log set. -/
def loggedRegs : List Nat :=
  [Reg.PWR_RIM_REFUSE_CNT, Reg.PWR_SAT, Reg.GEN_SAT, Reg.EVQ_HEAD 0, Reg.EVQ_HEAD 1, Reg.EVQ_HEAD 2, Reg.GEN_EVQ_DROP_CNT 0, Reg.GEN_EVQ_DROP_CNT 1,
   Reg.GEN_EVQ_DROP_CNT 2, Reg.AUDIT_HEAD, Reg.AUDIT_STATUS, Reg.AUDIT_LOST_CNT, Reg.AUDIT_REFUSED_CNT, Reg.AUDIT_SAT]

section

variable {s : State} {k : Nat} (hk : k ∉ loggedRegs)

include hk

theorem ne_of_logged {j : Nat} (hj : j ∈ loggedRegs) : k ≠ j := fun h => hk (h ▸ hj)

theorem eventSteps_reg_of_notLogged : EventSteps (State.KeepsView (fun s => s.reg k)) := by
  refine eventSteps_reg (ne_of_logged hk (by decide)) (ne_of_logged hk (by decide)) (ne_of_logged hk (by decide)) fun d hd => ?_
  have hall : ∀ d, d < 3 → Reg.EVQ_HEAD d ∈ loggedRegs ∧ Reg.GEN_EVQ_DROP_CNT d ∈ loggedRegs := by decide
  obtain ⟨hhead, hdrop⟩ := hall d hd
  exact ⟨ne_of_logged hk hhead, ne_of_logged hk hdrop⟩

theorem State.setReg_keepsReg {j : Nat} (hj : j ∈ loggedRegs) (w : Word) : s.KeepsView (fun s => s.reg k) (s.setReg j w) :=
  fun h => ⟨h.setReg _ _, State.reg_setReg_other h.regs (ne_of_logged hk hj)⟩

/-- A counter of the audit log leaves the other registers. -/
theorem State.bump_keepsReg {j bit : Nat} (hj : j ∈ loggedRegs) (hsat : satOf j = some ⟨Reg.AUDIT_SAT, bit⟩) (unit : Nat) :
    s.KeepsView (fun s => s.reg k) (s.bump j unit) := by
  unfold State.bump
  dsimp only
  split
  · exact .refl s
  · split
    · simp only [State.setSat, hsat]
      exact ((State.setReg_keepsReg hk hj _).trans (State.setReg_keepsReg hk (by decide) _)).trans ((eventSteps_reg_of_notLogged hk).raise _ _ _ _)
    · exact State.setReg_keepsReg hk hj _

/-- An audited act leaves every register that events and the audit log do not set. -/
theorem State.auditAs_keepsReg (o : Origin) (kind : AuditKind) (result flags target old new : Nat) :
    s.KeepsView (fun s => s.reg k) (s.auditAs o kind result flags target old new) := by
  have haudit (t : State) (a : Audit) : t.KeepsView (fun s => s.reg k) { t with audit := a } :=
    fun h => ⟨⟨h.regs, h.mem, h.poison, h.knots, h.epochs, h.floors, h.top⟩, rfl⟩
  have hrefresh (t : State) : t.KeepsView (fun s => s.reg k) t.auditRefresh :=
    ((State.setReg_keepsReg hk (by decide) _).trans (State.setReg_keepsReg hk (by decide) _)).trans (State.setReg_keepsReg hk (by decide) _)
  have hput (bs : List Byte) (a : Nat) (c : BitVec 512) (w : Word) :
      s.KeepsView (fun s => s.reg k) (((s.writeBytes a bs).setChain c).setReg Reg.AUDIT_HEAD w).auditRefresh :=
    ((((eventSteps_reg_of_notLogged hk).writeBytes s a bs).trans (haudit _ _)).trans (State.setReg_keepsReg hk (by decide) w)).trans (hrefresh _)
  unfold State.auditAs
  split
  · split
    · exact (State.bump_keepsReg hk (by decide) satOf_auditLost _).trans (haudit _ _)
    · exact State.bump_keepsReg hk (by decide) satOf_auditRefused _
  · unfold State.auditPut
    dsimp only
    split
    · exact hput _ _ _ _
    · exact ((hput _ _ _ _).trans (haudit _ _)).trans ((eventSteps_reg_of_notLogged hk).raise _ _ _ _)

end

theorem lockReg_notLogged {blk : Nat} (h : hasLock blk = true) : lockReg blk ∉ loggedRegs := by
  have hall : ∀ b, b < 22 → lockReg b ∉ loggedRegs := by decide
  exact hall blk (lt_of_hasLock h)

theorem satOf_lockReg {blk : Nat} (h : hasLock blk = true) : satOf (lockReg blk) = none := by
  have hall : ∀ b, b < 22 → satOf (lockReg b) = none := by decide
  exact hall blk (lt_of_hasLock h)

theorem lockReg_block {blk : Nat} (h : hasLock blk = true) : lockReg blk / 0x10000 % 0x100 = blk ∧ lockReg blk % RegMap.bankSize = lockReg blk := by
  have hall : ∀ b, b < 22 → hasLock b = true → lockReg b / 0x10000 % 0x100 = b ∧ lockReg b % RegMap.bankSize = lockReg b := by decide
  exact hall blk (lt_of_hasLock h) h

theorem State.locked_of_hasLock {s : State} {blk : Nat} (h : hasLock blk = true) : s.locked blk = s.regBit (lockReg blk) 31 := by
  simp only [hasLock, Bool.and_eq_true, decide_eq_true_eq] at h
  obtain ⟨⟨⟨-, h3⟩, h6⟩, h11⟩ := h
  rw [State.locked, h3, h6, h11]
  rfl

theorem mem_of_hasLock {blk : Nat} (h : hasLock blk = true) :
    blk = 0 ∨ blk = 15 ∨ blk ∈ [1, 2, 4, 5, 7, 8, 9, 10, 12, 13, 14, 16, 17, 18, 19, 20, 21] := by
  have hall : ∀ b, b < 22 → hasLock b = true → b = 0 ∨ b = 15 ∨ b ∈ [1, 2, 4, 5, 7, 8, 9, 10, 12, 13, 14, 16, 17, 18, 19, 20, 21] := by decide
  exact hall blk (lt_of_hasLock h) h

theorem State.regWrite_lockReg_zero (s : State) (v : Word) : s.regWrite .selvage (lockReg 0) v {} = s.writePlainBy .selvage (lockReg 0) v := by
  have hkey : lockReg 0 = 0 := rfl
  have hrow : s.regWrite .selvage 0 v {} = s.regWriteAt .selvage 0 0 0 0 v {} := rfl
  rw [hkey, hrow]
  simp [State.regWriteAt, State.commandAt, keyFor, bankedRanges]

theorem State.regWrite_lockReg_audit (s : State) (v : Word) : s.regWrite .selvage (lockReg 15) v {} = s.writeSilent .selvage (lockReg 15) v := rfl

theorem State.regWrite_lockReg_other {blk : Nat} (h : blk ∈ [1, 2, 4, 5, 7, 8, 9, 10, 12, 13, 14, 16, 17, 18, 19, 20, 21]) (s : State) (v : Word) :
    s.regWrite .selvage (lockReg blk) v {} = s.writePlainBy .selvage (lockReg blk) v := by
  simp only [List.mem_cons, List.not_mem_nil, or_false] at h
  obtain rfl | rfl | rfl | rfl | rfl | rfl | rfl | rfl | rfl | rfl | rfl | rfl | rfl | rfl | rfl | rfl | rfl := h
  all_goals rfl

/-- A write of a block's LOCK is a plain write, in the AUDIT block one that is not audited (R525). -/
theorem State.regWrite_lockReg {blk : Nat} (h : hasLock blk = true) (s : State) (v : Word) : s.regWrite .selvage (lockReg blk) v {} =
    if blk = 15 then s.writeSilent .selvage (lockReg blk) v else s.writePlainBy .selvage (lockReg blk) v := by
  obtain rfl | rfl | hmem := mem_of_hasLock h
  · exact s.regWrite_lockReg_zero v
  · exact s.regWrite_lockReg_audit v
  · have hne : blk ≠ 15 := by rintro rfl; revert hmem; decide
    rw [if_neg hne]
    exact State.regWrite_lockReg_other hmem s v

/-- Bit 31 set makes LOCK 1. -/
theorem lock_of_or (n : Nat) : (⟨31, 31⟩ : Fld).of (BitVec.ofNat 64 (or64 n (2 ^ 31))) = 1 := by
  have hbit : (BitVec.ofNat 64 n ||| BitVec.ofNat 64 (2 ^ 31)).toNat.testBit 31 = true := by
    rw [BitVec.testBit_toNat]
    simp
  rw [Nat.testBit_eq_decide_div_mod_eq, decide_eq_true_eq] at hbit
  simpa [Fld.of, Fld.width, or64] using hbit

/-- The word that Selvage's write of LOCK leaves has it set. -/
theorem State.lock_writtenWord {s : State} {blk i : Nat} {r : RegSpec} {v : Word} (h : hasLock blk = true) (hr : r.holdsApart lockSpec = true)
    (hfreeze : r.freeze = .never) (hv : (⟨31, 31⟩ : Fld).of v = 1) :
    (⟨31, 31⟩ : Fld).of (s.writtenWord .selvage (lockReg blk) r i v).1 = 1 := by
  have hfield := State.fld_writtenWord (s := s) (o := .selvage) (k := lockReg blk) (i := i) (new := v) hr (.inr rfl)
  refine hfield.trans ?_
  obtain hclear | hset : (⟨31, 31⟩ : Fld).of (s.reg (lockReg blk)) = 0 ∨ (⟨31, 31⟩ : Fld).of (s.reg (lockReg blk)) = 1 := by
    have hlt := Fld.of_lt ⟨31, 31⟩ (s.reg (lockReg blk))
    simp only [Fld.width] at hlt
    omega
  · have hfree : s.locked (lockReg blk / 0x10000 % 0x100) = false := by
      rw [(lockReg_block h).1, State.locked_of_hasLock h, State.regBit, State.fld, hclear]
      rfl
    have hthawed : s.frozen (lockReg blk) r i = false := by rw [State.frozen, hfreeze]
    simp [State.fieldWrite, lockSpec, hv, hclear, hfree, hthawed, mayWrite, originWriter]
  · exact (State.fieldWrite_same (.inr rfl) (hv.trans hset.symm)).trans hset

/-- A register that logging does not set holds what is committed to it, and the others keep their words. -/
theorem State.reg_commitWrite {s : State} {k j : Nat} (h : s.Inv) (hj : j ∉ loggedRegs) (hsat : satOf k = none) (o : Origin) (w : Word) (c : Nat) :
    ((s.commitWrite o k w c).clearSat k).reg j = if j = k then w else s.reg j := by
  have hclear (t : State) : t.clearSat k = t := by simp [State.clearSat, hsat]
  rw [hclear]
  refine (State.auditAs_keepsReg (s := s.setReg k w) hj o .register c (auditFlags o) (setupAddr k) (s.reg k).toNat w.toNat (h.setReg k w)).2.trans ?_
  split
  next heq => subst heq; exact State.reg_setReg h.regs
  next hne => exact State.reg_setReg_other h.regs hne

/-- After Selvage's write of a block's LOCK it is set, and every other block's is as it was. -/
theorem State.reg_regWrite_lockReg {s : State} {blk b : Nat} (h : s.Inv) (hblk : hasLock blk = true) (hb : hasLock b = true)
    (hpower : (blk = 17 → s.domainOn 212 = true) ∧ (blk = 19 → s.domainOn 218 = true)) {v : Word} (hv : (⟨31, 31⟩ : Fld).of v = 1) :
    ∃ w, (⟨31, 31⟩ : Fld).of w = 1 ∧ (s.regWrite .selvage (lockReg blk) v {}).reg (lockReg b) = if lockReg b = lockReg blk then w else s.reg (lockReg b) := by
  obtain ⟨r, j, hfind, hr, hfreeze, hdom⟩ := lockRow hblk
  refine ⟨(s.writtenWord .selvage (lockReg blk) r 0 v).1, State.lock_writtenWord hblk hr hfreeze hv, ?_⟩
  rw [State.regWrite_lockReg hblk]
  split
  · have hclear (t : State) : t.clearSat (lockReg blk) = t := by simp [State.clearSat, satOf_lockReg hblk]
    simp only [State.writeSilent, setupOrigin, hfind, hclear, Bool.not_true, Bool.false_eq_true, if_false]
    split
    next heq => rw [heq]; exact State.reg_setReg h.regs
    next hne => exact State.reg_setReg_other h.regs hne
  · have hon : s.unitOff r 0 = false := by
      obtain hd | ⟨rfl, hd⟩ | ⟨rfl, hd⟩ := hdom <;> simp [State.unitOff, hd, hpower]
    simp only [State.writePlainBy, State.writeBy, setupOrigin, if_true, State.writeReg, State.auditOpen, auditFree, Bool.or_true, Bool.not_true,
      Bool.false_eq_true, if_false, (lockReg_block hblk).2, hfind, hon]
    exact State.reg_commitWrite h (lockReg_notLogged hb) (satOf_lockReg hblk) _ _ _

/-- Settles O39: by the write of one field, and by the row of each block's LOCK. -/
theorem lockFreezes : Obligations.LockFreezes := by
  unfold Obligations.LockFreezes
  refine ⟨fun s o k r i f old new hlocked hacc => ?frozen, fun s t o k r i f old new hacc hfreeze => ?others, fun blk hblk => ?laid,
    fun s blk hinv hup hblk h17 h19 => ?set⟩
  case frozen =>
    constructor
    · simp only [State.fieldWrite, hacc, hlocked, if_true]
      repeat' split
      all_goals rfl
    · intro hmay hchange
      simp [State.fieldWrite, hacc, hlocked, hmay, hchange]
  case others =>
    cases h : f.acc with
    | rwl => exact absurd h hacc
    | _ => simp only [State.fieldWrite, h, hfreeze]
  case laid =>
    obtain ⟨r, j, hfind, hr, -⟩ := lockRow hblk
    simp only [RegSpec.holdsApart, Bool.and_eq_true, List.contains_iff_mem] at hr
    exact ⟨r, 0, j, hfind, hr.1⟩
  case set =>
    have hnext : exec (.lockWrite .selvage blk) s =
        .next (s.regWrite .selvage (lockReg blk) (BitVec.ofNat 64 (or64 (s.reg (lockReg blk)).toNat (2 ^ 31))) {}) := next_of_up hup (if_pos hblk)
    refine ⟨_, hnext, ?_, fun b hb hne => ?_⟩
    · obtain ⟨w, hw, hreg⟩ := State.reg_regWrite_lockReg hinv hblk hblk ⟨h17, h19⟩ (lock_of_or (s.reg (lockReg blk)).toNat)
      rw [State.locked_of_hasLock hblk, State.regBit, State.fld, hreg, if_pos rfl, hw]
      rfl
    · obtain ⟨w, hw, hreg⟩ := State.reg_regWrite_lockReg hinv hblk hb ⟨h17, h19⟩ (lock_of_or (s.reg (lockReg blk)).toNat)
      rw [if_neg (lockReg_injective hb hblk hne)] at hreg
      rw [State.locked_of_hasLock hb, State.locked_of_hasLock hb, State.regBit_congr hreg]

end Sys2Proof.Machine

/-! SUPPORT. Unordered channels, bus-off, the servo of network time and the error pins. -/

namespace Sys2Proof.Machine

/-! ### Unordered channels (R352) -/

section

variable {s t : State} {n : Nat}

theorem State.unordered_congr (h : t.reg (Reg.CH_SRC n) = s.reg (Reg.CH_SRC n)) : t.unordered n = s.unordered n := by
  rw [State.unordered, State.bit, State.fld, h, State.unordered, State.bit, State.fld]

/-- Of distinct numbers, where all that have p but one have q, one more at most has p. -/
theorem countP_le_succ {p q : Nat → Bool} {l : List Nat} (hdistinct : l.Nodup) (h : ∀ m ∈ l, p m = true → m = n ∨ q m = true) :
    l.countP p ≤ l.countP q + 1 := by
  induction l with
  | nil => exact Nat.zero_le _
  | cons a l ih =>
    obtain ⟨hapart, hrest⟩ := List.nodup_cons.mp hdistinct
    by_cases ha : a = n
    · have hmono : l.countP p ≤ l.countP q := List.countP_mono_left fun m hm hp =>
        (h m (List.mem_cons_of_mem a hm) hp).resolve_left fun hmn => hapart (ha.trans hmn.symm ▸ hm)
      rw [List.countP_cons, List.countP_cons]
      split <;> omega
    · have hle := ih hrest fun m hm => h m (List.mem_cons_of_mem a hm)
      have hhead : p a = true → q a = true := fun hp => (h a List.mem_cons_self hp).resolve_left ha
      rw [List.countP_cons, List.countP_cons]
      by_cases hp : p a = true
      · rw [if_pos hp, if_pos (hhead hp)]
        omega
      · rw [if_neg hp]
        omega

theorem State.unordCount_eq (s : State) : s.unordCount = (List.range channelCount).countP s.unordered := List.countP_eq_length_filter.symm

/-- Where the channels that are unordered after were so before, but for one, there is one more at most. -/
theorem State.unordCount_le_succ (h : ∀ m, m < channelCount → t.unordered m = true → m = n ∨ s.unordered m = true) :
    t.unordCount ≤ s.unordCount + 1 := by
  rw [State.unordCount_eq, State.unordCount_eq]
  exact countP_le_succ List.nodup_range fun m hm => h m (List.mem_range.mp hm)

/-- Where all of them were so before, there are no more. -/
theorem State.unordCount_le (h : ∀ m, m < channelCount → t.unordered m = true → s.unordered m = true) : t.unordCount ≤ s.unordCount := by
  rw [State.unordCount_eq, State.unordCount_eq]
  exact List.countP_mono_left fun m hm => h m (List.mem_range.mp hm)

/-- What leaves the channels' registers leaves the count. -/
theorem State.unordCount_le_of_reg (h : ∀ m, m < channelCount → t.reg (Reg.CH_SRC m) = s.reg (Reg.CH_SRC m)) : t.unordCount ≤ s.unordCount :=
  State.unordCount_le fun m hm hset => (State.unordered_congr (h m hm)).symm.trans hset

end

/-- EN and UNORD of a channel's source. -/
def chanEnSpec : FieldSpec := ⟨Fd.CH_SRC_EN, .rw, 0, [.selvage, .hypervisor, .safety]⟩
def chanUnordSpec : FieldSpec := ⟨Fd.CH_SRC_UNORD, .rw, 0, [.hypervisor, .safety]⟩

/-- Is the register of a channel's source laid out with EN and with UNORD, which EN freezes? -/
def chanRowOk (n : Nat) : Bool :=
  match RegMap.find (Reg.CH_SRC n) with
  | none => false
  | some (r, _, _) => r.holdsApart chanEnSpec && r.holdsApart chanUnordSpec && r.freeze == .field 62 63

/-- The row of a channel's source. -/
theorem chanRow {n : Nat} (hn : n < channelCount) : ∃ r i j, RegMap.find (Reg.CH_SRC n) = some (r, i, j) ∧ r.holdsApart chanEnSpec = true ∧
    r.holdsApart chanUnordSpec = true ∧ r.freeze = .field 62 63 := by
  have hall : ∀ m, m < 16 → chanRowOk m = true := by decide
  have hok := hall n hn
  unfold chanRowOk at hok
  split at hok
  next => exact absurd hok (by decide)
  next r i j hfind =>
    simp only [Bool.and_eq_true, beq_iff_eq] at hok
    exact ⟨r, i, j, hfind, hok.1.1, hok.1.2, hok.2⟩

theorem chSrc_notLogged {n : Nat} (hn : n < channelCount) : Reg.CH_SRC n ∉ loggedRegs := by
  have hall : ∀ m, m < 16 → Reg.CH_SRC m ∉ loggedRegs := by decide
  exact hall n hn

theorem satOf_chSrc {n : Nat} (hn : n < channelCount) : satOf (Reg.CH_SRC n) = none := by
  have hall : ∀ m, m < 16 → satOf (Reg.CH_SRC m) = none := by decide
  exact hall n hn

section

variable {s : State} {o : Origin} {n i : Nat} {r : RegSpec} {v : Word}

/-- A write that changes UNORD comes from an origin that may change it, while the channel is not enabled. -/
theorem State.may_of_unord_changed (hr : r.holdsApart chanUnordSpec = true) (hfreeze : r.freeze = .field 62 63)
    (hchanged : Fd.CH_SRC_UNORD.of (s.writtenWord o (Reg.CH_SRC n) r i v).1 ≠ s.chSrc n Fd.CH_SRC_UNORD) :
    mayWrite o [.hypervisor, .safety] = true ∧ s.bit (Reg.CH_SRC n) Fd.CH_SRC_EN = false ∧
      Fd.CH_SRC_UNORD.of (s.writtenWord o (Reg.CH_SRC n) r i v).1 = Fd.CH_SRC_UNORD.of v := by
  have hfield : Fd.CH_SRC_UNORD.of (s.writtenWord o (Reg.CH_SRC n) r i v).1 = (s.fieldWrite o (Reg.CH_SRC n) r i chanUnordSpec (s.reg (Reg.CH_SRC n)) v).1 :=
    State.fld_writtenWord hr (.inl rfl)
  rw [hfield] at hchanged ⊢
  have hexempt : exemptEn r chanUnordSpec = false := by rw [exemptEn, hfreeze]; rfl
  have hfrozen : s.frozen (Reg.CH_SRC n) r i = s.bit (Reg.CH_SRC n) Fd.CH_SRC_EN := by rw [State.frozen, hfreeze]; rfl
  refine ⟨?_, ?_, (State.fieldWrite_keeps_or_takes (.inl rfl)).resolve_left hchanged⟩
  · refine Decidable.byContradiction fun hmay => ?_
    exact hchanged (State.fieldWrite_denied rfl (.inl (Bool.eq_false_iff.mpr hmay)))
  · refine Decidable.byContradiction fun hon => ?_
    exact hchanged (State.fieldWrite_denied rfl (.inr (by rw [hfrozen, hexempt, Bool.not_false, Bool.and_true]; exact Bool.not_eq_false _ ▸ hon)))

/-- What the write of UNORD gives EN and UNORD. -/
theorem unordWord_en (s : State) (n : Nat) (on : Bool) :
    Fd.CH_SRC_EN.of (Fd.CH_SRC_CFG_ERR.put (Fd.CH_SRC_UNORD.put (s.reg (Reg.CH_SRC n)) on.toNat) 0) = s.chSrc n Fd.CH_SRC_EN := by
  rw [Fld.of_put_disjoint _ _ _ _ (by decide) (by decide), Fld.of_put_disjoint _ _ _ _ (by decide) (by decide)]
  rfl

/-- The owner and the count that follow UNORD are no channel's source. -/
theorem State.unordFollowed_reg (t : State) (m : Nat) : (s.unordFollowed t o n).reg (Reg.CH_SRC m) = t.reg (Reg.CH_SRC m) := by
  have habove : Reg.INTK_CTRL < Reg.CH_SRC m := by simp only [Reg.INTK_CTRL, Reg.CH_SRC]; omega
  unfold State.unordFollowed
  split
  · rfl
  · exact State.reg_setReg_above habove

/-- What follows a write that leaves EN: the owner and the count. -/
def State.afterUnord (s t : State) (o : Origin) (n : Nat) : State :=
  match s.bit (Reg.CH_SRC n) Fd.CH_SRC_EN, (s.unordFollowed t o n).bit (Reg.CH_SRC n) Fd.CH_SRC_EN with
  | false, true => (s.unordFollowed t o n).enableChan n
  | true, false => (s.unordFollowed t o n).disableChan n
  | _, _ => s.unordFollowed t o n

theorem State.afterUnord_of_en {t : State} (hen : t.bit (Reg.CH_SRC n) Fd.CH_SRC_EN = s.bit (Reg.CH_SRC n) Fd.CH_SRC_EN) :
    s.afterUnord t o n = s.unordFollowed t o n := by
  rw [State.afterUnord, State.unordFollowed_en, hen]
  cases s.bit (Reg.CH_SRC n) Fd.CH_SRC_EN <;> rfl

/-- Is the value that a write gives UNORD refused (R352)? -/
def State.unordRefused (s : State) (o : Origin) (n : Nat) (v : Word) : Bool :=
  setupOrigin o && mayWrite o [.hypervisor, .safety] && !s.bit (Reg.CH_SRC n) Fd.CH_SRC_EN && s.auditOpen o &&
    Fd.CH_SRC_UNORD.of v != s.chSrc n Fd.CH_SRC_UNORD && !s.unordAllowed o n (Fd.CH_SRC_UNORD.of v)

/-- The value that is written, its UNORD as it was where it is refused. -/
def State.unordGranted (s : State) (o : Origin) (n : Nat) (v : Word) : Word :=
  if s.unordRefused o n v then Fd.CH_SRC_UNORD.put v (s.chSrc n Fd.CH_SRC_UNORD) else v

theorem State.unordGranted_en : Fd.CH_SRC_EN.of (s.unordGranted o n v) = Fd.CH_SRC_EN.of v := by
  unfold State.unordGranted
  split
  · exact Fld.of_put_disjoint _ _ _ _ (by decide) (by decide)
  · rfl

theorem State.writeChan_eq (s : State) (o : Origin) (n : Nat) (v : Word) : s.writeChan o n v =
    s.writeBy o (Reg.CH_SRC n) (s.unordGranted o n v) (fun s' t =>
      s'.afterUnord (if s.unordRefused o n v then t.setFld (Reg.CH_SRC n) Fd.CH_SRC_CFG_ERR 1 else t) o n) := rfl

/-- A write of a channel's source is refused as a whole, and leaves the sources, or it is applied. -/
theorem State.writeBy_chSrc_cases (h : s.Inv) (hn : n < channelCount) (act : State → State → State) :
    (∀ m, m < channelCount → (s.writeBy o (Reg.CH_SRC n) v act).reg (Reg.CH_SRC m) = s.reg (Reg.CH_SRC m)) ∨
    setupOrigin o = true ∧ s.auditOpen o = true ∧ ∃ r i c, r.holdsApart chanEnSpec = true ∧ r.holdsApart chanUnordSpec = true ∧ r.freeze = .field 62 63 ∧
      s.writeBy o (Reg.CH_SRC n) v act =
        act s ((s.commitWrite o (Reg.CH_SRC n) (s.writtenWord o (Reg.CH_SRC n) r i v).1 c).clearSat (Reg.CH_SRC n)) := by
  have hq : SparesQueues (counterRegs Reg.MEM_REFUSE_CNT) := counterRegs_memRefuse_queue
  have hkept (t : State) (hkeeps : s.Keeps (counterRegs Reg.MEM_REFUSE_CNT) t) (m : Nat) (hm : m < channelCount) :
      t.reg (Reg.CH_SRC m) = s.reg (Reg.CH_SRC m) := by
    rw [channelCount] at hm
    refine (hkeeps h).2.regs _ ?_ (not_logReg_of (by simp only [Reg.CH_SRC]; omega) (by simp only [Reg.CH_SRC]; omega))
    rintro (hc | ⟨b, hb, hc⟩)
    · simp only [Reg.CH_SRC, Reg.MEM_REFUSE_CNT] at hc; omega
    · obtain rfl : ⟨Reg.MEM_SAT, 2⟩ = b := Option.some.inj (satOf_memRefuse.symm.trans hb)
      simp only [Reg.CH_SRC, Reg.MEM_SAT] at hc; omega
  obtain ⟨r, i, j, hfind, hen, hunord, hfreeze⟩ := chanRow hn
  have hkey : Reg.CH_SRC n % RegMap.bankSize = Reg.CH_SRC n := Nat.mod_eq_of_lt (by simp only [Reg.CH_SRC, RegMap.bankSize, channelCount] at *; omega)
  unfold State.writeBy State.writeReg
  split
  next hsetup =>
    split
    next => exact .inl (hkept _ (s.auditRefusal_keeps hq _ _ _))
    next hopen =>
      simp only [hkey, hfind]
      split
      next => exact .inl (hkept _ (s.auditRefusal_keeps hq _ _ _))
      next => exact .inr ⟨hsetup, by simpa using hopen, r, i, _, hen, hunord, hfreeze, rfl⟩
  next => exact .inl (hkept _ (s.refuseTo_keeps hq (fun _ hc => hc) _))

/-- The source's word after an applied write, CFG_ERR aside, and the other sources as they were. -/
theorem State.chSrc_written (h : s.Inv) (hn : n < channelCount) (w : Word) (c : Nat) (err : Bool) :
    let u := (s.commitWrite o (Reg.CH_SRC n) w c).clearSat (Reg.CH_SRC n)
    let t := if err then u.setFld (Reg.CH_SRC n) Fd.CH_SRC_CFG_ERR 1 else u
    t.chSrc n Fd.CH_SRC_EN = Fd.CH_SRC_EN.of w ∧ t.chSrc n Fd.CH_SRC_UNORD = Fd.CH_SRC_UNORD.of w ∧
      ∀ m, m < channelCount → m ≠ n → t.reg (Reg.CH_SRC m) = s.reg (Reg.CH_SRC m) := by
  dsimp only
  have hclear : (s.commitWrite o (Reg.CH_SRC n) w c).clearSat (Reg.CH_SRC n) = s.commitWrite o (Reg.CH_SRC n) w c := by
    simp [State.clearSat, satOf_chSrc hn]
  have hreg (m : Nat) (hm : m < channelCount) := State.reg_commitWrite (k := Reg.CH_SRC n) h (chSrc_notLogged hm) (satOf_chSrc hn) o w c
  have hinv : (s.commitWrite o (Reg.CH_SRC n) w c).Inv :=
    (State.auditLog_keeps (p := fun _ => False) (fun _ _ => id) _ o .register c _ _ _ (h.setReg _ w)).1
  rw [hclear] at hreg ⊢
  generalize s.commitWrite o (Reg.CH_SRC n) w c = u at *
  have hown : u.reg (Reg.CH_SRC n) = w := (hreg n hn).trans (if_pos rfl)
  have hothers (m : Nat) (hm : m < channelCount) (hne : m ≠ n) : u.reg (Reg.CH_SRC m) = s.reg (Reg.CH_SRC m) :=
    (hreg m hm).trans (if_neg (by simp only [Reg.CH_SRC]; omega))
  cases err with
  | false => exact ⟨congrArg Fd.CH_SRC_EN.of hown, congrArg Fd.CH_SRC_UNORD.of hown, hothers⟩
  | true =>
    refine ⟨?_, ?_, fun m hm hne => ?_⟩
    · exact (State.fld_setFld_disjoint hinv.regs (by decide) (by decide)).trans (congrArg Fd.CH_SRC_EN.of hown)
    · exact (State.fld_setFld_disjoint hinv.regs (by decide) (by decide)).trans (congrArg Fd.CH_SRC_UNORD.of hown)
    · exact (State.reg_setReg_other hinv.regs (by simp only [Reg.CH_SRC]; omega)).trans (hothers m hm hne)

/-- An applied write of UNORD leaves at most four channels unordered. -/
theorem State.unordCount_written {t : State} (hfour : s.unordCount ≤ 4) (hr : r.holdsApart chanUnordSpec = true) (hfreeze : r.freeze = .field 62 63)
    (hsetup : setupOrigin o = true) (hopen : s.auditOpen o = true)
    (hunord : t.chSrc n Fd.CH_SRC_UNORD = Fd.CH_SRC_UNORD.of (s.writtenWord o (Reg.CH_SRC n) r i (s.unordGranted o n v)).1)
    (hothers : ∀ m, m < channelCount → m ≠ n → t.reg (Reg.CH_SRC m) = s.reg (Reg.CH_SRC m)) : t.unordCount ≤ 4 := by
  have hkept (m : Nat) (hm : m < channelCount) (hset : t.unordered m = true) : m = n ∨ s.unordered m = true := by
    by_cases hne : m = n
    · exact .inl hne
    · exact .inr ((State.unordered_congr (hothers m hm hne)).symm.trans hset)
  by_cases hsame : t.chSrc n Fd.CH_SRC_UNORD = s.chSrc n Fd.CH_SRC_UNORD
  · refine Nat.le_trans (State.unordCount_le fun m hm hset => (hkept m hm hset).elim (fun he => ?_) id) hfour
    subst he
    exact (congrArg (· == 1) hsame).symm.trans hset
  · rw [hunord] at hsame
    obtain ⟨hmay, hoff, htaken⟩ := State.may_of_unord_changed hr hfreeze hsame
    have hgranted : s.unordRefused o n v = false := by
      refine Decidable.byContradiction fun hrefused => ?_
      rw [Bool.not_eq_false] at hrefused
      rw [htaken, State.unordGranted, if_pos hrefused, Fld.of_put _ _ _ (by decide)] at hsame
      exact hsame (Nat.mod_eq_of_lt (Fld.of_lt _ _))
    rw [htaken, State.unordGranted, hgranted, if_neg (by decide)] at hsame hunord
    have hallowed : s.unordAllowed o n (Fd.CH_SRC_UNORD.of v) = true := by
      simpa [State.unordRefused, hsetup, hmay, hoff, hopen, hsame] using hgranted
    by_cases hon : Fd.CH_SRC_UNORD.of v = 1
    · rw [State.unordAllowed, if_pos hon, decide_eq_true_eq] at hallowed
      exact Nat.le_trans (State.unordCount_le_succ hkept) (by omega)
    · refine Nat.le_trans (State.unordCount_le fun m hm hset => (hkept m hm hset).elim (fun he => ?_) id) hfour
      subst he
      exact absurd (hunord.symm.trans (beq_iff_eq.mp hset)) hon

end

/-- Settles O57: a write that sets UNORD is applied only with fewer than four channels unordered. -/
theorem unorderedAtMostFour : Obligations.UnorderedAtMostFour := by
  unfold Obligations.UnorderedAtMostFour
  intro s t o n on hinv hfour hnext
  obtain rfl := Host.Outcome.next.inj hnext
  split
  next =>
    dsimp only
    split
    next hn =>
      rw [State.writeChan_eq]
      generalize hv : Fd.CH_SRC_CFG_ERR.put (Fd.CH_SRC_UNORD.put (s.reg (Reg.CH_SRC n)) on.toNat) 0 = v
      obtain hkept | ⟨hsetup, hopen, r, i, c, hen, hunord, hfreeze, happlied⟩ := State.writeBy_chSrc_cases (o := o) (v := s.unordGranted o n v) hinv hn
          (fun s' t => s'.afterUnord (if s.unordRefused o n v then t.setFld (Reg.CH_SRC n) Fd.CH_SRC_CFG_ERR 1 else t) o n)
      · exact Nat.le_trans (State.unordCount_le_of_reg hkept) hfour
      · obtain ⟨hwen, hwunord, hothers⟩ := State.chSrc_written (o := o) hinv hn (s.writtenWord o (Reg.CH_SRC n) r i (s.unordGranted o n v)).1 c
          (s.unordRefused o n v)
        rw [happlied]
        generalize (if s.unordRefused o n v = true then _ else _ : State) = u at *
        have hkeepsEn : u.chSrc n Fd.CH_SRC_EN = s.chSrc n Fd.CH_SRC_EN := by
          rw [hwen]
          exact (State.fld_writtenWord hen (.inl rfl)).trans
            (State.fieldWrite_same (.inl rfl) (State.unordGranted_en.trans (hv ▸ unordWord_en s n on)))
        rw [State.afterUnord_of_en (congrArg (· == 1) hkeepsEn)]
        refine Nat.le_trans (State.unordCount_le_of_reg fun m _ => State.unordFollowed_reg u m) ?_
        exact State.unordCount_written hfour hunord hfreeze hsetup hopen hwunord hothers
    next => exact hfour
  next => exact hfour

end Sys2Proof.Machine

/-! SUPPORT. Bus-off, the servo of network time and the error pins. -/

namespace Sys2Proof.Machine

section

variable {s : State} {k j : Nat}

/-- Counting leaves every register but the counter, its SAT word and those of logging. -/
theorem State.reg_bump_other (h : s.Inv) (hq : SparesQueues (counterRegs k)) (hj : ¬ counterRegs k j) (hlog : ¬ logReg j) (unit : Nat) :
    (s.bump k unit).reg j = s.reg j :=
  (s.bump_keeps hq k unit (.inl (.inl rfl)) (fun b hb => .inl (.inr ⟨b, hb, rfl⟩)) h).2.regs j hj hlog

/-- The registers of a counter whose SAT word is known. -/
theorem not_counterRegs {b : SatBit} (hsat : satOf k = some b) (hk : j ≠ k) (hb : j ≠ b.word) : ¬ counterRegs k j := by
  rintro (rfl | ⟨c, hc, rfl⟩)
  · exact hk rfl
  · exact hb (congrArg SatBit.word (Option.some.inj (hc.symm.trans hsat)))

/-! ### Bus-off (R583) -/

/-- Settles O58: bus-off sets the controller's state and counts. -/
theorem busOffStops : Obligations.BusOffStops := by
  unfold Obligations.BusOffStops
  intro s n hinv hup hlive
  have hn : n < 16 := State.lt_of_canLive hlive
  have hsat := satOf_busOffCnt hn
  have hq : SparesQueues (counterRegs (Reg.GWY_BUSOFF_CNT n)) := sparesQueues_of_le fun k hk => busOffRegs_le hn (.inr hk)
  have hset : (s.setFld (Reg.GWY_CAN_STATUS n) Fd.GWY_CAN_STATUS_STATE 2).Inv := hinv.setReg _ _
  have hstate : (s.busOff n).canState n = 2 := by
    have hreg : (s.busOff n).reg (Reg.GWY_CAN_STATUS n) = (s.setFld (Reg.GWY_CAN_STATUS n) Fd.GWY_CAN_STATUS_STATE 2).reg (Reg.GWY_CAN_STATUS n) := by
      refine State.reg_bump_other hset hq (not_counterRegs hsat ?_ ?_) (not_logReg_of ?_ ?_) n <;>
        simp only [Reg.GWY_CAN_STATUS, Reg.GWY_BUSOFF_CNT, Reg.GWY_CAN_SAT] <;> omega
    rw [State.canState, State.fld, hreg, ← State.fld, State.fld_setFld hinv.regs (by decide)]
    rfl
  have hsends : (s.busOff n).canSends n = false := by
    simp [State.canSends, State.canLive, hstate]
  refine ⟨s.busOff n, next_of_up hup (if_pos hlive), hstate, hsends, State.bump_nets _ _ _, ?_, fun sof => ?_⟩
  · have hother : Reg.GWY_BUSOFF_CNT n ≠ Reg.GWY_CAN_STATUS n := by simp only [Reg.GWY_CAN_STATUS, Reg.GWY_BUSOFF_CNT]; omega
    have hlog : ¬ logReg (Reg.GWY_BUSOFF_CNT n) := by apply not_logReg_of <;> simp only [Reg.GWY_BUSOFF_CNT] <;> omega
    refine (State.fld_bump hset hlog fun b hb => ?_).trans (by rw [State.fld_setFld_other hinv.regs hother])
    obtain rfl := Option.some.inj (hsat.symm.trans hb)
    simp only [Reg.GWY_CAN_SAT, Reg.GWY_BUSOFF_CNT]; omega
  · have hnothing : ¬ ((s.busOff n).canSends n = true ∧ sof ≤ (s.busOff n).now) := by simp [hsends]
    have hstay (u : State) : (Host.Outcome.next (if (s.busOff n).sys.up = true then (if (s.busOff n).canSends n = true ∧ sof ≤ (s.busOff n).now
        then u else s.busOff n) else s.busOff n) : Host.Outcome State Fault Refusal) = .next (s.busOff n) := by rw [if_neg hnothing, ite_self]
    exact hstay _

end

/-! ### Network time (R595) -/

section

variable {s : State} {k : Nat}

theorem State.reg_setAdj (h : s.Inv) (hadj : k ≠ Reg.TIME_RATE_ADJ) (hstatus : k ≠ Reg.TIME_STATUS) (v : Nat) : (s.setAdj v).reg k = s.reg k := by
  have hset : (s.setFld Reg.TIME_RATE_ADJ Fd.TIME_RATE_ADJ_ADJ (clampAdj v).1).reg k = s.reg k := State.reg_setReg_other h.regs hadj
  unfold State.setAdj
  dsimp only
  split
  · exact (State.reg_setReg_other (h.setReg _ _).regs hstatus).trans hset
  · exact hset

/-- The rate filter sets the rate adjustment and its mark alone. -/
theorem State.reg_rateFilter (h : s.Inv) (hadj : k ≠ Reg.TIME_RATE_ADJ) (hstatus : k ≠ Reg.TIME_STATUS) : s.rateFilter.reg k = s.reg k := by
  unfold State.rateFilter
  split
  · rfl
  · dsimp only
    split
    · refine (State.reg_setAdj ?_ hadj hstatus _).trans rfl
      exact ⟨h.regs, h.mem, h.poison, h.knots, h.epochs, h.floors, h.top⟩
    · rfl

end

/-- The state of network time as a phase error is taken. -/
def State.syncSeen (s : State) : State := (s.gptpFlag Fd.TSN_GPTP_STATUS_IS_GM 0).gptpFlag Fd.TSN_GPTP_STATUS_GM_LOST 0

section

variable {s : State} {e : Word}

theorem State.syncSeen_inv (h : s.Inv) : s.syncSeen.Inv := (h.setReg _ _).setReg _ _

theorem State.reg_syncSeen (h : s.Inv) {k : Nat} (hk : k ≠ Reg.TSN_GPTP_STATUS) : s.syncSeen.reg k = s.reg k :=
  (State.reg_setReg_other (h.setReg _ _).regs hk).trans (State.reg_setReg_other h.regs hk)

theorem State.refused_syncSeen (h : s.Inv) : s.syncSeen.gptpIs Fd.TSN_GPTP_STATUS_REFUSED = s.gptpIs Fd.TSN_GPTP_STATUS_REFUSED := by
  have hmaster : (s.gptpFlag Fd.TSN_GPTP_STATUS_IS_GM 0).Inv := h.setReg _ _
  rw [State.syncSeen, State.gptpIs, State.bit, State.gptpFlag, State.fld_setFld_disjoint hmaster.regs (by decide) (by decide), State.gptpFlag,
    State.fld_setFld_disjoint h.regs (by decide) (by decide)]
  rfl

theorem State.gptpIs_congr {t : State} {f : Fld} (h : t.reg Reg.TSN_GPTP_STATUS = s.reg Reg.TSN_GPTP_STATUS) : t.gptpIs f = s.gptpIs f := by
  rw [State.gptpIs, State.bit, State.fld, h, State.gptpIs, State.bit, State.fld]

theorem satOf_gptpRefuse : satOf Reg.GPTP_REFUSE_CNT = some ⟨Reg.TSN_SAT, 0⟩ := by decide

/-- A phase error that is refused is kept in TSN_PEND, marked and counted. -/
theorem State.refuseSync_effect (h : s.Inv) (e : Word) : (s.refuseSync e).reg Reg.TSN_OFFSET = s.reg Reg.TSN_OFFSET ∧
    (s.refuseSync e).reg Reg.TSN_PEND = e ∧ (s.refuseSync e).gptpIs Fd.TSN_GPTP_STATUS_REFUSED = true ∧
    (s.refuseSync e).fld Reg.GPTP_REFUSE_CNT ⟨31, 0⟩ = min 0xFFFFFFFF (s.fld Reg.GPTP_REFUSE_CNT ⟨31, 0⟩ + 1) := by
  have hq : SparesQueues (counterRegs Reg.GPTP_REFUSE_CNT) := by
    intro d hd
    refine not_counterRegs satOf_gptpRefuse ?_ ?_ <;> simp only [Reg.EVQ_CFG, Reg.GPTP_REFUSE_CNT, Reg.TSN_SAT] <;> omega
  have hpend : (s.setReg Reg.TSN_PEND e).Inv := h.setReg _ _
  have hflag : ((s.setReg Reg.TSN_PEND e).gptpFlag Fd.TSN_GPTP_STATUS_REFUSED 1).Inv := hpend.setReg _ _
  have hbump : (((s.setReg Reg.TSN_PEND e).gptpFlag Fd.TSN_GPTP_STATUS_REFUSED 1).bump Reg.GPTP_REFUSE_CNT noUnit).Inv :=
    (State.bump_keeps hq _ _ _ (.inl (.inl rfl)) (fun b hb => .inl (.inr ⟨b, hb, rfl⟩)) hflag).1
  have hreg (k : Nat) (hk : k ≠ Reg.GPTP_REFUSE_CNT) (hsat : k ≠ Reg.TSN_SAT) (hlow : 0x030470 ≤ k) (hblock : k / 0x10000 ≠ 15) :
      (s.refuseSync e).reg k = ((s.setReg Reg.TSN_PEND e).gptpFlag Fd.TSN_GPTP_STATUS_REFUSED 1).reg k :=
    (State.reg_raise hbump (not_logReg_of hlow hblock) _ _ _).trans
      (State.reg_bump_other hflag hq (not_counterRegs satOf_gptpRefuse hk hsat) (not_logReg_of hlow hblock) _)
  have hother (k : Nat) (hk : k ≠ Reg.TSN_GPTP_STATUS) :
      ((s.setReg Reg.TSN_PEND e).gptpFlag Fd.TSN_GPTP_STATUS_REFUSED 1).reg k = (s.setReg Reg.TSN_PEND e).reg k := State.reg_setReg_other hpend.regs hk
  refine ⟨?_, ?_, ?_, ?_⟩
  · rw [hreg _ (by decide) (by decide) (by decide) (by decide), hother _ (by decide)]
    exact State.reg_setReg_other h.regs (by decide)
  · rw [hreg _ (by decide) (by decide) (by decide) (by decide), hother _ (by decide)]
    exact State.reg_setReg h.regs
  · rw [State.gptpIs_congr (hreg _ (by decide) (by decide) (by decide) (by decide)), State.gptpIs, State.bit, State.gptpFlag,
      State.fld_setFld hpend.regs (by decide)]
    rfl
  · have hcount : (s.refuseSync e).fld Reg.GPTP_REFUSE_CNT ⟨31, 0⟩ =
        (((s.setReg Reg.TSN_PEND e).gptpFlag Fd.TSN_GPTP_STATUS_REFUSED 1).bump Reg.GPTP_REFUSE_CNT noUnit).fld Reg.GPTP_REFUSE_CNT ⟨31, 0⟩ :=
      congrArg (⟨31, 0⟩ : Fld).of (State.reg_raise hbump (not_logReg_of (by decide) (by decide)) _ _ _)
    have hbefore : ((s.setReg Reg.TSN_PEND e).gptpFlag Fd.TSN_GPTP_STATUS_REFUSED 1).reg Reg.GPTP_REFUSE_CNT = s.reg Reg.GPTP_REFUSE_CNT :=
      (hother _ (by decide)).trans (State.reg_setReg_other h.regs (by decide))
    rw [hcount, State.fld_bump hflag (not_logReg_of (by decide) (by decide)) (fun b hb => ?_), State.fld, hbefore, State.fld]
    obtain rfl := Option.some.inj (satOf_gptpRefuse.symm.trans hb)
    decide

end

/-- Settles O59: the servo takes the error, refuses it, or keeps it for later. -/
theorem syncServo : Obligations.SyncServo := by
  unfold Obligations.SyncServo
  intro s p e hinv hup hport href
  have hinv' := State.syncSeen_inv hinv
  refine ⟨s.takeSync e, next_of_up hup (if_pos hport), fun hopen hsmall => ?taken, fun hopen hgreat => ?refused, fun hrefused => ?pending⟩
  case taken =>
    have htake : s.takeSync e = (s.syncSeen.setReg Reg.TSN_OFFSET (s.syncSeen.reg Reg.TSN_OFFSET + e)).rateFilter := by
      simp [State.takeSync, href, hopen, Nat.not_lt.mpr hsmall, State.syncSeen]
    have hset : (s.syncSeen.setReg Reg.TSN_OFFSET (s.syncSeen.reg Reg.TSN_OFFSET + e)).Inv := hinv'.setReg _ _
    rw [htake]
    constructor
    · rw [State.reg_rateFilter hset (by decide) (by decide), State.reg_setReg hinv'.regs, State.reg_syncSeen hinv (by decide)]
    · rw [State.gptpIs_congr (State.reg_rateFilter hset (by decide) (by decide)), State.gptpIs_congr (State.reg_setReg_other hinv'.regs (by decide)),
        State.refused_syncSeen hinv, hopen]
  case refused =>
    have htake : s.takeSync e = s.syncSeen.refuseSync e := by
      simp [State.takeSync, href, hopen, hgreat, State.syncSeen]
    obtain ⟨hoffset, hpend, hmark, hcount⟩ := State.refuseSync_effect hinv' e
    rw [htake]
    refine ⟨hoffset.trans (State.reg_syncSeen hinv (by decide)), hpend, hmark, ?_⟩
    rw [hcount, State.fld, State.reg_syncSeen hinv (by decide), State.fld]
  case pending =>
    have htake : s.takeSync e = (s.syncSeen.setReg Reg.TSN_PEND e).rateFilter := by
      simp [State.takeSync, href, hrefused, State.syncSeen]
    have hset : (s.syncSeen.setReg Reg.TSN_PEND e).Inv := hinv'.setReg _ _
    rw [htake]
    refine ⟨?_, ?_, ?_⟩
    · rw [State.reg_rateFilter hset (by decide) (by decide), State.reg_setReg hinv'.regs]
    · rw [State.reg_rateFilter hset (by decide) (by decide), State.reg_setReg_other hinv'.regs (by decide), State.reg_syncSeen hinv (by decide)]
    · rw [State.gptpIs_congr (State.reg_rateFilter hset (by decide) (by decide)), State.gptpIs_congr (State.reg_setReg_other hinv'.regs (by decide)),
        State.refused_syncSeen hinv, hrefused]

/-! ### The error pins (R459, R461) -/

/-- The level that the pins are driven to. -/
theorem State.level_drivePins {s : State} (h : s.Inv) :
    s.drivePins.bit Reg.SAFE_PIN Fd.SAFE_PIN_LEVEL = (s.pinDemand || decide (s.now < s.safe.minEnd)) := by
  rw [State.bit, State.drivePins, State.fld_setFld h.regs (by decide)]
  cases s.pinDemand || decide (s.now < s.safe.minEnd) <;> rfl

/-- Settles O52: each cause is one of the demands on the level. -/
theorem errorPinsFollow : Obligations.ErrorPinsFollow := by
  unfold Obligations.ErrorPinsFollow
  intro s hinv
  dsimp only
  have hlevel := State.level_drivePins hinv
  have hdemanded (hdemand : s.pinDemand = true) : s.drivePins.bit Reg.SAFE_PIN Fd.SAFE_PIN_LEVEL = true := State.drivePins_level hinv hdemand
  refine ⟨fun hforce => hdemanded (by simp [State.pinDemand, hforce]), fun hinjected => hdemanded (by simp [State.pinDemand, hinjected]),
    fun n hn hbit hcode => hdemanded (State.pinDemand_of_source hn (.inl ⟨hbit, hcode⟩)),
    fun n hn hbit hcode => hdemanded (State.pinDemand_of_source hn (.inr ⟨hbit, hcode⟩)), fun htime => by rw [hlevel, decide_eq_true htime, Bool.or_true],
    fun hfree hend => by rw [hlevel, hfree, decide_eq_false (Nat.not_lt.mpr hend)]; rfl, fun hup => ⟨?negative, ?positive⟩, fun hdown b => ?reset,
    fun b => rfl⟩
  case negative => exact if_pos hup
  case positive => exact if_pos hup
  case reset => exact if_neg (Bool.eq_false_iff.mp hdown)

end Sys2Proof.Machine

/-! SUPPORT. The removal of a tenant and its EPOCH (R502). -/

namespace Sys2Proof.Machine

section

variable (s : State) (k : Nat)

/-- A record of the journal changes no slot of a tenant. -/
theorem State.jWrite_trust (kind phase target spare arg : Nat) : (s.jWrite kind phase target spare arg).trust = s.trust := by
  unfold State.jWrite
  dsimp only
  split <;> rfl

/-- A record of the journal changes no EPOCH. -/
theorem State.jWrite_epochs (kind phase target spare arg : Nat) : (s.jWrite kind phase target spare arg).epochs = s.epochs := by
  unfold State.jWrite
  dsimp only
  split <;> rfl

theorem State.tenantStatus_trust (code : Nat) : (s.tenantStatus k code).trust = s.trust := by
  unfold State.tenantStatus
  dsimp only
  split <;> rfl

theorem State.tenantStatus_epochs (code : Nat) : (s.tenantStatus k code).epochs = s.epochs := by
  unfold State.tenantStatus
  dsimp only
  split <;> rfl

end

/-- The end of a removal that RPMB took. -/
def State.removed (s : State) (k : Nat) : State :=
  let t : State := { s with trust := { s.trust with removing := s.trust.removing.erase k } }
  let e := min 0xFFFFFFFF (s.epoch k + 1)
  ((((t.setEpoch k e).setTenant k { state := 3 }).jWrite jRemoval jDone k 0 0).auditLog .selvage .tenant 0 k (s.epoch k) e).tenantStatus k 0

theorem State.removed_epochs (s : State) (k : Nat) :
    (s.removed k).epochs = Sparse.put (fun _ => 0) k (min 0xFFFFFFFF (s.epoch k + 1)) s.epochs := by
  rw [State.removed, State.tenantStatus_epochs, State.auditLog_epochs, State.jWrite_epochs]
  rfl

theorem State.removed_tenants (s : State) (k : Nat) :
    (s.removed k).trust.tenants = Sparse.put (fun _ => {}) k { state := 3 } s.trust.tenants := by
  rw [State.removed, State.tenantStatus_trust, State.auditLog_trust, State.jWrite_trust]
  rfl

/-- Settles O54: the removal sets one EPOCH and one slot; CREATE stops at the test of EPOCH. -/
theorem removalAdvancesEpoch : Obligations.RemovalAdvancesEpoch := by
  unfold Obligations.RemovalAdvancesEpoch
  intro s k hinv hup htenants
  refine ⟨fun hremoving => ⟨s.removed k, next_of_up hup (if_pos hremoving), ?_, ?_, fun j hj => ?_⟩, fun o hk hgrant hinst hfresh hlive hworn => ?create⟩
  · rw [State.epoch, State.removed_epochs, Sparse.get_put_same hinv.epochs]
  · rw [State.tenant, State.removed_tenants, Sparse.get_put_same htenants]
  · rw [State.epoch, State.removed_epochs, Sparse.get_put_other hj hinv.epochs, State.epoch]
  case create =>
    have hslot : k % 256 = k := Nat.mod_eq_of_lt hk
    refine next_of_up hup ?_
    dsimp only
    rw [hslot]
    exact State.command_of hgrant ((if_neg (by rw [hinst]; decide)).trans ((if_neg hfresh).trans ((if_neg hlive).trans (if_pos hworn))))

end Sys2Proof.Machine

/-! SUPPORT. Where an event is recorded, and an audit entry chained. -/

namespace Sys2Proof.Machine

/-- Reading depends on memory alone. -/
theorem State.readBytes_congr {s t : State} (h : t.mem = s.mem) (a n : Nat) : t.readBytes a n = s.readBytes a n := by
  induction n generalizing a with
  | zero => rfl
  | succ n ih => rw [State.readBytes, State.readBytes, State.readByte, State.readByte, h, ih]

section

variable {s : State} {d : Nat} (n blk off unit : Nat)

/-- With room, at a running rim, an event is pushed. -/
theorem State.deliver_room (hroom : s.evqRoom d = true) (hruns : s.chanStop (s.evqNext d) 16 = none) :
    State.deliver (n + 1) s d blk off unit = s.evqPush d blk off unit := by
  simp only [State.deliver, hroom, hruns, if_true]

/-- At a stopped rim that was noted before, the refusal is counted. -/
theorem State.deliver_stopped {r : Nat} (hroom : s.evqRoom d = true) (hstop : s.chanStop (s.evqNext d) 16 = some r) (hnoted : s.sys.rimRaised.contains r = true)
    (hlt : s.fld Reg.PWR_RIM_REFUSE_CNT ⟨31, 0⟩ + 1 < 0xFFFFFFFF) :
    State.deliver (n + 1) s d blk off unit = s.setFld Reg.PWR_RIM_REFUSE_CNT ⟨31, 0⟩ (s.fld Reg.PWR_RIM_REFUSE_CNT ⟨31, 0⟩ + 1) := by
  have hcount : s.countOnly Reg.PWR_RIM_REFUSE_CNT =
      (s.setFld Reg.PWR_RIM_REFUSE_CNT ⟨31, 0⟩ (s.fld Reg.PWR_RIM_REFUSE_CNT ⟨31, 0⟩ + 1), false) :=
    (if_neg (by rw [cntMax]; omega)).trans (if_neg (by rw [cntMax]; omega))
  simp only [State.deliver, hroom, hstop, hnoted, hcount, if_true, Bool.false_eq_true, if_false]

/-- With no room the loss is counted. -/
theorem State.deliver_full (hfull : s.evqRoom d = false) (hlt : s.fld (Reg.GEN_EVQ_DROP_CNT d) Fd.GEN_EVQ_DROP_CNT_COUNT + 1 < 0xFFFFFFFF) :
    State.deliver (n + 1) s d blk off unit =
      s.setFld (Reg.GEN_EVQ_DROP_CNT d) Fd.GEN_EVQ_DROP_CNT_COUNT (s.fld (Reg.GEN_EVQ_DROP_CNT d) Fd.GEN_EVQ_DROP_CNT_COUNT + 1) := by
  rw [State.deliver, if_neg (by simp [hfull])]
  exact (if_neg (by rw [cntMax]; omega)).trans (if_neg (by rw [cntMax]; omega))

end

/-- The record of an event, at the head of its queue. -/
def State.eventRecord (s : State) (d blk off unit : Nat) : List Byte :=
  leBytes 8 s.now ++ leBytes 8 (eventW1 blk off unit (s.fld (Reg.EVQ_HEAD d) Fd.GEN_EVQ_HEAD_0_HEAD))

theorem State.eventRecord_length (s : State) (d blk off unit : Nat) : (s.eventRecord d blk off unit).length = 16 := by
  simp [State.eventRecord]

/-- The state with the record written and HEAD advanced. -/
def State.eventWritten (s : State) (d blk off unit : Nat) : State :=
  (s.writeBytes (s.evqNext d) (s.eventRecord d blk off unit)).setFld (Reg.EVQ_HEAD d) Fd.GEN_EVQ_HEAD_0_HEAD
    (s.fld (Reg.EVQ_HEAD d) Fd.GEN_EVQ_HEAD_0_HEAD + 1)

theorem State.evqPush_eq (s : State) (d blk off unit : Nat) : s.evqPush d blk off unit =
    if s.evqCount d = 0 then (s.eventWritten d blk off unit).emit (.evq d (s.fld (Reg.EVQ_TAIL d) Fd.GEN_EVQ_TAIL_0_VEC))
    else s.eventWritten d blk off unit := rfl

theorem State.eventWritten_effect {s : State} (h : s.Inv) (d blk off unit : Nat) :
    (s.eventWritten d blk off unit).readBytes (s.evqNext d) 16 = s.eventRecord d blk off unit ∧
    (s.eventWritten d blk off unit).fld (Reg.EVQ_HEAD d) Fd.GEN_EVQ_HEAD_0_HEAD = (s.fld (Reg.EVQ_HEAD d) Fd.GEN_EVQ_HEAD_0_HEAD + 1) % 2 ^ 32 ∧
    (s.eventWritten d blk off unit).out = s.out := by
  have hmem : (s.eventWritten d blk off unit).mem = (s.writeBytes (s.evqNext d) (s.eventRecord d blk off unit)).mem :=
    State.setFld_mem _ _ _ _
  have hregs := (h.writeBytes (s.evqNext d) (s.eventRecord d blk off unit)).regs
  have hread := State.readBytes_writeBytes (a := s.evqNext d) (bs := s.eventRecord d blk off unit) h.mem
  rw [State.eventRecord_length] at hread
  rw [State.readBytes_congr hmem, hread, State.eventWritten, State.fld_setFld hregs (by decide), State.setFld_out, State.writeBytes_out]
  exact ⟨rfl, rfl, rfl⟩

/-- What a push writes, where HEAD goes, and when the interrupt goes out. -/
theorem State.evqPush_effect {s : State} (h : s.Inv) (d blk off unit : Nat) :
    (s.evqPush d blk off unit).readBytes (s.evqNext d) 16 = s.eventRecord d blk off unit ∧
    (s.evqPush d blk off unit).fld (Reg.EVQ_HEAD d) Fd.GEN_EVQ_HEAD_0_HEAD = (s.fld (Reg.EVQ_HEAD d) Fd.GEN_EVQ_HEAD_0_HEAD + 1) % 2 ^ 32 ∧
    (s.evqPush d blk off unit).out = s.out ++ (if s.evqCount d = 0 then [.evq d (s.fld (Reg.EVQ_TAIL d) Fd.GEN_EVQ_TAIL_0_VEC)] else []) := by
  obtain ⟨hmem, hhead, hout⟩ := State.eventWritten_effect h d blk off unit
  rw [State.evqPush_eq]
  generalize s.eventWritten d blk off unit = t at hmem hhead hout
  generalize s.evqNext d = slot at hmem
  split
  · rw [State.readBytes_congr (State.emit_mem _ _), hmem]
    exact ⟨rfl, hhead, congrArg (· ++ _) hout⟩
  · exact ⟨hmem, hhead, hout.trans (List.append_nil _).symm⟩

/-- Settles O41: by the case of the queue and of the rim. -/
theorem eventIsRecorded : Obligations.EventIsRecorded := by
  unfold Obligations.EventIsRecorded
  intro s n d blk off unit hinv hd
  dsimp only
  refine ⟨fun hroom hruns => ?_, fun r hroom hstop hnoted hlt => State.deliver_stopped n blk off unit hroom hstop hnoted hlt,
    fun hfull hlt => State.deliver_full n blk off unit hfull hlt⟩
  rw [State.deliver_room n blk off unit hroom hruns]
  exact State.evqPush_effect hinv d blk off unit

/-! ### Audit entries (R526) -/

section

variable {s : State}

theorem State.auditRefresh_mem (s : State) : s.auditRefresh.mem = s.mem := by
  rw [State.auditRefresh, State.setFld_mem, State.setFld_mem, State.setFld_mem]

theorem State.auditRefresh_audit (s : State) : s.auditRefresh.audit = s.audit := by
  rw [State.auditRefresh, State.setFld_audit, State.setFld_audit, State.setFld_audit]

/-- Refreshing the occupancy sets AUDIT_STATUS alone. -/
theorem State.reg_auditRefresh (h : s.Inv) {k : Nat} (hk : k ≠ Reg.AUDIT_STATUS) : s.auditRefresh.reg k = s.reg k := by
  have hfull := h.setReg Reg.AUDIT_STATUS
  exact (State.reg_setReg_other ((hfull _).setReg _ _).regs hk).trans ((State.reg_setReg_other (hfull _).regs hk).trans (State.reg_setReg_other h.regs hk))

end

/-- The 128 bytes of an entry in the ring, and the CHAIN over them; AUDIT_HEAD stands yet. -/
def State.entryStored (s : State) (bs : List Byte) (chain : BitVec 512) : State :=
  (s.writeBytes (reservedBase + 128 * ((s.reg Reg.AUDIT_HEAD).toNat % auditSize)) bs).setChain chain

/-- The state after an entry, before NEAR is judged: its 128 bytes in the ring, the CHAIN, and AUDIT_HEAD advanced. -/
def State.entryWritten (s : State) (bs : List Byte) (chain : BitVec 512) : State :=
  State.auditRefresh ((s.entryStored bs chain).setReg Reg.AUDIT_HEAD (BitVec.ofNat 64 ((s.reg Reg.AUDIT_HEAD).toNat + 1)))

section

variable {s : State} (h : s.Inv) (bs : List Byte) (chain : BitVec 512)

theorem State.reg_entryStored (s : State) (k : Nat) : (s.entryStored bs chain).reg k = s.reg k := rfl

theorem State.mem_entryWritten (s : State) :
    (s.entryWritten bs chain).mem = (s.writeBytes (reservedBase + 128 * ((s.reg Reg.AUDIT_HEAD).toNat % auditSize)) bs).mem :=
  State.auditRefresh_mem _

include h

theorem State.entryStored_inv : (s.entryStored bs chain).Inv := by
  obtain ⟨hregs, hmem, hpoison, hknots, hepochs, hfloors, htop⟩ :=
    h.writeBytes (reservedBase + 128 * ((s.reg Reg.AUDIT_HEAD).toNat % auditSize)) bs
  exact ⟨hregs, hmem, hpoison, hknots, hepochs, hfloors, htop⟩

theorem State.readBytes_entryWritten :
    (s.entryWritten bs chain).readBytes (reservedBase + 128 * ((s.reg Reg.AUDIT_HEAD).toNat % auditSize)) bs.length = bs := by
  have hmem := State.mem_entryWritten bs chain s
  generalize reservedBase + 128 * ((s.reg Reg.AUDIT_HEAD).toNat % auditSize) = slot at hmem ⊢
  rw [State.readBytes_congr hmem, State.readBytes_writeBytes h.mem]

theorem State.head_entryWritten : (s.entryWritten bs chain).reg Reg.AUDIT_HEAD = BitVec.ofNat 64 ((s.reg Reg.AUDIT_HEAD).toNat + 1) := by
  have hstored := State.entryStored_inv h bs chain
  rw [State.entryWritten, State.reg_auditRefresh (hstored.setReg _ _) (by decide), State.reg_setReg hstored.regs]

theorem State.tail_entryWritten : (s.entryWritten bs chain).reg Reg.AUDIT_TAIL = s.reg Reg.AUDIT_TAIL := by
  have hstored := State.entryStored_inv h bs chain
  rw [State.entryWritten, State.reg_auditRefresh (hstored.setReg _ _) (by decide), State.reg_setReg_other hstored.regs (by decide),
    State.reg_entryStored]

/-- An entry raises the occupancy by one at most. -/
theorem State.auditOcc_entryWritten : (s.entryWritten bs chain).auditOcc ≤ s.auditOcc + 1 := by
  rw [State.auditOcc, State.head_entryWritten h, State.tail_entryWritten h, State.auditOcc, BitVec.toNat_ofNat]
  have := Nat.mod_le ((s.reg Reg.AUDIT_HEAD).toNat + 1) (2 ^ 64)
  omega

end

theorem State.chain_entryWritten (s : State) (bs : List Byte) (chain : BitVec 512) : (s.entryWritten bs chain).audit.chain = chain := by
  rw [State.entryWritten, State.auditRefresh_audit, State.setReg_audit]
  rfl

/-- Settles O42: below the crossing of NEAR nothing follows the entry. -/
theorem auditEntryIsChained : Obligations.AuditEntryIsChained := by
  unfold Obligations.AuditEntryIsChained
  intro s o kind result flags target old new hinv hopen hnear
  dsimp only
  generalize hbody : auditBody (s.reg Reg.AUDIT_HEAD).toNat s.now o kind result flags target old new = body
  generalize hchain : Config.sha512 (body ++ beBytes 64 s.audit.chain.toNat) = chain
  have hput : s.auditAs o kind result flags target old new = s.entryWritten (body ++ beBytes 64 chain.toNat) chain := by
    have hbelow : (decide ((s.entryWritten (body ++ beBytes 64 chain.toNat) chain).auditOcc < auditNear) || s.audit.near) = true := by
      have hocc := State.auditOcc_entryWritten hinv (body ++ beBytes 64 chain.toNat) chain
      obtain h | h := hnear
      · rw [h, Bool.or_true]
      · rw [decide_eq_true (Nat.lt_of_le_of_lt hocc h), Bool.true_or]
    rw [State.auditAs, hopen, if_neg (by decide)]
    unfold State.auditPut
    dsimp only
    rw [hbody, hchain]
    exact if_pos hbelow
  have hlength : (body ++ beBytes 64 chain.toNat).length = 128 := by simp [← hbody, auditBody_length]
  have hread := State.readBytes_entryWritten hinv (body ++ beBytes 64 chain.toNat) chain
  rw [hlength] at hread
  have hstated : leBytes 8 (s.reg Reg.AUDIT_HEAD).toNat ++ leBytes 8 s.now ++ leBytes 1 o.code ++ leBytes 1 kind.code ++ leBytes 1 result ++
      leBytes 1 flags ++ leBytes 4 0 ++ leBytes 8 target ++ leBytes 8 old ++ leBytes 8 new ++ leBytes 16 0 = body := hbody
  rw [hstated, hchain, hput]
  exact ⟨hread, State.chain_entryWritten s _ chain, State.head_entryWritten hinv _ chain⟩

end Sys2Proof.Machine

/-! SUPPORT. What the current allowance holds while requests are granted and charges given up. -/

namespace Sys2Proof.Machine

/-! ### Charges at a pacing level (R74) -/

theorem ceilDiv_eighths_le {n l : Nat} : ceilDiv (n * (8 - l)) 8 ≤ n := by
  rw [ceilDiv]
  have : n * (8 - l) ≤ n * 8 := Nat.mul_le_mul_left n (Nat.sub_le 8 l)
  omega

/-- A paced charge is no larger than the whole. -/
theorem pacedMa_le {full idle l : Nat} (h : idle ≤ full) : pacedMa full idle l ≤ full := by
  have := ceilDiv_eighths_le (n := full - idle) (l := l)
  rw [pacedMa]
  omega

theorem Grant.coreNet_le (g : Grant) (l : Nat) : g.coreNet l ≤ g.req.coreMa :=
  Nat.le_trans (Nat.sub_le _ _) (pacedMa_le (Nat.min_le_right _ _))

theorem Grant.dramAt_le (g : Grant) (l : Nat) : g.dramAt l ≤ g.req.dramMa := pacedMa_le (Nat.zero_le _)

/-! ### The controller with one grant more -/

/-- The controller once a request of a holder without a grant is held. -/
def Alw.granted (a : Alw) (r : AlwReq) : Alw := { a with waiting := a.waiting.erase r, grants := a.grants ++ [{ req := r }] }

/-- The controller while a request ramps in, until an instant. -/
def Alw.ramping (a : Alw) (r : AlwReq) (ends : Nat) : Alw := { a with waiting := a.waiting.erase r, ramp := some ⟨some r, ends⟩ }

section

variable {a : Alw} {r : AlwReq}

theorem Alw.rise_of_new (h : a.grantOf r.holder = none) : a.rise r = (r.coreMa, r.dramMa) := by rw [Alw.rise, h]

/-- No grant is of the holder: the request is held as a new one. -/
theorem holdIn_new (h : a.grantOf r.holder = none) (hlift : r.lift = false) : holdIn a.grants r = a.grants ++ [{ req := r }] := by
  have hany : a.grants.any (fun g => g.req.holder == r.holder) = false := by
    rw [List.any_eq_false]
    exact List.find?_eq_none.mp h
  rw [holdIn, hlift, hany]
  rfl

/-- Another holder's rise is as before. -/
theorem Alw.rise_granted_other {q : AlwReq} (h : q.holder ≠ r.holder) : (a.granted r).rise q = a.rise q := by
  have hgrant : (a.granted r).grantOf q.holder = a.grantOf q.holder := by
    have hmiss : (r.holder == q.holder) = false := beq_false_of_ne (Ne.symm h)
    simp only [Alw.granted, Alw.grantOf, List.find?_append, List.find?_singleton, hmiss, Bool.false_eq_true, if_false, Option.or_none]
  rw [Alw.rise, hgrant]
  rfl

theorem Alw.rampMa_granted (h : ∀ q, a.ramp.bind (fun x => x.req) = some q → q.holder ≠ r.holder) : (a.granted r).rampMa = a.rampMa := by
  change (match a.ramp.bind (fun x => x.req) with | some q => (a.granted r).rise q | none => (0, 0)) =
    (match a.ramp.bind (fun x => x.req) with | some q => a.rise q | none => (0, 0))
  cases hq : a.ramp.bind (fun x => x.req) with
  | none => rfl
  | some q => exact Alw.rise_granted_other (h q hq)

/-- A new grant adds its own charges to those held. -/
theorem Alw.sums_granted (h : ∀ q, a.ramp.bind (fun x => x.req) = some q → q.holder ≠ r.holder) :
    (a.granted r).coreSum = a.coreSum + Grant.coreNet { req := r } (a.levelOf { req := r }) ∧
    (a.granted r).dramSum = a.dramSum + Grant.dramAt { req := r } (a.levelOf { req := r }) := by
  have hcore : ((a.granted r).grants.map (fun g => g.coreNet ((a.granted r).levelOf g))).sum =
      (a.grants.map (fun g => g.coreNet (a.levelOf g))).sum + Grant.coreNet { req := r } (a.levelOf { req := r }) := by
    simp [Alw.granted, Alw.levelOf]
  have hdram : ((a.granted r).grants.map (fun g => g.dramAt ((a.granted r).levelOf g))).sum =
      (a.grants.map (fun g => g.dramAt (a.levelOf g))).sum + Grant.dramAt { req := r } (a.levelOf { req := r }) := by
    simp [Alw.granted, Alw.levelOf]
  rw [Alw.coreSum, hcore, Alw.coreSum, Alw.dramSum, hdram, Alw.dramSum, Alw.rampMa_granted h]
  omega

/-- A ramp in counts whole from its start (log 67). -/
theorem Alw.sums_ramping (h : a.ramp = none) (ends : Nat) :
    (a.ramping r ends).coreSum = a.coreSum + (a.rise r).1 ∧ (a.ramping r ends).dramSum = a.dramSum + (a.rise r).2 := by
  have hnone : a.rampMa = (0, 0) := by rw [Alw.rampMa, h]; rfl
  have hsome : (a.ramping r ends).rampMa = a.rise r := rfl
  rw [Alw.coreSum, hsome, Alw.coreSum, Alw.dramSum, hsome, Alw.dramSum, hnone]
  exact ⟨rfl, rfl⟩

/-- Once the ramp has reached its end it counts no more. -/
theorem Alw.sums_ramp_none (h : a.ramp = none) (ends : Nat) :
    ({ a.ramping r ends with ramp := none } : Alw).coreSum = a.coreSum ∧ ({ a.ramping r ends with ramp := none } : Alw).dramSum = a.dramSum := by
  have hnone : a.rampMa = (0, 0) := by rw [Alw.rampMa, h]; rfl
  rw [Alw.coreSum, Alw.coreSum, Alw.dramSum, Alw.dramSum, hnone]
  exact ⟨rfl, rfl⟩

end

/-! ### What ramps have still to take down -/

/-- At its start nothing of a fall is taken down. -/
theorem State.fallLeft_addFall (s : State) (ma : Nat) : (s.addFall ma).fallLeft = s.fallLeft + ma := by
  change s.fallLeft + ma - (s.time.toNat - s.time.toNat) * rampRate / 2 ^ 32 = _
  rw [Nat.sub_self, Nat.zero_mul, Nat.zero_div, Nat.sub_zero]

/-- Each ns takes down 40 mA of a fall. -/
theorem State.fallLeft_addFall_later (s : State) (ma d : Nat) (h : s.time.toNat + d * 2 ^ 32 < 2 ^ 96) :
    State.fallLeft { s.addFall ma with time := s.time + BitVec.ofNat 96 (d * 2 ^ 32) } = s.fallLeft + ma - 40 * d := by
  change s.fallLeft + ma - ((s.time + BitVec.ofNat 96 (d * 2 ^ 32)).toNat - s.time.toNat) * rampRate / 2 ^ 32 = _
  have hsum : (s.time + BitVec.ofNat 96 (d * 2 ^ 32)).toNat = s.time.toNat + d * 2 ^ 32 := by
    rw [BitVec.toNat_add, BitVec.toNat_ofNat, Nat.mod_eq_of_lt (a := d * 2 ^ 32) (by omega), Nat.mod_eq_of_lt h]
  rw [hsum, rampRate]
  omega

/-! ### Giving up and taking charges -/

section

variable {s : State} {r : AlwReq}

/-- The controller once the grants, and the ramp, that a predicate names are given up. -/
def Alw.dropped (a : Alw) (p : Grant → Bool) : Alw :=
  { a with
    grants := a.grants.filter (fun g => !p g)
    ramp := if (a.ramp.bind (·.req)).any (fun r => p { req := r }) then none else a.ramp }

/-- What is given up stays held at the instant of its release, and is taken down at 40 A/µs. -/
theorem State.dropGrants_held (s : State) (p : Grant → Bool) (d : Nat) (h : s.time.toNat + d * 2 ^ 32 < 2 ^ 96) :
    s.heldCore ≤ (s.dropGrants p).heldCore ∧
    State.heldCore { s.dropGrants p with time := s.time + BitVec.ofNat 96 (d * 2 ^ 32) } + min (40 * d) (s.dropGrants p).fallLeft =
      (s.dropGrants p).heldCore := by
  have hdrop : s.dropGrants p = { s with alw := s.alw.dropped p }.addFall (s.alw.coreSum - (s.alw.dropped p).coreSum) := rfl
  have hfall : State.fallLeft { s with alw := s.alw.dropped p } = s.fallLeft := rfl
  generalize s.alw.dropped p = a at hdrop hfall
  have hnow := State.fallLeft_addFall { s with alw := a } (s.alw.coreSum - a.coreSum)
  have hlater := State.fallLeft_addFall_later { s with alw := a } (s.alw.coreSum - a.coreSum) d h
  rw [hdrop]
  change s.alw.coreSum + s.fallLeft ≤ a.coreSum + State.fallLeft _ ∧
    a.coreSum + State.fallLeft _ + min (40 * d) (State.fallLeft _) = a.coreSum + State.fallLeft _
  rw [hfall] at hnow hlater
  rw [hnow]
  refine ⟨by omega, ?_⟩
  refine (congrArg (fun n => a.coreSum + n + _) hlater).trans ?_
  omega

/-- A new grant of a request is held at once: nothing ramps out. -/
theorem State.takeHold_new (hnew : s.alw.grantOf r.holder = none) (hlift : r.lift = false)
    (hramp : ∀ q, s.alw.ramp.bind (fun x => x.req) = some q → q.holder ≠ r.holder) :
    (s.takeHold r).heldCore = s.heldCore + Grant.coreNet { req := r } (s.alw.levelOf { req := r }) ∧
    (s.takeHold r).heldDram = s.heldDram + Grant.dramAt { req := r } (s.alw.levelOf { req := r }) ∧
    (s.takeHold r).holdsGrant r.holder = true := by
  obtain ⟨hcore, hdram⟩ := Alw.sums_granted hramp
  have htake : s.takeHold r = { s with alw := s.alw.granted r }.addFall (s.alw.coreSum - (s.alw.granted r).coreSum) := by
    rw [State.takeHold, holdIn_new hnew hlift]
    rfl
  have hleft := State.fallLeft_addFall { s with alw := s.alw.granted r } (s.alw.coreSum - (s.alw.granted r).coreSum)
  rw [htake]
  refine ⟨?_, hdram, ?_⟩
  · change (s.alw.granted r).coreSum + State.fallLeft _ = s.alw.coreSum + s.fallLeft + _
    rw [hleft]
    change _ + (s.fallLeft + _) = _
    omega
  · change (s.alw.grants ++ [({ req := r } : Grant)]).any (fun g => g.req.holder == r.holder) = true
    rw [List.any_append, List.any_cons, beq_self_eq_true, Bool.true_or, Bool.or_true]

/-- What the controller may grant fits on both rails, and ramps in on the core rail alone. -/
theorem State.mayGrant_iff : s.mayGrant r = true ↔
    (s.alw.ramp = none ∨ (s.alw.rise r).1 = 0) ∧ s.heldCore + (s.alw.rise r).1 ≤ s.budgetCore ∧ s.heldDram + (s.alw.rise r).2 ≤ s.budgetDram ∧
      s.alwOver = false := by
  simp [State.mayGrant, State.alwFits, and_assoc]

theorem State.startGrant_ramps (h : (s.alw.rise r).1 ≠ 0) :
    s.startGrant r = { s with alw := s.alw.ramping r (s.time.toNat + rampTime (s.alw.rise r).1) } := if_neg h

theorem State.startGrant_atOnce (h : (s.alw.rise r).1 = 0) : s.startGrant r = s.takeHold r := if_pos h

theorem State.takeHold_alw (s : State) (r : AlwReq) : ∃ a, s.takeHold r = { s with alw := a } := ⟨_, rfl⟩

theorem State.startGrant_alw (s : State) (r : AlwReq) : s.startGrant r = { s with alw := (s.startGrant r).alw } := by
  by_cases h : (s.alw.rise r).1 = 0
  · obtain ⟨a, ha⟩ := State.takeHold_alw s r
    rw [State.startGrant_atOnce h, ha]
  · rw [State.startGrant_ramps h]

/-- A ramp takes one µs for each 40 A. -/
theorem rampTime_eq (ma : Nat) : rampTime ma = (ma * 2 ^ 32 + 39) / 40 := by
  rw [rampTime, ceilDiv, rampRate]
  exact congrArg (· / 40) (Nat.add_sub_assoc (by decide) _)

/-- While the charge ramps in it is held whole, for one µs to each 40 A. -/
theorem State.startGrant_ramp_held (h : s.mayGrant r = true) (hrise : (s.alw.rise r).1 ≠ 0) :
    (s.startGrant r).heldCore = s.heldCore + (s.alw.rise r).1 ∧ (s.startGrant r).heldDram = s.heldDram + (s.alw.rise r).2 ∧
    (s.startGrant r).alw.ramp = some ⟨some r, s.time.toNat + ((s.alw.rise r).1 * 2 ^ 32 + 39) / 40⟩ := by
  obtain ⟨hramp, -, -, -⟩ := State.mayGrant_iff.mp h
  obtain ⟨hcore, hdram⟩ := Alw.sums_ramping (r := r) (hramp.resolve_right hrise) (s.time.toNat + rampTime (s.alw.rise r).1)
  rw [State.startGrant_ramps hrise, ← rampTime_eq]
  refine ⟨?_, hdram, rfl⟩
  change (s.alw.ramping r _).coreSum + s.fallLeft = s.alw.coreSum + s.fallLeft + _
  omega

/-- When the ramp has reached its end the holdings are no larger. -/
theorem State.startGrant_ramp_ends (h : s.mayGrant r = true) (hrise : (s.alw.rise r).1 ≠ 0) (hnew : s.alw.grantOf r.holder = none)
    (hlift : r.lift = false) :
    let t := s.startGrant r
    let u := State.takeHold { t with alw := { t.alw with ramp := none } } r
    u.heldCore ≤ t.heldCore ∧ u.heldDram ≤ t.heldDram ∧ u.holdsGrant r.holder = true := by
  obtain ⟨hcore, hdram, -⟩ := State.startGrant_ramp_held h hrise
  obtain ⟨hramp, -, -, -⟩ := State.mayGrant_iff.mp h
  dsimp only
  rw [hcore, hdram, State.startGrant_ramps hrise]
  obtain ⟨hcoreEnd, hdramEnd⟩ := Alw.sums_ramp_none (r := r) (hramp.resolve_right hrise) (s.time.toNat + rampTime (s.alw.rise r).1)
  generalize hb : ({ s.alw.ramping r (s.time.toNat + rampTime (s.alw.rise r).1) with ramp := none } : Alw) = b at *
  have hbnew : b.grantOf r.holder = none := by rw [← hb]; exact hnew
  have hbramp : ∀ q, b.ramp.bind (fun x => x.req) = some q → q.holder ≠ r.holder := by rw [← hb]; exact fun _ h => nomatch h
  have hbleft : State.fallLeft { s with alw := b } = s.fallLeft := by rw [← hb]; rfl
  obtain ⟨hucore, hudram, hholds⟩ := State.takeHold_new (s := { s with alw := b }) hbnew hlift hbramp
  have hnet := Grant.coreNet_le { req := r } (b.levelOf { req := r })
  have hat := Grant.dramAt_le { req := r } (b.levelOf { req := r })
  have hheldCore : State.heldCore { s with alw := b } = s.heldCore := by rw [State.heldCore, hbleft, hcoreEnd, State.heldCore]
  have hheldDram : State.heldDram { s with alw := b } = s.heldDram := hdramEnd
  rw [Alw.rise_of_new hnew]
  refine ⟨?_, ?_, hholds⟩
  · rw [hucore, hheldCore]
    exact Nat.add_le_add_left hnet _
  · rw [hudram, hheldDram]
    exact Nat.add_le_add_left hat _

end

/-- Settles O47: by whether the request adds to the core rail; a fall is taken down at `rampRate`. -/
theorem allowanceNeverExceeded : Obligations.AllowanceNeverExceeded := by
  unfold Obligations.AllowanceNeverExceeded
  refine ⟨fun s p d h => State.dropGrants_held s p d h, fun s r hmay => ?_⟩
  obtain ⟨-, hcore, hdram, -⟩ := State.mayGrant_iff.mp hmay
  dsimp only
  refine ⟨State.startGrant_alw s r, fun hrise => ?_, fun hnew hlift hramp => ⟨fun hrise => ?_, fun hrise =>
    State.startGrant_ramp_ends hmay hrise hnew hlift⟩⟩
  · obtain ⟨hheldCore, hheldDram, hends⟩ := State.startGrant_ramp_held hmay hrise
    rw [hheldCore, hheldDram]
    exact ⟨⟨hcore, hdram⟩, hends⟩
  · obtain ⟨hheldCore, hheldDram, hholds⟩ := State.takeHold_new hnew hlift hramp
    have hnet := Grant.coreNet_le { req := r } (s.alw.levelOf { req := r })
    have hat := Grant.dramAt_le { req := r } (s.alw.levelOf { req := r })
    rw [Alw.rise_of_new hnew] at hcore hdram hrise
    rw [State.startGrant_atOnce (by rw [Alw.rise_of_new hnew]; exact hrise), hheldCore, hheldDram]
    exact ⟨⟨Nat.le_trans (Nat.add_le_add_left hnet _) hcore, Nat.le_trans (Nat.add_le_add_left hat _) hdram⟩, hholds⟩

end Sys2Proof.Machine

/-! SUPPORT. Rounding to nearest, and the codes of the floating formats. -/

namespace Sys2Proof.Machine

/-! ### Rounding (R133) -/

/-- A quotient rounded to nearest, ties to even. -/
theorem roundAt_nearest {q e : Int} (m : Nat) (h : e < q) :
    let d := 2 ^ (q - e).toNat
    let a := roundAt q m e
    2 * m ≤ 2 * d * a + d ∧ 2 * d * a ≤ 2 * m + d ∧ (2 * m = 2 * d * a + d ∨ 2 * d * a = 2 * m + d → a % 2 = 0) := by
  dsimp only
  have hround : roundAt q m e = if 2 ^ (q - e).toNat < 2 * (m % 2 ^ (q - e).toNat) ∨ (2 * (m % 2 ^ (q - e).toNat) = 2 ^ (q - e).toNat ∧
      m / 2 ^ (q - e).toNat % 2 = 1) then m / 2 ^ (q - e).toNat + 1 else m / 2 ^ (q - e).toNat := if_neg (by omega)
  rw [hround]
  have hd : 0 < 2 ^ (q - e).toNat := Nat.two_pow_pos _
  generalize 2 ^ (q - e).toNat = d at *
  have hm : d * (m / d) + m % d = m := Nat.div_add_mod m d
  have hr : m % d < d := Nat.mod_lt m hd
  generalize m / d = a at *
  generalize m % d = r at *
  split
  case isTrue hup =>
    have hmul : 2 * d * (a + 1) = 2 * (d * a) + 2 * d := by rw [Nat.mul_succ, Nat.mul_assoc]
    omega
  case isFalse hdown =>
    have hmul : 2 * d * a = 2 * (d * a) := Nat.mul_assoc 2 d a
    omega

/-! ### The fields of a code (R128) -/

section

variable {f : FloatFmt} {c : Nat}

/-- Exponent and mantissa make up the code without its sign. -/
theorem FloatFmt.fields_eq (f : FloatFmt) (c : Nat) : c / 2 ^ f.mb % 2 ^ f.eb * 2 ^ f.mb + c % 2 ^ f.mb = c % f.sign := by
  have hsign : f.sign = 2 ^ f.mb * 2 ^ f.eb := by rw [FloatFmt.sign, Nat.add_comm, Nat.pow_add]
  rw [hsign, ← Nat.mod_mul_right_div_self, ← Nat.mod_mul_right_mod c (2 ^ f.mb) (2 ^ f.eb)]
  exact Nat.div_add_mod' _ _

/-- The sign's weight and the rest make up the code. -/
theorem FloatFmt.sign_add (h : c < 2 * f.sign) : (c / f.sign % 2 == 1).toNat * f.sign + c % f.sign = c := by
  have hbit : c / f.sign < 2 := Nat.div_lt_of_lt_mul (by omega)
  have hbits : ∀ b, b < 2 → (b % 2 == 1).toNat = b := by decide
  have hnat := hbits _ hbit
  rw [hnat]
  exact Nat.div_add_mod' c f.sign

/-- A finite code's value, by its exponent. -/
theorem FloatFmt.decode_finite (hfin : (f.decode c).isFin = true) : f.decode c =
    if c / 2 ^ f.mb % 2 ^ f.eb = 0 then
      (if f.flush then .fin (c / f.sign % 2 == 1) 0 0 else .fin (c / f.sign % 2 == 1) (c % 2 ^ f.mb) (1 - (f.bias : Int) - f.mb))
    else .fin (c / f.sign % 2 == 1) (2 ^ f.mb + c % 2 ^ f.mb) (((c / 2 ^ f.mb % 2 ^ f.eb : Nat) : Int) - f.bias - f.mb) := by
  unfold FloatFmt.decode at hfin ⊢
  dsimp only at hfin ⊢
  by_cases hspecial : f.ieee = true ∧ c / 2 ^ f.mb % 2 ^ f.eb = 2 ^ f.eb - 1
  · rw [if_pos hspecial] at hfin
    split at hfin <;> cases hfin
  · rw [if_neg hspecial] at hfin ⊢
    by_cases hnan : f = e4m3 ∧ c % 128 = 0x7F
    · rw [if_pos hnan] at hfin
      cases hfin
    · rw [if_neg hnan]

/-- A finite code below the smallest normal one, where subnormals are kept. -/
theorem FloatFmt.decode_subnormal (hfin : (f.decode c).isFin = true) (hex : c / 2 ^ f.mb % 2 ^ f.eb = 0) (hflush : f.flush = false) :
    f.decode c = .fin (c / f.sign % 2 == 1) (c % 2 ^ f.mb) (1 - (f.bias : Int) - f.mb) := by
  rw [FloatFmt.decode_finite hfin, if_pos hex, hflush, if_neg Bool.false_ne_true]

/-- A finite code with an exponent. -/
theorem FloatFmt.decode_normal (hfin : (f.decode c).isFin = true) (hex : c / 2 ^ f.mb % 2 ^ f.eb ≠ 0) :
    f.decode c = .fin (c / f.sign % 2 == 1) (2 ^ f.mb + c % 2 ^ f.mb) (((c / 2 ^ f.mb % 2 ^ f.eb : Nat) : Int) - f.bias - f.mb) := by
  rw [FloatFmt.decode_finite hfin, if_neg hex]

/-! ### A value that has a code is rounded to it -/

theorem roundAt_self (e : Int) (m : Nat) : roundAt e m e = m := by
  rw [roundAt, if_pos (Int.le_refl e), shl, Int.sub_self]
  exact Nat.mul_one m

/-- A subnormal's code is its mantissa. -/
theorem FloatFmt.magnitude_subnormal {man : Nat} (hman : man < 2 ^ f.mb) (hflush : f.flush = false) :
    f.magnitude man (1 - (f.bias : Int) - f.mb) = man := by
  by_cases hzero : man = 0
  · rw [FloatFmt.magnitude, if_pos hzero, hzero]
  · have hlog : Nat.log2 man < f.mb := (Nat.log2_lt hzero).mpr hman
    have hmax : max (topBit man (1 - (f.bias : Int) - f.mb) - f.mb) (1 - (f.bias : Int) - f.mb) = 1 - (f.bias : Int) - f.mb :=
      Int.max_eq_right (by rw [topBit]; omega)
    rw [FloatFmt.magnitude, if_neg hzero]
    dsimp only
    rw [hmax, roundAt_self, Int.sub_self, hflush, if_neg (fun h => nomatch h.1)]
    simp

/-- A normal's code is its exponent and its mantissa. -/
theorem FloatFmt.magnitude_normal {man ex : Nat} (hman : man < 2 ^ f.mb) (hex : ex ≠ 0) :
    f.magnitude (2 ^ f.mb + man) ((ex : Int) - f.bias - f.mb) = ex * 2 ^ f.mb + man := by
  have hpos := Nat.two_pow_pos f.mb
  have hlog : Nat.log2 (2 ^ f.mb + man) = f.mb := (Nat.log2_eq_iff (by omega)).mpr ⟨by omega, by rw [Nat.pow_succ]; omega⟩
  have hmax : max (topBit (2 ^ f.mb + man) ((ex : Int) - f.bias - f.mb) - f.mb) (1 - (f.bias : Int) - f.mb) = (ex : Int) - f.bias - f.mb := by
    rw [topBit, hlog]
    omega
  have hsteps : ((ex : Int) - f.bias - f.mb - (1 - (f.bias : Int) - f.mb)).toNat = ex - 1 := by omega
  obtain ⟨n, rfl⟩ : ∃ n, ex = n + 1 := ⟨ex - 1, by omega⟩
  have hcode : n * 2 ^ f.mb + (2 ^ f.mb + man) = (n + 1) * 2 ^ f.mb + man := by rw [Nat.succ_mul, Nat.add_assoc]
  have hnot : ¬ (f.flush = true ∧ (n + 1) * 2 ^ f.mb + man < 2 ^ f.mb) := fun h => by
    have := Nat.le_mul_of_pos_left (2 ^ f.mb) (Nat.succ_pos n)
    omega
  rw [FloatFmt.magnitude, if_neg (by omega)]
  dsimp only
  rw [hmax, roundAt_self, hsteps, Nat.add_sub_cancel, hcode, if_neg hnot]

/-! ### No finite code is beyond the largest -/

/-- What the six formats share: the largest finite code is a normal one, and every finite code is at most that. -/
structure FloatFmt.Topped (f : FloatFmt) : Prop where
  decodeTop : f.decode f.top = .fin false (2 ^ f.mb + f.top % 2 ^ f.mb) ((f.top / 2 ^ f.mb : Nat) - (f.bias : Int) - f.mb)
  normal : 1 ≤ f.top / 2 ^ f.mb
  bound : ∀ c, (f.decode c).isFin = true → c % f.sign ≤ f.top

/-- A magnitude of a smaller exponent, or of the same and no greater significand, is no greater. -/
theorem Num.le_fin {m n : Nat} {e q : Int} (h : e ≤ q) (hle : m ≤ n * 2 ^ (q - e).toNat) : (Num.fin false m e).le (.fin false n q) = true := by
  have hm : shl m (e - e) = m := by rw [shl, Int.sub_self]; exact Nat.mul_one m
  have hs : ∀ k : Nat, sgn false k = (k : Int) := fun k => rfl
  simp only [Num.le, Int.min_eq_left h, hm, hs, decide_eq_true_eq]
  exact_mod_cast hle

/-- A significand of a smaller code is within the largest finite one. -/
theorem FloatFmt.Topped.le_top (h : f.Topped) {m ex : Nat} (hsig : m ≤ 2 ^ f.mb + (2 ^ f.mb - 1)) (hlow : ex < f.top / 2 ^ f.mb ∨
    (ex = f.top / 2 ^ f.mb ∧ m ≤ 2 ^ f.mb + f.top % 2 ^ f.mb)) :
    (Num.fin false m ((ex : Int) - f.bias - f.mb)).le (f.decode f.top) = true := by
  rw [h.decodeTop]
  refine Num.le_fin (by omega) ?_
  obtain hless | ⟨rfl, hman⟩ := hlow
  · obtain ⟨k, hk⟩ : ∃ k, ((f.top / 2 ^ f.mb : Nat) - (f.bias : Int) - f.mb - ((ex : Int) - f.bias - f.mb)).toNat = k + 1 :=
      ⟨f.top / 2 ^ f.mb - ex - 1, by omega⟩
    have hone := Nat.two_pow_pos k
    have htwice : (2 ^ f.mb + f.top % 2 ^ f.mb) * 2 ≤ (2 ^ f.mb + f.top % 2 ^ f.mb) * 2 ^ (k + 1) :=
      Nat.mul_le_mul_left _ (by rw [Nat.pow_succ]; omega)
    rw [hk]
    omega
  · rw [Int.sub_self]
    exact Nat.le_trans hman (Nat.le_of_eq (Nat.mul_one _).symm)

/-- A finite code that its format keeps converts to itself. -/
theorem FloatFmt.Topped.convert_decode (h : f.Topped) (k : Nat) (hlt : c < 2 * f.sign) (hfin : (f.decode c).isFin = true)
    (hkept : f.flush = true → 2 ^ f.mb ≤ c % f.sign) : f.convert k (f.decode c) = (c, false) := by
  have hfields := f.fields_eq c
  have htop := h.bound c hfin
  have hman : c % 2 ^ f.mb < 2 ^ f.mb := Nat.mod_lt _ (Nat.two_pow_pos _)
  have hnormal := h.normal
  have hdone : ∀ {m e}, f.decode c = .fin (c / f.sign % 2 == 1) m e → f.magnitude m e = c % f.sign →
      (Num.fin false m e).le (f.decode f.top) = true → f.convert k (f.decode c) = (c, false) := by
    intro m e hdec hmag hle
    rw [hdec, FloatFmt.convert, hmag, hle, Nat.min_eq_right htop, FloatFmt.sign_add hlt]
    rfl
  by_cases hex : c / 2 ^ f.mb % 2 ^ f.eb = 0
  · rw [hex, Nat.zero_mul, Nat.zero_add] at hfields
    have hflush : f.flush = false := Bool.eq_false_iff.mpr fun hf => by have := hkept hf; omega
    have hlow : (1 - (f.bias : Int) - f.mb) = ((1 : Nat) : Int) - f.bias - f.mb := rfl
    refine hdone (FloatFmt.decode_subnormal hfin hex hflush) ((FloatFmt.magnitude_subnormal hman hflush).trans hfields) ?_
    rw [hlow]
    exact h.le_top (by omega) (by omega)
  · refine hdone (FloatFmt.decode_normal hfin hex) ((FloatFmt.magnitude_normal hman hex).trans hfields) (h.le_top (by omega) ?_)
    rw [← hfields] at htop
    generalize c / 2 ^ f.mb % 2 ^ f.eb = ex at *
    have htopEq := Nat.div_add_mod' f.top (2 ^ f.mb)
    obtain hless | heq | hmore := Nat.lt_trichotomy ex (f.top / 2 ^ f.mb)
    · exact .inl hless
    · rw [heq] at htop
      exact .inr ⟨heq, by omega⟩
    · have := Nat.mul_le_mul_right (2 ^ f.mb) hmore
      rw [Nat.succ_mul] at this
      have := Nat.mod_lt f.top (Nat.two_pow_pos f.mb)
      omega

end

/-! ### The six formats -/

/-- An IEEE format's finite codes end below its infinities. -/
theorem FloatFmt.bound_of_ieee {f : FloatFmt} (h : f.ieee = true) (htop : f.top + 1 = (2 ^ f.eb - 1) * 2 ^ f.mb) (c : Nat)
    (hfin : (f.decode c).isFin = true) : c % f.sign ≤ f.top := by
  have hex : c / 2 ^ f.mb % 2 ^ f.eb ≠ 2 ^ f.eb - 1 := by
    intro heq
    unfold FloatFmt.decode at hfin
    dsimp only at hfin
    rw [if_pos ⟨h, heq⟩] at hfin
    split at hfin <;> cases hfin
  have hlt : c / 2 ^ f.mb % 2 ^ f.eb < 2 ^ f.eb := Nat.mod_lt _ (Nat.two_pow_pos _)
  have hman : c % 2 ^ f.mb < 2 ^ f.mb := Nat.mod_lt _ (Nat.two_pow_pos _)
  rw [← f.fields_eq c]
  generalize c / 2 ^ f.mb % 2 ^ f.eb = ex at *
  have hmul : (ex + 1) * 2 ^ f.mb ≤ (2 ^ f.eb - 1) * 2 ^ f.mb := Nat.mul_le_mul_right _ (by omega)
  rw [Nat.succ_mul] at hmul
  omega

theorem fp4_topped : fp4.Topped := ⟨by decide, by decide, fun c _ => Nat.le_of_lt_succ (Nat.mod_lt c (by decide))⟩

/-- E4M3 has one code without a value beside its finite ones. -/
theorem e4m3_topped : e4m3.Topped := by
  refine ⟨by decide, by decide, fun c hfin => ?_⟩
  have hnan : c % 128 ≠ 0x7F := by
    intro heq
    unfold FloatFmt.decode at hfin
    dsimp only at hfin
    rw [if_neg (fun h => nomatch h.1), if_pos ⟨rfl, heq⟩] at hfin
    cases hfin
  change c % 128 ≤ 126
  omega

theorem e5m2_topped : e5m2.Topped := ⟨by decide, by decide, FloatFmt.bound_of_ieee rfl (by decide)⟩
theorem fp16_topped : fp16.Topped := ⟨by decide, by decide, FloatFmt.bound_of_ieee rfl (by decide)⟩
theorem bf16_topped : bf16.Topped := ⟨by decide, by decide, FloatFmt.bound_of_ieee rfl (by decide)⟩
theorem fp32_topped : fp32.Topped := ⟨by decide, by decide, FloatFmt.bound_of_ieee rfl (by decide)⟩

/-- Settles O49: by the fields of a code; subnormals and normals apart. -/
theorem formatsRoundNearest : Obligations.FormatsRoundNearest := by
  unfold Obligations.FormatsRoundNearest
  refine ⟨fun q e m h => roundAt_nearest m h, fun f hf c k hlt hfin hkept => ?_⟩
  have htopped : ∀ f ∈ [fp4, e4m3, e5m2, fp16, bf16, fp32], f.Topped := by
    simp only [List.forall_mem_cons, List.not_mem_nil, false_implies, implies_true, and_true]
    exact ⟨fp4_topped, e4m3_topped, e5m2_topped, fp16_topped, bf16_topped, fp32_topped⟩
  exact (htopped f hf).convert_decode k hlt hfin hkept

end Sys2Proof.Machine

/-! SUPPORT. What the operations of a start leave as it is: Selvage's store and tables, and that the device runs. -/

namespace Sys2Proof.Machine

/-! ### Choices and folds -/

@[simp] theorem State.trust_ite (c : Prop) [Decidable c] (s t : State) : (if c then s else t).trust = if c then s.trust else t.trust :=
  apply_ite _ _ _ _

@[simp] theorem State.sys_up_ite (c : Prop) [Decidable c] (s t : State) : (if c then s else t).sys.up = if c then s.sys.up else t.sys.up :=
  apply_ite (fun s : State => s.sys.up) _ _ _

@[simp] theorem State.foldl_trust_up {α : Type} {f : State → α → State} (h : ∀ s x, (f s x).trust = s.trust ∧ (f s x).sys.up = s.sys.up)
    (l : List α) (s : State) : (l.foldl f s).trust = s.trust ∧ (l.foldl f s).sys.up = s.sys.up := by
  induction l generalizing s with
  | nil => exact ⟨rfl, rfl⟩
  | cons x l ih =>
    obtain ⟨htrust, hup⟩ := ih (f s x)
    rw [List.foldl_cons, htrust, hup]
    exact h s x

/-! ### Journal, audit, registers -/

@[simp] theorem State.applySubst_trust_up (s : State) (x : Subst) :
    (s.applySubst x).trust = s.trust ∧ (s.applySubst x).sys.up = s.sys.up := by
  unfold State.applySubst
  repeat' split
  all_goals simp

@[simp] theorem State.refreshFill_trust_up (s : State) : s.refreshFill.trust = s.trust ∧ s.refreshFill.sys.up = s.sys.up := ⟨rfl, rfl⟩

@[simp] theorem State.checkpoint_trust_up (s : State) : s.checkpoint.trust = s.trust ∧ s.checkpoint.sys.up = s.sys.up := ⟨rfl, rfl⟩

@[simp] theorem State.jWrite_trust_up (s : State) (kind phase target spare arg : Nat) :
    (s.jWrite kind phase target spare arg).trust = s.trust ∧ (s.jWrite kind phase target spare arg).sys.up = s.sys.up := by
  simp [State.jWrite]

@[simp] theorem State.completeSubst_trust_up (s : State) (r : JRec) :
    (s.completeSubst r).trust = s.trust ∧ (s.completeSubst r).sys.up = s.sys.up := by
  simp [State.completeSubst]

@[simp] theorem State.setEpoch_trust_up (s : State) (t e : Nat) :
    (s.setEpoch t e).trust = s.trust ∧ (s.setEpoch t e).sys.up = s.sys.up := ⟨rfl, rfl⟩

@[simp] theorem State.auditFallback_trust_up (s : State) (kind slot : Nat) :
    (s.auditFallback kind slot).trust = s.trust ∧ (s.auditFallback kind slot).sys.up = s.sys.up := by
  simp [State.auditFallback]

@[simp] theorem State.earlyRegs_trust_up (s : State) (c : List Byte) :
    (s.earlyRegs c).trust = s.trust ∧ (s.earlyRegs c).sys.up = s.sys.up := by
  simp only [State.earlyRegs, State.setReg_trust, State.setFld_trust, State.setReg_sys, State.setFld_sys, and_self]

/-! ### Power domains, rims, the hot set and the allowance -/

@[simp] theorem State.setDomain_trust_up (s : State) (d : Nat) (on : Bool) :
    (s.setDomain d on).trust = s.trust ∧ (s.setDomain d on).sys.up = s.sys.up := ⟨rfl, rfl⟩

@[simp] theorem State.domainUp_trust_up (s : State) (d : Nat) : (s.domainUp d).trust = s.trust ∧ (s.domainUp d).sys.up = s.sys.up := by
  simp [State.domainUp]

@[simp] theorem State.setRimOn_trust_up (s : State) (d : Nat) :
    (s.setRimOn d).trust = s.trust ∧ (s.setRimOn d).sys.up = s.sys.up := ⟨rfl, rfl⟩

@[simp] theorem State.setStatus_trust_up (s : State) (p : Nat) (f : Fld) (v : Nat) :
    (s.setStatus p f v).trust = s.trust ∧ (s.setStatus p f v).sys.up = s.sys.up := ⟨rfl, rfl⟩

@[simp] theorem State.setPipe_trust_up (s : State) (p : Nat) (x : Pipe) :
    (s.setPipe p x).trust = s.trust ∧ (s.setPipe p x).sys.up = s.sys.up := ⟨rfl, rfl⟩

@[simp] theorem State.unpin_trust_up (s : State) (i : Nat) : (s.unpin i).trust = s.trust ∧ (s.unpin i).sys.up = s.sys.up := ⟨rfl, rfl⟩

@[simp] theorem State.hotDrop_trust_up (s : State) (i : Nat) : (s.hotDrop i).trust = s.trust ∧ (s.hotDrop i).sys.up = s.sys.up := ⟨rfl, rfl⟩

@[simp] theorem State.makeRoom_trust_up (n : Nat) (s : State) (i : Nat) :
    (State.makeRoom n s i).1.trust = s.trust ∧ (State.makeRoom n s i).1.sys.up = s.sys.up := by
  induction n generalizing s with
  | zero => exact ⟨rfl, rfl⟩
  | succ n ih =>
    unfold State.makeRoom
    dsimp only
    repeat' split
    all_goals simp [ih]

@[simp] theorem State.addFall_trust_up (s : State) (ma : Nat) :
    (s.addFall ma).trust = s.trust ∧ (s.addFall ma).sys.up = s.sys.up := ⟨rfl, rfl⟩

@[simp] theorem State.takeHold_trust_up (s : State) (r : AlwReq) :
    (s.takeHold r).trust = s.trust ∧ (s.takeHold r).sys.up = s.sys.up := ⟨rfl, rfl⟩

@[simp] theorem State.queued_trust_up (s : State) (r : AlwReq) : (s.queued r).trust = s.trust ∧ (s.queued r).sys.up = s.sys.up := ⟨rfl, rfl⟩

@[simp] theorem State.startGrant_trust_up (s : State) (r : AlwReq) :
    (s.startGrant r).trust = s.trust ∧ (s.startGrant r).sys.up = s.sys.up := by
  simp [State.startGrant]

@[simp] theorem State.pace_trust_up (s : State) (be test : Nat) :
    (s.pace be test).trust = s.trust ∧ (s.pace be test).sys.up = s.sys.up := ⟨rfl, rfl⟩

@[simp] theorem State.reclaim_trust_up (s : State) : s.reclaim.trust = s.trust ∧ s.reclaim.sys.up = s.sys.up := by
  simp [State.reclaim]

@[simp] theorem State.alwRequest_trust_up (s : State) (r : AlwReq) :
    (s.alwRequest r).trust = s.trust ∧ (s.alwRequest r).sys.up = s.sys.up := by
  simp [State.alwRequest]

@[simp] theorem State.startLoad_trust_up (s : State) (i : Nat) : (s.startLoad i).trust = s.trust ∧ (s.startLoad i).sys.up = s.sys.up := by
  simp [State.startLoad]

@[simp] theorem State.reclaimMore_trust_up (s : State) : s.reclaimMore.trust = s.trust ∧ s.reclaimMore.sys.up = s.sys.up := by
  simp [State.reclaimMore]

@[simp] theorem State.reclass_trust_up (s : State) (i : Nat) : (s.reclass i).trust = s.trust ∧ (s.reclass i).sys.up = s.sys.up := ⟨rfl, rfl⟩

@[simp] theorem State.hotRetry_trust_up (s : State) : s.hotRetry.trust = s.trust ∧ s.hotRetry.sys.up = s.sys.up := by
  simp [State.hotRetry]

/-! ### Host bridge, knots and Causeway -/

@[simp] theorem State.refuse_trust_up (s : State) : s.refuse.trust = s.trust ∧ s.refuse.sys.up = s.sys.up := by
  simp [State.refuse]

@[simp] theorem State.noteRim_trust_up (s : State) (d : Nat) : (s.noteRim d).trust = s.trust ∧ (s.noteRim d).sys.up = s.sys.up := ⟨rfl, rfl⟩

@[simp] theorem State.rimRefuse_trust_up (s : State) (d : Nat) : (s.rimRefuse d).trust = s.trust ∧ (s.rimRefuse d).sys.up = s.sys.up := by
  simp [State.rimRefuse]

@[simp] theorem State.dmaGate_trust_up {f : State → State} (h : ∀ s, (f s).trust = s.trust ∧ (f s).sys.up = s.sys.up) (s : State) (a n : Nat) :
    (s.dmaGate a n f).trust = s.trust ∧ (s.dmaGate a n f).sys.up = s.sys.up := by
  unfold State.dmaGate
  repeat' split
  all_goals simp [h]

@[simp] theorem State.bridgeError_trust_up (s : State) (kind fn addr origin count : Nat) :
    (s.bridgeError kind fn addr origin count).trust = s.trust ∧ (s.bridgeError kind fn addr origin count).sys.up = s.sys.up := by
  simp [State.bridgeError]

@[simp] theorem State.discardPage_trust_up (s : State) (p : PfPage) :
    (s.discardPage p).trust = s.trust ∧ (s.discardPage p).sys.up = s.sys.up := by
  simp [State.discardPage]

@[simp] theorem State.discardPages_trust_up (s : State) (t : PfPage → Bool) :
    (s.discardPages t).trust = s.trust ∧ (s.discardPages t).sys.up = s.sys.up := by
  simp [State.discardPages]

@[simp] theorem State.windowRefuse_trust_up (s : State) : s.windowRefuse.trust = s.trust ∧ s.windowRefuse.sys.up = s.sys.up := by
  simp [State.windowRefuse]

@[simp] theorem State.bridgePost_trust_up (s : State) (a : Nat) (bs : List Byte) :
    (s.bridgePost a bs).trust = s.trust ∧ (s.bridgePost a bs).sys.up = s.sys.up := by
  simp [State.bridgePost]

@[simp] theorem State.bridgeWrite_trust_up (s : State) (a : Nat) (bs : List Byte) :
    (s.bridgeWrite a bs).trust = s.trust ∧ (s.bridgeWrite a bs).sys.up = s.sys.up := by
  simp [State.bridgeWrite]

@[simp] theorem State.store_trust_up (s : State) (a : Nat) (bs : List Byte) :
    (s.store a bs).trust = s.trust ∧ (s.store a bs).sys.up = s.sys.up := by
  simp [State.store]

@[simp] theorem State.mirror_trust_up (s : State) (k : Nat) : (s.mirror k).trust = s.trust ∧ (s.mirror k).sys.up = s.sys.up := by
  unfold State.mirror
  split <;> simp

@[simp] theorem State.setKnot_trust_up (s : State) (k v : Nat) : (s.setKnot k v).trust = s.trust ∧ (s.setKnot k v).sys.up = s.sys.up := by
  simp [State.setKnot]

@[simp] theorem State.knotSaturated_trust_up (s : State) (k : Nat) :
    (s.knotSaturated k).trust = s.trust ∧ (s.knotSaturated k).sys.up = s.sys.up := by
  simp [State.knotSaturated]

@[simp] theorem State.knotAdd_trust_up (s : State) (k v : Nat) : (s.knotAdd k v).trust = s.trust ∧ (s.knotAdd k v).sys.up = s.sys.up := by
  simp [State.knotAdd]

@[simp] theorem State.knotSet_trust_up (s : State) (k v : Nat) : (s.knotSet k v).trust = s.trust ∧ (s.knotSet k v).sys.up = s.sys.up := by
  simp [State.knotSet]

@[simp] theorem State.setPeer_trust_up (s : State) (i : Nat) (p : Peer) :
    (s.setPeer i p).trust = s.trust ∧ (s.setPeer i p).sys.up = s.sys.up := ⟨rfl, rfl⟩

@[simp] theorem State.touchKey_trust_up (s : State) (tenant i : Nat) :
    (s.touchKey tenant i).trust = s.trust ∧ (s.touchKey tenant i).sys.up = s.sys.up := by
  simp [State.touchKey]

@[simp] theorem State.transmit_trust_up (s : State) (i : Nat) (f : Frame) :
    (s.transmit i f).trust = s.trust ∧ (s.transmit i f).sys.up = s.sys.up := by
  unfold State.transmit
  split <;> simp

@[simp] theorem State.wire_trust_up (s : State) (i : Nat) (f : Frame) : (s.wire i f).trust = s.trust ∧ (s.wire i f).sys.up = s.sys.up := by
  simp [State.wire]

@[simp] theorem State.hold_trust_up (s : State) (i : Nat) (f : Frame) : (s.hold i f).trust = s.trust ∧ (s.hold i f).sys.up = s.sys.up := by
  simp [State.hold]

@[simp] theorem State.send_trust_up (s : State) (i : Nat) (f : Frame) : (s.send i f).trust = s.trust ∧ (s.send i f).sys.up = s.sys.up := by
  simp [State.send]

@[simp] theorem State.sendKnot_trust_up (s : State) (dev knot op value tenant : Nat) :
    (s.sendKnot dev knot op value tenant).trust = s.trust ∧ (s.sendKnot dev knot op value tenant).sys.up = s.sys.up := by
  unfold State.sendKnot
  split <;> simp

@[simp] theorem State.signal_trust_up (s : State) (n : Nat) (d : List Nat) :
    (s.signal n d).trust = s.trust ∧ (s.signal n d).sys.up = s.sys.up := by
  simp [State.signal]

/-! ### Rings, jobs and the cores they run on -/

@[simp] theorem State.writeStatus_trust_up (s : State) (n : Nat) :
    (s.writeStatus n).trust = s.trust ∧ (s.writeStatus n).sys.up = s.sys.up := by
  simp [State.writeStatus]

@[simp] theorem State.retired_trust_up (s : State) (n seq : Nat) :
    (s.retired n seq).trust = s.trust ∧ (s.retired n seq).sys.up = s.sys.up := by
  simp [State.retired]

@[simp] theorem State.msix_trust_up (s : State) (fn vec : Nat) : (s.msix fn vec).trust = s.trust ∧ (s.msix fn vec).sys.up = s.sys.up := by
  simp [State.msix]

@[simp] theorem State.ringInterrupt_trust_up (s : State) (v vec : Nat) :
    (s.ringInterrupt v vec).trust = s.trust ∧ (s.ringInterrupt v vec).sys.up = s.sys.up := by
  simp [State.ringInterrupt]

@[simp] theorem State.frozenCheck_trust_up (s : State) (v : Nat) :
    (s.frozenCheck v).trust = s.trust ∧ (s.frozenCheck v).sys.up = s.sys.up := by
  simp [State.frozenCheck]

@[simp] theorem State.quiesced_trust_up (s : State) (v : Nat) : (s.quiesced v).trust = s.trust ∧ (s.quiesced v).sys.up = s.sys.up := by
  simp [State.quiesced]

@[simp] theorem State.noteRead_trust_up (s : State) (p n : Nat) :
    (s.noteRead p n).trust = s.trust ∧ (s.noteRead p n).sys.up = s.sys.up := by
  simp [State.noteRead]

@[simp] theorem State.fetchLoop_trust_up (k : Nat) (s : State) (n : Nat) :
    (State.fetchLoop k s n).trust = s.trust ∧ (State.fetchLoop k s n).sys.up = s.sys.up := by
  induction k generalizing s with
  | zero => exact ⟨rfl, rfl⟩
  | succ k ih => simp [State.fetchLoop, ih]

@[simp] theorem State.fetch_trust_up (s : State) (n : Nat) : (s.fetch n).trust = s.trust ∧ (s.fetch n).sys.up = s.sys.up := by
  simp [State.fetch]

@[simp] theorem State.finish_trust_up (s : State) (j : Job) (code detail flags : Nat) :
    (s.finish j code detail flags).trust = s.trust ∧ (s.finish j code detail flags).sys.up = s.sys.up := by
  simp [State.finish]

@[simp] theorem State.setFair_trust_up (s : State) (v : Nat) (c : Cls) (x : Nat) :
    (s.setFair v c x).trust = s.trust ∧ (s.setFair v c x).sys.up = s.sys.up := ⟨rfl, rfl⟩

@[simp] theorem State.raiseFair_trust_up (s : State) (v : Nat) (c : Cls) :
    (s.raiseFair v c).trust = s.trust ∧ (s.raiseFair v c).sys.up = s.sys.up := by
  unfold State.raiseFair
  repeat' split
  all_goals simp

@[simp] theorem State.enterReady_trust_up (s : State) (j : Job) :
    (s.enterReady j).trust = s.trust ∧ (s.enterReady j).sys.up = s.sys.up := by
  simp [State.enterReady]

theorem State.settleOne_trust_up {s t : State} (h : s.settleOne = some t) : t.trust = s.trust ∧ t.sys.up = s.sys.up := by
  unfold State.settleOne at h
  repeat' split at h
  all_goals cases h
  all_goals simp

@[simp] theorem State.settleLoop_trust_up (n : Nat) (s : State) :
    (State.settleLoop n s).trust = s.trust ∧ (State.settleLoop n s).sys.up = s.sys.up := by
  induction n generalizing s with
  | zero => exact ⟨rfl, rfl⟩
  | succ n ih =>
    unfold State.settleLoop
    split
    · exact ⟨rfl, rfl⟩
    · obtain ⟨h1, h2⟩ := State.settleOne_trust_up ‹_›
      rw [(ih _).1, (ih _).2, h1, h2]
      exact ⟨rfl, rfl⟩

@[simp] theorem State.settle_trust_up (s : State) : s.settle.trust = s.trust ∧ s.settle.sys.up = s.sys.up := by
  simp [State.settle]

@[simp] theorem State.wrapUp_trust_up (s : State) : s.wrapUp.trust = s.trust ∧ s.wrapUp.sys.up = s.sys.up := by
  simp [State.wrapUp]

@[simp] theorem State.liftCore_trust_up (s : State) (rank : Cls) (n : Nat) :
    (s.liftCore rank n).trust = s.trust ∧ (s.liftCore rank n).sys.up = s.sys.up := by
  unfold State.liftCore
  split <;> simp

@[simp] theorem State.yieldCores_trust_up (s : State) (j : Job) :
    (s.yieldCores j).trust = s.trust ∧ (s.yieldCores j).sys.up = s.sys.up := by
  simp [State.yieldCores]

@[simp] theorem State.preempt_trust_up (s : State) (v : Job) (rank : Cls) :
    (s.preempt v rank).trust = s.trust ∧ (s.preempt v rank).sys.up = s.sys.up := by
  simp [State.preempt]

@[simp] theorem State.freezeMore_trust_up (s : State) : s.freezeMore.trust = s.trust ∧ s.freezeMore.sys.up = s.sys.up := by
  simp [State.freezeMore]

@[simp] theorem State.startCore_trust_up (s : State) (j : Job) (n : Nat) :
    (s.startCore j n).trust = s.trust ∧ (s.startCore j n).sys.up = s.sys.up := by
  simp only [State.startCore]
  repeat' split
  all_goals simp

@[simp] theorem State.sendRead_trust_up (s : State) (i tenant g len : Nat) (isSeal : Bool) (use : ReadFor) :
    (s.sendRead i tenant g len isSeal use).trust = s.trust ∧ (s.sendRead i tenant g len isSeal use).sys.up = s.sys.up := by
  simp [State.sendRead]

@[simp] theorem State.readRemote_trust_up (s : State) (tenant g len : Nat) (isSeal : Bool) (use : ReadFor) :
    (s.readRemote tenant g len isSeal use).1.trust = s.trust ∧ (s.readRemote tenant g len isSeal use).1.sys.up = s.sys.up := by
  simp only [State.readRemote]
  repeat' split
  all_goals simp

@[simp] theorem State.handOver_trust_up (s : State) (issuer a len : Nat) :
    (s.handOver issuer a len).1.trust = s.trust ∧ (s.handOver issuer a len).1.sys.up = s.sys.up := ⟨rfl, rfl⟩

@[simp] theorem State.holdRead_trust_up (s : State) (origin a len : Nat) (use : ReadFor) :
    (s.holdRead origin a len use).trust = s.trust ∧ (s.holdRead origin a len use).sys.up = s.sys.up := ⟨rfl, rfl⟩

@[simp] theorem State.checkerRead_trust_up (s : State) (k tenant g len : Nat) (isSeal : Bool) :
    (s.checkerRead k tenant g len isSeal).trust = s.trust ∧ (s.checkerRead k tenant g len isSeal).sys.up = s.sys.up := by
  simp [State.checkerRead]

@[simp] theorem State.sealReads_trust_up (s : State) (k : Nat) : (s.sealReads k).trust = s.trust ∧ (s.sealReads k).sys.up = s.sys.up := by
  unfold State.sealReads
  repeat' split
  all_goals simp

@[simp] theorem State.sealGranted_trust_up (s : State) (k : Nat) :
    (s.sealGranted k).trust = s.trust ∧ (s.sealGranted k).sys.up = s.sys.up := by
  simp [State.sealGranted]

@[simp] theorem State.assignSeals_trust_up (n : Nat) (s : State) :
    (State.assignSeals n s).trust = s.trust ∧ (State.assignSeals n s).sys.up = s.sys.up := by
  induction n generalizing s with
  | zero => exact ⟨rfl, rfl⟩
  | succ n ih =>
    unfold State.assignSeals
    split <;> simp [ih]

@[simp] theorem State.startSeals_trust_up (s : State) (j : Job) :
    (s.startSeals j).trust = s.trust ∧ (s.startSeals j).sys.up = s.sys.up := ⟨rfl, rfl⟩

@[simp] theorem State.startRun_trust_up (s : State) (j : Job) : (s.startRun j).trust = s.trust ∧ (s.startRun j).sys.up = s.sys.up := by
  simp [State.startRun]

@[simp] theorem State.coreGranted_trust_up (s : State) (n : Nat) :
    (s.coreGranted n).trust = s.trust ∧ (s.coreGranted n).sys.up = s.sys.up := by
  unfold State.coreGranted
  repeat' split
  all_goals simp

@[simp] theorem State.onGrant_trust_up (s : State) (h : Holder) : (s.onGrant h).trust = s.trust ∧ (s.onGrant h).sys.up = s.sys.up := by
  unfold State.onGrant
  split <;> simp

@[simp] theorem State.ask_trust_up (s : State) (r : AlwReq) : (s.ask r).trust = s.trust ∧ (s.ask r).sys.up = s.sys.up := by
  simp [State.ask]

@[simp] theorem State.takeForTest_trust_up (s : State) (n slot : Nat) :
    (s.takeForTest n slot).trust = s.trust ∧ (s.takeForTest n slot).sys.up = s.sys.up := by
  simp [State.takeForTest]

@[simp] theorem State.startTests_trust_up (s : State) : s.startTests.trust = s.trust ∧ s.startTests.sys.up = s.sys.up := by
  simp [State.startTests]

@[simp] theorem State.assignCmps_trust_up (n : Nat) (s : State) :
    (State.assignCmps n s).trust = s.trust ∧ (State.assignCmps n s).sys.up = s.sys.up := by
  induction n generalizing s with
  | zero => exact ⟨rfl, rfl⟩
  | succ n ih =>
    unfold State.assignCmps
    dsimp only
    split <;> simp [ih]

@[simp] theorem State.conclude_trust_up (s : State) : s.conclude.trust = s.trust ∧ s.conclude.sys.up = s.sys.up := by
  simp [State.conclude]

@[simp] theorem State.obtain_trust_up (s : State) (r : AlwReq) : (s.obtain r).trust = s.trust ∧ (s.obtain r).sys.up = s.sys.up := by
  simp [State.obtain]

/-! ### Pipes, channels, early view and Causeway -/

@[simp] theorem State.enablePipe_trust_up (s : State) (p : Nat) :
    (s.enablePipe p).trust = s.trust ∧ (s.enablePipe p).sys.up = s.sys.up := by
  simp [State.enablePipe]

@[simp] theorem State.setChan_trust_up (s : State) (n : Nat) (c : Chan) :
    (s.setChan n c).trust = s.trust ∧ (s.setChan n c).sys.up = s.sys.up := ⟨rfl, rfl⟩

@[simp] theorem State.modChan_trust_up (s : State) (n : Nat) (f : Chan → Chan) :
    (s.modChan n f).trust = s.trust ∧ (s.modChan n f).sys.up = s.sys.up := ⟨rfl, rfl⟩

@[simp] theorem State.enableChan_trust_up (s : State) (n : Nat) :
    (s.enableChan n).trust = s.trust ∧ (s.enableChan n).sys.up = s.sys.up := by
  simp [State.enableChan]

@[simp] theorem State.standCharge_trust_up (s : State) (h : Holder) :
    (s.standCharge h).trust = s.trust ∧ (s.standCharge h).sys.up = s.sys.up := ⟨rfl, rfl⟩

@[simp] theorem State.startEarly_trust_up (s : State) : s.startEarly.trust = s.trust ∧ s.startEarly.sys.up = s.sys.up := by
  unfold State.startEarly
  split <;> simp

@[simp] theorem State.startCauseway_trust_up (s : State) : s.startCauseway.trust = s.trust ∧ s.startCauseway.sys.up = s.sys.up := by
  unfold State.startCauseway
  split <;> simp

@[simp] theorem State.setRootEnd_trust_up (s : State) (u t : Nat) :
    (s.setRootEnd u t).trust = s.trust ∧ (s.setRootEnd u t).sys.up = s.sys.up := ⟨rfl, rfl⟩

@[simp] theorem State.drivePins_trust_up (s : State) : s.drivePins.trust = s.trust ∧ s.drivePins.sys.up = s.sys.up := ⟨rfl, rfl⟩

@[simp] theorem State.setPair_trust_up (s : State) (p : Nat) (x : Pair) :
    (s.setPair p x).trust = s.trust ∧ (s.setPair p x).sys.up = s.sys.up := ⟨rfl, rfl⟩

@[simp] theorem State.startPairs_trust_up (s : State) (b : BootRead) :
    (s.startPairs b).trust = s.trust ∧ (s.startPairs b).sys.up = s.sys.up := by
  simp [State.startPairs]

/-! ### Reports, darning and injection -/

@[simp] theorem State.pushWindow_trust_up (s : State) (src unit : Nat) :
    (s.pushWindow src unit).trust = s.trust ∧ (s.pushWindow src unit).sys.up = s.sys.up := ⟨rfl, rfl⟩

@[simp] theorem State.assertPins_trust_up (s : State) : s.assertPins.trust = s.trust ∧ s.assertPins.sys.up = s.sys.up := ⟨rfl, rfl⟩

@[simp] theorem State.react_trust_up (s : State) (src : Nat) (lasting : Bool) :
    (s.react src lasting).trust = s.trust ∧ (s.react src lasting).sys.up = s.sys.up := by
  simp [State.react]

@[simp] theorem State.reportLasting_trust_up (s : State) (src unit : Nat) :
    (s.reportLasting src unit).1.trust = s.trust ∧ (s.reportLasting src unit).1.sys.up = s.sys.up := by
  simp [State.reportLasting]

@[simp] theorem State.report_trust_up (s : State) (src unit : Nat) :
    (s.report src unit).trust = s.trust ∧ (s.report src unit).sys.up = s.sys.up := by
  simp [State.report]

@[simp] theorem State.memError_trust_up (s : State) (kind symbols origin addr : Nat) (r : RowId) :
    (s.memError kind symbols origin addr r).trust = s.trust ∧ (s.memError kind symbols origin addr r).sys.up = s.sys.up := by
  simp [State.memError]

@[simp] theorem State.memNote_trust_up (s : State) (kind : Nat) (read : Option (Nat × Nat)) (r : RowId) :
    (s.memNote kind read r).trust = s.trust ∧ (s.memNote kind read r).sys.up = s.sys.up := by
  unfold State.memNote State.takeFree
  cases read <;> simp

@[simp] theorem State.requestChannel_trust_up (s : State) (phys origin addr : Nat) (r : RowId) :
    (s.requestChannel phys origin addr r).trust = s.trust ∧ (s.requestChannel phys origin addr r).sys.up = s.sys.up := by
  simp [State.requestChannel]

@[simp] theorem State.dropRequests_trust_up (s : State) (p : AlwReq → Bool) :
    (s.dropRequests p).trust = s.trust ∧ (s.dropRequests p).sys.up = s.sys.up := ⟨rfl, rfl⟩

@[simp] theorem State.dropGrants_trust_up (s : State) (p : Grant → Bool) :
    (s.dropGrants p).trust = s.trust ∧ (s.dropGrants p).sys.up = s.sys.up := ⟨rfl, rfl⟩

@[simp] theorem State.alwDrop_trust_up (s : State) (h : Holder) :
    (s.alwDrop h).trust = s.trust ∧ (s.alwDrop h).sys.up = s.sys.up := ⟨rfl, rfl⟩

@[simp] theorem State.dropChecks_trust_up (s : State) (j : Job) :
    (s.dropChecks j).trust = s.trust ∧ (s.dropChecks j).sys.up = s.sys.up := by
  simp [State.dropChecks]

@[simp] theorem State.addReg_trust_up (s : State) (k n : Nat) :
    (s.addReg k n).trust = s.trust ∧ (s.addReg k n).sys.up = s.sys.up := ⟨rfl, rfl⟩

@[simp] theorem State.charge_trust_up (s : State) (v : Nat) (c : Cls) (ns : Nat) :
    (s.charge v c ns).trust = s.trust ∧ (s.charge v c ns).sys.up = s.sys.up := by
  simp [State.charge]

@[simp] theorem State.releaseCore_trust_up (s : State) (n : Nat) :
    (s.releaseCore n).trust = s.trust ∧ (s.releaseCore n).sys.up = s.sys.up := by
  simp [State.releaseCore]

@[simp] theorem State.stopCore_trust_up (s : State) (j : Job) (n : Nat) :
    (s.stopCore j n).trust = s.trust ∧ (s.stopCore j n).sys.up = s.sys.up := by
  simp [State.stopCore]

@[simp] theorem State.stopCores_trust_up (s : State) (j : Job) : (s.stopCores j).trust = s.trust ∧ (s.stopCores j).sys.up = s.sys.up := by
  simp [State.stopCores]

@[simp] theorem State.haltJob_trust_up (s : State) (j : Job) : (s.haltJob j).trust = s.trust ∧ (s.haltJob j).sys.up = s.sys.up := by
  simp [State.haltJob]

@[simp] theorem State.endJob_trust_up (s : State) (ring seq code detail : Nat) :
    (s.endJob ring seq code detail).trust = s.trust ∧ (s.endJob ring seq code detail).sys.up = s.sys.up := by
  unfold State.endJob
  split <;> simp

@[simp] theorem State.backToReady_trust_up (s : State) (j : Job) (f : Job → Job) :
    (s.backToReady j f).trust = s.trust ∧ (s.backToReady j f).sys.up = s.sys.up := by
  simp [State.backToReady]

@[simp] theorem State.requeue_trust_up (s : State) (j : Job) : (s.requeue j).trust = s.trust ∧ (s.requeue j).sys.up = s.sys.up := by
  unfold State.requeue
  split <;> simp

@[simp] theorem State.unplace_trust_up (s : State) (j : Job) : (s.unplace j).trust = s.trust ∧ (s.unplace j).sys.up = s.sys.up := by
  simp [State.unplace]

@[simp] theorem State.pullJob_trust_up (s : State) (j : Job) : (s.pullJob j).trust = s.trust ∧ (s.pullJob j).sys.up = s.sys.up := by
  simp only [State.pullJob]
  repeat' split
  all_goals simp

@[simp] theorem State.stopTest_trust_up (s : State) (n : Nat) : (s.stopTest n).trust = s.trust ∧ (s.stopTest n).sys.up = s.sys.up := by
  simp [State.stopTest]

@[simp] theorem State.clearTest_trust_up (s : State) (n : Nat) : (s.clearTest n).trust = s.trust ∧ (s.clearTest n).sys.up = s.sys.up := by
  simp [State.clearTest]

@[simp] theorem State.checkReservations_trust_up (s : State) :
    s.checkReservations.trust = s.trust ∧ s.checkReservations.sys.up = s.sys.up := by
  simp [State.checkReservations]

@[simp] theorem State.evacuate_trust_up (s : State) (n : Nat) : (s.evacuate n).trust = s.trust ∧ (s.evacuate n).sys.up = s.sys.up := by
  unfold State.evacuate
  split <;> simp

@[simp] theorem State.setMode_trust_up (s : State) (n m : Nat) :
    (s.setMode n m).trust = s.trust ∧ (s.setMode n m).sys.up = s.sys.up := ⟨rfl, rfl⟩

@[simp] theorem State.coreOut_trust_up (s : State) (n : Nat) : (s.coreOut n).trust = s.trust ∧ (s.coreOut n).sys.up = s.sys.up := by
  simp [State.coreOut]

@[simp] theorem State.jAudit_trust_up (s : State) (result target spare : Nat) :
    (s.jAudit result target spare).trust = s.trust ∧ (s.jAudit result target spare).sys.up = s.sys.up := by
  simp [State.jAudit]

@[simp] theorem State.jBeginOp_trust_up (s : State) (kind target spare arg : Nat) (ok : Bool) :
    (s.jBeginOp kind target spare arg ok).1.trust = s.trust ∧ (s.jBeginOp kind target spare arg ok).1.sys.up = s.sys.up := by
  unfold State.jBeginOp
  split <;> simp

@[simp] theorem State.beginCore_trust_up (s : State) (n : Nat) (jrnl : Bool) :
    (s.beginCore n jrnl).1.trust = s.trust ∧ (s.beginCore n jrnl).1.sys.up = s.sys.up := by
  simp only [State.beginCore]
  repeat' split
  all_goals simp

@[simp] theorem State.darnCore_trust_up (s : State) (n : Nat) (jrnl : Bool) :
    (s.darnCore n jrnl).trust = s.trust ∧ (s.darnCore n jrnl).sys.up = s.sys.up := by
  simp [State.darnCore]

@[simp] theorem State.failCore_trust_up (s : State) (phys : Nat) (jrnl : Bool) :
    (s.failCore phys jrnl).trust = s.trust ∧ (s.failCore phys jrnl).sys.up = s.sys.up := by
  unfold State.failCore
  split <;> simp

@[simp] theorem State.failInjected_trust_up (s : State) (jrnl : Bool) (u : InjUnit) :
    (s.failInjected jrnl u).trust = s.trust ∧ (s.failInjected jrnl u).sys.up = s.sys.up := by
  unfold State.failInjected
  split <;> simp

@[simp] theorem State.startInjection_trust_up (s : State) (b : BootRead) :
    (s.startInjection b).trust = s.trust ∧ (s.startInjection b).sys.up = s.sys.up := by
  simp [State.startInjection]

end Sys2Proof.Machine

/-! SUPPORT. The start of the device: what BOOT_COUNT becomes, who lives, and when it runs. -/

namespace Sys2Proof.Machine

/-! ### Before power is applied: BOOT_COUNT stays, and nothing runs (R479, R497) -/

section

variable (s : State) (b : BootRead)

theorem State.unswitch_boots (r : JRec) : (s.unswitch r).trust.store.boots = s.trust.store.boots := by
  rw [State.unswitch, (State.jWrite_trust_up ..).1]
  rfl

theorem State.unswitch_up (r : JRec) : (s.unswitch r).sys.up = s.sys.up := by
  rw [State.unswitch, (State.jWrite_trust_up ..).2]
  rfl

/-- An operation resolved at start leaves BOOT_COUNT. -/
theorem State.resolveOp_boots_up (r : JRec) :
    (s.resolveOp b r).trust.store.boots = s.trust.store.boots ∧ (s.resolveOp b r).sys.up = s.sys.up := by
  unfold State.resolveOp
  repeat' split
  all_goals simp [State.unswitch_boots, State.unswitch_up, State.completeSwitch, State.modStore, State.setTenant]

theorem State.foldl_resolveOp_boots_up (l : List JRec) (s : State) :
    (l.foldl (fun a r => a.resolveOp b r) s).trust.store.boots = s.trust.store.boots ∧
    (l.foldl (fun a r => a.resolveOp b r) s).sys.up = s.sys.up := by
  induction l generalizing s with
  | nil => exact ⟨rfl, rfl⟩
  | cons r l ih =>
    obtain ⟨hboots, hup⟩ := ih (s.resolveOp b r)
    rw [List.foldl_cons, hboots, hup]
    exact s.resolveOp_boots_up b r

theorem State.startJournal_boots_up :
    (s.startJournal b).trust.store.boots = s.trust.store.boots ∧ (s.startJournal b).sys.up = s.sys.up := by
  unfold State.startJournal
  split
  · simp [State.foldl_resolveOp_boots_up]
  · simp

theorem State.runKind_store_up (kind : Nat) (x : Nat × List Byte) :
    (s.runKind kind x).trust.store = s.trust.store ∧ (s.runKind kind x).trust.tenants = s.trust.tenants ∧ (s.runKind kind x).sys.up = s.sys.up :=
  ⟨rfl, rfl, rfl⟩

theorem State.startRecord_boots_up :
    (s.startRecord b).trust.store.boots = s.trust.store.boots ∧ (s.startRecord b).sys.up = s.sys.up := by
  unfold State.startRecord
  split
  · exact ⟨rfl, rfl⟩
  · simp [State.runKind_store_up]

/-- Where RPMB is read BOOT_COUNT is one more. -/
theorem State.startCount_boots (h : b.rpmb = true) : (s.startCount b).trust.store.boots = s.trust.store.boots + 1 := by
  simp [State.startCount, h, State.modStore]

end

/-! ### Power (R497 step 7) -/

/-- What was put, unless the default, is read back from any table. -/
theorem Sparse.get_put_ne_default {α : Type} [DecidableEq α] {d : Nat → α} {k : Nat} {v : α} (h : v ≠ d k) (m : Sparse α) :
    Sparse.get d k (Sparse.put d k v m) = v := by
  induction m with
  | nil => simp [Sparse.put, Sparse.get, h]
  | cons e m ih =>
    obtain ⟨j, w⟩ := e
    simp only [Sparse.put, h, if_false]
    by_cases hlt : k < j
    · simp [Sparse.get, hlt]
    · by_cases heq : k = j
      · simp [Sparse.get, heq]
      · simp [Sparse.get, hlt, heq, ih]

theorem State.tenant_setTenant {s : State} {n : Nat} {x : Tenant} (h : x ≠ {}) : (s.setTenant n x).tenant n = x := Sparse.get_put_ne_default h _

theorem State.setTenant_store_up (s : State) (n : Nat) (x : Tenant) :
    (s.setTenant n x).trust.store = s.trust.store ∧ (s.setTenant n x).sys.up = s.sys.up := ⟨rfl, rfl⟩

/-- Standing charges, domains and rims: the first part of `startPower`. -/
def State.powerOn (s : State) : State :=
  let s1 : State := { s with alw := { s.alw with
    grants := s.alw.grants ++ [.selvage, .safetyPair 0, .safetyPair 1, .refresh, .jobEngine].map standingGrant } }
  let s2 := (startDomains ++ (List.range 128).map s.coreDomain).foldl State.domainUp s1
  startRims.foldl State.setRimOn (s2.obtain (s2.unitReq .ufs .lc none 0))

/-- The root leases. -/
def State.leasesOn (s : State) (l : List Nat) : State := l.foldl (fun a u => a.setRootEnd u (a.now + rootLength)) s

/-- The hardware timer and the clock's lock. -/
def State.timerOn (s : State) : State :=
  ({ s with watch := { s.watch with hwEnd := s.now + hwLength, edgeAt := s.now } } : State).setFld Reg.TIME_STATUS Fd.TIME_STATUS_LOCKED 1

theorem State.startPower_eq (s : State) :
    s.startPower = (s.powerOn.leasesOn (List.range rootCount)).timerOn.setTenant 0x02 { state := 1 } := by
  rw [State.startPower, State.timerOn, State.leasesOn, State.powerOn]

theorem State.timerOn_trust_up (s : State) : s.timerOn.trust = s.trust ∧ s.timerOn.sys.up = s.sys.up := ⟨rfl, rfl⟩

theorem State.leasesOn_trust_up (s : State) (l : List Nat) : (s.leasesOn l).trust = s.trust ∧ (s.leasesOn l).sys.up = s.sys.up :=
  State.foldl_trust_up (f := fun a u => a.setRootEnd u (a.now + rootLength)) (fun _ _ => ⟨rfl, rfl⟩) l s

theorem State.powerOn_trust_up (s : State) : s.powerOn.trust = s.trust ∧ s.powerOn.sys.up = s.sys.up := by
  unfold State.powerOn
  generalize startDomains ++ _ = domains
  generalize startRims = rims
  dsimp only
  rw [(State.foldl_trust_up State.setRimOn_trust_up _ _).1, (State.foldl_trust_up State.setRimOn_trust_up _ _).2,
    (State.obtain_trust_up ..).1, (State.obtain_trust_up ..).2]
  exact State.foldl_trust_up State.domainUp_trust_up _ _

/-- Applying power makes the hypervisor's tenant live, and nothing else of Selvage's tables changes. -/
theorem State.startPower_effect (s : State) :
    s.startPower.live 0x02 = true ∧ s.startPower.trust.store = s.trust.store ∧ s.startPower.sys.up = s.sys.up := by
  obtain ⟨htimer, htimerUp⟩ := (s.powerOn.leasesOn (List.range rootCount)).timerOn_trust_up
  obtain ⟨hleases, hleasesUp⟩ := s.powerOn.leasesOn_trust_up (List.range rootCount)
  obtain ⟨hpower, hpowerUp⟩ := s.powerOn_trust_up
  rw [State.startPower_eq]
  generalize (s.powerOn.leasesOn (List.range rootCount)).timerOn = t at htimer htimerUp
  obtain ⟨hstore, hup⟩ := t.setTenant_store_up 0x02 { state := 1 }
  have htrust : t.trust = s.trust := htimer.trans (hleases.trans hpower)
  have hlive : (t.setTenant 0x02 { state := 1 }).live 0x02 = true := by
    rw [State.live, State.tenant_setTenant (by decide)]
    rfl
  exact ⟨hlive, by rw [hstore, htrust], hup.trans (htimerUp.trans (hleasesUp.trans hpowerUp))⟩

/-! ### Images (R497 steps 9 and 10) -/

section

variable (s : State) (b : BootRead)

theorem State.startKind_store_up (kind : Nat) :
    (s.startKind b kind).trust.store = s.trust.store ∧ (s.startKind b kind).trust.tenants = s.trust.tenants ∧ (s.startKind b kind).sys.up = s.sys.up := by
  unfold State.startKind
  split
  · exact ⟨rfl, rfl, rfl⟩
  · simp [State.runKind_store_up]

theorem State.foldl_startKind_store_up (l : List Nat) (s : State) :
    (l.foldl (fun a k => a.startKind b k) s).trust.store = s.trust.store ∧ (l.foldl (fun a k => a.startKind b k) s).trust.tenants = s.trust.tenants ∧
    (l.foldl (fun a k => a.startKind b k) s).sys.up = s.sys.up := by
  induction l generalizing s with
  | nil => exact ⟨rfl, rfl, rfl⟩
  | cons k l ih =>
    obtain ⟨hstore, htenants, hup⟩ := ih (s.startKind b k)
    rw [List.foldl_cons, hstore, htenants, hup]
    exact s.startKind_store_up b k

theorem State.startHart_store_up :
    (s.startHart b).trust.store = s.trust.store ∧ (s.startHart b).trust.tenants = s.trust.tenants ∧ (s.startHart b).sys.up = s.sys.up := by
  unfold State.startHart
  repeat' split
  all_goals simp [State.runCore0, State.setHart]

theorem State.startImages_store_up :
    (s.startImages b).trust.store = s.trust.store ∧ (s.startImages b).trust.tenants = s.trust.tenants ∧ (s.startImages b).sys.up = s.sys.up := by
  unfold State.startImages
  split
  · dsimp only
    generalize (if b.failed.any isTimer = true then [5] else [3, 4, 5]) = kinds
    obtain ⟨hstore, htenants, hup⟩ := s.foldl_startKind_store_up b kinds
    simp [State.startHart_store_up, hstore, htenants, hup]
  · exact ⟨rfl, rfl, rfl⟩

end

/-! ### The start -/

section

variable (s : State) (b : BootRead)

/-- RPMB, the record and the journal are read. -/
def State.bootReads (s : State) (b : BootRead) : State := ((s.startCount b).startRecord b).startJournal b

/-- The part of a start that follows: power, links, early view, injection, images, pins. -/
def State.bootRuns (s : State) (b : BootRead) : State :=
  ((s.startPower.startCauseway.startEarly.startInjection b).startImages b).drivePins.conclude

/-- From here on the device counts as running. -/
def State.withUp (s : State) : State := { s with sys := { s.sys with up := true } }

theorem State.startRest_eq : s.startRest b = (s.bootReads b).withUp.bootRuns b := rfl

theorem State.bootReads_boots : (s.bootReads b).trust.store.boots = (s.startCount b).trust.store.boots := by
  rw [State.bootReads, (State.startJournal_boots_up _ b).1, (State.startRecord_boots_up _ b).1]

/-- The images' start, the pins and what waits keep what power gave. -/
theorem State.bootRuns_effect (h : s.sys.up = true) :
    (s.bootRuns b).sys.up = true ∧ (s.bootRuns b).live 0x02 = true ∧ (s.bootRuns b).trust.store = s.trust.store := by
  obtain ⟨hlive, hstore, hup⟩ := s.startPower_effect
  unfold State.bootRuns
  refine ⟨?_, ?_, ?_⟩
  · simp [State.startImages_store_up, hup, h]
  · rw [← hlive]
    simp [State.live, State.tenant, State.startImages_store_up]
  · simp [State.startImages_store_up, hstore]

/-- Once RPMB is read the device starts: it runs, the hypervisor lives, and BOOT_COUNT is that of `startCount`. -/
theorem State.startRest_effect :
    (s.startRest b).sys.up = true ∧ (s.startRest b).live 0x02 = true ∧ (s.startRest b).trust.store.boots = (s.startCount b).trust.store.boots := by
  obtain ⟨hup, hlive, hstore⟩ := (s.bootReads b).withUp.bootRuns_effect b rfl
  rw [State.startRest_eq]
  exact ⟨hup, hlive, (congrArg Store.boots hstore).trans (s.bootReads_boots b)⟩

/-- The start once a slot of kind 1 verifies: firmware below its floor stays in reset, any other runs. -/
theorem State.start_of_pick {x : Nat × List Byte} (hpuf : b.puf = true)
    (hpick : s.pickSlot b 1 (fun _ bs => imgGood 1 (2 ^ 21) none bs) = some x) : s.start b =
    if b.rpmb ∧ imgSvn x.2 < s.floor 1 then s.modStore (fun t => { t with boots := t.boots + 1, invalid := (2 + x.1) :: t.invalid })
    else (s.runKind 1 x).startRest b := by
  rw [State.start, hpuf, hpick]
  rfl

/-- The start with no good slot of kind 1. -/
theorem State.start_of_none (hpick : s.pickSlot b 1 (fun _ bs => imgGood 1 (2 ^ 21) none bs) = none) : s.start b = s := by
  rw [State.start, hpick]
  exact ite_self _

/-- The start without the root key. -/
theorem State.start_of_noKey (hpuf : b.puf = false) : s.start b = s := by
  rw [State.start, hpuf]
  rfl

/-- From reset the device starts exactly where the root key, the firmware and its floor allow. -/
theorem State.start_up_iff (hdown : s.sys.up = false) : (s.start b).sys.up = true ↔ b.puf = true ∧
    ∃ x, s.pickSlot b 1 (fun _ bs => imgGood 1 (2 ^ 21) none bs) = some x ∧ (b.rpmb = true → s.floor 1 ≤ imgSvn x.2) := by
  cases hpuf : b.puf with
  | false => simp [s.start_of_noKey b hpuf, hdown]
  | true =>
    cases hpick : s.pickSlot b 1 (fun _ bs => imgGood 1 (2 ^ 21) none bs) with
    | none => simp [s.start_of_none b hpick, hdown]
    | some x =>
      rw [s.start_of_pick b hpuf hpick]
      split
      case isTrue hbelow =>
        have hreset : (s.modStore (fun t => { t with boots := t.boots + 1, invalid := (2 + x.1) :: t.invalid })).sys.up = false := hdown
        simp [hreset, hbelow]
      case isFalse hfloor =>
        have hruns := (State.startRest_effect (s.runKind 1 x) b).1
        simpa [hruns] using hfloor

/-- What a start that succeeded leaves. -/
theorem State.start_effect (hdown : s.sys.up = false) (hup : (s.start b).sys.up = true) :
    (s.start b).live 0x02 = true ∧ (b.rpmb = true → (s.start b).trust.store.boots = s.trust.store.boots + 1) := by
  obtain ⟨hpuf, x, hpick, hfloor⟩ := (s.start_up_iff b hdown).mp hup
  obtain ⟨-, hlive, hboots⟩ := State.startRest_effect (s.runKind 1 x) b
  have hnot : ¬ (b.rpmb = true ∧ imgSvn x.2 < s.floor 1) := fun h => Nat.not_lt.mpr (hfloor h.1) h.2
  rw [s.start_of_pick b hpuf hpick, if_neg hnot]
  refine ⟨hlive, fun hrpmb => ?_⟩
  rw [hboots, State.startCount_boots _ b hrpmb, (State.runKind_store_up s 1 x).1]

end

/-- Settles O11: the release is the start, of the state with RESET_N high. -/
theorem resetReleaseStarts : Obligations.ResetReleaseStarts := by
  unfold Obligations.ResetReleaseStarts
  intro s b hdown hpwrok hreleased
  dsimp only
  have hexec : exec (.resetRelease b) s = .next (State.start { s with sys := { s.sys with resetN := true } } b) := by
    change execResetRelease b s = _
    rw [execResetRelease, hdown, hpwrok]
    exact congrArg Host.Outcome.next (if_pos hreleased)
  exact ⟨_, hexec, State.start_up_iff _ b hdown, fun hup => State.start_effect _ b hdown hup⟩

end Sys2Proof.Machine
